-- ==== Sys2Proof/Word.lean ====
section
/-! DEFINITION. The plain words of the model: bytes, sparse tables, raster times. -/

namespace Sys2Proof

/-- One byte of a frame, a picture memory page or a bulk value. -/
abbrev Byte := BitVec 8

/-- A sparse table: key and value pairs, keys strictly rising. -/
abbrev Tab (α : Type) := List (Nat × α)

/-- A raster time (R8): frame, line and phase of one raster domain. -/
structure RTime where
  frame : Nat
  line  : Nat
  phase : Nat
  deriving DecidableEq, Repr

end Sys2Proof
end

