-- ==== Sys2Proof/Media.lean ====
section
/-! DEFINITION. Pictures as samples and coded blocks as data: what the engine's media rules (chapters 04 to 09) speak of. A plane
is a list of lines, top first; a line is a list of samples. -/

namespace Sys2Proof

/-- A plane of samples. -/
abbrev Plane := List (List Nat)

/-- The colour description of a picture, by the code points of ITU-T H.273 (R210, R254). -/
structure Colour where
  primaries : Nat := 2
  transfer  : Nat := 2
  matrix    : Nat := 2
  full      : Bool := false
  /-- Location of chroma samples, as chroma_sample_loc_type gives it (R249). -/
  loc       : Nat := 0
  deriving DecidableEq, Repr, Inhabited

/-- A picture: displayed size in luma samples, bit depth, chroma format (0 4:2:0, 1 4:2:2, 2 4:4:4), whether its planes are R, G
and B, its planes in the order Y, Cb, Cr and, with alpha, A, and its colour. -/
structure Image where
  width  : Nat := 0
  height : Nat := 0
  depth  : Nat := 8
  chroma : Nat := 0
  rgb    : Bool := false
  planes : List Plane := []
  colour : Option Colour := none
  deriving DecidableEq, Repr, Inhabited

/-- A motion vector in quarter samples (AV1 eighths), its reference index and its cost (R172, R226). -/
structure Motion where
  ref  : Nat := 0
  x    : Int := 0
  y    : Int := 0
  cost : Nat := 0
  deriving DecidableEq, Repr, Inhabited

/-- How a 64 × 64 block is coded (R153, R155, R162, R163, R185, R195): intra or inter, whether in its brim form, whether a merge
or skip candidate predicts it, whether it uses samples of the block to its right above, its QP, the smallest partition in it,
the vectors of its 8 × 8 blocks in raster order, its motion field (the best vector of every 8 × 8 block for each reference, R172),
and the format's modes and coefficients. -/
structure BlockCode where
  intra   : Bool := false
  brim    : Bool := false
  merge   : Bool := false
  right   : Bool := false
  qp      : Int := 0
  small   : Nat := 64
  motion  : List Motion := []
  field   : List Motion := []
  residue : List Int := []
  deriving DecidableEq, Repr, Inhabited

/-- Coding tools that a preset or a profile may leave out (R155, the tool table of chapter 06). -/
inductive Tool where
  | amp | transformSkip | transform8 | cabac | bPictures | shapes41 | wiener | selfGuided | obmc | palette
  deriving DecidableEq, Repr

/-- How a preset decides modes (R155). -/
inductive Decision where
  | satd | rateDistortion (candidates : Nat) | fullRdoq
  deriving DecidableEq, Repr

/-- What a preset asks of a block's coding (R155): L2 window in luma samples to each side, starting candidates of L2, candidates
of the L0 refinement, steps of a vector in units of the format's finest, references, smallest partition, decision, tools. -/
structure Effort where
  windowX  : Nat
  windowY  : Nat
  starts   : Nat
  refined  : Nat
  step     : Nat
  refs     : Nat
  smallest : Nat
  decision : Decision
  tools    : List Tool
  deriving DecidableEq, Repr

/-- The unit that carries a row (R153). -/
inductive UnitKind where
  | independentSegment | dependentSegment | slice | tileGroup
  deriving DecidableEq, Repr

/-- Where the entropy state of a row comes from (R153): the row above after its second block, a fresh slice, a fresh tile. -/
inductive EntropyStart where
  | wavefront (state : List Byte) | perSlice | perTile
  deriving DecidableEq, Repr

/-- The header of a row's unit: its kind, format, address of its first block, blocks of a row, QP as it is signalled, entropy state at
its start, random-access point, bit depth. -/
structure UnitHead where
  kind    : UnitKind
  format  : Nat
  first   : Nat
  cols    : Nat
  qp      : Int
  entropy : EntropyStart
  rap     : Bool
  depth   : Nat
  deriving DecidableEq, Repr

/-- The reference decoder that a rung signals (R202, R203): bit rate, buffer in bits, cbr_flag, block rows as decoding units, frame
rate, and the initial removal delay in 90 kHz. -/
structure HrdSettings where
  bitRate : Nat
  buffer  : Nat
  cbr     : Bool
  subPic  : Bool
  rateNum : Nat
  rateDen : Nat
  delay   : Nat
  deriving DecidableEq, Repr

/-- What the parameter sets, or the sequence header, of a rung say (R151–R153, R155, R158, R202, R203): format, profile, level ×
10, tier, coded and displayed size (conformance window, cropping, or frame and render size), bit depth, references, depth of the
picture hierarchy, preset, whether wavefronts are used, colour, reference decoder. -/
structure ParamSettings where
  format  : Nat
  profile : Nat
  level   : Nat
  tier    : Nat
  codedW  : Nat
  codedH  : Nat
  width   : Nat
  height  : Nat
  depth   : Nat
  refs    : Nat
  gopB    : Nat
  preset  : Nat
  wpp     : Bool
  colour  : Colour
  hrd     : Option HrdSettings
  deriving DecidableEq, Repr

/-- What a cell codes a block from (R112): the microwords of the bank its picture started on, the rung's settings, its picture's class,
the row and block, the row's QP, the row's source, the references, the blocks above and before it, its starting vectors
(R172). No clock, no cell and no address is among them. -/
structure BlockTask where
  words    : List (Nat × Nat)
  settings : ParamSettings
  effort   : Effort
  cls      : Nat
  row      : Nat
  block    : Nat
  qp       : Int
  source   : Image
  refs     : List Image
  above    : List BlockCode
  before   : List BlockCode
  start    : List Motion
  deriving DecidableEq, Repr

/-- The messages of a preamble (R165, R177, R202, R258). -/
inductive Sei where
  | recoveryPoint (count : Nat) (exact : Bool)
  | mastering (metadata : List Byte)
  | bufferingPeriod (delay : Nat)
  | pictureTiming (removal output : Nat)
  deriving DecidableEq, Repr

/-- The frame header of an AV1 picture, or what a slice header repeats for every row: picture, type, base QP index, QP steps of
block offsets, references. -/
structure FrameHead where
  pic     : Nat
  cls     : Nat
  rap     : Bool
  qpIndex : Nat
  deltaQ  : Bool
  refs    : List Nat
  deriving DecidableEq, Repr

/-- What a decode row is decoded from (R112, R218): the microwords, the format, the size, the depth and number of its picture, the row,
the coded bytes of its picture's packets, its references, and the row above. -/
structure DecodeTask where
  words  : List (Nat × Nat)
  format : Nat
  width  : Nat
  height : Nat
  depth  : Nat
  number : Nat
  row    : Nat
  data   : List (List Byte)
  refs   : List Image
  above  : Image
  deriving DecidableEq, Repr

/-- A decoded row: its blocks, how many are intra, the vectors of the inter blocks in its top and bottom rows of 8 × 8 blocks, in
quarter samples, `none` for an intra block (R226), with their reference positions, and its samples. -/
structure DecodedRow where
  blocks  : Nat := 0
  intra   : Nat := 0
  top     : List (Option (Int × Int)) := []
  bottom  : List (Option (Int × Int)) := []
  topRef    : List Int := []
  bottomRef : List Int := []
  samples : Image := {}
  deriving DecidableEq, Repr, Inhabited

/-- A pixel of three 12-bit components (R104, R246). -/
structure Pixel where
  c0 : Nat := 0
  c1 : Nat := 0
  c2 : Nat := 0
  deriving DecidableEq, Repr, Inhabited

end Sys2Proof
end

