-- ==== Sys2Proof/Syntax.lean ====
section
/-! DEFINITION. The commands of the block: one constructor of `Instr` per row of the opcode table, with its operands. A
row's operands are what the sender gives (a frame, a value) or what the event meets outside the block (a measurement, the
outcome of a coding pass); the numbers of instances are bounded by their types. -/

namespace Sys2Proof

/-- The three nested roles (R41). -/
inductive Role where
  | observer | operator | admin
  deriving DecidableEq, Repr

/-- The scopes of R28. -/
inductive SwapScope where
  /-- The objects 0x2200+rd of one domain. -/
  | domain (rd : Fin 8)
  /-- The objects 0x3000–0x3BFF of one stream. -/
  | stream (sid : Fin 512)
  /-- The objects 0x6080+port and 0x6300+port. -/
  | port (p : Fin 128)
  /-- BANK_SELECT. -/
  | controlStore
  /-- Every other RWS object. -/
  | deviceGlobal
  deriving DecidableEq, Repr

/-- The transport of a PTP message (R18). -/
inductive PtpTransport where
  | udp4 | udp6
  deriving DecidableEq, Repr

/-- A PTP exchange of one master (R18): the port it comes on (255 the management port), its PTP domain number, its transport,
whether the master is a two-step one, its delay mechanism (0 end-to-end, 1 peer-to-peer); and what it makes of the engine's
PTP instance: PTP_STATE, the offset from the master in ns, the grandmaster identity, and, for a time update, the PTP time of
this cycle in ns after the SMPTE epoch. -/
structure PtpUpdate where
  port     : Nat
  domain   : Nat
  transport : PtpTransport
  twoStep  : Bool
  mech     : Nat
  state    : Nat
  offsetNs : Int
  gm       : Nat
  timeNs   : Option Nat
  deriving DecidableEq, Repr

/-- Where an IOP frame comes from, and where its answer goes (the transports of R46). -/
inductive Origin where
  /-- A UDP client; the number stands for its address and port. -/
  | udp (client : Nat)
  /-- The device address of a client on the fabric. -/
  | fabric (dev : Nat)
  | mailbox
  deriving DecidableEq, Repr

/-- An entry of a playlist (R68, R97). -/
structure PlaylistEntry where
  clip  : Nat
  start : RTime
  deriving DecidableEq, Repr

/-- What CLIP_STORE's indexing finds in the coded clip (R96): whether the source bytes are readable, the format (0 HEVC,
1 AVC, 2 AV1), profile, level × 10, bit depth and size of its sequence, its pictures, and the pictures that are
random-access points. -/
structure ClipMeet where
  readable : Bool
  format   : Nat
  profile  : Nat
  level    : Nat
  depth    : Nat
  width    : Nat
  height   : Nat
  pictures : Nat
  raps     : List Nat
  deriving DecidableEq, Repr

/-- Blocks `first` to `last` of a row that are damaged under R219. -/
structure Damage where
  row   : Nat
  first : Nat
  last  : Nat
  deriving DecidableEq, Repr

/-- A coded picture that begins: its sequence (format, profile, level × 10, bit depth, displayed size, buffer and reorder
depth), its display position, the pictures lost whole before it, the positions it refers to, whether it is a random-access
point, a CRA or RASL picture, the recovery count of its recovery point SEI with exact_match_flag 1, its PTS, for a
Chaec Link input its raster time, its colour description (R254), the mastering-display and content-light metadata with it, as the
28 bytes of HDR_META (R258), whether it is monochrome and whether film grain belongs to it (R210), whether it is a field picture or of
a sequence with fields (R208), the missing references whose position the syntax does not give (R232), and how its rows begin (R218): 0 at
an independent entry point, 1 at a wavefront substream, as where none is given, 2 in the midst of what the row above parses. Of a raw
picture, `format` is its layout (R267). -/
structure PicStart where
  format   : Nat
  profile  : Nat
  level    : Nat
  depth    : Nat
  width    : Nat
  height   : Nat
  dpb      : Nat
  reorder  : Nat
  position : Int
  lost     : Nat
  refs     : List Int
  rap      : Bool
  cra      : Bool
  rasl     : Bool
  recovery : Option Nat
  pts      : Nat
  at_      : Option RTime
  colour   : Option Colour := none
  hdr      : Option (List Byte) := none
  mono     : Bool := false
  grain    : Bool := false
  field    : Bool := false
  blind    : Nat := 0
  entries  : List Nat := []
  deriving DecidableEq, Repr

/-- A programme of a transport stream (R213): its program_number and its elementary streams, each by stream_type, PID and whether it has
the 'AV01' registration descriptor. -/
structure Programme where
  number  : Nat
  streams : List (Nat × Nat × Bool)
  deriving DecidableEq, Repr

/-- A packet of a decode input and what its payload says: sequence number (continuity_counter, SEQ), SSRC, rebuilt by
FEC, transport_error_indicator, a discontinuity of R238, L × (D + 1) of its FEC, the picture it begins, the rows whose
data it completes, the blocks that it shows damaged, a failed parse, the end of the picture, for raw video the lines
it completes, of a transport stream its PID, or the programmes that its PAT and PMT list, and its bytes: of RTP video from the RTP header on, of host raw video those of the picture. -/
structure InputPacket where
  seq        : Nat
  ssrc       : Nat := 0
  recovered  : Bool := false
  errored    : Bool := false
  discont    : Bool := false
  fecWindow  : Nat := 0
  start      : Option PicStart := none
  rows       : List Nat := []
  damage     : List Damage := []
  parseError : Bool := false
  ends       : Bool := false
  lines      : Nat := 0
  bytes      : List Byte := []
  pid        : Nat := 0
  programmes : Option (List Programme) := none
  deriving DecidableEq, Repr

/-- Who issues an access to HBM3 (R275, R278, R283). -/
inductive Master where
  | crownPort (cw : Fin 16)
  | queueEngine
  | conditioner (ic : Fin 8)
  | records
  | dma (ch : Fin 32)
  | bar2
  | firmware
  deriving DecidableEq, Repr

/-- A demand ACT (R288): pseudo-channel, bank and row. -/
structure DemandAct where
  pc   : Fin 64
  bank : Nat
  row  : Nat
  deriving DecidableEq, Repr

/-- What the controller meets in an access besides its data: bits of stored pages found changed since they were written
(page address and count), the on-die severity of R286 (0 none, 1 corrected, 2 uncorrected), the parity failures in a row
(4 means that the retries all failed), and the demand ACTs the access causes. -/
structure MemMeet where
  flips    : List (Nat × Nat)
  severity : Nat
  parity   : Nat
  acts     : List DemandAct
  deriving DecidableEq, Repr

/-- The fulled stores of R299. -/
inductive Fulled where
  | control (cw : Fin 16)
  | tables (engine : Fin 2)
  | security
  | dictionary
  deriving DecidableEq, Repr

/-- A writer of batts and queues (R311). A cell writes for a stream. -/
inductive Writer where
  | port (p : Fin 128)
  | cell (cc : Fin 128) (sid : Fin 512)
  | replication (sid : Fin 512)
  | dma
  | control
  deriving DecidableEq, Repr

/-- A training frame (R339): the sender's band lane index, its request for each FFE tap of the receiving end (C_PRE,
C_MAIN, C_POST; 0 HOLD, 1 INCREMENT, 2 DECREMENT), its status for each of its own taps (0 none, 1 UPDATED, 2 AT_LIMIT), the
receive polarity it has detected, and READY. -/
structure TrainingFrame where
  index    : Nat
  requests : List Nat
  status   : List Nat
  inverted : Bool
  ready    : Bool
  deriving DecidableEq, Repr

/-- A training frame as a lane receives it: whether it came inverted (R339). -/
structure TrainingArrival where
  frame    : TrainingFrame
  inverted : Bool
  deriving DecidableEq, Repr

/-- The limit of a WAIT on a cell, and the conditions of R134 that come from outside. -/
structure WaitEnd where
  cell : Fin 128
  ext  : Nat
  deriving DecidableEq, Repr

/-- What the neighbour sends for sealing in EXCHANGE or in a rekey (R351, R484): its ephemeral public key, the vendor root
public key, its IDENTITY_CERT, and its signature. -/
structure SealOffer where
  ephemeral : List Byte
  root      : List Byte
  cert      : List Byte
  signature : List Byte
  deriving DecidableEq, Repr

/-- A capability packet (R341). -/
structure Capability where
  serial   : Nat
  port     : Nat
  width    : Nat
  sealMode : Nat
  sealing  : Option SealOffer
  deriving DecidableEq, Repr

/-- The payload of a TIMING packet (R349); `rts` holds RT_0 to RT_7. -/
structure TimingPayload where
  seqT    : Nat
  prevTx  : Nat
  echoSeq : Nat
  echoRx  : Nat
  rts     : List RTime
  deriving DecidableEq, Repr

/-- An OFFER (R362, carding message 2). -/
structure CardOffer where
  epoch    : Nat
  root     : Nat
  dist     : Nat
  maxDepth : Nat
  addr     : Nat
  hbSeq    : Nat
  serial   : Nat
  deriving DecidableEq, Repr

/-- A COUNT (R363, carding message 4). -/
structure CardCounts where
  epoch   : Nat
  need    : Nat
  devices : Nat
  height  : Nat
  diam    : Nat
  deriving DecidableEq, Repr

/-- An ASSIGN (R365, carding message 5). -/
structure CardAssign where
  epoch    : Nat
  base     : Nat
  log2     : Nat
  devices  : Nat
  diameter : Nat
  maxDepth : Nat
  deriving DecidableEq, Repr

/-- A GRAFT (R371, carding message 7). -/
structure CardGraft where
  epoch : Nat
  block : Nat
  plen  : Nat
  role  : Nat
  port  : Nat
  deriving DecidableEq, Repr

/-- An ALTERNATE band gathered for a graft (R371): the far device's DIST and address, the near device's address, its
depth below this device, the near device's port of the band, and this device's band towards it (that band itself when the near
device is this one). -/
structure GraftBand where
  farDist  : Nat
  farAddr  : Nat
  nearAddr : Nat
  depth    : Nat
  nearPort : Fin 128
  toward   : Fin 128
  deriving DecidableEq, Repr

/-- A global operation (R393): what it does at AT. -/
inductive GlobalKind where
  | fabricSwap
  | snapshot (set : Nat)
  | broadcast (items : List Byte)
  deriving DecidableEq, Repr

/-- An announcement of a global operation (R394). -/
structure Announcement where
  opId : Nat
  at_  : RTime
  kind : GlobalKind
  deriving DecidableEq, Repr

/-- What the shadow compare reads in one slot (R388): the bits of each copy that read inverted, and whether each copy
and the shadow hold an uncorrectable byte. -/
structure CompareMeet where
  flip0     : Nat
  flip1     : Nat
  bad0      : Bool
  bad1      : Bool
  badShadow : Bool
  deriving DecidableEq, Repr

/-- What a host write without a row of its own names: an object with TYPE and value, a BAR 0 register by offset and
size, or a bit of configuration space. -/
inductive WriteTarget where
  | object (role : Role) (index sub ty : Nat) (value : List Byte)
  | bar0 (offset size value : Nat)
  | msixEnable (on : Bool)
  | functionMask (on : Bool)
  | pmeEnable (on : Bool)
  deriving DecidableEq, Repr

/-- Why the engine issues no request on the link (R416). -/
inductive BlockCause where
  | busMaster | d3hot | linkDown
  deriving DecidableEq, Repr

/-- What is unmasked (R441). -/
inductive MsixCond where
  | vector (v : Fin 64) | function | enable
  deriving DecidableEq, Repr

/-- A DMA descriptor's fields (R424). -/
structure Descriptor where
  control : Nat
  count   : Nat
  src     : Nat
  dst     : Nat
  next    : Nat
  deriving DecidableEq, Repr

/-- A fault message's fields (R444), and the STORE code of R302 of an on-chip error (0xF for any other message), by which
the collector chooses the action of R449. -/
structure FaultMsg where
  unit   : Nat
  kind   : Nat
  sev    : Nat
  acc    : Nat
  master : Nat
  addr   : Nat
  store  : Nat := 0xF
  deriving DecidableEq, Repr

/-- What ROW_WATCHDOG watches (R449): a cell, or a conditioner; the SID is that of the row or strip. -/
inductive Watched where
  | cell (cc : Fin 128) (sid : Fin 512)
  | conditioner (ic : Fin 8) (sid : Fin 512)
  deriving DecidableEq, Repr

/-- What a start-up step meets (R510): a failed self-test's island cause, pseudo-channels that failed initial training
three times. -/
structure StartMeet where
  selfTest : Option Nat
  untrained : List (Fin 64)
  deriving DecidableEq, Repr

/-- The commands and events of the BV9672, one constructor per row of the opcode table. -/
inductive Instr where
  -- Raster time and swap points
  | frameStart (rd : Fin 8)
  | lineMatch (rd : Fin 8)
  | rasterEventDue (rd : Fin 8)
  | refFrameEdge (pin : Fin 4) (falling : Bool)
  | edgeWindowClose (rd : Fin 8)
  | ptpMessage (u : PtpUpdate)
  | ptpStateLeavesSlave (newState : Nat)
  | holdoverTimeout (rd : Fin 8)
  | rasterJump (rd : Fin 8) (refFrame : Nat)
  | domainEnableWrite (role : Role) (rd : Fin 8) (v : Nat)
  | swapPoint (scope : SwapScope)
  | swapNow (scope : Nat)
  -- Object dictionary and IOP
  | hello (origin : Origin) (frame : List Byte)
  | prove (origin : Origin) (frame : List Byte)
  | request (origin : Origin) (frame : List Byte)
  | notifyAck (origin : Origin) (frame : List Byte)
  | close (origin : Origin) (frame : List Byte)
  | handshakeTimeout (session : Nat)
  | idleTimeout (session : Nat)
  | notifyResendTimeout (session seq : Nat)
  | commandResponseTimeout (code : Nat)
  | commandCompletion (code : Nat)
  | objectWrite (target : WriteTarget)
  | stickyClear (role : Role) (index sub : Nat)
  -- Streams, service classes and the Milliner
  | streamOpen (sid flags : Nat)
  | streamOpenDryRun (sid flags : Nat)
  | streamCloseAtSwap (sid : Nat)
  | streamCloseAtOnce (sid : Nat)
  | crownMaskWrite (role : Role) (sid : Fin 512) (v : Nat)
  | clipStore (clip source addr length : Nat) (meet : ClipMeet)
  | clipDelete (clip : Nat)
  | playlistSet (sid : Nat) (entries : List PlaylistEntry)
  | rowStart (cw : Fin 16) (k : Fin 8)
  | rowComplete (cw : Fin 16) (k : Fin 8)
  | depReady (cc : Fin 128) (blocks : Nat)
  -- Encoding and rate control
  | rapRequest (role : Role) (sid : Fin 512) (v : Nat)
  | rowCompletionDeadline (sid : Fin 512) (rung : Fin 8) (pic row cd : Nat)
  | pacedSlipExpiry (sid : Fin 512) (encode : Bool) (stage pic : Nat)
  | patPmtRepeatTimer (sid : Fin 512) (rung : Fin 8)
  -- Crowns and coding cells
  | mirrorWriteDone (cc : Fin 128)
  | memoryPortFillDone (cc : Fin 128)
  | cellOutOfService (role : Role) (cc : Fin 128) (v : Nat)
  | clockForceWrite (role : Role) (cw : Fin 16) (v : Nat)
  | crownPark (cw : Fin 16)
  | crownWakeDone (cw : Fin 16)
  | crownStepDone (cw : Fin 16)
  | crownDownHoldExpiry (cw : Fin 16)
  | crownReset (cw bistPass : Nat)
  -- Control stores and microcode images
  | mwJump (cc : Fin 128) (ext : Nat)
  | mwBr2 (cc : Fin 128) (ext : Nat)
  | mwBr4 (cc : Fin 128) (ext : Nat)
  | mwCall (cc : Fin 128) (ext : Nat)
  | mwReturn (cc : Fin 128) (ext : Nat)
  | mwWait (cc : Fin 128) (ext : Nat)
  | waitLimitExpiry (e : WaitEnd)
  | mwRowEnd (cc : Fin 128) (ext : Nat)
  | mwTrap (cc : Fin 128)
  | controlStoreWordRestore (cw : Fin 16) (bank : Fin 2) (addr : Nat)
  | bankSelectWrite (role : Role) (v : Nat)
  | microcodeLoad (cwMask bank source addr length : Nat)
  | patchLoad (source addr length : Nat)
  -- Decoding and error concealment
  | inputPacketArrival (port : Option (Fin 128)) (sid : Fin 512) (layer : Fin 16) (p : InputPacket)
  | gapDeclareTimeout (sid : Fin 512) (layer : Fin 16) (seq : Nat) (damage : List Damage)
  | decodeGiveup (sid : Fin 512) (layer : Fin 16) (pic row : Nat)
  | motionDecisionDeadline (sid : Fin 512) (layer : Fin 16) (pic row : Nat)
  | inputTimeout (sid : Fin 512) (layer : Fin 16)
  -- Conditioning and composition
  | rotationPassStart (ic : Fin 8) (sid : Fin 512) (pass : Nat)
  | stripWritten (ic : Fin 8) (sid : Fin 512) (pass pic strip corrected : Nat)
  | conditionerOutOfService (role : Role) (ic : Fin 8) (v : Nat)
  -- Picture memory and stored-data protection
  | regionCreate (region kind t base size : Nat)
  | regionDelete (region : Nat)
  | scrub (base size : Nat)
  | fuseRepairSram (addr : Nat) (macroFound spare readsBack : Bool)
  | fuseRepairHbm3Row (addr : Nat) (spare passes : Bool) (ns : Nat)
  | hbmWrite (m : Master) (addr : Nat) (data : List Byte) (meet : MemMeet)
  | hbmRead (m : Master) (addr len : Nat) (meet : MemMeet)
  | pageWriteBack (page : Nat)
  | refresh (stack : Fin 2)
  | lfsrReseed
  | hbmTemperatureRead (t0 t1 : Int)
  | retrainDue (pc : Fin 64)
  | retrainPauseStart (pc : Fin 64)
  | retrainEnd (pc : Fin 64) (passed : Bool) (ns : Nat)
  | sramCorrectionWriteback (loc : Nat)
  | fullingStep (st : Fulled) (flips : List (Nat × Nat))
  | pictureRegionWrite (role : Role) (v : Nat)
  -- Batts, pools and queues
  | poolEnableWrite (role : Role) (pool : Fin 16) (v : Nat)
  | minimumWrite (role : Role) (host : Bool) (inst : Fin 128) (v : Nat)
  | queueAppend (q : Fin 2048) (w : Writer) (pri : Fin 8) (data : List Byte)
  | battDecrement (batt : Nat)
  | cacheRefillDone (pool : Fin 16)
  | cacheSpillDone (pool : Fin 16)
  | replicationCopyDone
  | queueFlush (role : Role) (g : Fin 256) (mask : Nat)
  | queueSweepDone
  -- Serial lanes and Chaec Link
  | receiverDetectStep (lane : Fin 128) (found : Bool)
  | linkStagePass (p : Fin 128)
  | linkStageTimeout (p : Fin 128)
  | linkRetryBackoffExpiry (p : Fin 128)
  | trainingFrame (lane : Fin 128) (f : TrainingArrival)
  | alignBlock (lane : Fin 128) (index width skew : Nat)
  | capabilityPacket (p : Fin 128) (c : Capability)
  | fomMeasurement (lane : Fin 128) (fom : Fin 256)
  | blockLockLoss (lane : Fin 128) (hiBer : Bool)
  | blockLockGained (lane : Fin 128)
  | neighbourIdleTimeout (p : Fin 128)
  | pauseBlock (p : Fin 128) (mask : Nat)
  | pauseExpiry (p : Fin 128)
  | pauseRefreshTimer (p : Fin 128)
  | timingSendTimer (p : Fin 128)
  | timingPacket (p : Fin 128) (t : TimingPayload)
  | chaecPacketReceive (p : Fin 128) (packet : List Byte)
  | ethernetFrameReceive (p : Option (Fin 128)) (frame : List Byte)
  | rekeyTimer (p : Fin 128)
  | rekeyMessage (p : Fin 128) (offer : SealOffer)
  | rekeyTimeout (p : Fin 128)
  | oldKeyExpiry (p : Fin 128)
  | linkRetrain (port : Nat)
  | linkRetrainTimeout (p : Fin 128)
  | quadReset (qd power : Nat)
  | mgmtStateChange (up : Bool) (speed ipv4 : Nat)
  -- Fabric, carding and forwarding tables
  | fabricSwap (at_ : RTime)
  | snapshot (at_ : RTime) (set : Nat)
  | broadcast (at_ : RTime) (items : List Byte)
  | cardStart (mode : Nat)
  | cardRestart (p : Fin 128) (epoch : Nat)
  | cardOffer (p : Fin 128) (o : CardOffer)
  | offerSendTimer
  | cardChild (p : Fin 128) (epoch serial : Nat)
  | cardCount (p : Fin 128) (c : CardCounts)
  | cardQuietExpiry
  | cardAssign (p : Fin 128) (a : CardAssign)
  | cardJoin (p : Fin 128) (serial : Nat)
  | cardGraft (p : Fin 128) (g : CardGraft)
  | graftWaitExpiry (bands : List GraftBand)
  | heartbeatTick
  | heartbeatMiss
  | cardTimeoutExpiry
  | learnApply
  | agePass
  | shadowCompareStep (exact : Bool) (slot : Nat) (meet : CompareMeet)
  | tableSyncInsert (table base count : Nat)
  | tableSyncDelete (table base count : Nat)
  | tableSyncReplaceAll (table base count : Nat)
  | tableSyncDump (table base count : Nat)
  | globalAnnounce (p : Fin 128) (a : Announcement)
  | globalOpAct (opId : Nat)
  | globalConfirm (p : Fin 128) (opId applied : Nat)
  | globalOpTimeout (opId : Nat)
  -- Egress scheduling, shapers and gate lists
  | egressStart (p : Fin 128)
  | egressPacketEnd (p : Fin 128)
  | calendarSlot (p : Fin 128)
  | gateEntryBoundary (p : Fin 128)
  | gateApplyInstall (role : Role) (p : Fin 128)
  | gateApplyRemove (role : Role) (p : Fin 128)
  | gateChangeStart (p : Fin 128)
  -- PCIe host interface, DMA and interrupts
  | pcieFunctionReset
  | pcieRequestsBlocked (cause : BlockCause)
  | pcieRequestsAllowed (cause : BlockCause)
  | d0Return
  | msixUnmask (what : MsixCond)
  | bar2Access (offset : Nat) (read : Option Nat) (write : List Byte) (meet : MemMeet)
  | windowBaseWrite (v : Nat)
  | bar0MisuseAccess (offset size : Nat)
  | mbxDoorbell (length : Nat) (buffer : List Byte)
  | mbxCopyDone
  | mbxRelease
  | dmaRun (ch : Fin 32)
  | dmaStop (ch : Fin 32)
  | dmaClearError (ch : Fin 32)
  | dmaDoorbell (ch : Fin 32)
  | dmaDescriptorFetched (ch : Fin 32) (d : Option Descriptor) (hostData : List Byte) (meet : MemMeet)
  | dmaReadbackDone (ch : Fin 32)
  | dmaHostReadError (ch : Fin 32) (received : List Byte)
  | dmaQueuePacketReady (ch : Fin 32)
  | dmaBattAvailable (ch : Fin 32)
  | coalesceTimerExpiry (src : Fin 512)
  | claim (v : Fin 63)
  | complete (v : Fin 63) (src : Nat)
  | fastClaim
  | fastComplete (src : Nat)
  | srcCfgWrite (src : Fin 512) (v : Nat)
  | streamEvtClear (sid : Fin 512) (mask : Nat)
  -- Faults, sticky bits and recovery
  | faultMessage (m : Option FaultMsg)
  | rowWatchdogExpiry (w : Watched)
  | cpWatchdogExpiry
  | captureClear (role : Role)
  | stickyWrite (role : Role) (unit : Fin 1024) (v : Nat)
  | clearAll (role : Role) (v : Nat)
  -- Security island, secure boot and attestation
  | attest (nonce : List Byte)
  | debugToken (role : Role) (token : List Byte)
  | debugSeal (role : Role) (v : Nat)
  | ownerKeyHashWrite (role : Role) (hash : List Byte)
  | flashProgram (role : Role) (v : Nat)
  | flashProgramDone (readsBack : Bool)
  | islandWatchdogExpiry
  | trngHealthFailure
  | islandMonitorExcursion
  -- Power, clocks, reset and start-up
  | porstN (high : Bool) (bootPins : Fin 4)
  | wrstN (lowNs : Nat)
  | warmReset
  | warmResetDelayExpiry
  | railExcursion (rail : Fin 13)
  | pllLockLoss (pll : Fin 4)
  | railsBackWithinTolerance
  | startUpStep (meet : StartMeet)
  | avsReadbackTimeout (readMv : Nat)
  | thermalReading (temps : List Int)
  | conditionerHalfPowerUpDone (half : Fin 2)
  | conditionerHalfIdleExpiry (half : Fin 2)
  deriving DecidableEq, Repr

end Sys2Proof
end

