-- ==== Sys2Proof/Decode.lean ====
section
/-! DEFINITION. The commands that a word spells. No row of the opcode table has bits: every command reaches the block as a
frame, a packet, a register access or an event, whose bytes its own meaning reads. -/

namespace Sys2Proof

/-- The command that a word of `nbits` bits spells by the table's bits: none, since the table gives its rows no bits.
[DESIGN CHOICE, safe: log entry 2.] -/
def decodeTableWord (_nbits _w : Nat) : Option Instr := none

end Sys2Proof
end

