-- ==== Sys2Proof/Config.lean ====
section
/-! DEFINITION. What an implementation fixes and the spec leaves open: constants without a body (free values), so that no
proof can know them. Each is named in the assumption log. -/

namespace Sys2Proof.Config

/-- Free values: the n-th value that the spec leaves open, where a value of its own is needed each time.
[DESIGN CHOICE, safe: log entry 7.] -/
opaque free : Nat → Nat

/-- Rows of a bank of HBM3, in the stack's row address order (R288). [DESIGN CHOICE, unsafe: log entry 46.] -/
opaque rowsPerBank : Nat

/-- Random bytes: the n-th byte drawn from the TRNG or the DRBG (R468, R471). [DESIGN CHOICE, safe: log entry 8.] -/
opaque draw : Nat → Byte

/-- SHA-512 of a byte string, 64 bytes (FIPS 180-4). [DESIGN CHOICE, safe: log entry 8.] -/
opaque sha512 : List Byte → List Byte

/-- HMAC-SHA-512 of a message under a key (key first). [DESIGN CHOICE, safe: log entry 8.] -/
opaque hmac : List Byte → List Byte → List Byte

/-- ECDSA P-521 verification: public key, 64-byte digest, signature. [DESIGN CHOICE, safe: log entry 8.] -/
opaque ecdsaVerify : List Byte → List Byte → List Byte → Bool

/-- ECDSA P-521 signature by the device identity key over a 64-byte digest. [DESIGN CHOICE, safe: log entry 8.] -/
opaque ecdsaSign : List Byte → List Byte

/-- The vendor root public key, 133 bytes, whose hash the fuses hold (R469, R484). [DESIGN CHOICE, safe: log entry 8.] -/
opaque vendorRootKey : List Byte

/-- The public point of the P-521 key pair made from draw number n, 133 bytes. [DESIGN CHOICE, safe: log entry 8.] -/
opaque ecdhPublic : Nat → List Byte

/-- The 66-byte x-coordinate of the shared point of draw number n's private key and a public point.
[DESIGN CHOICE, safe: log entry 8.] -/
opaque ecdhShared : Nat → List Byte → List Byte

/-- HKDF-SHA-512: salt, input keying material, info, length. [DESIGN CHOICE, safe: log entry 8.] -/
opaque hkdf : List Byte → List Byte → List Byte → Nat → List Byte

/-- AES-256-GCM: the ciphertext and 16-byte tag of key block (key and salt), counter, associated data, plaintext.
[DESIGN CHOICE, safe: log entry 8.] -/
opaque gcmSeal : List Byte → Nat → List Byte → List Byte → List Byte

/-- AES-256-GCM: the plaintext of key block, counter, associated data, and ciphertext with tag; none when the tag fails.
[DESIGN CHOICE, safe: log entry 8.] -/
opaque gcmOpen : List Byte → Nat → List Byte → List Byte → Option (List Byte)

/-- transport_stream_id of the engine's transport streams, which R180 does not give. [PRESUMED, unsafe: log entry 18.] -/
opaque transportStreamId : Nat

/-- Neighbouring pairs of power domains that are not both crowns, lower number first; R503 leaves the floor plan open.
[DESIGN CHOICE, safe: log entry 63.] -/
opaque otherNeighbours : List (Nat × Nat)

/-- Clock of a power domain in MHz, where the spec does not give it (R497, R499). [DESIGN CHOICE, unsafe: log entry 64.] -/
opaque domainClock : Nat → Nat

/-- MTU of the path to a UDP client, a property of the network (R46). [DESIGN CHOICE, unsafe: log entry 83.] -/
opaque pathMtu : Nat → Nat

/-! ### Coding (R102, R112): the work of a cell's resources and of its microcode, which the spec does not give bit by bit, as functions
of all that it depends on. -/

/-- What a resource of a cell (0 ME, 1 XF, 2 IP, 3 LF, 4 EC) holds after an operation of its field, from its cell's store and
vector registers and what it held before (R102, R128). [DESIGN CHOICE, unsafe: log entry 84.] -/
opaque resource : Nat → Nat → List (Nat × Byte) → List (Nat × Nat) → Nat → Nat

/-- The decisions of the microcode for a block (R155). [DESIGN CHOICE, unsafe: log entry 85.] -/
opaque codeBlock : BlockTask → BlockCode

/-- The unit of a row: its header and its entropy-coded blocks (R153). [DESIGN CHOICE, unsafe: log entry 85.] -/
opaque codeUnit : UnitHead → List BlockCode → List Byte

/-- The entropy state after some blocks of a row (R153). [DESIGN CHOICE, unsafe: log entry 85.] -/
opaque entropyAfter : EntropyStart → List BlockCode → List Byte

/-- The reconstruction of a picture from its blocks, rows outermost, and its references.
[DESIGN CHOICE, unsafe: log entry 85.] -/
opaque reconstruct : ParamSettings → List (List BlockCode) → List Image → Image

/-- The cost of the L2 search of a row in pre-analysis (R195). [DESIGN CHOICE, unsafe: log entry 85.] -/
opaque searchCost : Image → List Image → Nat → Nat

/-- The syntax of parameter sets (R158, R177). [DESIGN CHOICE, unsafe: log entry 85.] -/
opaque paramSyntax : ParamSettings → List Byte

/-- The syntax of a message of a preamble, by format (R165, R177). [DESIGN CHOICE, unsafe: log entry 85.] -/
opaque seiSyntax : Nat → Sei → List Byte

/-- The syntax of a frame header (R177). [DESIGN CHOICE, unsafe: log entry 85.] -/
opaque frameSyntax : ParamSettings → FrameHead → List Byte

/-- A decoded row (R218). [DESIGN CHOICE, unsafe: log entry 85.] -/
opaque decodeRow : DecodeTask → DecodedRow

/-- Film grain of AV1 applied to an output picture (R210). [DESIGN CHOICE, unsafe: log entry 85.] -/
opaque filmGrain : List (List Byte) → Image → Image

/-- Lossless compression of a tile (R174). [DESIGN CHOICE, unsafe: log entry 85.] -/
opaque compress : List Byte → List Byte

/-- The inverse of the compression of a tile (R174); no statement rests on its being so.
[DESIGN CHOICE, unsafe: log entry 85.] -/
opaque expand : List Byte → List Byte

/-- Device address of a slot of a stream's stage in the picture store (R99, R174). [DESIGN CHOICE, unsafe: log entry 84.] -/
opaque storeAddress : Nat → Nat → Nat → Nat

/-- The coefficients of a scaling kernel (STANDARD, SHARP, SOFT) for luma or chroma and a phase, of which the spec gives the form and
the sum (R249). [DESIGN CHOICE, unsafe: log entry 86.] -/
opaque kernelTaps : Nat → Bool → Nat → List Int

/-- A pixel converted between colour codes, by the arithmetic that R254 and R255 name without its precision; RGB is code 5.
[DESIGN CHOICE, unsafe: log entry 86.] -/
opaque convertPixel : Nat → Nat → Pixel → Pixel

/-- What stands in a padding byte of a raw picture, which is not written (R267): plane, line, place.
[DESIGN CHOICE, unsafe: log entry 86.] -/
opaque padding : Nat → Nat → Nat → Byte

/-- A block predicted from a reference by a vector, with the format's interpolation (R228): format, whether the plane is luma, the
reference's plane, position, vector. [DESIGN CHOICE, unsafe: log entry 85.] -/
opaque interpolate : Nat → Bool → Plane → Nat → Nat → Int → Int → Nat

end Sys2Proof.Config
end

