-- ==== Sys2Proof/Machine/Row.lean ====
section
/-! DEFINITION. The form of a row of the object dictionary: type (R37), access, default and limits. -/

namespace Sys2Proof.Machine

/-- The data types of R37; `octets n` and `str n` carry their size in bytes. -/
inductive OType where
  | bool | u8 | u16 | u32 | u64 | i16 | i32 | i64 | w72 | rtime
  | octets (n : Nat) | str (n : Nat) | domain
  deriving DecidableEq, Repr

/-- The access codes; `roClear` is an RO object that takes the clearing write of R44. -/
inductive Access where
  | ro | roClear | rw | wo | rws | cmd
  deriving DecidableEq, Repr

/-- The Default column: a constant, a value of instance 0 and one of the others, a constant plus the number of the
repeated subindex, plus the instance, or plus twice the instance; or the number of the instance from 1, times a constant. -/
inductive Dflt where
  | const (v : Nat) | first (a b : Nat) | plusSub (v : Nat) | plusInst (v : Nat) | plusTwice (v : Nat) | times (v : Nat)
  deriving DecidableEq, Repr

/-- The limits of a single value that the Meaning column gives. -/
inductive Limit where
  | any
  | flag
  | range (lo hi : Nat)
  | rangeBut (lo hi but : Nat)
  | zeroOr (lo hi : Nat)
  | oneOf (vs : List Nat)
  | oneOfOr (lo hi other : Nat)
  | signed (bits : Nat) (lo hi : Int)
  deriving DecidableEq, Repr

/-- One line of an object table: `count` instances from index `base`, `subs` subindices from `sub` at distance `step`. -/
structure Row where
  base  : Nat
  count : Nat
  sub   : Nat
  subs  : Nat
  step  : Nat
  ty    : OType
  acc   : Access
  dflt  : Dflt
  lim   : Limit
  deriving DecidableEq, Repr

end Sys2Proof.Machine
end

