-- ==== Sys2Proof/Machine/Objects.lean ====
section
/-! DEFINITION. The object dictionary, one `Row` per line of the object tables of the spec (R16, R18, R67, R70–R72,
R99, R122, R123, R149, R184, R206, R244, R270, R271, R304–R306, R328, R329, R355–R357, R398, R399, R413, R443, R466,
R492, R511). A row of several instances stands once; `Row.key` gives the key of an instance. -/

namespace Sys2Proof.Machine.Od

/-- 0x2200+rd:00 ENTRIES (R16): Highest subindex -/
def rd_ENTRIES : Row := ⟨0x2200, 8, 0x00, 1, 0, .u8, .ro, .const 23, .any⟩
/-- 0x2200+rd:01 ENABLE (R16): Domain runs. RD_0 rejects 0 -/
def rd_ENABLE : Row := ⟨0x2200, 8, 0x01, 1, 0, .bool, .rws, .first 1 0, .flag⟩
/-- 0x2200+rd:02 RATE_NUM (R16): Frame-rate numerator (Hz) -/
def rd_RATE_NUM : Row := ⟨0x2200, 8, 0x02, 1, 0, .u32, .rws, .const 60, .any⟩
/-- 0x2200+rd:03 RATE_DEN (R16): Frame-rate denominator, 1 or 1,001 -/
def rd_RATE_DEN : Row := ⟨0x2200, 8, 0x03, 1, 0, .u32, .rws, .const 1, .oneOf [1, 1001]⟩
/-- 0x2200+rd:04 LINES_PER_FRAME (R16): Lines per frame -/
def rd_LINES_PER_FRAME : Row := ⟨0x2200, 8, 0x04, 1, 0, .u16, .rws, .const 1125, .range 262 8192⟩
/-- 0x2200+rd:05 ACTIVE_FIRST (R16): First active line -/
def rd_ACTIVE_FIRST : Row := ⟨0x2200, 8, 0x05, 1, 0, .u16, .rws, .const 41, .any⟩
/-- 0x2200+rd:06 ACTIVE_LAST (R16): Last active line; ACTIVE_FIRST < ACTIVE_LAST < LINES_PER_FRAME (R13) -/
def rd_ACTIVE_LAST : Row := ⟨0x2200, 8, 0x06, 1, 0, .u16, .rws, .const 1120, .any⟩
/-- 0x2200+rd:07 SOURCE (R16): 0 FREE, 1 REF_FRAME, 2 PTP, 3 FABRIC -/
def rd_SOURCE : Row := ⟨0x2200, 8, 0x07, 1, 0, .u8, .rws, .const 0, .range 0 3⟩
/-- 0x2200+rd:08 SOURCE_SEL (R16): REF_FRAME: pin 0–3. FABRIC: port number of the band, or 255 for the carding parent -/
def rd_SOURCE_SEL : Row := ⟨0x2200, 8, 0x08, 1, 0, .u8, .rws, .const 0, .oneOfOr 0 127 255⟩
/-- 0x2200+rd:09 FALLBACK (R16): Source, coded as for SOURCE, that is tried after HOLDOVER_TIME -/
def rd_FALLBACK : Row := ⟨0x2200, 8, 0x09, 1, 0, .u8, .rws, .const 0, .range 0 3⟩
/-- 0x2200+rd:0A HOLDOVER_TIME (R16): Seconds in HOLDOVER before FALLBACK is tried, 1–65,535 -/
def rd_HOLDOVER_TIME : Row := ⟨0x2200, 8, 0x0A, 1, 0, .u16, .rws, .const 60, .range 1 65535⟩
/-- 0x2200+rd:0B SLEW_MAX (R16): Largest frequency offset during slewing (ppm), 10–1,000 -/
def rd_SLEW_MAX : Row := ⟨0x2200, 8, 0x0B, 1, 0, .u16, .rws, .const 100, .range 10 1000⟩
/-- 0x2200+rd:0C JUMP_THRESHOLD (R16): Phase error beyond which the domain jumps (line ticks) -/
def rd_JUMP_THRESHOLD : Row := ⟨0x2200, 8, 0x0C, 1, 0, .u32, .rws, .const 65536, .any⟩
/-- 0x2200+rd:0D LOCK_WINDOW (R16): Phase-error bound for LOCKED (ns) -/
def rd_LOCK_WINDOW : Row := ⟨0x2200, 8, 0x0D, 1, 0, .u16, .rws, .const 100, .any⟩
/-- 0x2200+rd:0E FRAME_OFFSET (R16): Offset of frame start from the source's frame reference (line ticks) -/
def rd_FRAME_OFFSET : Row := ⟨0x2200, 8, 0x0E, 1, 0, .i32, .rws, .const 0, .any⟩
/-- 0x2200+rd:0F EDGE_POLARITY (R16): REF_FRAME: 0 rising, 1 falling -/
def rd_EDGE_POLARITY : Row := ⟨0x2200, 8, 0x0F, 1, 0, .u8, .rws, .const 0, .range 0 1⟩
/-- 0x2200+rd:10 EDGE_CADENCE (R16): REF_FRAME: frames per edge, 1–8 -/
def rd_EDGE_CADENCE : Row := ⟨0x2200, 8, 0x10, 1, 0, .u8, .rws, .const 1, .range 1 8⟩
/-- 0x2200+rd:11 MISS_LIMIT (R16): REF_FRAME: consecutive missing edges that end LOCKED, 1–255 -/
def rd_MISS_LIMIT : Row := ⟨0x2200, 8, 0x11, 1, 0, .u8, .rws, .const 3, .range 1 255⟩
/-- 0x2200+rd:12 LINE_MATCH (R16): Line at whose start the line-match event is raised, below LINES_PER_FRAME (R13) -/
def rd_LINE_MATCH : Row := ⟨0x2200, 8, 0x12, 1, 0, .u16, .rws, .const 0, .any⟩
/-- 0x2200+rd:13 SWAP_HOLD (R16): Defers swap points (see *Swap points*) -/
def rd_SWAP_HOLD : Row := ⟨0x2200, 8, 0x13, 1, 0, .bool, .rw, .const 0, .flag⟩
/-- 0x2200+rd:14 LOCK_STATE (R16): 0 FREE_RUN, 1 ACQUIRING, 2 LOCKED, 3 HOLDOVER -/
def rd_LOCK_STATE : Row := ⟨0x2200, 8, 0x14, 1, 0, .u8, .ro, .const 0, .any⟩
/-- 0x2200+rd:15 NOW (R16): Current raster time -/
def rd_NOW : Row := ⟨0x2200, 8, 0x15, 1, 0, .rtime, .ro, .const 0, .any⟩
/-- 0x2200+rd:16 PHASE_ERROR (R16): Last measured error, source minus domain (line ticks) -/
def rd_PHASE_ERROR : Row := ⟨0x2200, 8, 0x16, 1, 0, .i32, .ro, .const 0, .any⟩
/-- 0x2200+rd:17 LOCK_EVENTS (R16): Sticky count of LOCKED exits and jumps. Writing 0 clears it -/
def rd_LOCK_EVENTS : Row := ⟨0x2200, 8, 0x17, 1, 0, .u32, .roClear, .const 0, .any⟩
/-- 0x2180:00 ENTRIES (R36): Highest subindex -/
def ptp_ENTRIES : Row := ⟨0x2180, 1, 0x00, 1, 0, .u8, .ro, .const 7, .any⟩
/-- 0x2180:01 PTP_ENABLE (R18): Instance runs -/
def ptp_PTP_ENABLE : Row := ⟨0x2180, 1, 0x01, 1, 0, .bool, .rws, .const 0, .flag⟩
/-- 0x2180:02 PTP_PORT (R18): Port number 0–127, or 255 for the management port -/
def ptp_PTP_PORT : Row := ⟨0x2180, 1, 0x02, 1, 0, .u8, .rws, .const 255, .oneOfOr 0 127 255⟩
/-- 0x2180:03 PTP_DOMAIN (R18): PTP domain number -/
def ptp_PTP_DOMAIN : Row := ⟨0x2180, 1, 0x03, 1, 0, .u8, .rws, .const 127, .any⟩
/-- 0x2180:04 DELAY_MECH (R18): 0 end-to-end, 1 peer-to-peer -/
def ptp_DELAY_MECH : Row := ⟨0x2180, 1, 0x04, 1, 0, .u8, .rws, .const 0, .range 0 1⟩
/-- 0x2180:05 PTP_STATE (R18): 0 disabled, 1 listening, 2 uncalibrated, 3 slave, 4 faulty -/
def ptp_PTP_STATE : Row := ⟨0x2180, 1, 0x05, 1, 0, .u8, .ro, .const 0, .any⟩
/-- 0x2180:06 MASTER_OFFSET (R18): Last offset from master (ns) -/
def ptp_MASTER_OFFSET : Row := ⟨0x2180, 1, 0x06, 1, 0, .i64, .ro, .const 0, .any⟩
/-- 0x2180:07 GM_IDENTITY (R18): Grandmaster clock identity -/
def ptp_GM_IDENTITY : Row := ⟨0x2180, 1, 0x07, 1, 0, (.octets 8), .ro, .const 0, .any⟩
/-- 0x2400+c:00 ENTRIES (R67): Highest subindex -/
def cmd_ENTRIES : Row := ⟨0x2400, 256, 0x00, 1, 0, .u8, .ro, .const 31, .any⟩
/-- 0x2400+c:01 EXEC (R67): Argument block; writing runs the command -/
def cmd_EXEC : Row := ⟨0x2400, 256, 0x01, 1, 0, (.octets 0), .cmd, .const 0, .any⟩
/-- 0x2400+c:02 LAST_TICKET (R67): Ticket of the most recent completion -/
def cmd_LAST_TICKET : Row := ⟨0x2400, 256, 0x02, 1, 0, .u32, .ro, .const 0, .any⟩
/-- 0x2400+c:03 LAST_RESULT (R67): Result code of that completion -/
def cmd_LAST_RESULT : Row := ⟨0x2400, 256, 0x03, 1, 0, .u16, .ro, .const 0, .any⟩
/-- 0x2400+c:04 LAST_RETURN (R67): Return data of that completion -/
def cmd_LAST_RETURN : Row := ⟨0x2400, 256, 0x04, 1, 0, .domain, .ro, .const 0, .any⟩
/-- 0x2400+c:05 QUEUED (R67): Commands of this code running or waiting, 0–9 -/
def cmd_QUEUED : Row := ⟨0x2400, 256, 0x05, 1, 0, .u8, .ro, .const 0, .any⟩
/-- 0x2400+c:10–1F RECORD_0–RECORD_15 (R67): Last 16 completions, newest in RECORD_0: TICKET U32, SESSION U32 (0 for the mailbox), RESULT U16, reserved U8, -/
def cmd_RECORD : Row := ⟨0x2400, 256, 0x10, 16, 1, (.octets 20), .ro, .const 0, .any⟩
/-- 0x1018:00 ENTRIES (R70): Highest subindex -/
def id_ENTRIES : Row := ⟨0x1018, 1, 0x00, 1, 0, .u8, .ro, .const 7, .any⟩
/-- 0x1018:01 VENDOR_ID (R70): Thalliyn Semiconductor -/
def id_VENDOR_ID : Row := ⟨0x1018, 1, 0x01, 1, 0, .u32, .ro, .const 31281, .any⟩
/-- 0x1018:02 PRODUCT_CODE (R70): BV9672 -/
def id_PRODUCT_CODE : Row := ⟨0x1018, 1, 0x02, 1, 0, .u32, .ro, .const 38514, .any⟩
/-- 0x1018:03 STEPPING (R70): B0 -/
def id_STEPPING : Row := ⟨0x1018, 1, 0x03, 1, 0, .u32, .ro, .const 176, .any⟩
/-- 0x1018:04 SERIAL (R70): Serial number; used in root election -/
def id_SERIAL : Row := ⟨0x1018, 1, 0x04, 1, 0, (.octets 16), .ro, .const 0, .any⟩
/-- 0x1018:05 PART (R70): "BV9672-48S" or "BV9672-48X" -/
def id_PART : Row := ⟨0x1018, 1, 0x05, 1, 0, (.str 16), .ro, .const 392993195462784926176834, .any⟩
/-- 0x1018:06 GRADE (R70): 0 for -48S, 1 for -48X -/
def id_GRADE : Row := ⟨0x1018, 1, 0x06, 1, 0, .u8, .ro, .const 0, .any⟩
/-- 0x1018:07 IDENTITY_PUBKEY (R70): Uncompressed P-521 public key of the device identity -/
def id_IDENTITY_PUBKEY : Row := ⟨0x1018, 1, 0x07, 1, 0, (.octets 133), .ro, .const 0, .any⟩
/-- 0x1F10:00 ENTRIES (R71): Highest subindex -/
def img_ENTRIES : Row := ⟨0x1F10, 1, 0x00, 1, 0, .u8, .ro, .const 8, .any⟩
/-- 0x1F10:01 ROM_VERSION (R71): ROM firmware 3.2 -/
def img_ROM_VERSION : Row := ⟨0x1F10, 1, 0x01, 1, 0, .u32, .ro, .const 196610, .any⟩
/-- 0x1F10:02 ROM_BUILD (R71): Build number -/
def img_ROM_BUILD : Row := ⟨0x1F10, 1, 0x02, 1, 0, .u32, .ro, .const 0, .any⟩
/-- 0x1F10:03 PATCH_SLOTS_USED (R71): Patch slots in use, 0–256 -/
def img_PATCH_SLOTS_USED : Row := ⟨0x1F10, 1, 0x03, 1, 0, .u16, .ro, .const 0, .any⟩
/-- 0x1F10:04 PATCH_LEVEL (R71): Highest patch version loaded -/
def img_PATCH_LEVEL : Row := ⟨0x1F10, 1, 0x04, 1, 0, .u32, .ro, .const 0, .any⟩
/-- 0x1F10:05 PATCH_ROLLBACK (R71): Patch anti-rollback counter -/
def img_PATCH_ROLLBACK : Row := ⟨0x1F10, 1, 0x05, 1, 0, .u32, .ro, .const 0, .any⟩
/-- 0x1F10:06 CONFIG_VERSION (R71): Version of the signed configuration set; 0 when there is none -/
def img_CONFIG_VERSION : Row := ⟨0x1F10, 1, 0x06, 1, 0, .u32, .ro, .const 0, .any⟩
/-- 0x1F10:07 CONFIG_ROLLBACK (R71): Configuration anti-rollback counter -/
def img_CONFIG_ROLLBACK : Row := ⟨0x1F10, 1, 0x07, 1, 0, .u32, .ro, .const 0, .any⟩
/-- 0x1F10:08 PATCH_TABLE (R71): 16 bytes per used slot: SLOT U16, reserved U16, IMAGE_ID U32, VERSION U32, STATE U32 (1 active, 2 superseded) -/
def img_PATCH_TABLE : Row := ⟨0x1F10, 1, 0x08, 1, 0, .domain, .ro, .const 0, .any⟩
/-- 0x2010:00 ENTRIES (R72): Highest subindex -/
def iop_ENTRIES : Row := ⟨0x2010, 1, 0x00, 1, 0, .u8, .ro, .const 12, .any⟩
/-- 0x2010:01 UDP_PORT (R72): UDP destination port, 1,024–65,535 -/
def iop_UDP_PORT : Row := ⟨0x2010, 1, 0x01, 1, 0, .u16, .rws, .const 41960, .range 1024 65535⟩
/-- 0x2010:02 SESSION_MAX (R72): Authenticated sessions over UDP and fabric, 1–16; lowering it closes no session (R59) -/
def iop_SESSION_MAX : Row := ⟨0x2010, 1, 0x02, 1, 0, .u8, .rws, .const 16, .range 1 16⟩
/-- 0x2010:03 IDLE_TIMEOUT (R72): Seconds, 5–3,600; given in ACCEPT and kept by each session for its life (R59) -/
def iop_IDLE_TIMEOUT : Row := ⟨0x2010, 1, 0x03, 1, 0, .u16, .rws, .const 60, .range 5 3600⟩
/-- 0x2010:04 MAILBOX_ROLE (R72): 0 OBSERVER, 1 OPERATOR, 2 ADMIN -/
def iop_MAILBOX_ROLE : Row := ⟨0x2010, 1, 0x04, 1, 0, .u8, .rws, .const 1, .range 0 2⟩
/-- 0x2010:05 FABRIC_IOP (R72): IOP accepted in-band from the fabric -/
def iop_FABRIC_IOP : Row := ⟨0x2010, 1, 0x05, 1, 0, .bool, .rws, .const 1, .flag⟩
/-- 0x2010:06 SESSIONS_OPEN (R72): Authenticated sessions open -/
def iop_SESSIONS_OPEN : Row := ⟨0x2010, 1, 0x06, 1, 0, .u8, .ro, .const 0, .any⟩
/-- 0x2010:07 AUTH_FAILURES (R72): Sticky count. Writing 0 clears it -/
def iop_AUTH_FAILURES : Row := ⟨0x2010, 1, 0x07, 1, 0, .u32, .roClear, .const 0, .any⟩
/-- 0x2010:08 FRAMES_DISCARDED (R72): Sticky count. Writing 0 clears it -/
def iop_FRAMES_DISCARDED : Row := ⟨0x2010, 1, 0x08, 1, 0, .u32, .roClear, .const 0, .any⟩
/-- 0x2010:09 DENIED_COUNT (R72): Sticky count. Writing 0 clears it -/
def iop_DENIED_COUNT : Row := ⟨0x2010, 1, 0x09, 1, 0, .u32, .roClear, .const 0, .any⟩
/-- 0x2010:0A NOTIFY_LOST (R72): Sticky count. Writing 0 clears it -/
def iop_NOTIFY_LOST : Row := ⟨0x2010, 1, 0x0A, 1, 0, .u32, .roClear, .const 0, .any⟩
/-- 0x2010:0B HELLO_RATE (R72): HELLO frames processed per second, 1–1,024 -/
def iop_HELLO_RATE : Row := ⟨0x2010, 1, 0x0B, 1, 0, .u16, .rws, .const 32, .range 1 1024⟩
/-- 0x2010:0C SESSION_TABLE (R72): 32 bytes per authenticated session: SESSION U32, ROLE U8, TRANSPORT U8 (0 UDP, 1 fabric, 2 mailbox; other valu -/
def iop_SESSION_TABLE : Row := ⟨0x2010, 1, 0x0C, 1, 0, .domain, .ro, .const 0, .any⟩
/-- 0x2100:00 ENTRIES (R99): Highest subindex -/
def mil_ENTRIES : Row := ⟨0x2100, 1, 0x00, 1, 0, .u8, .ro, .const 15, .any⟩
/-- 0x2100:01 SPARE_CELLS (R99): Spare cells requested, 0–16 -/
def mil_SPARE_CELLS : Row := ⟨0x2100, 1, 0x01, 1, 0, .u8, .rws, .const 4, .range 0 16⟩
/-- 0x2100:02 LOAD_CEILING (R99): Largest load of a cell or conditioner (per mille), 500–1,000 -/
def mil_LOAD_CEILING : Row := ⟨0x2100, 1, 0x02, 1, 0, .u16, .rws, .const 950, .range 500 1000⟩
/-- 0x2100:03 MEM_BW_LIMIT (R99): HBM3 traffic admitted (GB/s), 250–1,640 -/
def mil_MEM_BW_LIMIT : Row := ⟨0x2100, 1, 0x03, 1, 0, .u16, .rws, .const 1100, .range 250 1640⟩
/-- 0x2100:04 PORT_LOAD_LIMIT (R99): Largest port load (per mille), 500–1,000 -/
def mil_PORT_LOAD_LIMIT : Row := ⟨0x2100, 1, 0x04, 1, 0, .u16, .rws, .const 900, .range 500 1000⟩
/-- 0x2100:05 LEND_SPARES (R99): Spares run BULK rows -/
def mil_LEND_SPARES : Row := ⟨0x2100, 1, 0x05, 1, 0, .bool, .rws, .const 1, .flag⟩
/-- 0x2100:06 CLOCK_SCALING (R99): Crown clocks follow load -/
def mil_CLOCK_SCALING : Row := ⟨0x2100, 1, 0x06, 1, 0, .bool, .rws, .const 1, .flag⟩
/-- 0x2100:07 DOWN_HOLD (R99): Seconds before a step-down, 1–3,600 -/
def mil_DOWN_HOLD : Row := ⟨0x2100, 1, 0x07, 1, 0, .u16, .rws, .const 10, .range 1 3600⟩
/-- 0x2100:08 PICTURE_REGION (R99): Region for picture stores and pool minima -/
def mil_PICTURE_REGION : Row := ⟨0x2100, 1, 0x08, 1, 0, .u8, .rws, .const 0, .any⟩
/-- 0x2100:09 CLIP_REGION (R99): Clip-store region; 255 none -/
def mil_CLIP_REGION : Row := ⟨0x2100, 1, 0x09, 1, 0, .u8, .rws, .const 255, .any⟩
/-- 0x2100:0A CELLS_USED_MILLI (R99): Admitted cell load (milli-cells) -/
def mil_CELLS_USED_MILLI : Row := ⟨0x2100, 1, 0x0A, 1, 0, .u32, .ro, .const 0, .any⟩
/-- 0x2100:0B CELL_CAP_MILLI (R99): CELL_CAP -/
def mil_CELL_CAP_MILLI : Row := ⟨0x2100, 1, 0x0B, 1, 0, .u32, .ro, .const 117800, .any⟩
/-- 0x2100:0C MEM_BW_USED (R99): Admitted HBM3 traffic (MB/s) -/
def mil_MEM_BW_USED : Row := ⟨0x2100, 1, 0x0C, 1, 0, .u32, .ro, .const 0, .any⟩
/-- 0x2100:0D CELLS_RETIRED (R99): Cells retired by faults -/
def mil_CELLS_RETIRED : Row := ⟨0x2100, 1, 0x0D, 1, 0, .u8, .ro, .const 0, .any⟩
/-- 0x2100:0E SHED_COUNT (R99): Sticky count of streams shed. Writing 0 clears it -/
def mil_SHED_COUNT : Row := ⟨0x2100, 1, 0x0E, 1, 0, .u32, .roClear, .const 0, .any⟩
/-- 0x2100:0F SPARES_HELD (R99): Spares now held -/
def mil_SPARES_HELD : Row := ⟨0x2100, 1, 0x0F, 1, 0, .u8, .ro, .const 0, .any⟩
/-- 0x3000+sid:00 ENTRIES (R99): Highest subindex -/
def st_ENTRIES : Row := ⟨0x3000, 512, 0x00, 1, 0, .u8, .ro, .const 18, .any⟩
/-- 0x3000+sid:01 TYPE (R99): Stream type, 0–4 -/
def st_TYPE : Row := ⟨0x3000, 512, 0x01, 1, 0, .u8, .rw, .const 0, .range 0 4⟩
/-- 0x3000+sid:02 CLASS (R99): 0 LIVE, 1 PACED, 2 BULK -/
def st_CLASS : Row := ⟨0x3000, 512, 0x02, 1, 0, .u8, .rw, .const 0, .range 0 2⟩
/-- 0x3000+sid:03 DOMAIN (R99): Raster domain 0–7; unused for BULK -/
def st_DOMAIN : Row := ⟨0x3000, 512, 0x03, 1, 0, .u8, .rw, .const 0, .range 0 7⟩
/-- 0x3000+sid:04 STATE (R99): State, 0–5 -/
def st_STATE : Row := ⟨0x3000, 512, 0x04, 1, 0, .u8, .ro, .const 0, .any⟩
/-- 0x3000+sid:05 OWNER_TAG (R99): Free for managers; never used by the engine -/
def st_OWNER_TAG : Row := ⟨0x3000, 512, 0x05, 1, 0, .u32, .rw, .const 0, .any⟩
/-- 0x3000+sid:06 STAGED (R99): May be opened by STREAM_OPEN with SID 0xFFFF -/
def st_STAGED : Row := ⟨0x3000, 512, 0x06, 1, 0, .bool, .rw, .const 0, .flag⟩
/-- 0x3000+sid:07 MERGE_OK (R99): May lead or join an alias group -/
def st_MERGE_OK : Row := ⟨0x3000, 512, 0x07, 1, 0, .bool, .rw, .const 0, .flag⟩
/-- 0x3000+sid:08 INPUTS (R99): 1–16 input entries -/
def st_INPUTS : Row := ⟨0x3000, 512, 0x08, 1, 0, .domain, .rw, .const 0, .any⟩
/-- 0x3000+sid:09 OUTPUTS (R99): 0–1,024 destination entries -/
def st_OUTPUTS : Row := ⟨0x3000, 512, 0x09, 1, 0, .domain, .rws, .const 0, .any⟩
/-- 0x3000+sid:0A LEAD_LINES (R99): Lead of LIVE row deadlines (lines), 0–1,023 -/
def st_LEAD_LINES : Row := ⟨0x3000, 512, 0x0A, 1, 0, .u16, .rws, .const 4, .range 0 1023⟩
/-- 0x3000+sid:0B PRI (R99): Queue priority within the class band; 0xFF top of band -/
def st_PRI : Row := ⟨0x3000, 512, 0x0B, 1, 0, .u8, .rws, .const 255, .any⟩
/-- 0x3000+sid:0C CROWN_MASK (R99): Crowns the stream may use; bit n is CW_n -/
def st_CROWN_MASK : Row := ⟨0x3000, 512, 0x0C, 1, 0, .u16, .rw, .const 65535, .any⟩
/-- 0x3000+sid:0D END_ACTION (R99): PLAYOUT: 0 hold, 1 loop, 2 black -/
def st_END_ACTION : Row := ⟨0x3000, 512, 0x0D, 1, 0, .u8, .rws, .const 0, .range 0 2⟩
/-- 0x3000+sid:0E PLAYLIST (R99): Active playlist, as in PLAYLIST_SET -/
def st_PLAYLIST : Row := ⟨0x3000, 512, 0x0E, 1, 0, .domain, .ro, .const 0, .any⟩
/-- 0x3000+sid:0F CELLS_MILLI (R99): Admitted cell cost -/
def st_CELLS_MILLI : Row := ⟨0x3000, 512, 0x0F, 1, 0, .u32, .ro, .const 0, .any⟩
/-- 0x3000+sid:10 LEADER (R99): Leader's SID when ALIAS, own SID when leading, else 0xFFFF -/
def st_LEADER : Row := ⟨0x3000, 512, 0x10, 1, 0, .u16, .ro, .const 65535, .any⟩
/-- 0x3000+sid:11 ADMIT_SHORTFALL (R99): Bit n set: test of result 0x0010+n failed at the last admission -/
def st_ADMIT_SHORTFALL : Row := ⟨0x3000, 512, 0x11, 1, 0, .u16, .ro, .const 0, .any⟩
/-- 0x3000+sid:12 CELL_SET (R99): Per stage: STAGE U8, N U8, then N cell numbers U8 -/
def st_CELL_SET : Row := ⟨0x3000, 512, 0x12, 1, 0, .domain, .ro, .const 0, .any⟩
/-- 0x3A00+sid:00 ENTRIES (R99): Highest subindex -/
def ss_ENTRIES : Row := ⟨0x3A00, 512, 0x00, 1, 0, .u8, .ro, .const 12, .any⟩
/-- 0x3A00+sid:01 OPENED_AT (R99): Swap point at which the stream began RUNNING -/
def ss_OPENED_AT : Row := ⟨0x3A00, 512, 0x01, 1, 0, .rtime, .ro, .const 0, .any⟩
/-- 0x3A00+sid:02 PICTURES_IN (R99): Pictures received or taken from clips -/
def ss_PICTURES_IN : Row := ⟨0x3A00, 512, 0x02, 1, 0, .u64, .ro, .const 0, .any⟩
/-- 0x3A00+sid:03 PICTURES_OUT (R99): Pictures emitted -/
def ss_PICTURES_OUT : Row := ⟨0x3A00, 512, 0x03, 1, 0, .u64, .ro, .const 0, .any⟩
/-- 0x3A00+sid:04 ROWS_DONE (R99): Block rows coded, all stages -/
def ss_ROWS_DONE : Row := ⟨0x3A00, 512, 0x04, 1, 0, .u64, .ro, .const 0, .any⟩
/-- 0x3A00+sid:05 LATE_ROWS (R99): LIVE rows replaced for missing the deadline -/
def ss_LATE_ROWS : Row := ⟨0x3A00, 512, 0x05, 1, 0, .u32, .ro, .const 0, .any⟩
/-- 0x3A00+sid:06 SLIPS (R99): PACED pictures one frame late -/
def ss_SLIPS : Row := ⟨0x3A00, 512, 0x06, 1, 0, .u32, .ro, .const 0, .any⟩
/-- 0x3A00+sid:07 PREEMPT_WAITS (R99): LIVE rows that waited behind a non-LIVE row -/
def ss_PREEMPT_WAITS : Row := ⟨0x3A00, 512, 0x07, 1, 0, .u32, .ro, .const 0, .any⟩
/-- 0x3A00+sid:08 ROWS_MOVED (R99): Rows re-run on another cell after a fault -/
def ss_ROWS_MOVED : Row := ⟨0x3A00, 512, 0x08, 1, 0, .u32, .ro, .const 0, .any⟩
/-- 0x3A00+sid:09 BYTES_OUT (R99): Payload bytes emitted, counted once per packet -/
def ss_BYTES_OUT : Row := ⟨0x3A00, 512, 0x09, 1, 0, .u64, .ro, .const 0, .any⟩
/-- 0x3A00+sid:0A SPLICES (R99): Playlist entries fallen due -/
def ss_SPLICES : Row := ⟨0x3A00, 512, 0x0A, 1, 0, .u32, .ro, .const 0, .any⟩
/-- 0x3A00+sid:0B PLAYLIST_POS (R99): Index of the entry playing -/
def ss_PLAYLIST_POS : Row := ⟨0x3A00, 512, 0x0B, 1, 0, .u16, .ro, .const 0, .any⟩
/-- 0x3A00+sid:0C LAST_PICTURE_AT (R99): Raster time of the last picture emitted -/
def ss_LAST_PICTURE_AT : Row := ⟨0x3A00, 512, 0x0C, 1, 0, .rtime, .ro, .const 0, .any⟩
/-- 0x4000+cc:00 ENTRIES (R122): Highest subindex -/
def cell_ENTRIES : Row := ⟨0x4000, 128, 0x00, 1, 0, .u8, .ro, .const 15, .any⟩
/-- 0x4000+cc:01 STATE (R122): Cell state, 0–6 -/
def cell_STATE : Row := ⟨0x4000, 128, 0x01, 1, 0, .u8, .ro, .const 0, .any⟩
/-- 0x4000+cc:02 SPARE (R122): Held as a spare by R90 -/
def cell_SPARE : Row := ⟨0x4000, 128, 0x02, 1, 0, .bool, .ro, .const 0, .flag⟩
/-- 0x4000+cc:03 OUT_OF_SERVICE (R122): Take the cell out of service -/
def cell_OUT_OF_SERVICE : Row := ⟨0x4000, 128, 0x03, 1, 0, .bool, .rw, .const 0, .flag⟩
/-- 0x4000+cc:04 LOAD_MILLI (R122): Placed load at 1.2 GHz (per mille) -/
def cell_LOAD_MILLI : Row := ⟨0x4000, 128, 0x04, 1, 0, .u16, .ro, .const 0, .any⟩
/-- 0x4000+cc:05 SHARES (R122): 8 bytes per share: SID U16, STAGE U8, INDEX U8, POSITION U8 (place in the cell set), N U8, COST U16 (milli-cel -/
def cell_SHARES : Row := ⟨0x4000, 128, 0x05, 1, 0, .domain, .ro, .const 0, .any⟩
/-- 0x4000+cc:06 ROWS_DONE (R122): Rows completed -/
def cell_ROWS_DONE : Row := ⟨0x4000, 128, 0x06, 1, 0, .u64, .ro, .const 0, .any⟩
/-- 0x4000+cc:07 ROWS_RERUN (R122): Rows completed from another cell's checkpoint -/
def cell_ROWS_RERUN : Row := ⟨0x4000, 128, 0x07, 1, 0, .u32, .ro, .const 0, .any⟩
/-- 0x4000+cc:08 CYCLES_BUSY (R122): Cycles coding -/
def cell_CYCLES_BUSY : Row := ⟨0x4000, 128, 0x08, 1, 0, .u64, .ro, .const 0, .any⟩
/-- 0x4000+cc:09 CYCLES_WAIT_DEP (R122): Cycles stalled on an upper neighbour -/
def cell_CYCLES_WAIT_DEP : Row := ⟨0x4000, 128, 0x09, 1, 0, .u64, .ro, .const 0, .any⟩
/-- 0x4000+cc:0A CYCLES_WAIT_MEM (R122): Cycles stalled on the memory port or a bank -/
def cell_CYCLES_WAIT_MEM : Row := ⟨0x4000, 128, 0x0A, 1, 0, .u64, .ro, .const 0, .any⟩
/-- 0x4000+cc:0B CYCLES_IDLE (R122): Cycles without a row -/
def cell_CYCLES_IDLE : Row := ⟨0x4000, 128, 0x0B, 1, 0, .u64, .ro, .const 0, .any⟩
/-- 0x4000+cc:0C CORRECTED (R122): Sticky count of cell-store bytes corrected. Writing 0 clears it -/
def cell_CORRECTED : Row := ⟨0x4000, 128, 0x0C, 1, 0, .u32, .roClear, .const 0, .any⟩
/-- 0x4000+cc:0D FAULTS (R122): Sticky count of faults reported by the cell. Writing 0 clears it -/
def cell_FAULTS : Row := ⟨0x4000, 128, 0x0D, 1, 0, .u32, .roClear, .const 0, .any⟩
/-- 0x4000+cc:0E CURRENT_ROW (R122): Word 0 of the checkpoint of the row started last -/
def cell_CURRENT_ROW : Row := ⟨0x4000, 128, 0x0E, 1, 0, .w72, .ro, .const 0, .any⟩
/-- 0x4000+cc:0F RETIRED_BY_FAULT (R122): Retired by the fault collector -/
def cell_RETIRED_BY_FAULT : Row := ⟨0x4000, 128, 0x0F, 1, 0, .bool, .ro, .const 0, .flag⟩
/-- 0x4080+cw:00 ENTRIES (R123): Highest subindex -/
def crown_ENTRIES : Row := ⟨0x4080, 16, 0x00, 1, 0, .u8, .ro, .const 15, .any⟩
/-- 0x4080+cw:01 POWER_STATE (R123): 0 PARKED, 1 WAKING, 2 ACTIVE, 3 RESETTING -/
def crown_POWER_STATE : Row := ⟨0x4080, 16, 0x01, 1, 0, .u8, .ro, .const 2, .any⟩
/-- 0x4080+cw:02 CLOCK_MHZ (R123): Crown clock in force (MHz) -/
def crown_CLOCK_MHZ : Row := ⟨0x4080, 16, 0x02, 1, 0, .u16, .ro, .const 1200, .any⟩
/-- 0x4080+cw:03 CLOCK_FORCE (R123): 0 set by the Milliner; or 600, 900, 1,200 (MHz) -/
def crown_CLOCK_FORCE : Row := ⟨0x4080, 16, 0x03, 1, 0, .u16, .rws, .const 0, .oneOf [0, 600, 900, 1200]⟩
/-- 0x4080+cw:04 PARK_ALLOWED (R123): The Milliner may park the crown -/
def crown_PARK_ALLOWED : Row := ⟨0x4080, 16, 0x04, 1, 0, .bool, .rws, .const 1, .flag⟩
/-- 0x4080+cw:05 LOAD_MAX_MILLI (R123): Highest LOAD_MILLI among the crown's cells -/
def crown_LOAD_MAX_MILLI : Row := ⟨0x4080, 16, 0x05, 1, 0, .u16, .ro, .const 0, .any⟩
/-- 0x4080+cw:06 STEPS_UP (R123): Clock steps up, wakes included -/
def crown_STEPS_UP : Row := ⟨0x4080, 16, 0x06, 1, 0, .u32, .ro, .const 0, .any⟩
/-- 0x4080+cw:07 STEPS_DOWN (R123): Clock steps down, parks included -/
def crown_STEPS_DOWN : Row := ⟨0x4080, 16, 0x07, 1, 0, .u32, .ro, .const 0, .any⟩
/-- 0x4080+cw:08 REF_HITS (R123): Reference-cache and pyramid reads served from the crown store -/
def crown_REF_HITS : Row := ⟨0x4080, 16, 0x08, 1, 0, .u64, .ro, .const 0, .any⟩
/-- 0x4080+cw:09 REF_MISSES (R123): Reads that needed a memory-port fill -/
def crown_REF_MISSES : Row := ⟨0x4080, 16, 0x09, 1, 0, .u64, .ro, .const 0, .any⟩
/-- 0x4080+cw:0A PORT_BYTES_IN (R123): Bytes read from HBM3 by the memory port, before decompression -/
def crown_PORT_BYTES_IN : Row := ⟨0x4080, 16, 0x0A, 1, 0, .u64, .ro, .const 0, .any⟩
/-- 0x4080+cw:0B PORT_BYTES_OUT (R123): Bytes written to HBM3 by the memory port, after compression -/
def crown_PORT_BYTES_OUT : Row := ⟨0x4080, 16, 0x0B, 1, 0, .u64, .ro, .const 0, .any⟩
/-- 0x4080+cw:0C BANK_CONFLICTS (R123): Requester-cycles lost to bank waits -/
def crown_BANK_CONFLICTS : Row := ⟨0x4080, 16, 0x0C, 1, 0, .u64, .ro, .const 0, .any⟩
/-- 0x4080+cw:0D RETIRED_MASK (R123): Bit k set: CC_(8cw + k) is RETIRED -/
def crown_RETIRED_MASK : Row := ⟨0x4080, 16, 0x0D, 1, 0, .u8, .ro, .const 0, .any⟩
/-- 0x4080+cw:0E TEMP (R123): Crown sensor temperature (0.1 °C) -/
def crown_TEMP : Row := ⟨0x4080, 16, 0x0E, 1, 0, .i16, .ro, .const 0, .any⟩
/-- 0x4080+cw:0F CORRECTED (R123): Sticky count of crown-store bytes corrected. Writing 0 clears it -/
def crown_CORRECTED : Row := ⟨0x4080, 16, 0x0F, 1, 0, .u32, .roClear, .const 0, .any⟩
/-- 0x4100:00 ENTRIES (R149): Highest subindex -/
def cs_ENTRIES : Row := ⟨0x4100, 1, 0x00, 1, 0, .u8, .ro, .const 47, .any⟩
/-- 0x4100:01 BANK_SELECT (R149): Bit n: bank selected for CW_n -/
def cs_BANK_SELECT : Row := ⟨0x4100, 1, 0x01, 1, 0, .u16, .rws, .const 0, .any⟩
/-- 0x4100:02 BANK_ACTIVE (R149): Bit n: bank on which new pictures of CW_n start -/
def cs_BANK_ACTIVE : Row := ⟨0x4100, 1, 0x02, 1, 0, .u16, .ro, .const 0, .any⟩
/-- 0x4100:03 DRAIN_MASK (R149): Bit n: the other bank of CW_n is DRAINING -/
def cs_DRAIN_MASK : Row := ⟨0x4100, 1, 0x03, 1, 0, .u16, .ro, .const 0, .any⟩
/-- 0x4100:04 MICROCODE_ROLLBACK (R149): Microcode anti-rollback counter in OTP, 0–63 -/
def cs_MICROCODE_ROLLBACK : Row := ⟨0x4100, 1, 0x04, 1, 0, .u32, .ro, .const 0, .any⟩
/-- 0x4100:05 RESTORED_WORDS (R149): Sticky count of words restored from the shelf. Writing 0 clears it -/
def cs_RESTORED_WORDS : Row := ⟨0x4100, 1, 0x05, 1, 0, .u32, .roClear, .const 0, .any⟩
/-- 0x4100:06 TRAPS (R149): Sticky count of TRAP, WAIT-limit and return-stack traps. Writing 0 clears it -/
def cs_TRAPS : Row := ⟨0x4100, 1, 0x06, 1, 0, .u32, .roClear, .const 0, .any⟩
/-- 0x4100:10–2F BANK_INFO (R149): IMAGE_ID U32, VERSION U32, ROLLBACK_INDEX U16, STATE U8 (R137), USERS U8 (stages with pictures on the bank, 25 -/
def cs_BANK_INFO : Row := ⟨0x4100, 1, 0x10, 32, 1, (.octets 16), .ro, .const 0, .any⟩
/-- 0x3200+sid:00 ENTRIES (R184): Highest subindex -/
def enc_ENTRIES : Row := ⟨0x3200, 512, 0x00, 1, 0, .u8, .ro, .const 143, .any⟩
/-- 0x3200+sid:01 RUNGS (R184): Encoded outputs, 1–8; 1 for ENCODE, COMPOSE, PLAYOUT -/
def enc_RUNGS : Row := ⟨0x3200, 512, 0x01, 1, 0, .u8, .rws, .const 1, .range 1 8⟩
/-- 0x3200+sid:02 RAP_INTERVAL (R184): Pictures between random-access points; 0 only the first and those of R157 -/
def enc_RAP_INTERVAL : Row := ⟨0x3200, 512, 0x02, 1, 0, .u16, .rws, .const 0, .any⟩
/-- 0x3200+sid:03 GOP_B (R184): B pictures between anchors, 0–7 -/
def enc_GOP_B : Row := ⟨0x3200, 512, 0x03, 1, 0, .u8, .rws, .const 0, .range 0 7⟩
/-- 0x3200+sid:04 REFS (R184): References per picture, 1–4 -/
def enc_REFS : Row := ⟨0x3200, 512, 0x04, 1, 0, .u8, .rws, .const 2, .range 1 4⟩
/-- 0x3200+sid:05 LOOKAHEAD (R184): Pictures of pre-analysis, 0–32 -/
def enc_LOOKAHEAD : Row := ⟨0x3200, 512, 0x05, 1, 0, .u8, .rws, .const 0, .range 0 32⟩
/-- 0x3200+sid:06 REFRESH_MODE (R184): 0 none, 1 column sweep -/
def enc_REFRESH_MODE : Row := ⟨0x3200, 512, 0x06, 1, 0, .u8, .rws, .const 1, .range 0 1⟩
/-- 0x3200+sid:07 REFRESH_PERIOD (R184): Pictures per sweep, 2–255 -/
def enc_REFRESH_PERIOD : Row := ⟨0x3200, 512, 0x07, 1, 0, .u8, .rws, .const 60, .range 2 255⟩
/-- 0x3200+sid:08 DISPLAY_LAG (R184): Output lag behind source (lines); 0 uses MIN_LAG -/
def enc_DISPLAY_LAG : Row := ⟨0x3200, 512, 0x08, 1, 0, .u16, .rws, .const 0, .any⟩
/-- 0x3200+sid:09 EGRESS_LINES (R184): Lines between CD(r) and D(r), 1–1,023 -/
def enc_EGRESS_LINES : Row := ⟨0x3200, 512, 0x09, 1, 0, .u16, .rws, .const 19, .range 1 1023⟩
/-- 0x3200+sid:0A MIN_LAG (R184): Least lag by R169 (lines); 0 when not LIVE -/
def enc_MIN_LAG : Row := ⟨0x3200, 512, 0x0A, 1, 0, .u16, .ro, .const 0, .any⟩
/-- 0x3200+sid:0B RAP_REQUEST (R184): 1 requests a random-access point under R157 -/
def enc_RAP_REQUEST : Row := ⟨0x3200, 512, 0x0B, 1, 0, .bool, .wo, .const 0, .flag⟩
/-- 0x3200+sid:0C PARAM_REPEAT (R184): Pictures between repeated parameter sets, 0–65,535 -/
def enc_PARAM_REPEAT : Row := ⟨0x3200, 512, 0x0C, 1, 0, .u16, .rws, .const 60, .any⟩
/-- 0x3200+sid:0D SEI_MASK (R184): SEI messages and metadata, per the SEI_MASK table -/
def enc_SEI_MASK : Row := ⟨0x3200, 512, 0x0D, 1, 0, .u8, .rws, .const 7, .any⟩
/-- 0x3200+sid:0E TS_OFFSET (R184): Added to every 90 kHz timestamp -/
def enc_TS_OFFSET : Row := ⟨0x3200, 512, 0x0E, 1, 0, .u32, .rws, .const 0, .any⟩
/-- 0x3200+sid:0F EGRESS_LATE (R184): Sticky count of rows sent after D(r) (R168). Writing 0 clears it -/
def enc_EGRESS_LATE : Row := ⟨0x3200, 512, 0x0F, 1, 0, .u32, .roClear, .const 0, .any⟩
/-- 0x3200+sid:10 FORMAT (R184): 0 HEVC, 1 AVC, 2 AV1 -/
def enc_FORMAT : Row := ⟨0x3200, 512, 0x10, 8, 16, .u8, .rws, .const 0, .range 0 2⟩
/-- 0x3200+sid:11 PROFILE (R184): HEVC 1 Main, 2 Main 10; AVC 66 Constrained Baseline, 100 High; AV1 0 Main -/
def enc_PROFILE : Row := ⟨0x3200, 512, 0x11, 8, 16, .u8, .rws, .const 2, .any⟩
/-- 0x3200+sid:12 LEVEL (R184): 0 automatic (R152); else level × 10, as 51 for 5.1 -/
def enc_LEVEL : Row := ⟨0x3200, 512, 0x12, 8, 16, .u8, .rws, .const 0, .any⟩
/-- 0x3200+sid:13 TIER (R184): 0 Main, 1 High; ignored for AVC -/
def enc_TIER : Row := ⟨0x3200, 512, 0x13, 8, 16, .u8, .rws, .const 0, .range 0 1⟩
/-- 0x3200+sid:14 PRESET (R184): 0 SWIFT, 1 STANDARD, 2 FINE -/
def enc_PRESET : Row := ⟨0x3200, 512, 0x14, 8, 16, .u8, .rws, .const 1, .range 0 2⟩
/-- 0x3200+sid:15 WIDTH (R184): Output width (luma samples) -/
def enc_WIDTH : Row := ⟨0x3200, 512, 0x15, 8, 16, .u16, .rws, .const 1920, .any⟩
/-- 0x3200+sid:16 HEIGHT (R184): Output height (luma samples) -/
def enc_HEIGHT : Row := ⟨0x3200, 512, 0x16, 8, 16, .u16, .rws, .const 1080, .any⟩
/-- 0x3200+sid:17 BIT_DEPTH (R184): 8 or 10 -/
def enc_BIT_DEPTH : Row := ⟨0x3200, 512, 0x17, 8, 16, .u8, .rws, .const 10, .oneOf [8, 10]⟩
/-- 0x3200+sid:18 RTP_PT (R184): RTP payload type, 96–127 -/
def enc_RTP_PT : Row := ⟨0x3200, 512, 0x18, 8, 16, .u8, .rws, .plusSub 96, .range 96 127⟩
/-- 0x3200+sid:19 SSRC (R184): RTP SSRC; 0 drawn at STREAM_OPEN -/
def enc_SSRC : Row := ⟨0x3200, 512, 0x19, 8, 16, .u32, .rws, .const 0, .any⟩
/-- 0x3200+sid:1A MTU_PAYLOAD (R184): Largest RTP payload (bytes), 200–9,000 -/
def enc_MTU_PAYLOAD : Row := ⟨0x3200, 512, 0x1A, 8, 16, .u16, .rws, .const 1400, .range 200 9000⟩
/-- 0x3200+sid:1B TS_PID (R184): Video PID, 0x0020–0x1FFE, not 0x1000 -/
def enc_TS_PID : Row := ⟨0x3200, 512, 0x1B, 8, 16, .u16, .rws, .plusSub 256, .rangeBut 0x0020 0x1FFE 0x1000⟩
/-- 0x3200+sid:1C TS_MUX_RATE (R184): Transport-stream rate (bit/s); 0 variable -/
def enc_TS_MUX_RATE : Row := ⟨0x3200, 512, 0x1C, 8, 16, .u32, .rws, .const 0, .any⟩
/-- 0x3200+sid:1D FEC_MODE (R184): 0 none, 1 column, 2 column and row -/
def enc_FEC_MODE : Row := ⟨0x3200, 512, 0x1D, 8, 16, .u8, .rws, .const 0, .range 0 2⟩
/-- 0x3200+sid:1E FEC_L (R184): FEC columns, 1–20 -/
def enc_FEC_L : Row := ⟨0x3200, 512, 0x1E, 8, 16, .u8, .rws, .const 10, .range 1 20⟩
/-- 0x3200+sid:1F FEC_D (R184): FEC rows, 4–20 -/
def enc_FEC_D : Row := ⟨0x3200, 512, 0x1F, 8, 16, .u8, .rws, .const 10, .range 4 20⟩
/-- 0x3400+sid:00 ENTRIES (R206): Highest subindex -/
def rc_ENTRIES : Row := ⟨0x3400, 512, 0x00, 1, 0, .u8, .ro, .const 143, .any⟩
/-- 0x3400+sid:01–08 STATUS_0–STATUS_7 (R206): Last completed picture of rung 0–7, per the status table -/
def rc_STATUS : Row := ⟨0x3400, 512, 0x01, 8, 1, (.octets 44), .ro, .const 0, .any⟩
/-- 0x3400+sid:09 BULK_RATE_NUM (R206): Frame-rate numerator for a BULK stream (Hz) -/
def rc_BULK_RATE_NUM : Row := ⟨0x3400, 512, 0x09, 1, 0, .u32, .rws, .const 60, .any⟩
/-- 0x3400+sid:0A BULK_RATE_DEN (R206): Frame-rate denominator, 1 or 1,001 -/
def rc_BULK_RATE_DEN : Row := ⟨0x3400, 512, 0x0A, 1, 0, .u32, .rws, .const 1, .oneOf [1, 1001]⟩
/-- 0x3400+sid:10 MODE (R206): 0 CBR, 1 VBR, 2 CAPPED_VBR, 3 FIXED_QP, 4 LIVE_ROW -/
def rc_MODE : Row := ⟨0x3400, 512, 0x10, 8, 16, .u8, .rws, .const 4, .range 0 4⟩
/-- 0x3400+sid:11 BITRATE (R206): Target rate (bit/s); unused in CAPPED_VBR and FIXED_QP -/
def rc_BITRATE : Row := ⟨0x3400, 512, 0x11, 8, 16, .u32, .rws, .const 8000000, .any⟩
/-- 0x3400+sid:12 MAX_BITRATE (R206): Peak rate (bit/s); 0 as R197 gives -/
def rc_MAX_BITRATE : Row := ⟨0x3400, 512, 0x12, 8, 16, .u32, .rws, .const 0, .any⟩
/-- 0x3400+sid:13 CPB_BITS (R206): CPB size (bits); 0 as R201 gives -/
def rc_CPB_BITS : Row := ⟨0x3400, 512, 0x13, 8, 16, .u32, .rws, .const 0, .any⟩
/-- 0x3400+sid:14 INIT_FULLNESS (R206): F_0 (per mille of CPB_BITS), 100–1,000 -/
def rc_INIT_FULLNESS : Row := ⟨0x3400, 512, 0x14, 8, 16, .u16, .rws, .const 900, .range 100 1000⟩
/-- 0x3400+sid:15 QP_LOW (R206): Lowest row QP, 0–50 -/
def rc_QP_LOW : Row := ⟨0x3400, 512, 0x15, 8, 16, .u8, .rws, .const 10, .range 0 50⟩
/-- 0x3400+sid:16 QP_HIGH (R206): Highest row QP, QP_LOW + 1 to 51 -/
def rc_QP_HIGH : Row := ⟨0x3400, 512, 0x16, 8, 16, .u8, .rws, .const 51, .range 1 51⟩
/-- 0x3400+sid:17 QP_TARGET (R206): CAPPED_VBR quality QP; FIXED_QP row QP, 0–51 -/
def rc_QP_TARGET : Row := ⟨0x3400, 512, 0x17, 8, 16, .u8, .rws, .const 30, .range 0 51⟩
/-- 0x3400+sid:18 ROW_CAP (R206): Row cap (per cent of share, or of N_row in LIVE_ROW), 110–1,000 -/
def rc_ROW_CAP : Row := ⟨0x3400, 512, 0x18, 8, 16, .u16, .rws, .const 300, .range 110 1000⟩
/-- 0x3400+sid:19 ROW_QP_STEP (R206): Largest QP change from the row above, 1–12 -/
def rc_ROW_QP_STEP : Row := ⟨0x3400, 512, 0x19, 8, 16, .u8, .rws, .const 4, .range 1 12⟩
/-- 0x3400+sid:1A DEBT_SPREAD (R206): Pictures over which debt is repaid, 1–64 -/
def rc_DEBT_SPREAD : Row := ⟨0x3400, 512, 0x1A, 8, 16, .u8, .rws, .const 8, .range 1 64⟩
/-- 0x3400+sid:1B BRIM_ENTRY (R206): Brim-mode threshold (bits per block), 0–255 -/
def rc_BRIM_ENTRY : Row := ⟨0x3400, 512, 0x1B, 8, 16, .u8, .rws, .const 24, .any⟩
/-- 0x3400+sid:1C AQ_STRENGTH (R206): Largest block QP offset, 0–8 -/
def rc_AQ_STRENGTH : Row := ⟨0x3400, 512, 0x1C, 8, 16, .u8, .rws, .const 4, .range 0 8⟩
/-- 0x3400+sid:1D HRD_SIGNAL (R206): Signal HRD or decoder-model parameters -/
def rc_HRD_SIGNAL : Row := ⟨0x3400, 512, 0x1D, 8, 16, .bool, .rws, .const 1, .flag⟩
/-- 0x3400+sid:1E BRIM_ROWS (R206): Sticky count of rows coded in brim mode. Writing 0 clears it -/
def rc_BRIM_ROWS : Row := ⟨0x3400, 512, 0x1E, 8, 16, .u32, .roClear, .const 0, .any⟩
/-- 0x3400+sid:1F BRIM_BLOCKS (R206): Sticky count of fallback blocks (R193). Writing 0 clears it -/
def rc_BRIM_BLOCKS : Row := ⟨0x3400, 512, 0x1F, 8, 16, .u32, .roClear, .const 0, .any⟩
/-- 0x3600+sid:00 ENTRIES (R244): Highest subindex -/
def dec_ENTRIES : Row := ⟨0x3600, 512, 0x00, 1, 0, .u8, .ro, .const 47, .any⟩
/-- 0x3600+sid:01 START_MODE (R244): R236, 0–2 -/
def dec_START_MODE : Row := ⟨0x3600, 512, 0x01, 1, 0, .u8, .rws, .const 2, .range 0 2⟩
/-- 0x3600+sid:02 REORDER_WINDOW (R244): Packets, 1–64 -/
def dec_REORDER_WINDOW : Row := ⟨0x3600, 512, 0x02, 1, 0, .u8, .rws, .const 8, .range 1 64⟩
/-- 0x3600+sid:03 REORDER_LINES (R244): Lines, 1–1,023 -/
def dec_REORDER_LINES : Row := ⟨0x3600, 512, 0x03, 1, 0, .u16, .rws, .const 8, .range 1 1023⟩
/-- 0x3600+sid:04 STILL_LIMIT (R244): Quarter samples, 0–64 -/
def dec_STILL_LIMIT : Row := ⟨0x3600, 512, 0x04, 1, 0, .u8, .rws, .const 4, .range 0 64⟩
/-- 0x3600+sid:05 COHERENCE_LIMIT (R244): Quarter samples, 1–255 -/
def dec_COHERENCE_LIMIT : Row := ⟨0x3600, 512, 0x05, 1, 0, .u8, .rws, .const 16, .range 1 255⟩
/-- 0x3600+sid:06 SCENE_CUT (R244): Intra blocks (per mille), 1–1,000 -/
def dec_SCENE_CUT : Row := ⟨0x3600, 512, 0x06, 1, 0, .u16, .rws, .const 500, .range 1 1000⟩
/-- 0x3600+sid:07 FILM_GRAIN (R244): Apply AV1 film grain -/
def dec_FILM_GRAIN : Row := ⟨0x3600, 512, 0x07, 1, 0, .bool, .rws, .const 1, .flag⟩
/-- 0x3600+sid:08 INPUT_TIMEOUT (R244): Frames, 1–65,535 -/
def dec_INPUT_TIMEOUT : Row := ⟨0x3600, 512, 0x08, 1, 0, .u16, .rws, .const 30, .range 1 65535⟩
/-- 0x3600+sid:09 LOSS_ACTION (R244): 0 hold, 1 black, 2 mid-level -/
def dec_LOSS_ACTION : Row := ⟨0x3600, 512, 0x09, 1, 0, .u8, .rws, .const 0, .range 0 2⟩
/-- 0x3600+sid:0A DD_OFFSET (R244): R221 (lines); 0 when not LIVE -/
def dec_DD_OFFSET : Row := ⟨0x3600, 512, 0x0A, 1, 0, .u16, .ro, .const 0, .any⟩
/-- 0x3600+sid:0B GIVEUP_LINES (R244): R221 (lines) -/
def dec_GIVEUP_LINES : Row := ⟨0x3600, 512, 0x0B, 1, 0, .u16, .ro, .const 0, .any⟩
/-- 0x3600+sid:0C MX_LINES (R244): R221 (lines) -/
def dec_MX_LINES : Row := ⟨0x3600, 512, 0x0C, 1, 0, .u16, .ro, .const 0, .any⟩
/-- 0x3600+sid:10–1F LAYER_CFG_0–15 (R244): Input layer configuration -/
def dec_LAYER_CFG : Row := ⟨0x3600, 512, 0x10, 16, 1, (.octets 16), .rw, .const 0xA000000000000043807800000, .any⟩
/-- 0x3600+sid:20–2F LAYER_STATUS_0–15 (R244): Input layer status and counters -/
def dec_LAYER_STATUS : Row := ⟨0x3600, 512, 0x20, 16, 1, (.octets 84), .ro, .const 0, .any⟩
/-- 0x3800+sid:00 ENTRIES (R270): Highest subindex -/
def cond_ENTRIES : Row := ⟨0x3800, 512, 0x00, 1, 0, .u8, .ro, .const 48, .any⟩
/-- 0x3800+sid:01 CANVAS_WIDTH (R270): Canvas width, 64–8,192 -/
def cond_CANVAS_WIDTH : Row := ⟨0x3800, 512, 0x01, 1, 0, .u16, .rws, .const 1920, .range 64 8192⟩
/-- 0x3800+sid:02 CANVAS_HEIGHT (R270): Canvas height, 64–4,352 -/
def cond_CANVAS_HEIGHT : Row := ⟨0x3800, 512, 0x02, 1, 0, .u16, .rws, .const 1080, .range 64 4352⟩
/-- 0x3800+sid:03 BACKGROUND (R270): Y [29:20], Cb [19:10], Cr [9:0] at 10 bits, limited range -/
def cond_BACKGROUND : Row := ⟨0x3800, 512, 0x03, 1, 0, .u32, .rws, .const 67633664, .any⟩
/-- 0x3800+sid:04 CANVAS_COLOUR (R270): Colour code of the canvas -/
def cond_CANVAS_COLOUR : Row := ⟨0x3800, 512, 0x04, 1, 0, .u8, .rws, .const 0, .any⟩
/-- 0x3800+sid:05 CANVAS_RANGE (R270): 0 limited, 1 full -/
def cond_CANVAS_RANGE : Row := ⟨0x3800, 512, 0x05, 1, 0, .u8, .rws, .const 0, .range 0 1⟩
/-- 0x3800+sid:06 RAW_LAYOUT (R270): Layout of raw outputs -/
def cond_RAW_LAYOUT : Row := ⟨0x3800, 512, 0x06, 1, 0, .u8, .rws, .const 2, .any⟩
/-- 0x3800+sid:07 RAW_PITCH (R270): Line pitch of raw outputs (bytes) -/
def cond_RAW_PITCH : Row := ⟨0x3800, 512, 0x07, 1, 0, .u16, .rws, .const 0, .any⟩
/-- 0x3800+sid:08 COLOUR_IN_DEFAULT (R270): Colour code, 1–4, of undescribed sources -/
def cond_COLOUR_IN_DEFAULT : Row := ⟨0x3800, 512, 0x08, 1, 0, .u8, .rws, .const 1, .range 1 4⟩
/-- 0x3800+sid:09 HDR_META_SRC (R270): R258, 0–2 -/
def cond_HDR_META_SRC : Row := ⟨0x3800, 512, 0x09, 1, 0, .u8, .rws, .const 0, .range 0 2⟩
/-- 0x3800+sid:0A HDR_META (R270): Display primaries 6 × U16, white point 2 × U16, max and min luminance 2 × U32, MaxCLL U16, MaxFALL U16 -/
def cond_HDR_META : Row := ⟨0x3800, 512, 0x0A, 1, 0, (.octets 28), .rws, .const 0, .any⟩
/-- 0x3800+sid:0B COLOUR_MISMATCH (R270): Sticky count of R255. Writing 0 clears it -/
def cond_COLOUR_MISMATCH : Row := ⟨0x3800, 512, 0x0B, 1, 0, .u32, .roClear, .const 0, .any⟩
/-- 0x3800+sid:0C CROP_CLIPPED (R270): Sticky count of R248. Writing 0 clears it -/
def cond_CROP_CLIPPED : Row := ⟨0x3800, 512, 0x0C, 1, 0, .u32, .roClear, .const 0, .any⟩
/-- 0x3800+sid:0D LAYER_REPEATS (R270): Sticky count of R261. Writing 0 clears it -/
def cond_LAYER_REPEATS : Row := ⟨0x3800, 512, 0x0D, 1, 0, .u32, .roClear, .const 0, .any⟩
/-- 0x3800+sid:0E RAW_REJECTED (R270): Sticky count of R268. Writing 0 clears it -/
def cond_RAW_REJECTED : Row := ⟨0x3800, 512, 0x0E, 1, 0, .u32, .roClear, .const 0, .any⟩
/-- 0x3800+sid:0F RAW_LAYOUT_IN (R270): Layout expected from host raw input -/
def cond_RAW_LAYOUT_IN : Row := ⟨0x3800, 512, 0x0F, 1, 0, .u8, .rws, .const 2, .any⟩
/-- 0x3800+sid:10–17 RUNG_COND_0–7 (R270): Conditioning to rung 0–7 or to the raw output -/
def cond_RUNG_COND : Row := ⟨0x3800, 512, 0x10, 8, 1, (.octets 16), .rws, .const 0, .any⟩
/-- 0x3800+sid:20–2F LAYER_0–15 (R270): Composition layers -/
def cond_LAYER : Row := ⟨0x3800, 512, 0x20, 16, 1, (.octets 32), .rws, .const 0, .any⟩
/-- 0x3800+sid:30 PASSES (R270): 8 bytes per pass: PASS U8 (rung, or 0x10 composition), IC U8, LOAD U16 (per mille), RATE U32 (kpixel/s) -/
def cond_PASSES : Row := ⟨0x3800, 512, 0x30, 1, 0, .domain, .ro, .const 0, .any⟩
/-- 0x4200+ic:00 ENTRIES (R271): Highest subindex -/
def ic_ENTRIES : Row := ⟨0x4200, 8, 0x00, 1, 0, .u8, .ro, .const 9, .any⟩
/-- 0x4200+ic:01 STATE (R271): 0 IDLE, 1 ACTIVE, 2 OUT_OF_SERVICE -/
def ic_STATE : Row := ⟨0x4200, 8, 0x01, 1, 0, .u8, .ro, .const 0, .any⟩
/-- 0x4200+ic:02 OUT_OF_SERVICE (R271): R266 -/
def ic_OUT_OF_SERVICE : Row := ⟨0x4200, 8, 0x02, 1, 0, .bool, .rw, .const 0, .flag⟩
/-- 0x4200+ic:03 LOAD_MILLI (R271): Placed load (per mille of 2 Gpixel/s) -/
def ic_LOAD_MILLI : Row := ⟨0x4200, 8, 0x03, 1, 0, .u16, .ro, .const 0, .any⟩
/-- 0x4200+ic:04 PASSES (R271): 8 bytes per pass: SID U16, PASS U8, reserved U8, RATE U32 (kpixel/s) -/
def ic_PASSES : Row := ⟨0x4200, 8, 0x04, 1, 0, .domain, .ro, .const 0, .any⟩
/-- 0x4200+ic:05 TILE_CROWN (R271): Crown whose banks 14–15 are in use -/
def ic_TILE_CROWN : Row := ⟨0x4200, 8, 0x05, 1, 0, .u8, .ro, .plusTwice 0, .any⟩
/-- 0x4200+ic:06 PIXELS_OUT (R271): Pixels written -/
def ic_PIXELS_OUT : Row := ⟨0x4200, 8, 0x06, 1, 0, .u64, .ro, .const 0, .any⟩
/-- 0x4200+ic:07 TILES_TURNED (R271): Tiles turned under R252 -/
def ic_TILES_TURNED : Row := ⟨0x4200, 8, 0x07, 1, 0, .u64, .ro, .const 0, .any⟩
/-- 0x4200+ic:08 STRIPS_LATE (R271): Sticky count of R265. Writing 0 clears it -/
def ic_STRIPS_LATE : Row := ⟨0x4200, 8, 0x08, 1, 0, .u32, .roClear, .const 0, .any⟩
/-- 0x4200+ic:09 CORRECTED (R271): Sticky count of bytes corrected. Writing 0 clears it -/
def ic_CORRECTED : Row := ⟨0x4200, 8, 0x09, 1, 0, .u32, .roClear, .const 0, .any⟩
/-- 0x5000+region:00 ENTRIES (R304): Highest subindex -/
def reg_ENTRIES : Row := ⟨0x5000, 256, 0x00, 1, 0, .u8, .ro, .const 14, .any⟩
/-- 0x5000+region:01 KIND (R304): 0 OPEN, 1 PROTECTED, 255 no region -/
def reg_KIND : Row := ⟨0x5000, 256, 0x01, 1, 0, .u8, .ro, .const 255, .any⟩
/-- 0x5000+region:02 T (R304): Page strength; for OPEN, 1 if zero-filled -/
def reg_T : Row := ⟨0x5000, 256, 0x02, 1, 0, .u8, .ro, .const 0, .any⟩
/-- 0x5000+region:03 BASE (R304): First data address -/
def reg_BASE : Row := ⟨0x5000, 256, 0x03, 1, 0, .u64, .ro, .const 0, .any⟩
/-- 0x5000+region:04 SIZE (R304): Data bytes -/
def reg_SIZE : Row := ⟨0x5000, 256, 0x04, 1, 0, .u64, .ro, .const 0, .any⟩
/-- 0x5000+region:05 EXTENT (R304): HBM3 bytes occupied -/
def reg_EXTENT : Row := ⟨0x5000, 256, 0x05, 1, 0, .u64, .ro, .const 0, .any⟩
/-- 0x5000+region:06 USERS (R304): Users counted by R281 -/
def reg_USERS : Row := ⟨0x5000, 256, 0x06, 1, 0, .u16, .ro, .const 0, .any⟩
/-- 0x5000+region:07 WRITES_REJECTED (R304): Sticky count of partial writes. Writing 0 clears it -/
def reg_WRITES_REJECTED : Row := ⟨0x5000, 256, 0x07, 1, 0, .u32, .roClear, .const 0, .any⟩
/-- 0x5000+region:08 CORRECTED_BITS (R304): Sticky count of bits corrected by reads and scrubs. Writing 0 clears it -/
def reg_CORRECTED_BITS : Row := ⟨0x5000, 256, 0x08, 1, 0, .u64, .roClear, .const 0, .any⟩
/-- 0x5000+region:09 UNCORRECTABLE_READS (R304): Sticky count. Writing 0 clears it -/
def reg_UNCORRECTABLE_READS : Row := ⟨0x5000, 256, 0x09, 1, 0, .u32, .roClear, .const 0, .any⟩
/-- 0x5000+region:0A MAX_IN_PAGE (R304): Highest n since cleared. Writing 0 clears it -/
def reg_MAX_IN_PAGE : Row := ⟨0x5000, 256, 0x0A, 1, 0, .u8, .roClear, .const 0, .any⟩
/-- 0x5000+region:0B BAD_PAGES (R304): Addresses U64 of listed pages, at most 64, oldest dropped first -/
def reg_BAD_PAGES : Row := ⟨0x5000, 256, 0x0B, 1, 0, .domain, .ro, .const 0, .any⟩
/-- 0x5000+region:0C LAST_SCRUB (R304): Summary of the last SCRUB (R298) -/
def reg_LAST_SCRUB : Row := ⟨0x5000, 256, 0x0C, 1, 0, (.octets 21), .ro, .const 0, .any⟩
/-- 0x5000+region:0D LAST_SCRUB_AT (R304): RD_0 time of its completion -/
def reg_LAST_SCRUB_AT : Row := ⟨0x5000, 256, 0x0D, 1, 0, .rtime, .ro, .const 0, .any⟩
/-- 0x5000+region:0E CREATED_AT (R304): RD_0 time of REGION_CREATE's completion -/
def reg_CREATED_AT : Row := ⟨0x5000, 256, 0x0E, 1, 0, .rtime, .ro, .const 0, .any⟩
/-- 0x5100:00 ENTRIES (R305): Highest subindex -/
def hbm_ENTRIES : Row := ⟨0x5100, 1, 0x00, 1, 0, .u8, .ro, .const 18, .any⟩
/-- 0x5100:01 NR_K (R305): Neighbour refresh probability 2^−k, 6–14 -/
def hbm_NR_K : Row := ⟨0x5100, 1, 0x01, 1, 0, .u8, .rws, .const 10, .range 6 14⟩
/-- 0x5100:02 NR_RADIUS (R305): 1 rows ±1; 2 rows ±1 and ±2 -/
def hbm_NR_RADIUS : Row := ⟨0x5100, 1, 0x02, 1, 0, .u8, .rws, .const 1, .range 1 2⟩
/-- 0x5100:03 TEMP_HIGH (R305): Doubled-refresh threshold (°C), 75–95 -/
def hbm_TEMP_HIGH : Row := ⟨0x5100, 1, 0x03, 1, 0, .u8, .rws, .const 85, .range 75 95⟩
/-- 0x5100:04 RETRAIN_INTERVAL (R305): Retrain interval per pseudo-channel (ms), 20–1,000 -/
def hbm_RETRAIN_INTERVAL : Row := ⟨0x5100, 1, 0x04, 1, 0, .u16, .rws, .const 100, .range 20 1000⟩
/-- 0x5100:05 RETRAIN_ALIGN (R305): Place pauses in RD_0 blanking when LOCKED -/
def hbm_RETRAIN_ALIGN : Row := ⟨0x5100, 1, 0x05, 1, 0, .bool, .rws, .const 1, .flag⟩
/-- 0x5100:06 WRITEBACK_BITS (R305): Write back pages with at least this many corrected bits, 1–64 -/
def hbm_WRITEBACK_BITS : Row := ⟨0x5100, 1, 0x06, 1, 0, .u8, .rws, .const 1, .range 1 64⟩
/-- 0x5100:07 TEMP_0 (R305): HS_0 temperature (0.1 °C) -/
def hbm_TEMP_0 : Row := ⟨0x5100, 1, 0x07, 1, 0, .i16, .ro, .const 0, .any⟩
/-- 0x5100:08 TEMP_1 (R305): HS_1 temperature (0.1 °C) -/
def hbm_TEMP_1 : Row := ⟨0x5100, 1, 0x08, 1, 0, .i16, .ro, .const 0, .any⟩
/-- 0x5100:09 REFRESH_X2 (R305): Bit s: HS_s at doubled refresh -/
def hbm_REFRESH_X2 : Row := ⟨0x5100, 1, 0x09, 1, 0, .u8, .ro, .const 0, .any⟩
/-- 0x5100:0A NR_ACTIVATES (R305): ACTs issued by neighbour refresh -/
def hbm_NR_ACTIVATES : Row := ⟨0x5100, 1, 0x0A, 1, 0, .u64, .ro, .const 0, .any⟩
/-- 0x5100:0B RETRAINS (R305): Retrains completed -/
def hbm_RETRAINS : Row := ⟨0x5100, 1, 0x0B, 1, 0, .u64, .ro, .const 0, .any⟩
/-- 0x5100:0C RETRAIN_LATE (R305): Sticky count (R291). Writing 0 clears it -/
def hbm_RETRAIN_LATE : Row := ⟨0x5100, 1, 0x0C, 1, 0, .u32, .roClear, .const 0, .any⟩
/-- 0x5100:0D PAUSE_MAX (R305): Longest retrain or repair pause (ns) -/
def hbm_PAUSE_MAX : Row := ⟨0x5100, 1, 0x0D, 1, 0, .u16, .ro, .const 0, .any⟩
/-- 0x5100:0E SEVERITY_CORRECTED (R305): Sticky count (R286). Writing 0 clears it -/
def hbm_SEVERITY_CORRECTED : Row := ⟨0x5100, 1, 0x0E, 1, 0, .u32, .roClear, .const 0, .any⟩
/-- 0x5100:0F PARITY_RETRIES (R305): Sticky count (R286). Writing 0 clears it -/
def hbm_PARITY_RETRIES : Row := ⟨0x5100, 1, 0x0F, 1, 0, .u32, .roClear, .const 0, .any⟩
/-- 0x5100:10 BYTES_READ (R305): Bytes read by all masters, trailers included -/
def hbm_BYTES_READ : Row := ⟨0x5100, 1, 0x10, 1, 0, .u64, .ro, .const 0, .any⟩
/-- 0x5100:11 BYTES_WRITTEN (R305): Bytes written by all masters, trailers included -/
def hbm_BYTES_WRITTEN : Row := ⟨0x5100, 1, 0x11, 1, 0, .u64, .ro, .const 0, .any⟩
/-- 0x5100:12 PC_STATUS (R305): 16 bytes per pseudo-channel: PC U8, STATE U8 (0 running, 1 paused, 2 failed), RETRAIN_FAILS U8, PPR_USED U8, L -/
def hbm_PC_STATUS : Row := ⟨0x5100, 1, 0x12, 1, 0, .domain, .ro, .const 0, .any⟩
/-- 0x5180:00 ENTRIES (R306): Highest subindex -/
def sto_ENTRIES : Row := ⟨0x5180, 1, 0x00, 1, 0, .u8, .ro, .const 13, .any⟩
/-- 0x5180:01 SCRUB_RATE (R306): Largest SCRUB read rate (GB/s), 8–400 -/
def sto_SCRUB_RATE : Row := ⟨0x5180, 1, 0x01, 1, 0, .u16, .rws, .const 64, .range 8 400⟩
/-- 0x5180:02 LAP_LIMIT_MS (R306): Lap limit (ms), 10–10,000 -/
def sto_LAP_LIMIT_MS : Row := ⟨0x5180, 1, 0x02, 1, 0, .u16, .rws, .const 100, .range 10 10000⟩
/-- 0x5180:03 LAP_CONTROL (R306): Last lap of the slowest control store (ns) -/
def sto_LAP_CONTROL : Row := ⟨0x5180, 1, 0x03, 1, 0, .u32, .ro, .const 0, .any⟩
/-- 0x5180:04 LAP_TABLES (R306): Last lap of the slower forwarding engine (µs) -/
def sto_LAP_TABLES : Row := ⟨0x5180, 1, 0x04, 1, 0, .u32, .ro, .const 0, .any⟩
/-- 0x5180:05 LAP_SECURITY (R306): Last lap of the security island SRAM (µs) -/
def sto_LAP_SECURITY : Row := ⟨0x5180, 1, 0x05, 1, 0, .u32, .ro, .const 0, .any⟩
/-- 0x5180:06 LAP_DICTIONARY (R306): Last lap of the dictionary shadow (µs) -/
def sto_LAP_DICTIONARY : Row := ⟨0x5180, 1, 0x06, 1, 0, .u32, .ro, .const 0, .any⟩
/-- 0x5180:07 LAP_OVERRUNS (R306): Sticky count. Writing 0 clears it -/
def sto_LAP_OVERRUNS : Row := ⟨0x5180, 1, 0x07, 1, 0, .u32, .roClear, .const 0, .any⟩
/-- 0x5180:08 SRAM_CORRECTED (R306): Sticky count of on-chip bytes corrected. Writing 0 clears it -/
def sto_SRAM_CORRECTED : Row := ⟨0x5180, 1, 0x08, 1, 0, .u64, .roClear, .const 0, .any⟩
/-- 0x5180:09 SRAM_UNCORRECTABLE (R306): Sticky count. Writing 0 clears it -/
def sto_SRAM_UNCORRECTABLE : Row := ⟨0x5180, 1, 0x09, 1, 0, .u32, .roClear, .const 0, .any⟩
/-- 0x5180:0A SCRUB_BAD (R306): Uncorrectable page addresses U64 of the last SCRUB -/
def sto_SCRUB_BAD : Row := ⟨0x5180, 1, 0x0A, 1, 0, .domain, .ro, .const 0, .any⟩
/-- 0x5180:0B FUSE_ENTRIES_LEFT (R306): Free field fuse entries, 0–64 -/
def sto_FUSE_ENTRIES_LEFT : Row := ⟨0x5180, 1, 0x0B, 1, 0, .u8, .ro, .const 64, .any⟩
/-- 0x5180:0C FUSE_TABLE (R306): 16 bytes per used entry: ENTRY U8, TARGET U8, STATE U8 (1 in effect, 2 pending reset, 3 failed), reserved U8,  -/
def sto_FUSE_TABLE : Row := ⟨0x5180, 1, 0x0C, 1, 0, .domain, .ro, .const 0, .any⟩
/-- 0x5180:0D STORE_CORRECTED (R306): 12 bytes per STORE code of R302: STORE U8, reserved (3), CORRECTED U32, UNCORRECTABLE U32 -/
def sto_STORE_CORRECTED : Row := ⟨0x5180, 1, 0x0D, 1, 0, .domain, .ro, .const 0, .any⟩
/-- 0x5200+pool:00 ENTRIES (R328): Highest subindex -/
def pool_ENTRIES : Row := ⟨0x5200, 16, 0x00, 1, 0, .u8, .ro, .const 25, .any⟩
/-- 0x5200+pool:01 ENABLE (R328): Pool allocated (R308) -/
def pool_ENABLE : Row := ⟨0x5200, 16, 0x01, 1, 0, .bool, .rw, .first 1 0, .range 0 1⟩
/-- 0x5200+pool:02 REGION (R328): Region holding the pool -/
def pool_REGION : Row := ⟨0x5200, 16, 0x02, 1, 0, .u8, .rw, .const 0, .any⟩
/-- 0x5200+pool:03 BATTS (R328): Batts, 1,024–16,777,216 -/
def pool_BATTS : Row := ⟨0x5200, 16, 0x03, 1, 0, .u32, .rw, .first 262144 0, .range 1024 16777216⟩
/-- 0x5200+pool:04 BASE (R328): Address of batt 0 -/
def pool_BASE : Row := ⟨0x5200, 16, 0x04, 1, 0, .u64, .ro, .const 0, .any⟩
/-- 0x5200+pool:05 CLASS_DEFAULT (R328): Bit 0 LIVE, 1 PACED, 2 BULK outputs; bit 3 host -/
def pool_CLASS_DEFAULT : Row := ⟨0x5200, 16, 0x05, 1, 0, .u8, .rws, .first 15 0, .any⟩
/-- 0x5200+pool:06 HOST_MIN (R328): Host minimum (batts) -/
def pool_HOST_MIN : Row := ⟨0x5200, 16, 0x06, 1, 0, .u32, .rws, .const 0, .any⟩
/-- 0x5200+pool:07 REFILL_MARK (R328): Cache refill watermark -/
def pool_REFILL_MARK : Row := ⟨0x5200, 16, 0x07, 1, 0, .u8, .rws, .const 16, .any⟩
/-- 0x5200+pool:08 SPILL_MARK (R328): Cache spill watermark -/
def pool_SPILL_MARK : Row := ⟨0x5200, 16, 0x08, 1, 0, .u8, .rws, .const 48, .any⟩
/-- 0x5200+pool:09 WARN_1 (R328): Shared free (per mille) -/
def pool_WARN_1 : Row := ⟨0x5200, 16, 0x09, 1, 0, .u16, .rws, .const 250, .any⟩
/-- 0x5200+pool:0A WARN_2 (R328): Shared free (per mille) -/
def pool_WARN_2 : Row := ⟨0x5200, 16, 0x0A, 1, 0, .u16, .rws, .const 125, .any⟩
/-- 0x5200+pool:0B WARN_3 (R328): Shared free (per mille) -/
def pool_WARN_3 : Row := ⟨0x5200, 16, 0x0B, 1, 0, .u16, .rws, .const 50, .any⟩
/-- 0x5200+pool:0C WARN_HYST (R328): Release hysteresis (per mille) -/
def pool_WARN_HYST : Row := ⟨0x5200, 16, 0x0C, 1, 0, .u16, .rws, .const 20, .any⟩
/-- 0x5200+pool:0D WARN_STATE (R328): Highest level asserted, 0–3 -/
def pool_WARN_STATE : Row := ⟨0x5200, 16, 0x0D, 1, 0, .u8, .ro, .const 0, .any⟩
/-- 0x5200+pool:0E RESERVED (R328): Minima plus pinned batts -/
def pool_RESERVED : Row := ⟨0x5200, 16, 0x0E, 1, 0, .u32, .ro, .const 0, .any⟩
/-- 0x5200+pool:0F SHARED (R328): BATTS − RESERVED -/
def pool_SHARED : Row := ⟨0x5200, 16, 0x0F, 1, 0, .u32, .ro, .const 0, .any⟩
/-- 0x5200+pool:10 SHARED_IN_USE (R328): Shared batts in use -/
def pool_SHARED_IN_USE : Row := ⟨0x5200, 16, 0x10, 1, 0, .u32, .ro, .const 0, .any⟩
/-- 0x5200+pool:11 PINNED (R328): Pinned batts -/
def pool_PINNED : Row := ⟨0x5200, 16, 0x11, 1, 0, .u32, .ro, .const 0, .any⟩
/-- 0x5200+pool:12 LOW_SHARED_FREE (R328): Lowest shared free count. Writing 0 restarts it from the present value -/
def pool_LOW_SHARED_FREE : Row := ⟨0x5200, 16, 0x12, 1, 0, .u32, .roClear, .const 0, .any⟩
/-- 0x5200+pool:13 WARN_CROSSINGS (R328): Sticky count. Writing 0 clears it -/
def pool_WARN_CROSSINGS : Row := ⟨0x5200, 16, 0x13, 1, 0, .u32, .roClear, .const 0, .any⟩
/-- 0x5200+pool:14 PAUSE_DISCARDS (R328): Sticky count. Writing 0 clears it -/
def pool_PAUSE_DISCARDS : Row := ⟨0x5200, 16, 0x14, 1, 0, .u32, .roClear, .const 0, .any⟩
/-- 0x5200+pool:15 LIVE_DROPS (R328): Sticky count. Writing 0 clears it -/
def pool_LIVE_DROPS : Row := ⟨0x5200, 16, 0x15, 1, 0, .u32, .roClear, .const 0, .any⟩
/-- 0x5200+pool:16 NO_BATT_DROPS (R328): Sticky count (R312). Writing 0 clears it -/
def pool_NO_BATT_DROPS : Row := ⟨0x5200, 16, 0x16, 1, 0, .u32, .roClear, .const 0, .any⟩
/-- 0x5200+pool:17 REPLICATION_DROPS (R328): Sticky count (R315). Writing 0 clears it -/
def pool_REPLICATION_DROPS : Row := ⟨0x5200, 16, 0x17, 1, 0, .u32, .roClear, .const 0, .any⟩
/-- 0x5200+pool:18 CACHE_STALLS (R328): Cycles waited for a refill -/
def pool_CACHE_STALLS : Row := ⟨0x5200, 16, 0x18, 1, 0, .u64, .ro, .const 0, .any⟩
/-- 0x5200+pool:19 OWNERS (R328): 12 bytes per owner: KIND U8, reserved U8, ID U16, MIN U32, IN_USE U32 -/
def pool_OWNERS : Row := ⟨0x5200, 16, 0x19, 1, 0, .domain, .ro, .const 0, .any⟩
/-- 0x5300+g:00 ENTRIES (R329): Highest subindex -/
def qg_ENTRIES : Row := ⟨0x5300, 256, 0x00, 1, 0, .u8, .ro, .const 6, .any⟩
/-- 0x5300+g:01 INGEST_POOL (R329): Pool for the port's ingest; must be enabled -/
def qg_INGEST_POOL : Row := ⟨0x5300, 256, 0x01, 1, 0, .u8, .rws, .const 0, .range 0 15⟩
/-- 0x5300+g:02 INGEST_MIN (R329): Port minimum (batts) -/
def qg_INGEST_MIN : Row := ⟨0x5300, 256, 0x02, 1, 0, .u32, .rws, .const 0, .any⟩
/-- 0x5300+g:03 DEPTH_LIMIT (R329): Entries per queue, 64–2,621,440 -/
def qg_DEPTH_LIMIT : Row := ⟨0x5300, 256, 0x03, 1, 0, .u32, .rws, .const 16384, .range 64 2621440⟩
/-- 0x5300+g:04 FLUSH (R329): Bit k flushes queue k of the group -/
def qg_FLUSH : Row := ⟨0x5300, 256, 0x04, 1, 0, .u8, .wo, .const 0, .any⟩
/-- 0x5300+g:05 QUEUE_STATUS (R329): 32 bytes per queue, queue 0 first: PACKETS U32, ENTRIES U32, BYTES U64, ENQUEUED U64, DROPPED U32, FLUSHED U32 -/
def qg_QUEUE_STATUS : Row := ⟨0x5300, 256, 0x05, 1, 0, .domain, .ro, .const 0, .any⟩
/-- 0x5300+g:06 INPUT_OWNER (R329): Input groups: SID of queue 0; else 0xFFFF -/
def qg_INPUT_OWNER : Row := ⟨0x5300, 256, 0x06, 1, 0, .u16, .ro, .const 65535, .any⟩
/-- 0x5380:10 ENTRIES_FREE (R329): Free queue entries -/
def qg_ENTRIES_FREE : Row := ⟨0x5380, 1, 0x10, 1, 0, .u32, .ro, .const 2621440, .any⟩
/-- 0x5380:11 ENTRY_STORE_DROPS (R329): Sticky count (R324). Writing 0 clears it -/
def qg_ENTRY_STORE_DROPS : Row := ⟨0x5380, 1, 0x11, 1, 0, .u32, .roClear, .const 0, .any⟩
/-- 0x5380:12 LEAKS_RECLAIMED (R329): Sticky count (R327). Writing 0 clears it -/
def qg_LEAKS_RECLAIMED : Row := ⟨0x5380, 1, 0x12, 1, 0, .u32, .roClear, .const 0, .any⟩
/-- 0x5380:13 COUNT_FAULTS (R329): Sticky count (R316). Writing 0 clears it -/
def qg_COUNT_FAULTS : Row := ⟨0x5380, 1, 0x13, 1, 0, .u32, .roClear, .const 0, .any⟩
/-- 0x6000+lane:00 ENTRIES (R355): Highest subindex -/
def lane_ENTRIES : Row := ⟨0x6000, 128, 0x00, 1, 0, .u8, .ro, .const 15, .any⟩
/-- 0x6000+lane:01 LINK_STATE (R355): 0 UNPOWERED, 1 DETECT, 2 TRAIN, 3 LOCK, 4 EXCHANGE, 5 ACTIVE, 6 DISABLED, 7 STANDBY -/
def lane_LINK_STATE : Row := ⟨0x6000, 128, 0x01, 1, 0, .u8, .ro, .const 0, .any⟩
/-- 0x6000+lane:02 FOM (R355): Last measurement (R336) -/
def lane_FOM : Row := ⟨0x6000, 128, 0x02, 1, 0, .u8, .ro, .const 0, .any⟩
/-- 0x6000+lane:03 FOM_LOW (R355): Lowest FOM while ACTIVE. Writing 0 restarts it from the present value -/
def lane_FOM_LOW : Row := ⟨0x6000, 128, 0x03, 1, 0, .u8, .roClear, .const 255, .any⟩
/-- 0x6000+lane:04 TX_FFE (R355): Taps in force: C_PRE [23:16], C_MAIN [15:8], C_POST [7:0] -/
def lane_TX_FFE : Row := ⟨0x6000, 128, 0x04, 1, 0, .u32, .ro, .const 0, .any⟩
/-- 0x6000+lane:05 TX_FFE_10G (R355): Fixed taps for MODE TENG, laid out as TX_FFE; R337 limits -/
def lane_TX_FFE_10G : Row := ⟨0x6000, 128, 0x05, 1, 0, .u32, .rws, .const 14344, .any⟩
/-- 0x6000+lane:06 RX_EQ (R355): CTLE peaking (0.1 dB) U8, then DFE taps 1–5 as signed bytes -/
def lane_RX_EQ : Row := ⟨0x6000, 128, 0x06, 1, 0, (.octets 6), .ro, .const 0, .any⟩
/-- 0x6000+lane:07 FREQ_OFFSET (R355): Recovered clock against QREF (0.1 ppm) -/
def lane_FREQ_OFFSET : Row := ⟨0x6000, 128, 0x07, 1, 0, .i16, .ro, .const 0, .any⟩
/-- 0x6000+lane:08 POLARITY (R355): Bit 0: receive inverted, detected in TRAIN -/
def lane_POLARITY : Row := ⟨0x6000, 128, 0x08, 1, 0, .u8, .ro, .const 0, .any⟩
/-- 0x6000+lane:09 LANE_INDEX (R355): Band lane index 0–3; 255 when not in use -/
def lane_LANE_INDEX : Row := ⟨0x6000, 128, 0x09, 1, 0, .u8, .ro, .const 255, .any⟩
/-- 0x6000+lane:0A BLOCK_ERRORS (R355): Sticky count of invalid sync headers and reserved SUBTYPEs -/
def lane_BLOCK_ERRORS : Row := ⟨0x6000, 128, 0x0A, 1, 0, .u64, .roClear, .const 0, .any⟩
/-- 0x6000+lane:0B LOCK_LOSSES (R355): Sticky count of block-lock losses -/
def lane_LOCK_LOSSES : Row := ⟨0x6000, 128, 0x0B, 1, 0, .u32, .roClear, .const 0, .any⟩
/-- 0x6000+lane:0C TRAIN_FAILS (R355): Sticky count of stage timeouts (R338) -/
def lane_TRAIN_FAILS : Row := ⟨0x6000, 128, 0x0C, 1, 0, .u32, .roClear, .const 0, .any⟩
/-- 0x6000+lane:0D LOW_FOM_COUNT (R355): Sticky count (R342) -/
def lane_LOW_FOM_COUNT : Row := ⟨0x6000, 128, 0x0D, 1, 0, .u32, .roClear, .const 0, .any⟩
/-- 0x6000+lane:0E FOM_DROPS (R355): Sticky count of exits for cause 3 -/
def lane_FOM_DROPS : Row := ⟨0x6000, 128, 0x0E, 1, 0, .u32, .roClear, .const 0, .any⟩
/-- 0x6000+lane:0F TRAIN_TIME (R355): Duration of the last bring-up from DETECT to ACTIVE (µs) -/
def lane_TRAIN_TIME : Row := ⟨0x6000, 128, 0x0F, 1, 0, .u32, .ro, .const 0, .any⟩
/-- 0x6080+port:00 ENTRIES (R356): Highest subindex -/
def port_ENTRIES : Row := ⟨0x6080, 128, 0x00, 1, 0, .u8, .ro, .const 36, .any⟩
/-- 0x6080+port:01 MODE (R356): 0 UNUSED, 1 CHAEC, 2 TENG; reads 3 MEMBER -/
def port_MODE : Row := ⟨0x6080, 128, 0x01, 1, 0, .u8, .rws, .const 0, .range 0 2⟩
/-- 0x6080+port:02 WIDTH (R356): Band width 1, 2 or 4 -/
def port_WIDTH : Row := ⟨0x6080, 128, 0x02, 1, 0, .u8, .rws, .const 1, .oneOf [1, 2, 4]⟩
/-- 0x6080+port:03 DOMAIN (R356): Raster domain of the port's swaps, shapers and gate lists -/
def port_DOMAIN : Row := ⟨0x6080, 128, 0x03, 1, 0, .u8, .rws, .const 0, .range 0 7⟩
/-- 0x6080+port:04 PORT_STATE (R356): 0 DOWN, 1 BRINGUP, 2 ACTIVE -/
def port_PORT_STATE : Row := ⟨0x6080, 128, 0x04, 1, 0, .u8, .ro, .const 0, .any⟩
/-- 0x6080+port:05 ACTIVE_WIDTH (R356): Lanes in use -/
def port_ACTIVE_WIDTH : Row := ⟨0x6080, 128, 0x05, 1, 0, .u8, .ro, .const 0, .any⟩
/-- 0x6080+port:06 FOM_MIN (R356): READY threshold, 32–255 -/
def port_FOM_MIN : Row := ⟨0x6080, 128, 0x06, 1, 0, .u8, .rws, .const 96, .range 32 255⟩
/-- 0x6080+port:07 FOM_DROP (R356): Exit threshold, 16 to FOM_MIN -/
def port_FOM_DROP : Row := ⟨0x6080, 128, 0x07, 1, 0, .u8, .rws, .const 64, .range 16 255⟩
/-- 0x6080+port:08 NARROW_OK (R356): R340 -/
def port_NARROW_OK : Row := ⟨0x6080, 128, 0x08, 1, 0, .bool, .rws, .const 1, .flag⟩
/-- 0x6080+port:09 MIN_WIDTH (R356): Narrowest sub-band accepted, 1, 2 or 4 -/
def port_MIN_WIDTH : Row := ⟨0x6080, 128, 0x09, 1, 0, .u8, .rws, .const 1, .oneOf [1, 2, 4]⟩
/-- 0x6080+port:0A SEAL_MODE (R356): 0 off, 1 preferred, 2 required -/
def port_SEAL_MODE : Row := ⟨0x6080, 128, 0x0A, 1, 0, .u8, .rws, .const 0, .range 0 2⟩
/-- 0x6080+port:0B SEALED (R356): Band is sealed -/
def port_SEALED : Row := ⟨0x6080, 128, 0x0B, 1, 0, .bool, .ro, .const 0, .flag⟩
/-- 0x6080+port:0C REKEY_INTERVAL (R356): Seconds, 60–65,535 -/
def port_REKEY_INTERVAL : Row := ⟨0x6080, 128, 0x0C, 1, 0, .u16, .rws, .const 3600, .range 60 65535⟩
/-- 0x6080+port:0D MAC_ADDR (R356): Device base MAC address plus port number -/
def port_MAC_ADDR : Row := ⟨0x6080, 128, 0x0D, 1, 0, (.octets 6), .rws, .times 0x10000000000, .any⟩
/-- 0x6080+port:0E VLAN_ID (R356): 0 untagged, else 1–4,094 -/
def port_VLAN_ID : Row := ⟨0x6080, 128, 0x0E, 1, 0, .u16, .rws, .const 0, .range 0 4094⟩
/-- 0x6080+port:0F IPV4_ADDR (R356): Port address; 0 none -/
def port_IPV4_ADDR : Row := ⟨0x6080, 128, 0x0F, 1, 0, (.octets 4), .rws, .const 0, .any⟩
/-- 0x6080+port:10 IPV4_PREFIX (R356): Prefix length, 0–32 -/
def port_IPV4_PREFIX : Row := ⟨0x6080, 128, 0x10, 1, 0, .u8, .rws, .const 24, .range 0 32⟩
/-- 0x6080+port:11 IPV6_ADDR (R356): Global address; 0 none -/
def port_IPV6_ADDR : Row := ⟨0x6080, 128, 0x11, 1, 0, (.octets 16), .rws, .const 0, .any⟩
/-- 0x6080+port:12 IPV6_PREFIX (R356): Prefix length, 0–128 -/
def port_IPV6_PREFIX : Row := ⟨0x6080, 128, 0x12, 1, 0, .u8, .rws, .const 64, .range 0 128⟩
/-- 0x6080+port:13 MAX_FRAME (R356): Largest frame (bytes), 1,518–9,600 -/
def port_MAX_FRAME : Row := ⟨0x6080, 128, 0x13, 1, 0, .u16, .rws, .const 9600, .range 1518 9600⟩
/-- 0x6080+port:14 PEER_SERIAL (R356): Neighbour's SERIAL -/
def port_PEER_SERIAL : Row := ⟨0x6080, 128, 0x14, 1, 0, (.octets 16), .ro, .const 0, .any⟩
/-- 0x6080+port:15 PEER_PORT (R356): Neighbour's port number -/
def port_PEER_PORT : Row := ⟨0x6080, 128, 0x15, 1, 0, .u8, .ro, .const 255, .any⟩
/-- 0x6080+port:16 LAST_DOWN_CAUSE (R356): R342 cause 1–7, for 10GBASE-R ports as R350 gives; 0 none -/
def port_LAST_DOWN_CAUSE : Row := ⟨0x6080, 128, 0x16, 1, 0, .u8, .ro, .const 0, .any⟩
/-- 0x6080+port:17 LINK_UPS (R356): Sticky count of entries to ACTIVE -/
def port_LINK_UPS : Row := ⟨0x6080, 128, 0x17, 1, 0, .u32, .roClear, .const 0, .any⟩
/-- 0x6080+port:18 LINK_DOWNS (R356): Sticky count of exits from ACTIVE -/
def port_LINK_DOWNS : Row := ⟨0x6080, 128, 0x18, 1, 0, .u32, .roClear, .const 0, .any⟩
/-- 0x6080+port:19 NARROWED (R356): Sticky count (R340) -/
def port_NARROWED : Row := ⟨0x6080, 128, 0x19, 1, 0, .u32, .roClear, .const 0, .any⟩
/-- 0x6080+port:1A HCRC_ERRORS (R356): Sticky count (R346) -/
def port_HCRC_ERRORS : Row := ⟨0x6080, 128, 0x1A, 1, 0, .u32, .roClear, .const 0, .any⟩
/-- 0x6080+port:1B CRC_ERRORS (R356): Sticky count (R346, R350) -/
def port_CRC_ERRORS : Row := ⟨0x6080, 128, 0x1B, 1, 0, .u32, .roClear, .const 0, .any⟩
/-- 0x6080+port:1C TAG_FAILURES (R356): Sticky count (R353) -/
def port_TAG_FAILURES : Row := ⟨0x6080, 128, 0x1C, 1, 0, .u32, .roClear, .const 0, .any⟩
/-- 0x6080+port:1D HOP_DROPS (R356): Sticky count (R347) -/
def port_HOP_DROPS : Row := ⟨0x6080, 128, 0x1D, 1, 0, .u32, .roClear, .const 0, .any⟩
/-- 0x6080+port:1E KIND_DROPS (R356): Sticky count (R347) -/
def port_KIND_DROPS : Row := ⟨0x6080, 128, 0x1E, 1, 0, .u32, .roClear, .const 0, .any⟩
/-- 0x6080+port:1F PAUSES_SENT (R356): Sticky count (R348) -/
def port_PAUSES_SENT : Row := ⟨0x6080, 128, 0x1F, 1, 0, .u32, .roClear, .const 0, .any⟩
/-- 0x6080+port:20 PAUSES_RECEIVED (R356): Sticky count (R348) -/
def port_PAUSES_RECEIVED : Row := ⟨0x6080, 128, 0x20, 1, 0, .u32, .roClear, .const 0, .any⟩
/-- 0x6080+port:21 PAUSE_FRAMES_IGNORED (R356): Sticky count (R350) -/
def port_PAUSE_FRAMES_IGNORED : Row := ⟨0x6080, 128, 0x21, 1, 0, .u32, .roClear, .const 0, .any⟩
/-- 0x6080+port:22 FRAMES_IN (R356): Packets or frames accepted -/
def port_FRAMES_IN : Row := ⟨0x6080, 128, 0x22, 1, 0, .u64, .ro, .const 0, .any⟩
/-- 0x6080+port:23 FRAMES_OUT (R356): Packets or frames sent -/
def port_FRAMES_OUT : Row := ⟨0x6080, 128, 0x23, 1, 0, .u64, .ro, .const 0, .any⟩
/-- 0x6080+port:24 BYTES (R356): BYTES_IN U64, BYTES_OUT U64, headers included -/
def port_BYTES : Row := ⟨0x6080, 128, 0x24, 1, 0, (.octets 16), .ro, .const 0, .any⟩
/-- 0x2020:00 ENTRIES (R357): Highest subindex -/
def mgmt_ENTRIES : Row := ⟨0x2020, 1, 0x00, 1, 0, .u8, .ro, .const 7, .any⟩
/-- 0x2020:01 MGMT_MODE (R357): 0 1000BASE-X, 1 SGMII -/
def mgmt_MGMT_MODE : Row := ⟨0x2020, 1, 0x01, 1, 0, .u8, .rws, .const 0, .range 0 1⟩
/-- 0x2020:02 MGMT_STATE (R357): 0 down, 1 up -/
def mgmt_MGMT_STATE : Row := ⟨0x2020, 1, 0x02, 1, 0, .u8, .ro, .const 0, .any⟩
/-- 0x2020:03 MGMT_SPEED (R357): Mbit/s in force -/
def mgmt_MGMT_SPEED : Row := ⟨0x2020, 1, 0x03, 1, 0, .u16, .ro, .const 0, .any⟩
/-- 0x2020:04 MGMT_MAC (R357): Device base MAC address minus 1 -/
def mgmt_MGMT_MAC : Row := ⟨0x2020, 1, 0x04, 1, 0, (.octets 6), .ro, .const 0, .any⟩
/-- 0x2020:05 MGMT_VLAN (R357): 0 untagged, else 1–4,094 -/
def mgmt_MGMT_VLAN : Row := ⟨0x2020, 1, 0x05, 1, 0, .u16, .rws, .const 0, .range 0 4094⟩
/-- 0x2020:06 MGMT_IPV4 (R357): Address (4), prefix length U8, reserved (3); zero uses DHCPv4 -/
def mgmt_MGMT_IPV4 : Row := ⟨0x2020, 1, 0x06, 1, 0, (.octets 8), .rws, .const 0, .any⟩
/-- 0x2020:07 MGMT_IPV4_NOW (R357): Address in use -/
def mgmt_MGMT_IPV4_NOW : Row := ⟨0x2020, 1, 0x07, 1, 0, (.octets 4), .ro, .const 0, .any⟩
/-- 0x6100:00 ENTRIES (R398): Highest subindex -/
def card_ENTRIES : Row := ⟨0x6100, 1, 0x00, 1, 0, .u8, .ro, .const 22, .any⟩
/-- 0x6100:01 CARD_AUTO (R398): R368 -/
def card_CARD_AUTO : Row := ⟨0x6100, 1, 0x01, 1, 0, .bool, .rws, .const 1, .flag⟩
/-- 0x6100:02 CARD_STATE (R398): 0 NONE, 1 CARDING, 2 CARDED, 3 ISOLATED, 4 FAILED -/
def card_CARD_STATE : Row := ⟨0x6100, 1, 0x02, 1, 0, .u8, .ro, .const 0, .any⟩
/-- 0x6100:03 FAIL_CAUSE (R398): 0 none, 1 diameter, 2 devices, 3 address space, 4 timeout -/
def card_FAIL_CAUSE : Row := ⟨0x6100, 1, 0x03, 1, 0, .u8, .ro, .const 0, .any⟩
/-- 0x6100:04 EPOCH (R398): Current epoch -/
def card_EPOCH : Row := ⟨0x6100, 1, 0x04, 1, 0, .u32, .ro, .const 0, .any⟩
/-- 0x6100:05 OWN_ADDR (R398): Device address -/
def card_OWN_ADDR : Row := ⟨0x6100, 1, 0x05, 1, 0, .u16, .ro, .const 65535, .any⟩
/-- 0x6100:06 BLOCK (R398): BASE U16 [31:16], LOG2 [7:0] -/
def card_BLOCK : Row := ⟨0x6100, 1, 0x06, 1, 0, .u32, .ro, .const 0, .any⟩
/-- 0x6100:07 ROOT_SERIAL (R398): Root's SERIAL -/
def card_ROOT_SERIAL : Row := ⟨0x6100, 1, 0x07, 1, 0, (.octets 16), .ro, .const 0, .any⟩
/-- 0x6100:08 PARENT_PORT (R398): Tree band to the parent; 255 root or none -/
def card_PARENT_PORT : Row := ⟨0x6100, 1, 0x08, 1, 0, .u8, .ro, .const 255, .any⟩
/-- 0x6100:09 DEPTH (R398): Hops below the root -/
def card_DEPTH : Row := ⟨0x6100, 1, 0x09, 1, 0, .u8, .ro, .const 0, .any⟩
/-- 0x6100:0A FABRIC_DEVICES (R398): Devices carded -/
def card_FABRIC_DEVICES : Row := ⟨0x6100, 1, 0x0A, 1, 0, .u16, .ro, .const 1, .any⟩
/-- 0x6100:0B FABRIC_DIAMETER (R398): Diameter bound (hops) -/
def card_FABRIC_DIAMETER : Row := ⟨0x6100, 1, 0x0B, 1, 0, .u8, .ro, .const 0, .any⟩
/-- 0x6100:0C MAX_DEPTH (R398): Greatest DIST in the fabric -/
def card_MAX_DEPTH : Row := ⟨0x6100, 1, 0x0C, 1, 0, .u8, .ro, .const 0, .any⟩
/-- 0x6100:0D ADDR_NEED (R398): Root's NEED -/
def card_ADDR_NEED : Row := ⟨0x6100, 1, 0x0D, 1, 0, .u32, .ro, .const 0, .any⟩
/-- 0x6100:0E CARD_QUIET (R398): ms, 5–1,000 -/
def card_CARD_QUIET : Row := ⟨0x6100, 1, 0x0E, 1, 0, .u16, .rws, .const 20, .range 5 1000⟩
/-- 0x6100:0F CARD_TIMEOUT (R398): ms, 100–60,000 -/
def card_CARD_TIMEOUT : Row := ⟨0x6100, 1, 0x0F, 1, 0, .u16, .rws, .const 2000, .range 100 60000⟩
/-- 0x6100:10 GRAFT_WAIT (R398): ms, 1–100 -/
def card_GRAFT_WAIT : Row := ⟨0x6100, 1, 0x10, 1, 0, .u16, .rws, .const 5, .range 1 100⟩
/-- 0x6100:11 HEARTBEAT_MISS (R398): Missed heartbeats, 2–100 -/
def card_HEARTBEAT_MISS : Row := ⟨0x6100, 1, 0x11, 1, 0, .u8, .rws, .const 5, .range 2 100⟩
/-- 0x6100:12 GRAFTS (R398): Sticky count (R369, R371) -/
def card_GRAFTS : Row := ⟨0x6100, 1, 0x12, 1, 0, .u32, .roClear, .const 0, .any⟩
/-- 0x6100:13 NO_ROUTE (R398): Sticky count -/
def card_NO_ROUTE : Row := ⟨0x6100, 1, 0x13, 1, 0, .u32, .roClear, .const 0, .any⟩
/-- 0x6100:14 NEIGHBOURS (R398): 24 bytes per band: PORT U8, ROLE U8 (0 PARENT, 1 CHILD, 2 ALTERNATE, 3 LOOPBACK, 4 FOREIGN), PEER_ADDR U16, re -/
def card_NEIGHBOURS : Row := ⟨0x6100, 1, 0x14, 1, 0, .domain, .ro, .const 0, .any⟩
/-- 0x6100:15 GLOBAL_LOG (R398): 20 bytes each, last 16: OP_ID U32, CODE U8, PART U8 (0 APPLIED, 1 REFUSED, 2 LATE, 3 DISCARDED), DEVICES U16,  -/
def card_GLOBAL_LOG : Row := ⟨0x6100, 1, 0x15, 1, 0, .domain, .ro, .const 0, .any⟩
/-- 0x6100:16 SNAPSHOT (R398): SNAP_ID U32, AT RTIME, SET U8, then each latched object as INDEX U16, SUB U8, TYPE U8, VLEN U16 and value -/
def card_SNAPSHOT : Row := ⟨0x6100, 1, 0x16, 1, 0, .domain, .ro, .const 0, .any⟩
/-- 0x6200:00 ENTRIES (R399): Highest subindex -/
def tab_ENTRIES : Row := ⟨0x6200, 1, 0x00, 1, 0, .u8, .ro, .const 21, .any⟩
/-- 0x6200:01 LEARN_MODE (R399): 0 AUTONOMOUS, 1 MANAGED -/
def tab_LEARN_MODE : Row := ⟨0x6200, 1, 0x01, 1, 0, .u8, .rws, .const 0, .range 0 1⟩
/-- 0x6200:02 LEARN_SUSPENDED (R399): R382 -/
def tab_LEARN_SUSPENDED : Row := ⟨0x6200, 1, 0x02, 1, 0, .bool, .ro, .const 0, .flag⟩
/-- 0x6200:03 AGE_TIME (R399): Seconds, 0 or 10–32,767 -/
def tab_AGE_TIME : Row := ⟨0x6200, 1, 0x03, 1, 0, .u16, .rws, .const 300, .zeroOr 10 32767⟩
/-- 0x6200:04 MOVE_HOLD (R399): µs, 1–65,535 -/
def tab_MOVE_HOLD : Row := ⟨0x6200, 1, 0x04, 1, 0, .u16, .rws, .const 1000, .range 1 65535⟩
/-- 0x6200:05 EVICT_POLICY (R399): 0 OLDEST, 1 RANDOM -/
def tab_EVICT_POLICY : Row := ⟨0x6200, 1, 0x05, 1, 0, .u8, .rws, .const 0, .range 0 1⟩
/-- 0x6200:06 HASH_SEED (R399): R378 -/
def tab_HASH_SEED : Row := ⟨0x6200, 1, 0x06, 1, 0, .u32, .ro, .const 0, .any⟩
/-- 0x6200:07 EM_USED (R399): Valid exact-match slots, overflow included -/
def tab_EM_USED : Row := ⟨0x6200, 1, 0x07, 1, 0, .u32, .ro, .const 0, .any⟩
/-- 0x6200:08 LPM_USED (R399): Valid longest-prefix slots -/
def tab_LPM_USED : Row := ⟨0x6200, 1, 0x08, 1, 0, .u16, .ro, .const 0, .any⟩
/-- 0x6200:09 LEARNS (R399): Learns applied -/
def tab_LEARNS : Row := ⟨0x6200, 1, 0x09, 1, 0, .u64, .ro, .const 0, .any⟩
/-- 0x6200:0A MOVES (R399): Sticky count (R384) -/
def tab_MOVES : Row := ⟨0x6200, 1, 0x0A, 1, 0, .u32, .roClear, .const 0, .any⟩
/-- 0x6200:0B MOVE_CANDIDATES (R399): Sticky count (R384) -/
def tab_MOVE_CANDIDATES : Row := ⟨0x6200, 1, 0x0B, 1, 0, .u32, .roClear, .const 0, .any⟩
/-- 0x6200:0C EVICTIONS (R399): Sticky count (R387) -/
def tab_EVICTIONS : Row := ⟨0x6200, 1, 0x0C, 1, 0, .u32, .roClear, .const 0, .any⟩
/-- 0x6200:0D LEARN_FAILS (R399): Sticky count (R387) -/
def tab_LEARN_FAILS : Row := ⟨0x6200, 1, 0x0D, 1, 0, .u32, .roClear, .const 0, .any⟩
/-- 0x6200:0E LEARN_DROPS (R399): Sticky count (R383) -/
def tab_LEARN_DROPS : Row := ⟨0x6200, 1, 0x0E, 1, 0, .u32, .roClear, .const 0, .any⟩
/-- 0x6200:0F AGED_OUT (R399): Entries aged out -/
def tab_AGED_OUT : Row := ⟨0x6200, 1, 0x0F, 1, 0, .u64, .ro, .const 0, .any⟩
/-- 0x6200:10 SHADOW_LAP (R399): ms, 100–60,000 -/
def tab_SHADOW_LAP : Row := ⟨0x6200, 1, 0x10, 1, 0, .u16, .rws, .const 1000, .range 100 60000⟩
/-- 0x6200:11 LAP_LAST (R399): Last compare lap (ms) -/
def tab_LAP_LAST : Row := ⟨0x6200, 1, 0x11, 1, 0, .u32, .ro, .const 0, .any⟩
/-- 0x6200:12 RESTORED (R399): Sticky count (R388) -/
def tab_RESTORED : Row := ⟨0x6200, 1, 0x12, 1, 0, .u32, .roClear, .const 0, .any⟩
/-- 0x6200:13 INVALIDATED (R399): Sticky count (R388) -/
def tab_INVALIDATED : Row := ⟨0x6200, 1, 0x13, 1, 0, .u32, .roClear, .const 0, .any⟩
/-- 0x6200:14 FLOOD_PORTS (R399): Bit p: 10GBASE-R port p floods -/
def tab_FLOOD_PORTS : Row := ⟨0x6200, 1, 0x14, 1, 0, (.octets 16), .rws, .const 340282366920938463463374607431768211455, .any⟩
/-- 0x6200:15 FLOOD_FABRIC (R399): R375 -/
def tab_FLOOD_FABRIC : Row := ⟨0x6200, 1, 0x15, 1, 0, .bool, .rws, .const 0, .flag⟩
/-- 0x6300+port:00 ENTRIES (R413): Highest subindex -/
def egr_ENTRIES : Row := ⟨0x6300, 128, 0x00, 1, 0, .u8, .ro, .const 47, .any⟩
/-- 0x6300+port:01 GATE_GUARD (R413): R409 -/
def egr_GATE_GUARD : Row := ⟨0x6300, 128, 0x01, 1, 0, .bool, .rws, .const 1, .flag⟩
/-- 0x6300+port:02 GATE_APPLY (R413): 1 install the admin list, 2 remove the list (R411) -/
def egr_GATE_APPLY : Row := ⟨0x6300, 128, 0x02, 1, 0, .u8, .wo, .const 0, .range 1 2⟩
/-- 0x6300+port:03 ADMIN_BASE (R413): Base of the list to install -/
def egr_ADMIN_BASE : Row := ⟨0x6300, 128, 0x03, 1, 0, .rtime, .rw, .const 0, .any⟩
/-- 0x6300+port:04 ADMIN_CYCLE (R413): Cycle (ticks); 0 one frame -/
def egr_ADMIN_CYCLE : Row := ⟨0x6300, 128, 0x04, 1, 0, .u32, .rw, .const 0, .any⟩
/-- 0x6300+port:05 ADMIN_LIST (R413): 8 bytes per entry: MASK U8, reserved (3), DURATION U32 (ticks) -/
def egr_ADMIN_LIST : Row := ⟨0x6300, 128, 0x05, 1, 0, .domain, .rw, .const 0, .any⟩
/-- 0x6300+port:06 OPER_STATE (R413): 0 no list, 1 list running, 2 no list and a change pending, 3 list running and a change pending -/
def egr_OPER_STATE : Row := ⟨0x6300, 128, 0x06, 1, 0, .u8, .ro, .const 0, .any⟩
/-- 0x6300+port:07 OPER_BASE (R413): Base of the list in force -/
def egr_OPER_BASE : Row := ⟨0x6300, 128, 0x07, 1, 0, .rtime, .ro, .const 0, .any⟩
/-- 0x6300+port:08 OPER_CYCLE (R413): Cycle in force (ticks) -/
def egr_OPER_CYCLE : Row := ⟨0x6300, 128, 0x08, 1, 0, .u32, .ro, .const 0, .any⟩
/-- 0x6300+port:09 OPER_LIST (R413): List in force, laid out as ADMIN_LIST -/
def egr_OPER_LIST : Row := ⟨0x6300, 128, 0x09, 1, 0, .domain, .ro, .const 0, .any⟩
/-- 0x6300+port:0A PENDING_AT (R413): Start of the pending change; 0 none -/
def egr_PENDING_AT : Row := ⟨0x6300, 128, 0x0A, 1, 0, .rtime, .ro, .const 0, .any⟩
/-- 0x6300+port:0B GATE_STATE (R413): MASK in force -/
def egr_GATE_STATE : Row := ⟨0x6300, 128, 0x0B, 1, 0, .u8, .ro, .const 255, .any⟩
/-- 0x6300+port:0C LATE_START (R413): Sticky (R411) -/
def egr_LATE_START : Row := ⟨0x6300, 128, 0x0C, 1, 0, .bool, .roClear, .const 0, .flag⟩
/-- 0x6300+port:0D GATE_CYCLES (R413): Cycle boundaries passed -/
def egr_GATE_CYCLES : Row := ⟨0x6300, 128, 0x0D, 1, 0, .u64, .ro, .const 0, .any⟩
/-- 0x6300+port:0E QUEUE_EGRESS (R413): 32 bytes per queue, queue 0 first: PACKETS U64, BYTES U64 (costs charged), SHAPED U32, GATED U32, PARKED U32,  -/
def egr_QUEUE_EGRESS : Row := ⟨0x6300, 128, 0x0E, 1, 0, .domain, .roClear, .const 0, .any⟩
/-- 0x6300+port:0F T_PREV (R413): 9 bytes per queue, queue 0 first: T_prev as an RTIME of the port's domain -/
def egr_T_PREV : Row := ⟨0x6300, 128, 0x0F, 1, 0, .domain, .ro, .const 0, .any⟩
/-- 0x6300+port:10 RATE_0 (R413): Bytes per line, 24.8 fixed point; 0 unshaped -/
def egr_RATE : Row := ⟨0x6300, 128, 0x10, 8, 4, .u32, .rws, .const 0, .any⟩
/-- 0x6300+port:11 BURST_0 (R413): Burst tolerance (bytes), 0–16,777,215 -/
def egr_BURST : Row := ⟨0x6300, 128, 0x11, 8, 4, .u32, .rws, .const 4096, .range 0 16777215⟩
/-- 0x6300+port:12 OVERHEAD_0 (R413): Per-packet adjustment (bytes), −32 to +63 -/
def egr_OVERHEAD : Row := ⟨0x6300, 128, 0x12, 8, 4, .i16, .rws, .const 24, .signed 16 (-32) 63⟩
/-- 0x6300+port:13 RESET_MODE_0 (R413): 0 ZERO, 1 FULL (R405) -/
def egr_RESET_MODE : Row := ⟨0x6300, 128, 0x13, 8, 4, .u8, .rws, .const 0, .range 0 1⟩
/-- 0x7000:00 ENTRIES (R443): Highest subindex -/
def pcie_ENTRIES : Row := ⟨0x7000, 1, 0x00, 1, 0, .u8, .ro, .const 8, .any⟩
/-- 0x7000:01 LINK_SPEED (R443): 0 down, 1–4 for 2.5–16.0 GT/s -/
def pcie_LINK_SPEED : Row := ⟨0x7000, 1, 0x01, 1, 0, .u8, .ro, .const 0, .any⟩
/-- 0x7000:02 LINK_WIDTH (R443): Lanes in use -/
def pcie_LINK_WIDTH : Row := ⟨0x7000, 1, 0x02, 1, 0, .u8, .ro, .const 0, .any⟩
/-- 0x7000:03 D_STATE (R443): 0 D0, 3 D3hot -/
def pcie_D_STATE : Row := ⟨0x7000, 1, 0x03, 1, 0, .u8, .ro, .const 0, .any⟩
/-- 0x7000:04 FUNCTION_RESETS (R443): Sticky count of resets under R415 -/
def pcie_FUNCTION_RESETS : Row := ⟨0x7000, 1, 0x04, 1, 0, .u32, .roClear, .const 0, .any⟩
/-- 0x7000:05 AER_CORRECTABLE (R443): Sticky count -/
def pcie_AER_CORRECTABLE : Row := ⟨0x7000, 1, 0x05, 1, 0, .u32, .roClear, .const 0, .any⟩
/-- 0x7000:06 AER_UNCORRECTABLE (R443): Sticky count -/
def pcie_AER_UNCORRECTABLE : Row := ⟨0x7000, 1, 0x06, 1, 0, .u32, .roClear, .const 0, .any⟩
/-- 0x7000:07 BAR2_REFUSED (R443): Mirror of the register -/
def pcie_BAR2_REFUSED : Row := ⟨0x7000, 1, 0x07, 1, 0, .u32, .ro, .const 0, .any⟩
/-- 0x7000:08 BAR0_MISUSE (R443): Mirror of the register -/
def pcie_BAR0_MISUSE : Row := ⟨0x7000, 1, 0x08, 1, 0, .u32, .ro, .const 0, .any⟩
/-- 0x7010+ch:00 ENTRIES (R443): Highest subindex -/
def dma_ENTRIES : Row := ⟨0x7010, 32, 0x00, 1, 0, .u8, .ro, .const 9, .any⟩
/-- 0x7010+ch:01 MODE (R443): 0 MEMORY, 1 TO_HOST, 2 FROM_HOST (R423) -/
def dma_MODE : Row := ⟨0x7010, 32, 0x01, 1, 0, .u8, .rw, .const 0, .range 0 2⟩
/-- 0x7010+ch:02 PRIORITY (R443): Service priority 0–7 (R434) -/
def dma_PRIORITY : Row := ⟨0x7010, 32, 0x02, 1, 0, .u8, .rw, .const 0, .range 0 7⟩
/-- 0x7010+ch:03 STATE (R443): As STATUS.STATE -/
def dma_STATE : Row := ⟨0x7010, 32, 0x03, 1, 0, .u8, .ro, .const 0, .any⟩
/-- 0x7010+ch:04 DESCRIPTORS (R443): Descriptors written back -/
def dma_DESCRIPTORS : Row := ⟨0x7010, 32, 0x04, 1, 0, .u64, .ro, .const 0, .any⟩
/-- 0x7010+ch:05 BYTES (R443): Bytes moved -/
def dma_BYTES : Row := ⟨0x7010, 32, 0x05, 1, 0, .u64, .ro, .const 0, .any⟩
/-- 0x7010+ch:06 ERRORS (R443): Sticky count of descriptors with STATUS 1–7 -/
def dma_ERRORS : Row := ⟨0x7010, 32, 0x06, 1, 0, .u32, .roClear, .const 0, .any⟩
/-- 0x7010+ch:07 TRUNCATIONS (R443): Sticky count of STATUS TRUNCATED -/
def dma_TRUNCATIONS : Row := ⟨0x7010, 32, 0x07, 1, 0, .u32, .roClear, .const 0, .any⟩
/-- 0x7010+ch:08 WAITS (R443): Sticky count of waits for batts or back-pressure -/
def dma_WAITS : Row := ⟨0x7010, 32, 0x08, 1, 0, .u32, .roClear, .const 0, .any⟩
/-- 0x7010+ch:09 LAST_STATUS (R443): STATUS of the last descriptor -/
def dma_LAST_STATUS : Row := ⟨0x7010, 32, 0x09, 1, 0, .u8, .ro, .const 0, .any⟩
/-- 0x7100:00 ENTRIES (R443): Highest subindex -/
def irq_ENTRIES : Row := ⟨0x7100, 1, 0x00, 1, 0, .u8, .ro, .const 6, .any⟩
/-- 0x7100:01 MESSAGES (R443): MSI-X messages sent -/
def irq_MESSAGES : Row := ⟨0x7100, 1, 0x01, 1, 0, .u64, .ro, .const 0, .any⟩
/-- 0x7100:02 HELD (R443): Sticky count of messages held under R441 -/
def irq_HELD : Row := ⟨0x7100, 1, 0x02, 1, 0, .u32, .roClear, .const 0, .any⟩
/-- 0x7100:03 PME_SENT (R443): Sticky count -/
def irq_PME_SENT : Row := ⟨0x7100, 1, 0x03, 1, 0, .u32, .roClear, .const 0, .any⟩
/-- 0x7100:04 EMPTY_CLAIMS (R443): Sticky count of claims returning 0 -/
def irq_EMPTY_CLAIMS : Row := ⟨0x7100, 1, 0x04, 1, 0, .u32, .roClear, .const 0, .any⟩
/-- 0x7100:05 COMPLETE_ERRORS (R443): Sticky count (R438) -/
def irq_COMPLETE_ERRORS : Row := ⟨0x7100, 1, 0x05, 1, 0, .u32, .roClear, .const 0, .any⟩
/-- 0x7100:06 SOURCE_EVENTS (R443): U32 per source 0–511: events raised since PORST_N, including those that PRIORITY 0 discards (R437), modulo 2^3 -/
def irq_SOURCE_EVENTS : Row := ⟨0x7100, 1, 0x06, 1, 0, .domain, .ro, .const 0, .any⟩
/-- 0x8000:00 ENTRIES (R466): Highest subindex -/
def fc_ENTRIES : Row := ⟨0x8000, 1, 0x00, 1, 0, .u8, .ro, .const 14, .any⟩
/-- 0x8000:01 LOG (R466): Log entries of R450, oldest first -/
def fc_LOG : Row := ⟨0x8000, 1, 0x01, 1, 0, .domain, .ro, .const 0, .any⟩
/-- 0x8000:02 LOG_NEXT (R466): SEQ the next entry will take -/
def fc_LOG_NEXT : Row := ⟨0x8000, 1, 0x02, 1, 0, .u32, .ro, .const 0, .any⟩
/-- 0x8000:03 LOG_LOST (R466): Sticky count (R450) -/
def fc_LOG_LOST : Row := ⟨0x8000, 1, 0x03, 1, 0, .u32, .roClear, .const 0, .any⟩
/-- 0x8000:04 REPEAT_WINDOW (R466): ms, 0–60,000 (R451) -/
def fc_REPEAT_WINDOW : Row := ⟨0x8000, 1, 0x04, 1, 0, .u16, .rws, .const 1000, .range 0 60000⟩
/-- 0x8000:05 CAPTURE_SEV (R466): Least SEV captured or merged, 1–4 -/
def fc_CAPTURE_SEV : Row := ⟨0x8000, 1, 0x05, 1, 0, .u8, .rws, .const 2, .range 1 4⟩
/-- 0x8000:06 FAULT_N_STATE (R466): 1 while FAULT_N is driven low -/
def fc_FAULT_N_STATE : Row := ⟨0x8000, 1, 0x06, 1, 0, .bool, .ro, .const 1, .flag⟩
/-- 0x8000:07 STICKY_SUMMARY (R466): Bit u: unit u has a fault bit set -/
def fc_STICKY_SUMMARY : Row := ⟨0x8000, 1, 0x07, 1, 0, (.octets 128), .ro, .const 0, .any⟩
/-- 0x8000:08 CLEAR_ALL (R466): 1 clears every STICKY of every unit in one cycle, under R455 -/
def fc_CLEAR_ALL : Row := ⟨0x8000, 1, 0x08, 1, 0, .bool, .wo, .const 0, .flag⟩
/-- 0x8000:09 HALTED (R466): R457 -/
def fc_HALTED : Row := ⟨0x8000, 1, 0x09, 1, 0, .bool, .ro, .const 0, .flag⟩
/-- 0x8000:0A HALT_CAUSE (R466): Message that halted the engine -/
def fc_HALT_CAUSE : Row := ⟨0x8000, 1, 0x0A, 1, 0, .w72, .ro, .const 0, .any⟩
/-- 0x8000:0B RERUNS (R466): Sticky count (R460) -/
def fc_RERUNS : Row := ⟨0x8000, 1, 0x0B, 1, 0, .u32, .roClear, .const 0, .any⟩
/-- 0x8000:0C RECOVERY_BRIM (R466): Sticky count (R460) -/
def fc_RECOVERY_BRIM : Row := ⟨0x8000, 1, 0x0C, 1, 0, .u32, .roClear, .const 0, .any⟩
/-- 0x8000:0D RECOVERY_CONCEALED (R466): Sticky count (R460) -/
def fc_RECOVERY_CONCEALED : Row := ⟨0x8000, 1, 0x0D, 1, 0, .u32, .roClear, .const 0, .any⟩
/-- 0x8000:0E GUARANTEE_BREACHES (R466): Sticky count (R465) -/
def fc_GUARANTEE_BREACHES : Row := ⟨0x8000, 1, 0x0E, 1, 0, .u32, .roClear, .const 0, .any⟩
/-- 0x8001:00 ENTRIES (R466): Highest subindex -/
def cap_ENTRIES : Row := ⟨0x8001, 1, 0x00, 1, 0, .u8, .ro, .const 8, .any⟩
/-- 0x8001:01 VALID (R466): Capture holds an error; only 0 may be written (R454) -/
def cap_VALID : Row := ⟨0x8001, 1, 0x01, 1, 0, .bool, .rw, .const 0, .range 0 0⟩
/-- 0x8001:02 MESSAGE (R466): First message -/
def cap_MESSAGE : Row := ⟨0x8001, 1, 0x02, 1, 0, .w72, .ro, .const 0, .any⟩
/-- 0x8001:03 AT (R466): RD_0 raster time at acceptance -/
def cap_AT : Row := ⟨0x8001, 1, 0x03, 1, 0, .rtime, .ro, .const 0, .any⟩
/-- 0x8001:04 UPTIME_NS (R466): Nanoseconds since PORST_N at acceptance -/
def cap_UPTIME_NS : Row := ⟨0x8001, 1, 0x04, 1, 0, .u64, .ro, .const 0, .any⟩
/-- 0x8001:05 LOG_SEQ (R466): SEQ of its log entry -/
def cap_LOG_SEQ : Row := ⟨0x8001, 1, 0x05, 1, 0, .u32, .ro, .const 0, .any⟩
/-- 0x8001:06 MERGE_COUNT (R466): Messages merged -/
def cap_MERGE_COUNT : Row := ⟨0x8001, 1, 0x06, 1, 0, .u32, .ro, .const 0, .any⟩
/-- 0x8001:07 KINDS_SEEN (R466): Bit k: a message of KIND k was merged -/
def cap_KINDS_SEEN : Row := ⟨0x8001, 1, 0x07, 1, 0, (.octets 32), .ro, .const 0, .any⟩
/-- 0x8001:08 SEV_MAX (R466): Highest SEV, captured or merged -/
def cap_SEV_MAX : Row := ⟨0x8001, 1, 0x08, 1, 0, .u8, .ro, .const 0, .any⟩
/-- 0x8010+unit:00 ENTRIES (R466): Highest subindex -/
def unit_ENTRIES : Row := ⟨0x8010, 1024, 0x00, 1, 0, .u8, .ro, .const 4, .any⟩
/-- 0x8010+unit:01 STICKY (R466): R455 -/
def unit_STICKY : Row := ⟨0x8010, 1024, 0x01, 1, 0, .u16, .rw, .const 0, .any⟩
/-- 0x8010+unit:02 MESSAGES (R466): Sticky count of messages from the unit -/
def unit_MESSAGES : Row := ⟨0x8010, 1024, 0x02, 1, 0, .u32, .roClear, .const 0, .any⟩
/-- 0x8010+unit:03 LAST (R466): Last message from the unit -/
def unit_LAST : Row := ⟨0x8010, 1024, 0x03, 1, 0, .w72, .ro, .const 0, .any⟩
/-- 0x8010+unit:04 LAST_AT (R466): RD_0 raster time of LAST -/
def unit_LAST_AT : Row := ⟨0x8010, 1024, 0x04, 1, 0, .rtime, .ro, .const 0, .any⟩
/-- 0x9000:00 ENTRIES (R492): Highest subindex -/
def sec_ENTRIES : Row := ⟨0x9000, 1, 0x00, 1, 0, .u8, .ro, .const 20, .any⟩
/-- 0x9000:01 DEBUG_STATE (R492): R487 -/
def sec_DEBUG_STATE : Row := ⟨0x9000, 1, 0x01, 1, 0, .u8, .ro, .const 0, .any⟩
/-- 0x9000:02 EVALUATED (R492): R491 -/
def sec_EVALUATED : Row := ⟨0x9000, 1, 0x02, 1, 0, .bool, .ro, .const 0, .flag⟩
/-- 0x9000:03 VENDOR_ROOT_HASH (R492): R469 -/
def sec_VENDOR_ROOT_HASH : Row := ⟨0x9000, 1, 0x03, 1, 0, (.octets 64), .ro, .const 0, .any⟩
/-- 0x9000:04 OWNER_KEY_HASH (R492): Written once (R481) -/
def sec_OWNER_KEY_HASH : Row := ⟨0x9000, 1, 0x04, 1, 0, (.octets 64), .rw, .const 0, .any⟩
/-- 0x9000:05 IDENTITY_CERT (R492): R472 -/
def sec_IDENTITY_CERT : Row := ⟨0x9000, 1, 0x05, 1, 0, (.octets 285), .ro, .const 0, .any⟩
/-- 0x9000:06 CLIENT_KEYS (R492): R482 -/
def sec_CLIENT_KEYS : Row := ⟨0x9000, 1, 0x06, 1, 0, .domain, .ro, .const 0, .any⟩
/-- 0x9000:07 SEAL_PEER_MODE (R492): 0 any genuine BV9672, 1 listed serials only -/
def sec_SEAL_PEER_MODE : Row := ⟨0x9000, 1, 0x07, 1, 0, .u8, .rws, .const 0, .range 0 1⟩
/-- 0x9000:08 SEAL_PEERS (R492): R482 -/
def sec_SEAL_PEERS : Row := ⟨0x9000, 1, 0x08, 1, 0, .domain, .ro, .const 0, .any⟩
/-- 0x9000:09 SEAL_FAILURES (R492): Sticky count (R485) -/
def sec_SEAL_FAILURES : Row := ⟨0x9000, 1, 0x09, 1, 0, .u32, .roClear, .const 0, .any⟩
/-- 0x9000:0A DEBUG_CHALLENGE (R492): R488 -/
def sec_DEBUG_CHALLENGE : Row := ⟨0x9000, 1, 0x0A, 1, 0, (.octets 64), .ro, .const 0, .any⟩
/-- 0x9000:0B DEBUG_TOKEN (R492): R488 -/
def sec_DEBUG_TOKEN : Row := ⟨0x9000, 1, 0x0B, 1, 0, (.octets 353), .wo, .const 0, .any⟩
/-- 0x9000:0C DEBUG_SEAL (R492): 1 seals debug for ever -/
def sec_DEBUG_SEAL : Row := ⟨0x9000, 1, 0x0C, 1, 0, .bool, .wo, .const 0, .flag⟩
/-- 0x9000:0D ADVANCE_SKIPPED (R492): Sticky count (R470) -/
def sec_ADVANCE_SKIPPED : Row := ⟨0x9000, 1, 0x0D, 1, 0, .u32, .roClear, .const 0, .any⟩
/-- 0x9000:0E ACTIVE_DIR (R492): Slot booted, 0 or 1; 255 none -/
def sec_ACTIVE_DIR : Row := ⟨0x9000, 1, 0x0E, 1, 0, .u8, .ro, .const 255, .any⟩
/-- 0x9000:0F BOOT_LOG (R492): 16 bytes per bundle: SLOT U8, ENTRY U8, KIND U8, reserved U8, IMAGE_ID U32, VERSION U32, RESULT U16 (R69), REC -/
def sec_BOOT_LOG : Row := ⟨0x9000, 1, 0x0F, 1, 0, .domain, .ro, .const 0, .any⟩
/-- 0x9000:10 FLASH_ADDR (R492): R489 -/
def sec_FLASH_ADDR : Row := ⟨0x9000, 1, 0x10, 1, 0, .u32, .rw, .const 0, .any⟩
/-- 0x9000:11 FLASH_STAGE (R492): R489 -/
def sec_FLASH_STAGE : Row := ⟨0x9000, 1, 0x11, 1, 0, .domain, .rw, .const 0, .any⟩
/-- 0x9000:12 FLASH_PROGRAM (R492): 1 programs FLASH_STAGE -/
def sec_FLASH_PROGRAM : Row := ⟨0x9000, 1, 0x12, 1, 0, .u8, .wo, .const 0, .range 1 1⟩
/-- 0x9000:13 FLASH_STATE (R492): 0 idle, 1 busy, 2 done, 3 failed -/
def sec_FLASH_STATE : Row := ⟨0x9000, 1, 0x13, 1, 0, .u8, .ro, .const 0, .any⟩
/-- 0x9000:14 FLASH_SIZE (R492): Flash size from SFDP (bytes) -/
def sec_FLASH_SIZE : Row := ⟨0x9000, 1, 0x14, 1, 0, .u32, .ro, .const 0, .any⟩
/-- 0x2000:00 ENTRIES (R511): Highest subindex -/
def sys_ENTRIES : Row := ⟨0x2000, 1, 0x00, 1, 0, .u8, .ro, .const 13, .any⟩
/-- 0x2000:01 BOOT_MODE (R511): 0 FLASH, 1 FLASH_NO_PCIE, 2 RECOVERY (R509) -/
def sys_BOOT_MODE : Row := ⟨0x2000, 1, 0x01, 1, 0, .u8, .ro, .const 0, .any⟩
/-- 0x2000:02 RESET_CAUSE (R511): 0 PORST_N, 1 WRST_N, 2 WARM_RESET, 3 rail, 4 PLL (R496) -/
def sys_RESET_CAUSE : Row := ⟨0x2000, 1, 0x02, 1, 0, .u8, .ro, .const 0, .any⟩
/-- 0x2000:03 WARM_RESETS (R511): Warm resets since PORST_N -/
def sys_WARM_RESETS : Row := ⟨0x2000, 1, 0x03, 1, 0, .u32, .ro, .const 0, .any⟩
/-- 0x2000:04 START_TIMES (R511): U32 per step of R510: end time (µs after the reset ends) -/
def sys_START_TIMES : Row := ⟨0x2000, 1, 0x04, 1, 0, .domain, .ro, .const 0, .any⟩
/-- 0x2000:05 QUAD_BOOT_MASK (R511): Bit q: QD_q powered at the next start-up -/
def sys_QUAD_BOOT_MASK : Row := ⟨0x2000, 1, 0x05, 1, 0, .u32, .rw, .const 4294967295, .any⟩
/-- 0x2000:06 VDD_CORE_TARGET (R511): Set point (mV), R500 -/
def sys_VDD_CORE_TARGET : Row := ⟨0x2000, 1, 0x06, 1, 0, .u16, .ro, .const 850, .any⟩
/-- 0x2000:07 VDD_CORE_NOW (R511): AVSBus read-back (mV) -/
def sys_VDD_CORE_NOW : Row := ⟨0x2000, 1, 0x07, 1, 0, .u16, .ro, .const 850, .any⟩
/-- 0x2000:08 AVS_RETRIES (R511): Sticky count (R495) -/
def sys_AVS_RETRIES : Row := ⟨0x2000, 1, 0x08, 1, 0, .u32, .roClear, .const 0, .any⟩
/-- 0x2000:09 RAIL_EVENTS (R511): 16 bytes per event, last 16: RAIL U8 (row of R493 from 0), reserved (3), UPTIME_NS U64, reserved U32 -/
def sys_RAIL_EVENTS : Row := ⟨0x2000, 1, 0x09, 1, 0, .domain, .ro, .const 0, .any⟩
/-- 0x2000:0A DOMAINS (R511): 8 bytes per domain: DOMAIN U8, STATE U8 (0 off, 1 on, 2 changing), VOLTAGE U16 (mV set point), CLOCK U16 (MHz) -/
def sys_DOMAINS : Row := ⟨0x2000, 1, 0x0A, 1, 0, .domain, .ro, .const 0, .any⟩
/-- 0x2000:0B NEIGHBOUR_MAP (R511): 2 bytes per neighbouring pair: lower domain, higher domain -/
def sys_NEIGHBOUR_MAP : Row := ⟨0x2000, 1, 0x0B, 1, 0, .domain, .ro, .const 0, .any⟩
/-- 0x2000:0C STEP_TIME_MAX (R511): Longest crown step up (ns) -/
def sys_STEP_TIME_MAX : Row := ⟨0x2000, 1, 0x0C, 1, 0, .u32, .ro, .const 0, .any⟩
/-- 0x2000:0D PLL_STATUS (R511): Bit 0 core, 1 crown synthesiser, 2 island, 3 HBM3 PHY: locked -/
def sys_PLL_STATUS : Row := ⟨0x2000, 1, 0x0D, 1, 0, .u8, .ro, .const 15, .any⟩
/-- 0x2040:00 ENTRIES (R511): Highest subindex -/
def th_ENTRIES : Row := ⟨0x2040, 1, 0x00, 1, 0, .u8, .ro, .const 7, .any⟩
/-- 0x2040:01 TJ (R511): Hottest on-die reading (0.1 °C) -/
def th_TJ : Row := ⟨0x2040, 1, 0x01, 1, 0, .i16, .ro, .const 0, .any⟩
/-- 0x2040:02 TJ_DOMAIN (R511): Domain of that reading -/
def th_TJ_DOMAIN : Row := ⟨0x2040, 1, 0x02, 1, 0, .u8, .ro, .const 0, .any⟩
/-- 0x2040:03 TJ_HIGH (R511): °C, 70 to the grade's maximum Tj -/
def th_TJ_HIGH : Row := ⟨0x2040, 1, 0x03, 1, 0, .u8, .rws, .const 95, .range 70 105⟩
/-- 0x2040:04 TJ_TRIP (R511): °C -/
def th_TJ_TRIP : Row := ⟨0x2040, 1, 0x04, 1, 0, .u8, .ro, .const 110, .any⟩
/-- 0x2040:05 GRADIENT_MAX (R511): Largest neighbour difference (°C). Writing 0 restarts it from the present value -/
def th_GRADIENT_MAX : Row := ⟨0x2040, 1, 0x05, 1, 0, .u8, .roClear, .const 0, .any⟩
/-- 0x2040:06 GRADIENT_EVENTS (R511): Sticky count (R506) -/
def th_GRADIENT_EVENTS : Row := ⟨0x2040, 1, 0x06, 1, 0, .u32, .roClear, .const 0, .any⟩
/-- 0x2040:07 TJ_HIGH_EVENTS (R511): Sticky count (R505) -/
def th_TJ_HIGH_EVENTS : Row := ⟨0x2040, 1, 0x07, 1, 0, .u32, .roClear, .const 0, .any⟩

/-- The rows at index base 0x2200. -/
def rows2200 : List Row :=
  [rd_ENTRIES, rd_ENABLE, rd_RATE_NUM, rd_RATE_DEN, rd_LINES_PER_FRAME, rd_ACTIVE_FIRST, rd_ACTIVE_LAST,
   rd_SOURCE, rd_SOURCE_SEL, rd_FALLBACK, rd_HOLDOVER_TIME, rd_SLEW_MAX, rd_JUMP_THRESHOLD, rd_LOCK_WINDOW,
   rd_FRAME_OFFSET, rd_EDGE_POLARITY, rd_EDGE_CADENCE, rd_MISS_LIMIT, rd_LINE_MATCH, rd_SWAP_HOLD,
   rd_LOCK_STATE, rd_NOW, rd_PHASE_ERROR, rd_LOCK_EVENTS]
/-- The rows at index base 0x2180. -/
def rows2180 : List Row :=
  [ptp_ENTRIES, ptp_PTP_ENABLE, ptp_PTP_PORT, ptp_PTP_DOMAIN, ptp_DELAY_MECH, ptp_PTP_STATE, ptp_MASTER_OFFSET,
   ptp_GM_IDENTITY]
/-- The rows at index base 0x2400. -/
def rows2400 : List Row :=
  [cmd_ENTRIES, cmd_EXEC, cmd_LAST_TICKET, cmd_LAST_RESULT, cmd_LAST_RETURN, cmd_QUEUED, cmd_RECORD]
/-- The rows at index base 0x1018. -/
def rows1018 : List Row :=
  [id_ENTRIES, id_VENDOR_ID, id_PRODUCT_CODE, id_STEPPING, id_SERIAL, id_PART, id_GRADE, id_IDENTITY_PUBKEY]
/-- The rows at index base 0x1F10. -/
def rows1F10 : List Row :=
  [img_ENTRIES, img_ROM_VERSION, img_ROM_BUILD, img_PATCH_SLOTS_USED, img_PATCH_LEVEL, img_PATCH_ROLLBACK,
   img_CONFIG_VERSION, img_CONFIG_ROLLBACK, img_PATCH_TABLE]
/-- The rows at index base 0x2010. -/
def rows2010 : List Row :=
  [iop_ENTRIES, iop_UDP_PORT, iop_SESSION_MAX, iop_IDLE_TIMEOUT, iop_MAILBOX_ROLE, iop_FABRIC_IOP,
   iop_SESSIONS_OPEN, iop_AUTH_FAILURES, iop_FRAMES_DISCARDED, iop_DENIED_COUNT, iop_NOTIFY_LOST,
   iop_HELLO_RATE, iop_SESSION_TABLE]
/-- The rows at index base 0x2100. -/
def rows2100 : List Row :=
  [mil_ENTRIES, mil_SPARE_CELLS, mil_LOAD_CEILING, mil_MEM_BW_LIMIT, mil_PORT_LOAD_LIMIT, mil_LEND_SPARES,
   mil_CLOCK_SCALING, mil_DOWN_HOLD, mil_PICTURE_REGION, mil_CLIP_REGION, mil_CELLS_USED_MILLI,
   mil_CELL_CAP_MILLI, mil_MEM_BW_USED, mil_CELLS_RETIRED, mil_SHED_COUNT, mil_SPARES_HELD]
/-- The rows at index base 0x3000. -/
def rows3000 : List Row :=
  [st_ENTRIES, st_TYPE, st_CLASS, st_DOMAIN, st_STATE, st_OWNER_TAG, st_STAGED, st_MERGE_OK,
   st_INPUTS, st_OUTPUTS, st_LEAD_LINES, st_PRI, st_CROWN_MASK, st_END_ACTION, st_PLAYLIST, st_CELLS_MILLI,
   st_LEADER, st_ADMIT_SHORTFALL, st_CELL_SET]
/-- The rows at index base 0x3A00. -/
def rows3A00 : List Row :=
  [ss_ENTRIES, ss_OPENED_AT, ss_PICTURES_IN, ss_PICTURES_OUT, ss_ROWS_DONE, ss_LATE_ROWS, ss_SLIPS,
   ss_PREEMPT_WAITS, ss_ROWS_MOVED, ss_BYTES_OUT, ss_SPLICES, ss_PLAYLIST_POS, ss_LAST_PICTURE_AT]
/-- The rows at index base 0x4000. -/
def rows4000 : List Row :=
  [cell_ENTRIES, cell_STATE, cell_SPARE, cell_OUT_OF_SERVICE, cell_LOAD_MILLI, cell_SHARES,
   cell_ROWS_DONE, cell_ROWS_RERUN, cell_CYCLES_BUSY, cell_CYCLES_WAIT_DEP, cell_CYCLES_WAIT_MEM,
   cell_CYCLES_IDLE, cell_CORRECTED, cell_FAULTS, cell_CURRENT_ROW, cell_RETIRED_BY_FAULT]
/-- The rows at index base 0x4080. -/
def rows4080 : List Row :=
  [crown_ENTRIES, crown_POWER_STATE, crown_CLOCK_MHZ, crown_CLOCK_FORCE, crown_PARK_ALLOWED,
   crown_LOAD_MAX_MILLI, crown_STEPS_UP, crown_STEPS_DOWN, crown_REF_HITS, crown_REF_MISSES, crown_PORT_BYTES_IN,
   crown_PORT_BYTES_OUT, crown_BANK_CONFLICTS, crown_RETIRED_MASK, crown_TEMP, crown_CORRECTED]
/-- The rows at index base 0x4100. -/
def rows4100 : List Row :=
  [cs_ENTRIES, cs_BANK_SELECT, cs_BANK_ACTIVE, cs_DRAIN_MASK, cs_MICROCODE_ROLLBACK, cs_RESTORED_WORDS,
   cs_TRAPS, cs_BANK_INFO]
/-- The rows at index base 0x3200. -/
def rows3200 : List Row :=
  [enc_ENTRIES, enc_RUNGS, enc_RAP_INTERVAL, enc_GOP_B, enc_REFS, enc_LOOKAHEAD, enc_REFRESH_MODE,
   enc_REFRESH_PERIOD, enc_DISPLAY_LAG, enc_EGRESS_LINES, enc_MIN_LAG, enc_RAP_REQUEST, enc_PARAM_REPEAT,
   enc_SEI_MASK, enc_TS_OFFSET, enc_EGRESS_LATE, enc_FORMAT, enc_PROFILE, enc_LEVEL, enc_TIER,
   enc_PRESET, enc_WIDTH, enc_HEIGHT, enc_BIT_DEPTH, enc_RTP_PT, enc_SSRC, enc_MTU_PAYLOAD, enc_TS_PID,
   enc_TS_MUX_RATE, enc_FEC_MODE, enc_FEC_L, enc_FEC_D]
/-- The rows at index base 0x3400. -/
def rows3400 : List Row :=
  [rc_ENTRIES, rc_STATUS, rc_BULK_RATE_NUM, rc_BULK_RATE_DEN, rc_MODE, rc_BITRATE, rc_MAX_BITRATE,
   rc_CPB_BITS, rc_INIT_FULLNESS, rc_QP_LOW, rc_QP_HIGH, rc_QP_TARGET, rc_ROW_CAP, rc_ROW_QP_STEP,
   rc_DEBT_SPREAD, rc_BRIM_ENTRY, rc_AQ_STRENGTH, rc_HRD_SIGNAL, rc_BRIM_ROWS, rc_BRIM_BLOCKS]
/-- The rows at index base 0x3600. -/
def rows3600 : List Row :=
  [dec_ENTRIES, dec_START_MODE, dec_REORDER_WINDOW, dec_REORDER_LINES, dec_STILL_LIMIT, dec_COHERENCE_LIMIT,
   dec_SCENE_CUT, dec_FILM_GRAIN, dec_INPUT_TIMEOUT, dec_LOSS_ACTION, dec_DD_OFFSET, dec_GIVEUP_LINES,
   dec_MX_LINES, dec_LAYER_CFG, dec_LAYER_STATUS]
/-- The rows at index base 0x3800. -/
def rows3800 : List Row :=
  [cond_ENTRIES, cond_CANVAS_WIDTH, cond_CANVAS_HEIGHT, cond_BACKGROUND, cond_CANVAS_COLOUR,
   cond_CANVAS_RANGE, cond_RAW_LAYOUT, cond_RAW_PITCH, cond_COLOUR_IN_DEFAULT, cond_HDR_META_SRC,
   cond_HDR_META, cond_COLOUR_MISMATCH, cond_CROP_CLIPPED, cond_LAYER_REPEATS, cond_RAW_REJECTED,
   cond_RAW_LAYOUT_IN, cond_RUNG_COND, cond_LAYER, cond_PASSES]
/-- The rows at index base 0x4200. -/
def rows4200 : List Row :=
  [ic_ENTRIES, ic_STATE, ic_OUT_OF_SERVICE, ic_LOAD_MILLI, ic_PASSES, ic_TILE_CROWN, ic_PIXELS_OUT,
   ic_TILES_TURNED, ic_STRIPS_LATE, ic_CORRECTED]
/-- The rows at index base 0x5000. -/
def rows5000 : List Row :=
  [reg_ENTRIES, reg_KIND, reg_T, reg_BASE, reg_SIZE, reg_EXTENT, reg_USERS, reg_WRITES_REJECTED,
   reg_CORRECTED_BITS, reg_UNCORRECTABLE_READS, reg_MAX_IN_PAGE, reg_BAD_PAGES, reg_LAST_SCRUB,
   reg_LAST_SCRUB_AT, reg_CREATED_AT]
/-- The rows at index base 0x5100. -/
def rows5100 : List Row :=
  [hbm_ENTRIES, hbm_NR_K, hbm_NR_RADIUS, hbm_TEMP_HIGH, hbm_RETRAIN_INTERVAL, hbm_RETRAIN_ALIGN,
   hbm_WRITEBACK_BITS, hbm_TEMP_0, hbm_TEMP_1, hbm_REFRESH_X2, hbm_NR_ACTIVATES, hbm_RETRAINS,
   hbm_RETRAIN_LATE, hbm_PAUSE_MAX, hbm_SEVERITY_CORRECTED, hbm_PARITY_RETRIES, hbm_BYTES_READ,
   hbm_BYTES_WRITTEN, hbm_PC_STATUS]
/-- The rows at index base 0x5180. -/
def rows5180 : List Row :=
  [sto_ENTRIES, sto_SCRUB_RATE, sto_LAP_LIMIT_MS, sto_LAP_CONTROL, sto_LAP_TABLES, sto_LAP_SECURITY,
   sto_LAP_DICTIONARY, sto_LAP_OVERRUNS, sto_SRAM_CORRECTED, sto_SRAM_UNCORRECTABLE, sto_SCRUB_BAD,
   sto_FUSE_ENTRIES_LEFT, sto_FUSE_TABLE, sto_STORE_CORRECTED]
/-- The rows at index base 0x5200. -/
def rows5200 : List Row :=
  [pool_ENTRIES, pool_ENABLE, pool_REGION, pool_BATTS, pool_BASE, pool_CLASS_DEFAULT, pool_HOST_MIN,
   pool_REFILL_MARK, pool_SPILL_MARK, pool_WARN_1, pool_WARN_2, pool_WARN_3, pool_WARN_HYST, pool_WARN_STATE,
   pool_RESERVED, pool_SHARED, pool_SHARED_IN_USE, pool_PINNED, pool_LOW_SHARED_FREE, pool_WARN_CROSSINGS,
   pool_PAUSE_DISCARDS, pool_LIVE_DROPS, pool_NO_BATT_DROPS, pool_REPLICATION_DROPS, pool_CACHE_STALLS,
   pool_OWNERS]
/-- The rows at index base 0x5300. -/
def rows5300 : List Row :=
  [qg_ENTRIES, qg_INGEST_POOL, qg_INGEST_MIN, qg_DEPTH_LIMIT, qg_FLUSH, qg_QUEUE_STATUS, qg_INPUT_OWNER,
   qg_ENTRIES_FREE, qg_ENTRY_STORE_DROPS, qg_LEAKS_RECLAIMED, qg_COUNT_FAULTS]
/-- The rows at index base 0x6000. -/
def rows6000 : List Row :=
  [lane_ENTRIES, lane_LINK_STATE, lane_FOM, lane_FOM_LOW, lane_TX_FFE, lane_TX_FFE_10G, lane_RX_EQ,
   lane_FREQ_OFFSET, lane_POLARITY, lane_LANE_INDEX, lane_BLOCK_ERRORS, lane_LOCK_LOSSES, lane_TRAIN_FAILS,
   lane_LOW_FOM_COUNT, lane_FOM_DROPS, lane_TRAIN_TIME]
/-- The rows at index base 0x6080. -/
def rows6080 : List Row :=
  [port_ENTRIES, port_MODE, port_WIDTH, port_DOMAIN, port_PORT_STATE, port_ACTIVE_WIDTH, port_FOM_MIN,
   port_FOM_DROP, port_NARROW_OK, port_MIN_WIDTH, port_SEAL_MODE, port_SEALED, port_REKEY_INTERVAL,
   port_MAC_ADDR, port_VLAN_ID, port_IPV4_ADDR, port_IPV4_PREFIX, port_IPV6_ADDR, port_IPV6_PREFIX,
   port_MAX_FRAME, port_PEER_SERIAL, port_PEER_PORT, port_LAST_DOWN_CAUSE, port_LINK_UPS, port_LINK_DOWNS,
   port_NARROWED, port_HCRC_ERRORS, port_CRC_ERRORS, port_TAG_FAILURES, port_HOP_DROPS, port_KIND_DROPS,
   port_PAUSES_SENT, port_PAUSES_RECEIVED, port_PAUSE_FRAMES_IGNORED, port_FRAMES_IN, port_FRAMES_OUT,
   port_BYTES]
/-- The rows at index base 0x2020. -/
def rows2020 : List Row :=
  [mgmt_ENTRIES, mgmt_MGMT_MODE, mgmt_MGMT_STATE, mgmt_MGMT_SPEED, mgmt_MGMT_MAC, mgmt_MGMT_VLAN,
   mgmt_MGMT_IPV4, mgmt_MGMT_IPV4_NOW]
/-- The rows at index base 0x6100. -/
def rows6100 : List Row :=
  [card_ENTRIES, card_CARD_AUTO, card_CARD_STATE, card_FAIL_CAUSE, card_EPOCH, card_OWN_ADDR,
   card_BLOCK, card_ROOT_SERIAL, card_PARENT_PORT, card_DEPTH, card_FABRIC_DEVICES, card_FABRIC_DIAMETER,
   card_MAX_DEPTH, card_ADDR_NEED, card_CARD_QUIET, card_CARD_TIMEOUT, card_GRAFT_WAIT, card_HEARTBEAT_MISS,
   card_GRAFTS, card_NO_ROUTE, card_NEIGHBOURS, card_GLOBAL_LOG, card_SNAPSHOT]
/-- The rows at index base 0x6200. -/
def rows6200 : List Row :=
  [tab_ENTRIES, tab_LEARN_MODE, tab_LEARN_SUSPENDED, tab_AGE_TIME, tab_MOVE_HOLD, tab_EVICT_POLICY,
   tab_HASH_SEED, tab_EM_USED, tab_LPM_USED, tab_LEARNS, tab_MOVES, tab_MOVE_CANDIDATES, tab_EVICTIONS,
   tab_LEARN_FAILS, tab_LEARN_DROPS, tab_AGED_OUT, tab_SHADOW_LAP, tab_LAP_LAST, tab_RESTORED,
   tab_INVALIDATED, tab_FLOOD_PORTS, tab_FLOOD_FABRIC]
/-- The rows at index base 0x6300. -/
def rows6300 : List Row :=
  [egr_ENTRIES, egr_GATE_GUARD, egr_GATE_APPLY, egr_ADMIN_BASE, egr_ADMIN_CYCLE, egr_ADMIN_LIST,
   egr_OPER_STATE, egr_OPER_BASE, egr_OPER_CYCLE, egr_OPER_LIST, egr_PENDING_AT, egr_GATE_STATE,
   egr_LATE_START, egr_GATE_CYCLES, egr_QUEUE_EGRESS, egr_T_PREV, egr_RATE, egr_BURST, egr_OVERHEAD,
   egr_RESET_MODE]
/-- The rows at index base 0x7000. -/
def rows7000 : List Row :=
  [pcie_ENTRIES, pcie_LINK_SPEED, pcie_LINK_WIDTH, pcie_D_STATE, pcie_FUNCTION_RESETS, pcie_AER_CORRECTABLE,
   pcie_AER_UNCORRECTABLE, pcie_BAR2_REFUSED, pcie_BAR0_MISUSE]
/-- The rows at index base 0x7010. -/
def rows7010 : List Row :=
  [dma_ENTRIES, dma_MODE, dma_PRIORITY, dma_STATE, dma_DESCRIPTORS, dma_BYTES, dma_ERRORS, dma_TRUNCATIONS,
   dma_WAITS, dma_LAST_STATUS]
/-- The rows at index base 0x7100. -/
def rows7100 : List Row :=
  [irq_ENTRIES, irq_MESSAGES, irq_HELD, irq_PME_SENT, irq_EMPTY_CLAIMS, irq_COMPLETE_ERRORS,
   irq_SOURCE_EVENTS]
/-- The rows at index base 0x8000. -/
def rows8000 : List Row :=
  [fc_ENTRIES, fc_LOG, fc_LOG_NEXT, fc_LOG_LOST, fc_REPEAT_WINDOW, fc_CAPTURE_SEV, fc_FAULT_N_STATE,
   fc_STICKY_SUMMARY, fc_CLEAR_ALL, fc_HALTED, fc_HALT_CAUSE, fc_RERUNS, fc_RECOVERY_BRIM, fc_RECOVERY_CONCEALED,
   fc_GUARANTEE_BREACHES]
/-- The rows at index base 0x8001. -/
def rows8001 : List Row :=
  [cap_ENTRIES, cap_VALID, cap_MESSAGE, cap_AT, cap_UPTIME_NS, cap_LOG_SEQ, cap_MERGE_COUNT,
   cap_KINDS_SEEN, cap_SEV_MAX]
/-- The rows at index base 0x8010. -/
def rows8010 : List Row :=
  [unit_ENTRIES, unit_STICKY, unit_MESSAGES, unit_LAST, unit_LAST_AT]
/-- The rows at index base 0x9000. -/
def rows9000 : List Row :=
  [sec_ENTRIES, sec_DEBUG_STATE, sec_EVALUATED, sec_VENDOR_ROOT_HASH, sec_OWNER_KEY_HASH, sec_IDENTITY_CERT,
   sec_CLIENT_KEYS, sec_SEAL_PEER_MODE, sec_SEAL_PEERS, sec_SEAL_FAILURES, sec_DEBUG_CHALLENGE,
   sec_DEBUG_TOKEN, sec_DEBUG_SEAL, sec_ADVANCE_SKIPPED, sec_ACTIVE_DIR, sec_BOOT_LOG, sec_FLASH_ADDR,
   sec_FLASH_STAGE, sec_FLASH_PROGRAM, sec_FLASH_STATE, sec_FLASH_SIZE]
/-- The rows at index base 0x2000. -/
def rows2000 : List Row :=
  [sys_ENTRIES, sys_BOOT_MODE, sys_RESET_CAUSE, sys_WARM_RESETS, sys_START_TIMES, sys_QUAD_BOOT_MASK,
   sys_VDD_CORE_TARGET, sys_VDD_CORE_NOW, sys_AVS_RETRIES, sys_RAIL_EVENTS, sys_DOMAINS, sys_NEIGHBOUR_MAP,
   sys_STEP_TIME_MAX, sys_PLL_STATUS]
/-- The rows at index base 0x2040. -/
def rows2040 : List Row :=
  [th_ENTRIES, th_TJ, th_TJ_DOMAIN, th_TJ_HIGH, th_TJ_TRIP, th_GRADIENT_MAX, th_GRADIENT_EVENTS,
   th_TJ_HIGH_EVENTS]

/-- Every object of the dictionary. -/
def all : List Row :=
  rows2200 ++ rows2180 ++ rows2400 ++ rows1018 ++ rows1F10 ++ rows2010 ++
  rows2100 ++ rows3000 ++ rows3A00 ++ rows4000 ++ rows4080 ++ rows4100 ++
  rows3200 ++ rows3400 ++ rows3600 ++ rows3800 ++ rows4200 ++ rows5000 ++
  rows5100 ++ rows5180 ++ rows5200 ++ rows5300 ++ rows6000 ++ rows6080 ++
  rows2020 ++ rows6100 ++ rows6200 ++ rows6300 ++ rows7000 ++ rows7010 ++
  rows7100 ++ rows8000 ++ rows8001 ++ rows8010 ++ rows9000 ++ rows2000 ++
  rows2040

end Sys2Proof.Machine.Od
end

