-- ==== Sys2Proof/Machine/State.lean ====
section
/-! DEFINITION. The state of the block as plain data: the object dictionary (the one home of every scalar object, R37–R45),
and beside it the records, queues, memories and counters that the chapters name. A table lists what differs from its
default, which the operation that reads it names. -/

namespace Sys2Proof.Machine

/-- A raster domain beyond its objects (R8, R14, R20, R21). -/
structure RasterDomain where
  /-- Present raster time; 0 while disabled. -/
  pos        : RTime := ⟨0, 0, 0⟩
  /-- Fraction of a line tick not yet counted. -/
  acc        : Nat := 0
  /-- Frequency offset in line ticks per frame, and the cycle in which it has removed the measured error (R21). -/
  slew       : Int := 0
  slewEnd    : Option Nat := none
  /-- The frequency measured last, as such an offset, and the cycle and reference position of the last measurement (R20). -/
  freq       : Int := 0
  lastRef    : Option (Nat × Int) := none
  /-- The source in use: SOURCE, or FALLBACK once it is tried. -/
  src        : Nat := 0
  /-- The domain stands at the start of a LINE 0 whose frame-start event has not been raised yet. -/
  landed     : Bool := true
  /-- Frames and measurements of the span within LOCK_WINDOW, and the frame of the last measurement. -/
  spanFrames : Nat := 0
  spanCount  : Nat := 0
  lastFrame  : Option Nat := none
  /-- REF_FRAME: an edge has been seen in the present window; run of missing edges. -/
  edgeSeen   : Bool := false
  misses     : Nat := 0
  /-- An error beyond JUMP_THRESHOLD waits for its jump. -/
  jumpDue    : Bool := false
  /-- Cycle at which HOLDOVER was entered. -/
  holdoverAt : Nat := 0
  /-- FALLBACK, tried after HOLDOVER_TIME as though written to SOURCE, waits for the domain's swap point (R20). -/
  nextSrc    : Option Nat := none
  /-- FRAMEs of the last frame-start event and of the last line-match event: a frame that a jump repeats raises neither a
  second time (R22). -/
  startedTo  : Option Nat := none
  matchedTo  : Option Nat := none
  deriving DecidableEq, Repr

/-- What a scheduled raster-time event does (R26). -/
inductive SchedKind where
  | swapNow (scope : Nat)
  | globalOp (opId : Nat)
  deriving DecidableEq, Repr

/-- A scheduled event of a domain. -/
structure Sched where
  rd   : Nat
  at_  : RTime
  kind : SchedKind
  deriving DecidableEq, Repr

/-- Raster time (R8–R36). -/
structure RasterState where
  domains : Tab RasterDomain := []
  sched   : List Sched := []
  /-- Last PTP time update: cycle, and ns after the SMPTE epoch (R17, R18). -/
  ptpTime : Option (Nat × Nat) := none
  deriving DecidableEq, Repr

/-- A subscription of a session (R61): the object's key, MODE, PERIOD, the RD_0 frame starts left until the next item
(MODE 1), the value last looked at, whether its item of the present RD_0 frame has gone, and whether a further change waits
(MODE 0). -/
structure Subscription where
  key       : Nat
  mode      : Nat
  period    : Nat
  due       : Nat
  seen      : List Byte
  notified  : Bool := false
  dirty     : Bool := false
  deriving DecidableEq, Repr

/-- A session (R55–R60). SESSION 0 is the mailbox; `auth` is false while it is at MAILBOX_ROLE. -/
structure Session where
  id          : Nat
  origin      : Origin
  role        : Nat
  auth        : Bool := false
  frameMax    : Nat := 4096
  idleTimeout : Nat := 0
  keyId       : List Byte := []
  /-- Cycle of the last valid frame from the client. -/
  lastValid   : Nat := 0
  c2e         : List Byte := []
  e2c         : List Byte := []
  /-- SEQ of the last request handled and the frame that answered it; empty while its answer is held (R66). -/
  keptSeq     : Nat := 0
  keptAnswer  : List Byte := []
  /-- SEQ of the last frame the engine originated. -/
  engineSeq   : Nat := 0
  badRun      : Nat := 0
  subs        : List Subscription := []
  deriving DecidableEq, Repr

/-- A handshake between its HELLO and its ACCEPT (R55, R57). -/
structure Handshake where
  session  : Nat
  origin   : Origin
  hello    : List Byte
  answer   : List Byte
  role     : Nat
  frameMax : Nat
  keyId    : List Byte
  pubkey   : List Byte
  ephDraw  : Nat
  startAt  : Nat
  deriving DecidableEq, Repr

/-- A NOTIFY frame that has no NOTIFY_ACK yet (R62); `placed` is the cycle it was sent or placed in, if it was. -/
structure InFlight where
  session : Nat
  seq     : Nat
  frame   : List Byte
  resends : Nat := 0
  placed  : Option Nat := none
  deriving DecidableEq, Repr

/-- A fragment of an IP datagram that is not whole yet (R46). -/
structure IpFragment where
  src    : List Byte
  dst    : List Byte
  proto  : Nat
  ident  : Nat
  offset : Nat
  more   : Bool
  data   : List Byte
  deriving DecidableEq, Repr

/-- The way back to a UDP client (R46): the port it was heard on (none the management port) or the device that relayed its
frame, the engine's address that it used, and the MAC that sent its datagram. -/
structure UdpPath where
  port : Option Nat
  dev  : Option Nat
  own  : List Byte
  mac  : List Byte
  deriving DecidableEq, Repr

/-- The IOP service: sessions, handshakes, notifications, the HELLO frames of the present second (R57), and fragments of
datagrams (R46). -/
structure IopState where
  sessions   : List Session := []
  handshakes : List Handshake := []
  nextId     : Nat := 1
  inFlight   : List InFlight := []
  helloCount : Nat := 0
  helloSince : Nat := 0
  fragments  : List IpFragment := []
  /-- The way back to each UDP client that has been heard, and the identification of the next IP datagram. -/
  paths      : Tab UdpPath := []
  ipIdent    : Nat := 0
  deriving DecidableEq, Repr

/-- The response that waits for a command (R66): session, SEQ of its request, and the items before the command's. -/
structure HeldResponse where
  session : Nat
  seq     : Nat
  items   : List Byte
  deriving DecidableEq, Repr

/-- A command accepted with a ticket (R65): code, session, argument block, the response it holds up, and its RESULT and
return data once it has run. -/
structure CmdEntry where
  ticket  : Nat
  code    : Nat
  session : Nat
  args    : List Byte
  at_     : Nat
  held    : Option HeldResponse := none
  pending : Bool := false
  result  : Option (Nat × List Byte) := none
  deriving DecidableEq, Repr

/-- A completion record (R67). -/
structure CmdRecord where
  ticket  : Nat
  session : Nat
  result  : Nat
  doneAt  : RTime
  deriving DecidableEq, Repr

/-- The commands of one code: the one that runs, those that wait, the last 16 records, newest first, and LAST_RETURN. -/
structure CmdQueue where
  running    : Option CmdEntry := none
  waiting    : List CmdEntry := []
  records    : List CmdRecord := []
  lastReturn : List Byte := []
  deriving DecidableEq, Repr

/-- The command service: the last ticket given, and the queue of each code. -/
structure CmdState where
  ticket : Nat := 0
  queues : Tab CmdQueue := []
  deriving DecidableEq, Repr

/-- A stage of a stream and its cell set (R88, R89): 0–15 the decode of that input layer, 16 + r the encode of rung r; its
cost in milli-cells and the cells of its positions. -/
structure StageSet where
  stage : Nat
  cost  : Nat
  cells : List Nat
  deriving DecidableEq, Repr

/-- A conditioning pass (R264): its number (the rung, or 0x10 a composition), its conditioner, its pixels per second, the
picture it works on and the strips of it written, and whether a rotating pass has started (R252). -/
structure Pass where
  pass    : Nat
  ic      : Nat
  rate    : Nat
  rotates : Bool := false
  started : Bool := false
  crown   : Nat := 0
  /-- The cycle in which its last strip was written: its present one did not start before (R449). -/
  stripAt : Nat := 0
  deriving DecidableEq, Repr

/-- The settings of a rung that a picture keeps from the swap point at which it started (R204). -/
structure RungCfg where
  format       : Nat
  profile      : Nat
  level        : Nat
  tier         : Nat
  preset       : Nat
  width        : Nat
  height       : Nat
  depth        : Nat
  mode         : Nat
  bitrate      : Nat
  maxBitrate   : Nat
  cpbBits      : Nat
  initFullness : Nat
  qpLow        : Nat
  qpHigh       : Nat
  qpTarget     : Nat
  rowCap       : Nat
  qpStep       : Nat
  debtSpread   : Nat
  brimEntry    : Nat
  aq           : Nat
  hrd          : Bool
  refs         : Nat
  gopB         : Nat
  lookahead    : Nat
  refreshMode  : Nat
  refreshPeriod : Nat
  /-- The frame rate f as a ratio (R198), and whether the stream is LIVE. -/
  rateNum      : Nat
  rateDen      : Nat
  cls          : Nat
  deriving DecidableEq, Repr

/-- A block row of a coded picture: 0 not started, 1 on a cell, 2 complete, 3 replaced by its brim row; and its part of
the sizing ledger (R187–R196). -/
structure EncRow where
  state    : Nat := 0
  weight   : Nat := 0
  brim     : Nat := 0
  share    : Nat := 0
  cap      : Nat := 0
  bits     : Nat := 0
  q        : Int := 0
  pred     : Nat := 0
  fallback : Nat := 0
  brimMode : Bool := false
  /-- The ledger the row started from: CHARGED and RES (R187). -/
  charged  : Nat := 0
  reserve  : Nat := 0
  /-- After a fault its brim row takes its place (R460, R461). -/
  recover  : Bool := false
  /-- The cell that started it. -/
  cell     : Nat := 128
  /-- Its blocks once it is complete: what its unit codes, and its motion field (R172). -/
  blocks   : List BlockCode := []
  deriving DecidableEq, Repr

/-- A picture of a rung from the arrival of its first source line to its completion. `cls` is 0 for I, 1 for P, 2 + d for
B at depth d (R195); `inputRows` counts the rows whose source is in the picture store. -/
structure EncPic where
  rung      : Nat
  pic       : Nat
  frame     : Nat
  cfg       : RungCfg
  cells     : List Nat
  /-- Bank of each crown on which the picture started (R140), and its image. -/
  banks     : List (Nat × Nat) := []
  image     : Option (Nat × Nat) := none
  started   : Bool := false
  rap       : Bool := false
  tainted   : Bool := false
  cls       : Nat := 1
  /-- Position k in the refresh sweep (R162). -/
  sweep     : Option Nat := none
  /-- Numbers of its reference pictures, the first of list 0 first, and its own slot in the picture store. -/
  refPics   : List Nat := []
  slot      : Nat := 0
  /-- Rows whose sizes the QP model has taken up (R196). -/
  learned   : Nat := 0
  inputRows : Nat := 0
  /-- The stream's picture that its pass reads, and its source in the picture store (R172, R246). -/
  input     : Image := {}
  source    : Image := {}
  preamble  : List Byte := []
  budget    : Nat := 0
  floor     : Nat := 0
  target    : Nat := 0
  full      : Int := 0
  debt      : Int := 0
  baseQp    : Int := 0
  brimFrom  : Option Nat := none
  rows      : List EncRow := []
  qpSum     : Nat := 0
  slipped   : Bool := false
  /-- A reference was found poisoned: rows not yet coded are skip-form brim rows (R463). -/
  poisoned  : Bool := false
  deriving DecidableEq, Repr

/-- The motion field that rung 0's cells wrote for the picture of a frame, with the format and size it belongs to (R172). -/
structure MotionField where
  frame  : Nat
  format : Nat
  width  : Nat
  height : Nat
  rows   : List (List BlockCode)
  deriving DecidableEq, Repr

/-- A reference picture of a rung: its number, its slot in the picture store, and its reconstruction. -/
structure RefPic where
  pic   : Nat
  slot  : Nat
  image : Image
  deriving DecidableEq, Repr

/-- A rung beyond its objects: picture count, packet counters, the CPB model in units of 1 / RATE_NUM bits, debt, the QP
model and the history of complexities (R195–R200), the refresh sweep, and STATUS_r (R207). -/
structure RungState where
  picCount  : Nat := 0
  seq       : Nat := 0
  outSeq    : Nat := 0
  ssrc      : Nat := 0
  full      : Int := 0
  scale     : Nat := 1
  debt      : Int := 0
  log2K     : Tab Int := []
  xRows     : Tab (List Nat) := []
  xHist     : List Nat := []
  sinceRap  : Nat := 0
  coded     : Bool := false
  sweepPos  : Nat := 0
  brimPics  : Nat := 0
  status    : List Byte := []
  /-- continuity_counters of the video, PAT and PMT PIDs (R180), and media packets in the FEC matrix (R181). -/
  ccVideo   : Nat := 0
  ccPsi     : Nat := 0
  fecPackets : List (List Byte) := []
  /-- RTP sequence numbers of KIND 2 outputs and of their column and row FEC; TS packets sent for the present picture. -/
  tsSeq      : Nat := 0
  fecColSeq  : Nat := 0
  fecRowSeq  : Nat := 0
  tsCount    : Nat := 0
  /-- The rest of a transport-stream packet that TS_MUX_RATE owes, in 1 / (1,504 × RATE_NUM), and the cycle of the last PCR (R180). -/
  tsCarry    : Nat := 0
  pcrAt      : Nat := 0
  /-- The cycle of the last PAT and PMT (R180). -/
  psiAt      : Option Nat := none
  /-- Its reference pictures, newest first. -/
  refs       : List RefPic := []
  /-- Parameter sets in force since the last random-access point, and the colour code they signal (R158, R255); pictures started since it,
  and in all. -/
  params     : Option ParamSettings := none
  code       : Nat := 0
  sinceStart : Nat := 0
  startCount : Nat := 0
  /-- Motion fields that lower rungs still read (R172). -/
  fields     : List MotionField := []
  deriving DecidableEq, Repr

/-- A block row of a decoded picture: 0 its data is missing, 1 its data is complete, 2 on a cell, 3 decoded, 4 concealed;
its damaged blocks, what its parse found (R226), and the method of R227: 1 TEMPORAL_COPY, 2 MOTION_EXTRAPOLATION,
3 SPATIAL_FILL. -/
structure DecRow where
  state   : Nat := 0
  damage  : List (Nat × Nat) := []
  blocks  : Nat := 0
  intra   : Nat := 0
  top     : List (Option (Int × Int)) := []
  bottom  : List (Option (Int × Int)) := []
  method  : Nat := 0
  late    : Bool := false
  /-- Positions of the references of those vectors (R228). -/
  topRef    : List Int := []
  bottomRef : List Int := []
  /-- Vectors of MOTION_EXTRAPOLATION by columns of 8 × 8 blocks, with the position of the reference (R228, R230). -/
  vectors   : List (Int × Int × Option Int) := []
  /-- The cell that started it. -/
  cell    : Nat := 128
  deriving DecidableEq, Repr

/-- A picture of an input layer that is being received or decoded. -/
structure DecPic where
  pic      : Nat
  start    : PicStart
  frame    : Nat
  /-- Line of frame F at which its first packet arrived (R222). -/
  line     : Nat := 0
  rows     : List DecRow
  closed   : Bool := false
  tainted  : Bool := false
  slipped  : Bool := false
  /-- Packets of it in the layer's input queue (R313). -/
  packets  : Nat := 0
  /-- Sequence number of its first packet, and whether its end has arrived. -/
  seq      : Nat := 0
  ended    : Bool := false
  /-- A later picture has the same frame: it is not presented (R241). -/
  dropped  : Bool := false
  /-- Cells of the set on which it runs (R89). -/
  cells    : List Nat := []
  /-- Bank of each crown on which it started (R140), and its image. -/
  banks    : List (Nat × Nat) := []
  image    : Option (Nat × Nat) := none
  /-- Coded bytes of its packets, and its samples by rows, as far as they are decoded or concealed. -/
  data     : List (List Byte) := []
  samples  : Tab Image := []
  deriving DecidableEq, Repr

/-- A picture of the buffer (R239, R240): display position, whether it is still needed, and what its descriptor says. -/
structure HeldPic where
  position : Int
  pic      : Nat
  frame    : Nat
  tainted  : Bool
  concealedRows : Nat
  rap      : Bool
  pts      : Nat
  width    : Nat
  height   : Nat
  depth    : Nat
  /-- It stands in for a picture never received (R232). -/
  substitute : Bool := false
  /-- It has been output. -/
  shown    : Bool := false
  /-- Its samples, and its coded bytes where film grain belongs to it (R210). -/
  image    : Image := {}
  grain    : Option (List (List Byte)) := none
  /-- Samples of it were lost (R269). -/
  holes    : Bool := false
  /-- It repeats an earlier output, stands for a picture never decoded, and its number among the layer's outputs (R237, R241, R243). -/
  again    : Bool := false
  fill     : Bool := false
  number   : Nat := 0
  deriving DecidableEq, Repr

/-- An input layer (R211–R245): reception, decoding, buffer, presentation, and the counters of LAYER_STATUS. -/
structure LayerState where
  ssrc       : Option Nat := none
  highest    : Option Nat := none
  /-- Open gaps: sequence number and the linear line count at which it was first seen. -/
  gaps       : List (Nat × Nat) := []
  /-- Declared gaps, newest first, for LATE_PACKETS. -/
  declared   : List Nat := []
  lastPacket : Option Nat := none
  /-- Programmes of its transport stream (R213). -/
  programmes : List Programme := []
  /-- The picture whose packets come; none while those of a discarded one do. -/
  current    : Option Nat := none
  /-- A sequence that is not decoded was met: pictures up to a random-access point of a supported one are discarded (R209). -/
  unsupported : Bool := false
  pics       : List DecPic := []
  buffer     : List HeldPic := []
  /-- The held last picture: the copy source of R226. -/
  last       : Option HeldPic := none
  picCount   : Nat := 0
  /-- Frame of the picture presented last (R241). -/
  shown      : Option Nat := none
  outCount   : Nat := 0
  waitingRap : Bool := false
  tainted    : Bool := false
  inputLost  : Bool := false
  /-- Pictures until a recovery point completes, counted while no substitution is made (R234). -/
  recovery   : Option Nat := none
  /-- RASL pictures are skipped (R235). -/
  skipRasl   : Bool := false
  /-- Raw lines of the present picture received (R269), and whether samples of it were lost. -/
  rawLines   : Nat := 0
  rawHoles   : Bool := false
  /-- Frame of the raw picture under way (R166), and the reorder depth of the sequence. -/
  rawFrame   : Nat := 0
  reorder    : Nat := 0
  /-- Raw samples received of the present picture (R269), and the latest colour description and mastering-display and content-light
  metadata of the source, as HDR_META's 28 bytes (R210, R258). -/
  rawImage   : Image := {}
  rawBytes   : List Byte := []
  colour     : Option Colour := none
  hdr        : Option (List Byte) := none
  /-- The pictures this layer gave its consumers for its last two frames, newest first, by frame (R242, R261). -/
  given      : List (Nat × HeldPic) := []
  format     : Nat := 0
  profile    : Nat := 0
  level      : Nat := 0
  width      : Nat := 0
  height     : Nat := 0
  arrivalLine : Nat := 0
  picturesLost : Nat := 0
  packetsLost : Nat := 0
  packetsRecovered : Nat := 0
  packetsReordered : Nat := 0
  duplicates : Nat := 0
  latePackets : Nat := 0
  parseErrors : Nat := 0
  substitutions : Nat := 0
  greySubstitutions : Nat := 0
  taintedPictures : Nat := 0
  rowsTc     : Nat := 0
  rowsMx     : Nat := 0
  rowsSf     : Nat := 0
  rowsLate   : Nat := 0
  drops      : Nat := 0
  repeats    : Nat := 0
  discontinuities : Nat := 0
  raslSkipped : Nat := 0
  deriving DecidableEq, Repr

/-- The playlist entry that plays (R98): its index, clip, and the next picture of the clip. -/
structure Playing where
  entry : Nat
  clip  : Nat
  next  : Nat
  /-- The entry falls due at the next frame start: that splice is still to be counted. -/
  cut   : Bool := false
  deriving DecidableEq, Repr

/-- A stream beyond its objects. -/
structure Stream where
  stages     : List StageSet := []
  /-- Cell sets that take effect at the next swap point (R85, R86). -/
  nextStages : Option (List StageSet) := none
  passes     : List Pass := []
  /-- Admitted costs: HBM3 bytes/s, bits/s on each port, picture-store bytes. -/
  memBw      : Nat := 0
  portBits   : List (Nat × Nat) := []
  store      : Nat := 0
  /-- Picture stores still held for pictures started before a change: bytes, and the stage and number of those pictures (R85). -/
  oldStores  : List (Nat × List (Nat × Nat)) := []
  /-- Picture-store bytes by stage (R85). -/
  storeParts : List (Nat × Nat) := []
  closeAtSwap : Bool := false
  /-- A CLOSING stream whose coding state an alias has taken over: its present leader, and, from its swap point on, the stage and
  number of the pictures that still leave on its destinations (R76, R77, R95). -/
  follows    : Option Nat := none
  lastPics   : List (Nat × Nat) := []
  /-- A random-access point has been requested, and is due at the next picture of each rung in the mask (R157). -/
  rapRequest : Bool := false
  rapDue     : Nat := 0
  rungs      : Tab RungState := []
  pics       : List EncPic := []
  layers     : Tab LayerState := []
  playlist   : List PlaylistEntry := []
  nextPlaylist : Option (List PlaylistEntry) := none
  playing    : Option Playing := none
  /-- Entries of the playlist that have fallen due or been skipped (R98, R99). -/
  passed     : Nat := 0
  /-- Port and group of each membership (R216). -/
  memberships : List (Nat × List Byte) := []
  /-- Template batts: index of the OUTPUTS entry, batt, bytes (R314). -/
  templates  : List (Nat × Nat × Nat) := []
  /-- An alias whose destinations have joined its leader's replication, and a closed one whose destinations leave it at the
  leader's next swap point (R76, R94). -/
  joined     : Bool := false
  leaving    : Option Nat := none
  deriving DecidableEq, Repr

/-- A clip in the clip store (R96). -/
structure Clip where
  meet : ClipMeet
  addr : Nat
  size : Nat
  deriving DecidableEq, Repr

structure StreamUnit where
  streams : Tab Stream := []
  clips   : Tab Clip := []
  deriving DecidableEq, Repr

/-- A checkpoint record (R116). -/
structure Checkpoint where
  sid        : Nat
  stage      : Nat
  index      : Nat
  pic        : Nat
  row        : Nat
  format     : Nat
  preset     : Nat
  cls        : Nat
  rap        : Bool
  cell       : Nat
  deadline   : Nat
  outSeq     : Nat := 0
  qpPrev     : Nat := 0
  refreshCol : Nat := 0
  brim       : Bool := false
  tainted    : Bool := false
  aboveConcealed : Bool := false
  budget     : Nat := 0
  spent      : Nat := 0
  reserve    : Nat := 0
  rowsLeft   : Nat := 0
  debt       : Int := 0
  qpModel    : Nat := 0
  inBatt     : Nat := 0
  inAddr     : Nat := 0
  refSlots   : List Nat := []
  xchgAddr   : Nat := 0
  ctxCrc     : Nat := 0
  reconAddr  : Nat := 0
  /-- Words 12 to 31: set by the microcode; of a concealed row its method and vectors (R230). -/
  formatState : List Nat := []
  /-- Place of the record among those its cell has committed. -/
  number     : Nat := 0
  deriving DecidableEq, Repr

/-- The row a cell holds: its checkpoint record, the cycle it started at, whether the mirror of the record is written
(R116), whether it is re-run from another cell's record, and what it waits for (R110, R109). -/
structure CellRow where
  point    : Checkpoint
  startAt  : Nat
  mirrored : Bool := false
  rerun    : Bool := false
  waitDep  : Bool := false
  waitMem  : Bool := false
  /-- Its ROW_END microword has issued (R136). -/
  ended    : Bool := false
  /-- It has coded blocks with data of the row above (R459). -/
  depReady : Bool := false
  /-- Blocks that it has completed, by its progress marks, and those of the row above that it knows of (R117, R154). -/
  done     : Nat := 0
  above    : Nat := 0
  /-- The tile or band that it waits for: picture, whether a band, index (R109). -/
  want     : Option (Nat × Bool × Nat) := none
  /-- Batts that it has asked for, those it has sent filled, and its ledger reports (R128). -/
  batts    : List Nat := []
  filled   : List Nat := []
  ledger   : List Nat := []
  /-- Crown cycles for which it has run, waits on the row above, on fills and on batts left out (R449). -/
  busy     : Nat := 0
  deriving DecidableEq, Repr

/-- A cell: its sequencer (R129–R133), its registers (R128), its inbound queue (R102) and its row. -/
structure Cell where
  addr    : Nat := 0
  stack   : List Nat := []
  lc0     : Nat := 0
  lc1     : Nat := 0
  /-- User flags F0–F6 and the VA flags of conditions 8–15. -/
  user    : Nat := 0
  vaFlags : Nat := 0
  v       : Tab Nat := []
  ar      : Tab Nat := []
  d       : Tab Nat := []
  m       : Tab Nat := []
  bank    : Nat := 0
  inbound : List Nat := []
  /-- Crown cycles for which a WAIT word has repeated; 0 while none does. -/
  waited  : Nat := 0
  /-- What each resource holds after its last operation: 0 ME, 1 XF, 2 IP, 3 LF, 4 EC; and the cycle from which the data of LS0
  and LS1 is ready (R102). -/
  result  : Tab Nat := []
  ready   : Tab Nat := []
  /-- Checkpoint records that it has committed (R116). -/
  records : Nat := 0
  row     : Option CellRow := none
  /-- Rows to be re-run on this cell, by their records, with whether the mirror of each is written (R118, R458). -/
  reruns  : List (Checkpoint × Bool) := []
  /-- Taken out of service by a write (R120). -/
  byWrite : Bool := false
  /-- Cell store bytes written (R106). -/
  store   : Tab Byte := []
  deriving DecidableEq, Repr

/-- A tile of a reference picture in a crown's reference cache, or a band in its search pyramid (R109): the stage whose share it
takes, the picture, its index, and its place in the partition. -/
structure CacheTile where
  sid   : Nat
  stage : Nat
  pic   : Nat
  band  : Bool
  index : Nat
  line  : Nat
  deriving DecidableEq, Repr

/-- A crown: the clock it is stepping to (R501), whether a step-down is due (R92), whether it takes no work until
CROWN_RESET (R462), and its store's bytes by bank × 2^32 + offset. -/
structure Crown where
  step    : Option Nat := none
  /-- Cycle at which that step began. -/
  stepAt  : Nat := 0
  downDue : Bool := false
  /-- The cycle from which the crown's load has allowed a lower clock (R92). -/
  lowAt   : Option Nat := none
  banned  : Bool := false
  store   : Tab Byte := []
  /-- Cells that ask a bank for an access, and the cell that each bank served last (R108). -/
  asks    : Tab (List Nat) := []
  turn    : Tab Nat := []
  /-- Tiles and bands held, the one used last first. -/
  cache   : List CacheTile := []
  deriving DecidableEq, Repr

structure CellUnit where
  cells  : Tab Cell := []
  crowns : Tab Crown := []
  deriving DecidableEq, Repr

/-- A control-store bank (R137, R149): state, image, entry points (R143), words that differ from the trap word, and the
addresses of fenced words (R126). -/
structure Bank where
  state    : Nat := 0
  imageId  : Nat := 0
  version  : Nat := 0
  rollback : Nat := 0
  digest   : Nat := 0
  entries  : List Nat := []
  words    : Tab Nat := []
  fenced   : List Nat := []
  deriving DecidableEq, Repr

/-- A shelf copy (R145): its image, and its place among the 32 of the firmware's part of PICTURE_REGION. -/
structure Shelf where
  imageId : Nat
  version : Nat
  slot    : Nat
  deriving DecidableEq, Repr

/-- A ROM patch slot (R147, R148): 0 verified and waiting for the swap point, 1 active, 2 superseded. -/
structure PatchSlot where
  imageId : Nat
  version : Nat
  state   : Nat
  payload : List Byte
  deriving DecidableEq, Repr

/-- Control stores, shelf and patches. Banks are numbered 2 × cw + b. -/
structure CodeState where
  banks   : Tab Bank := []
  shelf   : List Shelf := []
  patches : List PatchSlot := []
  deriving DecidableEq, Repr

/-- A pseudo-channel of HBM3 (R305 PC_STATUS, R290–R292). `last` is the RD_0 time of its last retrain, `lastAt` the
cycle of it or of its training at start-up, `retrained` whether one has passed since, `dueAt` the cycle at which it fell
due while it waits and `dueTime` its RD_0 time, `tempAt` its stack's temperature at the last retrain, or at the first
reading after start-up. -/
structure PseudoChannel where
  state   : Nat := 0
  fails   : Nat := 0
  pprUsed : Nat := 0
  last    : RTime := ⟨0, 0, 0⟩
  lastAt  : Nat := 0
  retrained : Bool := false
  dueAt   : Option Nat := none
  dueTime : RTime := ⟨0, 0, 0⟩
  tempAt  : Option Int := none
  deriving DecidableEq, Repr

/-- An entry of the field fuse bank (R301, R306): TARGET, STATE and ADDR. -/
structure FuseEntry where
  target : Nat
  state  : Nat
  addr   : Nat
  deriving DecidableEq, Repr

/-- A scrubber's lap over a fulled store (R299): the word it reads next, the cycle at which the lap
began, and the last lap in ns. -/
structure Lap where
  word    : Nat := 0
  startAt : Nat := 0
  last    : Nat := 0
  deriving DecidableEq, Repr

/-- HBM3, the on-chip stores and their protection. -/
structure MemState where
  /-- Bytes of HBM3 as last written, by device address; an absent byte reads as 0. -/
  bytes : Tab Byte := []
  /-- Bits of a PROTECTED page's code word that changed since it was written, by page address. -/
  flips : Tab Nat := []
  /-- Corrected pages waiting for their write-back (R284, R285). -/
  writeBacks : List Nat := []
  /-- BAD_PAGES of a region, oldest first (R304). -/
  bad : Tab (List Nat) := []
  /-- SCRUB_BAD (R306). -/
  scrubBad : List Nat := []
  /-- The region a SCRUB runs over (R281). -/
  scrubbing : Option Nat := none
  pcs : Tab PseudoChannel := []
  /-- LFSR state of the four controller halves (R288). -/
  lfsr : Tab Nat := []
  /-- Cycle at which the LFSRs were last seeded (R288). -/
  seededAt : Nat := 0
  /-- Cycle at which the stack temperatures were last read (R289). -/
  tempsAt : Option Nat := none
  /-- Stacks whose refresh runs at the halved interval, from their next refresh (R289). -/
  refreshHalf : Tab Bool := []
  /-- Start cycle of the pause that runs and its pseudo-channel (R291). -/
  pause : Option (Nat × Nat) := none
  /-- Cycle from which 2 µs pass before the next pause may start (R291): the start of the last retraining pause, or 2 µs
before the end of a repair's pause. -/
  lastPause : Option Nat := none
  /-- Initial training failed (R292): no region can exist. -/
  trainingFailed : Bool := false
  /-- On-chip bytes whose stored 13-bit word differs from what was last written, by location, with the differing bits (R293):
  the code is linear, so these bits alone decide what a read finds. -/
  sram : Tab Nat := []
  /-- Corrected on-chip bytes waiting to be written back, with the differing bits that the read found (R295). -/
  sramWriteBacks : Tab Nat := []
  /-- CORRECTED and UNCORRECTABLE per STORE code (R306). -/
  storeCorrected : Tab Nat := []
  storeUncorrectable : Tab Nat := []
  laps : Tab Lap := []
  fuses : List FuseEntry := []
  /-- Granules of 256 bytes that a failed write left poisoned (R463). -/
  poisoned : List Nat := []
  /-- PICTURE_REGION is not usable, and that has been reported (R280). -/
  noPictureReported : Bool := false
  deriving DecidableEq, Repr

/-- The tag of a batt in use (R307): REFCOUNT, OWNER_KIND and OWNER_ID. -/
structure Batt where
  refs  : Nat
  kind  : Nat
  owner : Nat
  deriving DecidableEq, Repr

/-- A pool's free batts (R309): the on-chip cache, newest first; the ring, whose part never handed out yet is the
indices from `fresh` up, ahead of `ring`, oldest first; whether a refill or a spill is in flight. -/
structure FreeBatts where
  cache   : List Nat := []
  fresh   : Nat := 0
  ring    : List Nat := []
  refill  : Bool := false
  spill   : Bool := false
  deriving DecidableEq, Repr

/-- A queue entry (R321): BATT and LEN; EOP and NEXT are its place in the packet's list. -/
structure QEntry where
  batt : Nat
  len  : Nat
  deriving DecidableEq, Repr

/-- The fields of a row packet's header that change from packet to packet (R182). -/
structure RowInfo where
  flags : Nat
  seq   : Nat
  seg   : Nat
  rtime : Nat
  row   : Nat
  pic   : Nat
  deriving DecidableEq, Repr

/-- A packet of a queue: its PRI, its entries in order, how many of them hold the template, the stream it was coded for
(if one), whether it carries a switched Chaec Link packet, and the cycle it was appended in. -/
structure Packet where
  pri       : Nat
  entries   : List QEntry
  templated : Nat := 0
  sid       : Option Nat := none
  chaec     : Bool := false
  /-- The port of a control packet (R320); egress queues leave it 0. -/
  port      : Nat := 0
  /-- A short GLOBAL packet (R392). -/
  short     : Bool := false
  /-- Deadline D(r) of the LIVE row whose last packet this is (R168). -/
  due       : Option RTime := none
  /-- Offset in its bytes of a PCR that its port stamps (R180). -/
  pcrAt     : Option Nat := none
  /-- The fields of its Chaec Link header that its template does not hold (R182). -/
  rowInfo   : Option RowInfo := none
  at_       : Nat := 0
  deriving DecidableEq, Repr

/-- A queue (R320): its packets in the order of their appends, of every PRI, and its counters. -/
structure Queue where
  packets  : List Packet := []
  enqueued : Nat := 0
  dropped  : Nat := 0
  flushed  : Nat := 0
  deriving DecidableEq, Repr

/-- A destination of a packet: its queue, its PRI, its template batt and length, if it has one, and what its packet carries
besides. -/
structure PacketDest where
  queue    : Nat
  pri      : Nat
  template : Option QEntry := none
  due      : Option RTime := none
  pcrAt    : Option Nat := none
  rowInfo  : Option RowInfo := none
  deriving DecidableEq, Repr

/-- A further payload set that the queue engine still copies (R315): set 0's bytes, the destinations, the owner. -/
structure PendingCopy where
  data   : List Byte
  dests  : List PacketDest
  pool   : Nat
  kind   : Nat
  owner  : Nat
  sid    : Option Nat
  chaec  : Bool := false
  deriving DecidableEq, Repr

/-- Pools, batts and queues. -/
structure QueueState where
  /-- Batts in use, by batt number (R307). -/
  batts : Tab Batt := []
  /-- Batts whose count reached zero in this cycle: they return to their pools in the following one (R311, R313). -/
  returning : List Nat := []
  free  : Tab FreeBatts := []
  queues : Tab Queue := []
  copies : List PendingCopy := []
  /-- Minima reserved by streams: pool and batts, by SID (R310). -/
  streamMin : Tab (Nat × Nat) := []
  /-- The control processor sweeps the queue store (R327): the batts in use when it began, and entries cut off. -/
  sweep : Option (List Nat) := none
  entriesCut : Nat := 0
  /-- The SID and layer that an internal input queue is assigned to (R320). -/
  inputOwner : Tab (Option (Nat × Nat)) := []
  /-- Lowest shared free count since its restart, by pool (R328). -/
  lowFree : Tab (Option Nat) := []
  deriving DecidableEq, Repr

/-- A lane beyond its objects: receiver detection, training, block lock, deskew, the runs of R342. -/
structure LaneState where
  found      : Bool := false
  ownReady   : Bool := false
  peerReady  : Bool := false
  /-- The lane still requests steps of its peer's taps; frames for which it has held every request (R339). -/
  searching  : Bool := true
  heldFrames : Nat := 0
  blockLock  : Bool := false
  aligned    : Bool := false
  lowRun     : Nat := 0
  lowInfoAt  : Option Nat := none
  deriving DecidableEq, Repr

/-- One direction's sealing key (R351, R352): the 36-byte block of key and salt, the packet counter to use next, or the
last one accepted plus one, and the key phase. -/
structure SealKey where
  block   : List Byte
  counter : Nat
  phase   : Bool
  deriving DecidableEq, Repr

/-- The sealing of a band. -/
structure SealState where
  tx      : SealKey
  rx      : SealKey
  oldRx   : Option SealKey := none
  nextTx  : Option SealKey := none
  nextRx  : Option SealKey := none
  /-- Cycle a rekey began at, and the draw its ephemeral key came from. -/
  rekeyAt : Option Nat := none
  ephDraw : Nat := 0
  keyedAt : Nat := 0
  /-- Cycle of the first packet of the new phase, from which the old key is kept for 100 ms. -/
  oldAt   : Nat := 0
  deriving DecidableEq, Repr

/-- The TIMING exchange of a band (R349), times in units of 1/65,536 ns. -/
structure TimingState where
  sent     : Nat := 0
  /-- Cycle at which the last TIMING packet fell due. -/
  dueAt    : Option Nat := none
  lastTx   : Nat := 0
  /-- Departure times of the packets sent last, newest first. -/
  txTimes  : List (Nat × Nat) := []
  rxSeq    : Nat := 0
  rxAt     : Nat := 0
  delay    : Int := 0
  /-- Raster times of RD_0 to RD_7 at the departure of the packet sent last. -/
  lastRts  : List RTime := []
  /-- RT_0 to RT_7 of the neighbour, and this device's time of the arrival of the packet they departed with. -/
  rts      : List RTime := []
  rtsAt    : Nat := 0
  deriving DecidableEq, Repr

/-- A port beyond its objects. -/
structure PortLink where
  /-- Bring-up stage of a band: 1 DETECT, 2 TRAIN, 3 LOCK, 4 EXCHANGE, 5 ACTIVE (the codes of LINK_STATE); 0 none. -/
  stage      : Nat := 0
  /-- Cycle at which the stage began (R338). -/
  stageAt    : Nat := 0
  detectAt   : Nat := 0
  timeouts   : Nat := 0
  backoff    : Bool := false
  /-- Band lane indices in use (R340). -/
  inUse      : List Nat := []
  peer       : Option Capability := none
  accepted   : Bool := false
  loopback   : Bool := false
  ephDraw    : Nat := 0
  keys       : Option SealState := none
  tagRun     : Nat := 0
  timing     : TimingState := {}
  /-- Priorities the neighbour pauses, and the mask this band sent last (R348). -/
  paused     : Nat := 0
  sentMask   : Nat := 0
  /-- The cycle of the last PAUSE sent (R348). -/
  sentAt     : Nat := 0
  /-- The cycle of the last PAUSE received (R35, R348). -/
  pausedAt   : Option Nat := none
  /-- LINK_RETRAIN waits for this port to come up (R344). -/
  retraining : Bool := false
  retrainAt  : Nat := 0
  deriving DecidableEq, Repr

/-- Lanes, ports and quads. -/
structure LaneUnit where
  lanes : Tab LaneState := []
  links : Tab PortLink := []
  /-- Quads that are powered (R332). -/
  quadOn : Tab Bool := []
  deriving DecidableEq, Repr

/-- A child of this device in carding (R363). -/
structure CardChildState where
  port   : Nat
  serial : Nat
  counts : Option CardCounts := none
  deriving DecidableEq, Repr

/-- What carding knows of a band's neighbour: its last OFFER. -/
structure CardNeighbour where
  port  : Nat
  offer : CardOffer
  deriving DecidableEq, Repr

/-- Carding (R358–R372) beyond its objects. -/
structure CardState where
  /-- The offer adopted: root serial, own DIST, parent's serial and port; none when this device is root. -/
  parent    : Option CardNeighbour := none
  children  : List CardChildState := []
  neighbours : List CardNeighbour := []
  /-- Own COUNT, once sent; none after a change of parent or children. -/
  counts    : Option CardCounts := none
  maxDepth  : Nat := 0
  /-- Cycles of the start of the epoch, of the last change of the parent or of the set of children, and of the last change of a
  child's COUNT (R363, R368). -/
  epochAt   : Nat := 0
  changedAt : Nat := 0
  valuesAt  : Nat := 0
  /-- Cycles at which an OFFER was last due, and at which the root last incremented HB_SEQ (R362, R372). -/
  offerAt   : Option Nat := none
  tickAt    : Option Nat := none
  hbSeq     : Nat := 0
  hbAt      : Nat := 0
  /-- Addresses given to joiners, with the serial of each (R369). -/
  joiners   : List (Nat × Nat) := []
  /-- Ports on which relayed JOIN messages arrived and whose address has not come yet, oldest first (R369). -/
  joinPorts : List Nat := []
  /-- This device has sent a JOIN (R369). -/
  joining   : Bool := false
  /-- A graft waits for its bands (R371): the band to the parent has gone, at this cycle. -/
  grafting  : Bool := false
  graftAt   : Nat := 0
  /-- CARD_START runs. -/
  starting  : Bool := false
  deriving DecidableEq, Repr

/-- A learn in the queue (R383): MAC and VLAN, the port or 0xFC, the remote device, the cycle in which it arrived. -/
structure Learn where
  key    : Nat
  port   : Nat
  target : Nat
  at_    : Nat := 0
  deriving DecidableEq, Repr

/-- A change that TABLE_SYNC stages (R391). -/
inductive Staged where
  | emPut (w0 w1 : Nat) | emDel (key : Nat) | emClear
  | lpmPut (w0 w1 w2 : Nat) | lpmDel (w0 w1 w2 : Nat) | lpmClear
  | listPut (n : Nat) (members : List Nat) | listDel (n : Nat) | listClear
  deriving DecidableEq, Repr

/-- A longest-prefix entry's three words (R380). -/
structure LpmEntry where
  w0 : Nat
  w1 : Nat
  w2 : Nat
  deriving DecidableEq, Repr

/-- One engine's copy of both tables (R377): exact-match slots (0–65,535 in buckets, 65,536–66,559 overflow) and
longest-prefix slots. -/
structure TableCopy where
  em  : Tab (Nat × Nat) := []
  lpm : Tab LpmEntry := []
  deriving DecidableEq, Repr

/-- A global operation known to this device (R393–R396). -/
structure GlobalOp where
  opId      : Nat
  at_       : RTime
  kind      : GlobalKind
  /-- 0 APPLIED, 1 REFUSED, 2 LATE, 3 DISCARDED; `none` while ARMED. -/
  part      : Option Nat := none
  /-- The band the announcement came on; none for the issuer. -/
  from_     : Option Nat := none
  /-- Bands it was forwarded on that have not confirmed yet. -/
  waiting   : List Nat := []
  applied   : Nat := 0
  confirmed : Bool := false
  deriving DecidableEq, Repr

/-- The fabric unit: carding, tables, global operations. -/
structure FabricState where
  card    : CardState := {}
  copy0   : TableCopy := {}
  copy1   : TableCopy := {}
  /-- The firmware's shadow of both tables (R388). -/
  shadow  : TableCopy := {}
  lists   : Tab (List Nat) := []
  learnQ  : List Learn := []
  /-- Address of the remote device that is a slot's move candidate: the entry's word has no field for it (R384). -/
  candDev : Tab Nat := []
  staged  : List Staged := []
  ops     : List GlobalOp := []
  opCount : Nat := 0
  /-- GLOBAL_LOG, newest first: OP_ID, CODE, PART, DEVICES, AT. -/
  log     : List (Nat × Nat × Nat × Nat × RTime) := []
  /-- SNAPSHOT (R398). -/
  snapshot : List Byte := []
  deriving DecidableEq, Repr

/-- A shaped queue beyond its objects (R402–R404): T_prev and E in linear line ticks, the calendar slot, whether it is
parked, whether its head has waited for the shaper or for a gate, and the counters of QUEUE_EGRESS. -/
structure ShaperQueue where
  tPrev      : Nat := 0
  elig       : Option Nat := none
  slot       : Option Nat := none
  waited     : Bool := false
  gated      : Bool := false
  packets    : Nat := 0
  bytes      : Nat := 0
  shaped     : Nat := 0
  gatedCount : Nat := 0
  parked     : Nat := 0
  guardDrops : Nat := 0
  deriving DecidableEq, Repr

/-- The packet a port sends: its queue, the packet, and its bytes. -/
structure Sending where
  queue  : Nat
  packet : Packet
  deriving DecidableEq, Repr

/-- A change of gate list that waits (R411): the list to install, or none for a removal, and the linear tick count at
which it starts. -/
structure GateChange where
  install : Option (RTime × Nat × List (Nat × Nat))
  startAt : Nat
  deriving DecidableEq, Repr

/-- A port's egress (R400–R413). -/
structure EgressPort where
  sending : Option Sending := none
  /-- A packet interrupted by a short GLOBAL packet (R392). -/
  interrupted : Option Sending := none
  /-- The list in force: MASK and DURATION of each entry. -/
  gates   : Option (List (Nat × Nat)) := none
  change  : Option GateChange := none
  /-- Number of the gate cycle in progress, from BASE. -/
  cycleNo : Nat := 0
  deriving DecidableEq, Repr

structure EgressUnit where
  ports  : Tab EgressPort := []
  queues : Tab ShaperQueue := []
  deriving DecidableEq, Repr

/-- A DMA channel (R423–R434) beyond its objects. `frozen` holds the state FROZEN interrupts; `desc` the descriptor in
progress; `status` what its write-back will carry; `gather` the bytes of a FROM_HOST packet and `gatherBatts` their batts,
`source` bytes of a source in host memory that have come and not been moved; `meet` what the device side meets at its next access;
`packet` the rest of a TO_HOST packet with the packet it belongs to. -/
structure DmaChannel where
  state      : Nat := 0
  lastStatus : Nat := 0
  doorbell   : Bool := false
  fetchError : Bool := false
  descBase   : Nat := 0
  curDesc    : Nat := 0
  done       : Nat := 0
  desc       : Option Descriptor := none
  moved      : Nat := 0
  status     : Nat := 0
  eop        : Bool := false
  readback   : Bool := false
  stopping   : Bool := false
  frozen     : Option Nat := none
  gather     : List Byte := []
  gatherBatts : List Nat := []
  source     : List Byte := []
  meet       : MemMeet := ⟨[], 0, 0, []⟩
  packet     : Option (Packet × List Byte) := none
  /-- Address, CONTROL and COUNT of the last write-back. -/
  lastBack   : Option (Nat × Nat × Nat) := none
  deriving DecidableEq, Repr

/-- An interrupt source (R437, R438): its count, its moderation timer, its pending and active states, the vector it was
claimed on, whether its next count reached its condition while it is active, and its events since PORST_N. -/
structure IrqSource where
  count   : Nat := 0
  timer   : Bool := false
  /-- The cycle in which the moderation timer started. -/
  since   : Nat := 0
  pending : Bool := false
  active  : Bool := false
  vector  : Nat := 0
  reached : Bool := false
  raised  : Nat := 0
  deriving DecidableEq, Repr

/-- An MSI-X vector (R438, R441): SENT or ARMED, its mask bit (1 at reset), its pending bit, and its message's address and
data in the MSI-X table. -/
structure IrqVector where
  sent   : Bool := false
  masked : Bool := true
  held   : Bool := false
  addr   : Nat := 0
  data   : Nat := 0
  deriving DecidableEq, Repr

/-- The host interface: mailbox, BARs, DMA, interrupts, power states. -/
structure HostState where
  windowBase   : Nat := 0
  /-- MESSAGES, HELD and PME_SENT (R443). -/
  messages     : Nat := 0
  heldCount    : Nat := 0
  pmeSent      : Nat := 0
  bar2Refused  : Nat := 0
  bar0Misuse   : Nat := 0
  reqBusy      : Bool := false
  executing    : Bool := false
  reqLength    : Nat := 0
  reqBuf       : List Byte := []
  respReady    : Bool := false
  respType     : Nat := 0
  respLen      : Nat := 0
  respBuf      : List Byte := []
  /-- An answer that waits for a notification's release, and notifications that wait (R421, R422). -/
  respWaiting  : Option (List Byte) := none
  notifyWaiting : List (List Byte) := []
  dma          : Tab DmaChannel := []
  /-- The DMA channel served last, and the cycle from which the engine can move the next chunk (R434). -/
  dmaTurn      : Nat := 31
  dmaFreeAt    : Nat := 0
  srcCfg       : Tab Nat := []
  sources      : Tab IrqSource := []
  vectors      : Tab IrqVector := []
  streamEvt    : Tab Nat := []
  msixEnabled  : Bool := false
  functionMask : Bool := false
  busMaster    : Bool := false
  d3hot        : Bool := false
  /-- Back from D3hot, the sources' catch-up still waits for MSI-X and bus mastering (R442). -/
  d0Due        : Bool := false
  linkUp       : Bool := false
  pmeEnabled   : Bool := false
  pmeStatus    : Bool := false
  deriving DecidableEq, Repr

/-- An entry of the fault log (R450). -/
structure LogEntry where
  seq     : Nat
  msg     : FaultMsg
  action  : Nat
  repeats : Nat
  at_     : RTime
  uptime  : Nat
  deriving DecidableEq, Repr

/-- The fault collector beyond its objects. -/
structure FaultState where
  /-- Messages that units hold until they are accepted (R444). -/
  held     : List FaultMsg := []
  /-- The log ring, newest first (R450). -/
  log      : List LogEntry := []
  seq      : Nat := 0
  /-- The collector has been released in start-up (R456). -/
  released : Bool := false
  /-- Last contained cell fault of a crown: linear RD_0 tick count and cell (R462). -/
  lastCell : Tab (Option (Nat × Nat)) := []
  /-- Conditioners retired by a fault (R266). -/
  conditioners : List Nat := []
  deriving DecidableEq, Repr

/-- An entry of CLIENT_KEYS (R482). -/
structure ClientKey where
  keyId  : List Byte
  role   : Nat
  pubkey : List Byte
  deriving DecidableEq, Repr

/-- A record of BOOT_LOG (R492). -/
structure BootRecord where
  slot    : Nat
  entry   : Nat
  kind    : Nat
  imageId : Nat
  version : Nat
  result  : Nat
  record  : Nat
  deriving DecidableEq, Repr

/-- The security island beyond its objects. -/
structure SecState where
  /-- The quad-SPI flash, erased bytes reading 0xFF, and whether its SFDP tables are valid (R474). -/
  flash      : Tab Byte := []
  sfdpValid  : Bool := true
  clientKeys : List ClientKey := []
  sealPeers  : List Nat := []
  bootLog    : List BootRecord := []
  /-- Counter advances deferred to boot step 6 (R477): counter (0 microcode, 1 patch, 2 configuration) and value. -/
  advances   : List (Nat × Nat) := []
  debugSealFuse : Bool := false
  /-- The island failed a self-test or met another cause of R471. -/
  failed     : Bool := false
  /-- A SECURITY halt: the island takes part in no handshake (R457). -/
  sealedOff  : Bool := false
  /-- VDD_EFUSE is present (R494). -/
  efuse      : Bool := false
  /-- Extents of the bundles that the directory of ACTIVE_DIR names (R489). -/
  protectedExtents : List (Nat × Nat) := []
  /-- Records of the configuration set that are still to be applied, and the index of the next (R480). -/
  records    : List (List Byte) := []
  recordNo   : Nat := 0
  /-- Values drawn from the DRBG so far; the next draw is `Config.draw` of this count. -/
  draws      : Nat := 0
  deriving DecidableEq, Repr

/-- Power, clocks, resets and start-up beyond their objects. -/
structure PowerState where
  /-- PORST_N as driven; the engine is held in reset while it is low. -/
  porst      : Bool := true
  /-- The start-up step that runs, 1 to 9; 10 when start-up has ended. -/
  step       : Nat := 1
  /-- Cycle at which the reset ended. -/
  resetAt    : Nat := 0
  startTimes : List Nat := []
  /-- Held in warm reset by the monitor network (R496). -/
  held       : Bool := false
  railsOut   : List Nat := []
  railEvents : List (Nat × Nat) := []
  /-- WARM_RESET's 1 ms runs (R68). -/
  warmDelay  : Bool := false
  warmAt     : Nat := 0
  /-- Conditioner halves: 0 off, 1 on, 2 changing (R498). -/
  halves     : Tab Nat := []
  /-- Set point of each crown's regulator in mV, and its factory trim (R500). -/
  crownMv    : Tab Nat := []
  crownTrim  : Tab Int := []
  /-- A VDD_CORE write waits for its read-back (R495). -/
  avsPending : Bool := false
  avsAt      : Nat := 0
  /-- The cycle from which each powered half has held no pass (R498). -/
  halfIdle   : Tab (Option Nat) := []
  /-- Last readings of the junction sensors, by domain (R504), and the state of the reports of R505 and R506. -/
  temps      : List Int := []
  highReported : Bool := false
  tripRun    : Nat := 0
  gradientRun : List (Nat × Nat) := []
  gradientReported : List (Nat × Nat) := []
  tripped    : Bool := false
  deriving DecidableEq, Repr

/-- What the block drives out of itself: IOP frames, packets and frames on ports, blocks and training frames on lanes,
interrupt messages, writes and reads of host memory, answers to reads. -/
inductive Output where
  | iop (o : Origin) (frame : List Byte)
  /-- The frame or packet that carries an IOP frame, by port (255 the management port), as the control processor hands it over
  (R46); its place in the port's queue and its seal (R352) are not shown. -/
  | datagram (port : Nat) (bytes : List Byte)
  /-- A packet or frame whose bytes the model gives. -/
  | packet (port : Nat) (bytes : List Byte)
  /-- A Chaec Link message of its own, by KIND or message number, and its fields. -/
  | message (port code : Nat) (fields : List Nat)
  | training (lane : Nat) (f : TrainingFrame)
  | block (port code arg : Nat)
  | msix (v : Nat)
  | pme
  /-- A request to host memory, with its No Snoop attribute (R432). -/
  | hostWrite (addr : Nat) (data : List Byte) (noSnoop : Bool := false)
  | hostRead (addr len : Nat) (noSnoop : Bool := false)
  | answer (data : List Byte)
  /-- Data of a read marked poisoned (R284, R433). -/
  | poisoned (addr len : Nat) (noSnoop : Bool := false)
  /-- An access rejected (R275). -/
  | refused (addr : Nat)
  deriving DecidableEq, Repr

/-- The state of the block. -/
structure State where
  /-- Commands that wait, first in, first out (the model's own queue). -/
  pending : List Instr := []
  /-- Cycles of the 1.2 GHz clock since PORST_N. -/
  cycle   : Nat := 0
  /-- Active values of the dictionary's objects that differ from their defaults, by index × 256 + subindex (R36–R39). -/
  od      : Tab Nat := []
  /-- Shadows that wait for a swap point (R27). -/
  shadow  : Tab Nat := []
  /-- Writable DOMAIN values, and their shadows. -/
  blobs       : Tab (List Byte) := []
  blobsShadow : Tab (List Byte) := []
  raster  : RasterState := {}
  iop     : IopState := {}
  cmds    : CmdState := {}
  streams : StreamUnit := {}
  cells   : CellUnit := {}
  code    : CodeState := {}
  mem     : MemState := {}
  queues  : QueueState := {}
  lanes   : LaneUnit := {}
  fabric  : FabricState := {}
  egress  : EgressUnit := {}
  host    : HostState := {}
  faults  : FaultState := {}
  sec     : SecState := {}
  power   : PowerState := {}
  /-- The dictionary is live (R510). -/
  live    : Bool := false
  /-- The engine is HALTED (R457). -/
  halted  : Bool := false
  /-- Status of the last write that came by a row of its own, and result of the last command (the model's own). -/
  lastStatus : Nat := 0
  /-- Free values used so far: the next one is `Config.free` of this count (the model's own). -/
  freeUsed   : Nat := 0
  /-- What the block has driven out, newest first (the model's own record). -/
  out     : List Output := []
  deriving DecidableEq, Repr

/-- Why a step stops with a fault. -/
inductive Fault where
  /-- Raised by no meaning: where the spec reports an error, the model takes the report as the command's effect. Safe. -/
  | none
  deriving DecidableEq, Repr

/-- Why a step refuses a command. -/
inductive Refusal where
  /-- The command has no meaning yet; raised by its arm of `exec` alone. Safe. -/
  | notModelled (mnemonic : String)
  deriving DecidableEq, Repr

/-- The machine at the end of power-on reset (R39, R507, R509): PORST_N has risen, start-up step 1 runs, every object has
its default, every store is empty and the dictionary is not live. [DESIGN CHOICE, unsafe: log entry 12.] -/
def State.reset : State := {}

end Sys2Proof.Machine
end

