-- ==== Sys2Proof/Machine/Ops.lean ====
section
/-! DEFINITION. The named operations over the plain data of the state: sparse tables, bit fields, byte order (R5, R37), and
the one home of the dictionary's scalar objects. -/

namespace Sys2Proof

/-- The entry of a key, if it is listed. -/
def tfind {α : Type} : Tab α → Nat → Option α
  | [], _ => none
  | (k', v) :: t, k => if k' = k then some v else tfind t k

/-- The entry of a key, or the default of an unlisted one. -/
def tget {α : Type} (t : Tab α) (d : α) (k : Nat) : α := (tfind t k).getD d

/-- Lists a value under a key, in the place that keeps keys rising. -/
def tset {α : Type} : Tab α → Nat → α → Tab α
  | [], k, v => [(k, v)]
  | (k', v') :: t, k, v =>
    if k < k' then (k, v) :: (k', v') :: t
    else if k' = k then (k, v) :: t
    else (k', v') :: tset t k v

/-- Unlists a key. -/
def tdel {α : Type} : Tab α → Nat → Tab α
  | [], _ => []
  | (k', v') :: t, k => if k' = k then tdel t k else (k', v') :: tdel t k

/-- Writes a value: the default of an unlisted key is not listed. -/
def tput {α : Type} [DecidableEq α] (t : Tab α) (d : α) (k : Nat) (v : α) : Tab α :=
  if v = d then tdel t k else tset t k v

/-- The values of keys that follow one another, defaults left out. -/
def trun {α : Type} [DecidableEq α] (d : α) : Nat → List α → Tab α
  | _, [] => []
  | k, v :: vs => if v = d then trun d (k + 1) vs else (k, v) :: trun d (k + 1) vs

/-- Writes the values of keys that follow one another. -/
def tputRun {α : Type} [DecidableEq α] (t : Tab α) (d : α) (k : Nat) (vs : List α) : Tab α :=
  (t.filter fun e => decide (e.1 < k)) ++ trun d k vs ++ t.filter fun e => decide (k + vs.length ≤ e.1)

/-- Keys strictly rising. -/
def tsorted {α : Type} : Tab α → Bool
  | [] => true
  | [_] => true
  | (k, _) :: (k', v') :: t => decide (k < k') && tsorted ((k', v') :: t)

namespace Machine

/-! ### Bits and bytes -/

/-- Bits lo to lo + w − 1 of n. -/
def bits (n lo w : Nat) : Nat := n / 2 ^ lo % 2 ^ w

/-- n with bits lo to lo + w − 1 replaced by v. -/
def setBits (n lo w v : Nat) : Nat := n - bits n lo w * 2 ^ lo + v % 2 ^ w * 2 ^ lo

/-- n with bit i set. -/
def setBit (n i : Nat) : Nat := n ||| 2 ^ i

/-- n with bit i cleared. -/
def clearBit (n i : Nat) : Nat := if n.testBit i then n - 2 ^ i else n

/-- The numbers below w whose bits are set in n, rising. -/
def bitList (n w : Nat) : List Nat := (List.range w).filter n.testBit

def b2n (b : Bool) : Nat := if b then 1 else 0

/-- n bytes of v, least significant first. -/
def leBytes : Nat → Nat → List Byte
  | 0, _ => []
  | n + 1, v => BitVec.ofNat 8 v :: leBytes n (v / 256)

/-- The number that bytes spell, least significant first. -/
def leNat : List Byte → Nat
  | [] => 0
  | b :: bs => b.toNat + 256 * leNat bs

/-- n bytes of v, most significant first. -/
def beBytes (n v : Nat) : List Byte := (leBytes n v).reverse

/-- The number that bytes spell, most significant first. -/
def beNat (bs : List Byte) : Nat := leNat bs.reverse

/-- The n bytes at offset off, as a little-endian number; missing bytes count as 0. -/
def leAt (bs : List Byte) (off n : Nat) : Nat := leNat ((bs.drop off).take n)

/-- The n bytes at offset off, as a big-endian number. -/
def beAt (bs : List Byte) (off n : Nat) : Nat := beNat ((bs.drop off).take n)

/-- Two's complement of w bits. -/
def toInt (w v : Nat) : Int := if v % 2 ^ w < 2 ^ (w - 1) then (v % 2 ^ w : Nat) else ((v % 2 ^ w : Nat) : Int) - 2 ^ w

/-- The w bits of an integer in two's complement. -/
def ofInt (w : Nat) (i : Int) : Nat := (i % (2 ^ w : Nat)).toNat

/-- Quotient rounded up; 0 for a zero divisor. -/
def ceilDiv (a b : Nat) : Nat := (a + b - 1) / b

/-- Pieces of at most n bytes. -/
def chunks (n : Nat) (bs : List Byte) : List (List Byte) :=
  (List.range (ceilDiv bs.length n)).map fun k => (bs.drop (n * k)).take n

/-- a clamped to lo … hi. -/
def clampI (lo hi a : Int) : Int := max lo (min hi a)

/-- Quotient of integers rounded up, for a positive divisor. -/
def ceilDivI (a b : Int) : Int := -((-a) / b)

/-- Replaces the elements that satisfy p. -/
def mapIf {α : Type} (p : α → Bool) (f : α → α) (l : List α) : List α := l.map fun a => if p a then f a else a

/-! ### Raster time words -/

/-- The native word of a raster time (R8). -/
def RTime.word (t : RTime) : Nat := t.frame % 2 ^ 40 * 2 ^ 32 + t.line % 2 ^ 16 * 2 ^ 16 + t.phase % 2 ^ 16

/-- The raster time that a native word spells (R8). -/
def RTime.ofWord (w : Nat) : RTime := ⟨bits w 32 40, bits w 16 16, bits w 0 16⟩

/-! ### The dictionary (R36–R40) -/

/-- Size of a type's value in bytes (R37); a DOMAIN has none. -/
def OType.size : OType → Nat
  | .bool => 1 | .u8 => 1 | .u16 => 2 | .u32 => 4 | .u64 => 8
  | .i16 => 2 | .i32 => 4 | .i64 => 8 | .w72 => 9 | .rtime => 9
  | .octets n => n | .str n => n | .domain => 0

/-- Type code of R37. -/
def OType.code : OType → Nat
  | .bool => 0x01 | .u8 => 0x02 | .u16 => 0x03 | .u32 => 0x04 | .u64 => 0x05
  | .i16 => 0x06 | .i32 => 0x07 | .i64 => 0x08 | .w72 => 0x09 | .rtime => 0x0A
  | .octets _ => 0x0B | .str _ => 0x0C | .domain => 0x0D

/-- Key of subindex number j of instance i: index × 256 + subindex (R36). -/
def Row.key (r : Row) (i j : Nat) : Nat := (r.base + i) * 256 + (r.sub + r.step * j)

/-- Default of subindex number j of instance i (R39). [DESIGN CHOICE, unsafe: log entry 12.] -/
def Row.default (r : Row) (i j : Nat) : Nat :=
  match r.dflt with
  | .const v => v
  | .first a b => if i = 0 then a else b
  | .plusSub v => v + j
  | .plusInst v => v + i
  | .plusTwice v => v + 2 * i
  | .times v => (i + 1) * v

/-- Number of values of a row's type. -/
def Row.modulus (r : Row) : Nat := 256 ^ r.ty.size

namespace State

/-- Active value of an object. -/
def get (s : State) (r : Row) (i : Nat := 0) (j : Nat := 0) : Nat := tget s.od (r.default i j) (r.key i j)

/-- Writes an active value, in the width of the object's type. -/
def put (s : State) (r : Row) (i j v : Nat) : State :=
  { s with od := tput s.od (r.default i j) (r.key i j) (v % r.modulus) }

/-- Writes the active value of the object at subindex number 0. -/
def set (s : State) (r : Row) (i v : Nat) : State := s.put r i 0 v

/-- Active value of a signed object. -/
def getInt (s : State) (r : Row) (i : Nat := 0) (j : Nat := 0) : Int := toInt (8 * r.ty.size) (s.get r i j)

/-- Writes a signed object. -/
def setInt (s : State) (r : Row) (i : Nat) (v : Int) : State := s.put r i 0 (ofInt (8 * r.ty.size) v)

/-- Active value of a BOOL object. -/
def flag (s : State) (r : Row) (i : Nat := 0) : Bool := s.get r i != 0

/-- The shadow of an RWS object: the value that waits, or the active value (R27, R29). -/
def getShadow (s : State) (r : Row) (i : Nat := 0) (j : Nat := 0) : Nat := tget s.shadow (s.get r i j) (r.key i j)

/-- Writes a shadow. -/
def putShadow (s : State) (r : Row) (i j v : Nat) : State :=
  { s with shadow := tset s.shadow (r.key i j) (v % r.modulus) }

/-- Active value of a writable DOMAIN object. -/
def blob (s : State) (r : Row) (i : Nat := 0) : List Byte := tget s.blobs [] (r.key i 0)

/-- Writes the active value of a writable DOMAIN object. -/
def setBlob (s : State) (r : Row) (i : Nat) (v : List Byte) : State :=
  { s with blobs := tput s.blobs [] (r.key i 0) v }

/-- Shadow of a DOMAIN object. -/
def blobShadow (s : State) (r : Row) (i : Nat := 0) : List Byte := tget s.blobsShadow (s.blob r i) (r.key i 0)

/-- A value that the spec leaves open. [DESIGN CHOICE, safe: log entry 7.] -/
def freeValue (s : State) : Nat := Config.free s.freeUsed

/-- The state after a free value has been used. [DESIGN CHOICE, safe: log entry 7.] -/
def useFree (s : State) : State := { s with freeUsed := s.freeUsed + 1 }

/-- Adds n to a counter. A sum beyond the counter's type is a free value: the spec states no result there.
[DESIGN CHOICE, safe: log entry 9.] -/
def bumpBy (s : State) (r : Row) (i j n : Nat) : State :=
  if s.get r i j + n < r.modulus then s.put r i j (s.get r i j + n)
  else (s.put r i j s.freeValue).useFree

/-- Adds 1 to a counter. [DESIGN CHOICE, safe: log entry 9.] -/
def bump (s : State) (r : Row) (i : Nat := 0) (j : Nat := 0) : State := s.bumpBy r i j 1

/-- Appends to the record of what the block drives out. -/
def emit (s : State) (o : Output) : State := { s with out := o :: s.out }

/-- Bytes drawn from the DRBG. [DESIGN CHOICE, safe: log entry 8.] -/
def drawBytes (s : State) (n : Nat) : List Byte := (List.range n).map fun k => Config.draw (s.sec.draws + k)

/-- The state after n bytes have been drawn. [DESIGN CHOICE, safe: log entry 8.] -/
def useDraws (s : State) (n : Nat) : State := { s with sec := { s.sec with draws := s.sec.draws + n } }

end State

/-! ### Records by number -/

def State.dom (s : State) (rd : Nat) : RasterDomain := tget s.raster.domains {} rd

def State.setDom (s : State) (rd : Nat) (d : RasterDomain) : State :=
  { s with raster := { s.raster with domains := tput s.raster.domains {} rd d } }

/-- Present raster time of a domain (R12). -/
def State.now (s : State) (rd : Nat) : RTime := (s.dom rd).pos

end Machine

end Sys2Proof
end

