-- ==== Sys2Proof/Machine/ImageOps.lean ====
section
/-! DEFINITION. Pictures as samples: raw layouts (R267, R269), packing into native words and tiles (R104, R105, R174), and the
operations of a conditioning pass (R246–R260) on samples. -/

namespace Sys2Proof

open Machine

/-! ### Planes -/

/-- A plane of w × h samples. -/
def planeOf (w h : Nat) (f : Nat → Nat → Nat) : Plane := (List.range h).map fun y => (List.range w).map fun x => f x y

/-- An index of a list of n, the nearest one for a position outside it. -/
def nearIndex (n : Nat) (i : Int) : Nat := (max 0 (min i ((n : Int) - 1))).toNat

/-- A sample; the edge sample for a position outside the plane (R249). -/
def sampleAt (p : Plane) (x y : Int) : Nat :=
  let l := p.getD (nearIndex p.length y) []
  l.getD (nearIndex l.length x) 0

/-- Columns of a plane w wide as lines. -/
def columnsOf (w : Nat) (p : Plane) : Plane := (List.range w).map fun x => p.map fun l => l.getD x 0

/-- Width and height of a chroma plane: formats 0 4:2:0, 1 4:2:2, 2 4:4:4. -/
def chromaWidth (chroma w : Nat) : Nat := if chroma = 2 then w else ceilDiv w 2
def chromaHeight (chroma h : Nat) : Nat := if chroma = 0 then ceilDiv h 2 else h

def Image.plane (i : Image) (k : Nat) : Plane := i.planes.getD k []

/-- Width and height of plane k. -/
def Image.planeSize (i : Image) (k : Nat) : Nat × Nat :=
  if (k = 1 ∨ k = 2) ∧ ¬ i.rgb then (chromaWidth i.chroma i.width, chromaHeight i.chroma i.height) else (i.width, i.height)

/-- A picture whose planes hold one value each. -/
def flatImage (w h depth chroma : Nat) (vs : List Nat) : Image :=
  { width := w, height := h, depth := depth, chroma := chroma,
    planes := (vs.zip (List.range vs.length)).map fun e =>
      if e.2 = 1 ∨ e.2 = 2 then planeOf (chromaWidth chroma w) (chromaHeight chroma h) fun _ _ => e.1 else planeOf w h fun _ _ => e.1 }

/-- The middle of a depth. -/
def midLevel (depth : Nat) : Nat := 2 ^ (depth - 1)

/-- A 4:2:0 picture of mid-level samples (R233, R237), and a black one. [DESIGN CHOICE, unsafe: log entry 86.] -/
def greyImage (w h depth : Nat) : Image := flatImage w h depth 0 [midLevel depth, midLevel depth, midLevel depth]
def blackImage (w h depth : Nat) : Image := flatImage w h depth 0 [16 * 2 ^ (depth - 8), midLevel depth, midLevel depth]

/-- A picture in a larger size, its last column and line replicated (R151). -/
def Image.padTo (i : Image) (w h : Nat) : Image :=
  let j := { i with width := w, height := h }
  { j with planes := (List.range i.planes.length).map fun k => planeOf (j.planeSize k).1 (j.planeSize k).2 fun x y => sampleAt (i.plane k) x y }

/-- The lines of a picture from line y on, n of luma. -/
def Image.strip (i : Image) (y n : Nat) : Image :=
  let sub : Nat → Nat := fun k => if (k = 1 ∨ k = 2) ∧ ¬ i.rgb ∧ i.chroma = 0 then 2 else 1
  { i with height := min n (i.height - y), planes := (List.range i.planes.length).map fun k => ((i.plane k).drop (y / sub k)).take (ceilDiv n (sub k)) }

/-- Strips of 64 lines, top first, as one picture of a size. -/
def joinStrips (w h depth : Nat) (colour : Option Colour) (ss : List Image) : Image :=
  { width := w, height := h, depth := depth, colour := colour, planes := (List.range 3).map fun k => ss.flatMap fun t => t.plane k }

/-- A picture with strip k of 64 lines taken from another one of its size. -/
def Image.withStrip (i new : Image) (k : Nat) : Image :=
  let part : Nat → Plane := fun p =>
    let n := if (p = 1 ∨ p = 2) ∧ ¬ new.rgb ∧ new.chroma = 0 then 32 else 64
    (i.plane p).take (n * k) ++ ((new.plane p).drop (n * k)).take n
  { new with planes := (List.range new.planes.length).map part }

/-! ### Native words and tiles (R104, R105, R174) -/

/-- Values in lanes of b bits, n to a word, lane 0 in the low bits; the last word is filled up with zero lanes. -/
def packLanes (b n : Nat) (vs : List Nat) : List Nat :=
  (List.range (ceilDiv vs.length n)).map fun k => (((vs.drop (n * k)).take n).zip (List.range n)).foldl (fun w e => w + e.1 % 2 ^ b * 2 ^ (b * e.2)) 0

def packSix12 (vs : List Nat) : List Nat := packLanes 12 6 vs
def packNine8 (vs : List Nat) : List Nat := packLanes 8 9 vs

/-- A PIX444 word of two pixels: its components in three 12-bit parts of 36 bits. -/
def packPix444 (a b : Pixel) : Nat := (packLanes 12 6 [a.c0, a.c1, a.c2, b.c0, b.c1, b.c2]).headD 0

/-- The pixel p of a PIX444 word. -/
def pixelOf (w p : Nat) : Pixel := ⟨bits w (36 * p) 12, bits w (36 * p + 12) 12, bits w (36 * p + 24) 12⟩

/-- The samples of a 64 × 64 block of a 4:2:0 picture in block-linear order: its luma in raster order, then Cb, then Cr (R105). A
block that passes the picture's edge holds the replicated samples (R151). -/
def blockLinear (i : Image) (bx by_ : Nat) : List Nat :=
  (planeOf 64 64 fun x y => sampleAt (i.plane 0) (64 * bx + x) (64 * by_ + y)).flatten ++
    (planeOf 32 32 fun x y => sampleAt (i.plane 1) (32 * bx + x) (32 * by_ + y)).flatten ++
    (planeOf 32 32 fun x y => sampleAt (i.plane 2) (32 * bx + x) (32 * by_ + y)).flatten

/-- The native words of a block: SIX12 (1,024) and NINE8 (683) (R105). -/
def blockSix12 (i : Image) (bx by_ : Nat) : List Nat := packSix12 (blockLinear i bx by_)
def blockNine8 (i : Image) (bx by_ : Nat) : List Nat := packNine8 (blockLinear i bx by_)

/-- Bytes of native words (R5). -/
def wordBytes (ws : List Nat) : List Byte := ws.flatMap fun w => leBytes 9 w

/-- Bytes of a tile, and of its slot with the 72-byte header (R174). -/
def tileBytes : Nat := 9216
def slotBytes : Nat := 9288

/-- What is moved into the slot of a tile: its bytes, compressed where that makes them fewer whole native words, and the header, which
holds the stored length and the mark of compression. [DESIGN CHOICE, unsafe: log entry 84.] -/
def tileStored (raw : List Byte) : List Byte × List Byte :=
  let c := Config.compress raw
  let small := decide (ceilDiv c.length 9 * 9 < raw.length)
  let body := if small then c ++ List.replicate (ceilDiv c.length 9 * 9 - c.length) 0#8 else raw
  (body, leBytes 2 body.length ++ leBytes 1 (b2n small) ++ List.replicate 69 0#8)

/-! ### Raw layouts (R267) -/

/-- Planes of a raw layout: bytes of a line, and lines. -/
def rawPlanes (layout w h : Nat) : List (Nat × Nat) :=
  let w2 := ceilDiv w 2
  let h2 := ceilDiv h 2
  match layout with
  | 0 => [(w, h), (w2, h2), (w2, h2)]
  | 1 => [(w, h), (2 * w2, h2)]
  | 2 | 3 => [(2 * w, h), (4 * w2, h2)]
  | 4 => [(2 * w, h), (2 * w2, h2), (2 * w2, h2)]
  | 5 => [(w, h), (2 * w2, h)]
  | 6 => [(2 * w, h), (4 * w2, h)]
  | 7 => [(4 * w2, h)]
  | 8 => [(ceilDiv (16 * ceilDiv w 6) 128 * 128, h)]
  | 9 => [(w, h), (w, h), (w, h)]
  | 10 => [(2 * w, h), (2 * w, h), (2 * w, h)]
  | 11 => [(9 * w2, h)]
  | 12 | 13 => [(4 * w, h)]
  | _ => [(w, h), (w, h), (w, h), (w, h)]

/-- Bytes of a line of a plane: those of its samples, and with the pitch. -/
def rawPitch (pitch least : Nat) : Nat := if pitch = 0 then least else pitch

/-- Bytes of a raw picture. -/
def rawSize (layout pitch w h : Nat) : Nat := ((rawPlanes layout w h).map fun e => rawPitch pitch e.1 * e.2).sum

/-- Chroma and depth of a raw layout (R267): 0 4:2:0, 1 4:2:2, 2 4:4:4 or RGB; least depth. -/
def layoutChroma (l : Nat) : Nat := if l ≤ 4 then 0 else if l ≤ 8 then 1 else 2
def layoutDepth (l : Nat) : Nat :=
  if l ∈ [2, 4, 6, 8, 10, 13] then 10 else if l ∈ [3, 11] then 12 else 8

def layoutRgb (l : Nat) : Bool := decide (l = 12 ∨ l = 13)
def layoutAlpha (l : Nat) : Bool := decide (l = 12 ∨ l = 13 ∨ l = 14)

/-- Components of a raw layout: Y, Cb, Cr, or R, G, B, and A. -/
def layoutParts (l : Nat) : Nat := if layoutAlpha l then 4 else 3

/-- Where component k of column x stands in a layout: its plane, its first bit within the line, its width. Columns are those of the
component's own plane. [PRESUMED, unsafe: log entry 18.] -/
def rawPlace (layout depth k x : Nat) : Nat × Nat × Nat :=
  let c := k - 1
  match layout with
  | 0 | 9 | 14 => (k, 8 * x, 8)
  | 1 | 5 => if k = 0 then (0, 8 * x, 8) else (1, 16 * x + 8 * c, 8)
  | 2 | 6 => if k = 0 then (0, 16 * x + 6, 10) else (1, 32 * x + 16 * c + 6, 10)
  | 3 => if k = 0 then (0, 16 * x + 4, 12) else (1, 32 * x + 16 * c + 4, 12)
  | 4 | 10 => (k, 16 * x, depth)
  | 7 => (0, if k = 0 then 16 * x + 8 else 32 * x + 16 * c, 8)
  | 8 =>
    let i := if k = 0 then 2 * x + 1 else 4 * x + 2 * c
    (0, 32 * (i / 3) + 10 * (i % 3), 10)
  | 11 => (0, 36 * x + 12 * k, 12)
  | 12 => (0, 32 * x + [16, 8, 0, 24].getD k 0, 8)
  | _ => if k = 3 then (0, 32 * x + 30, 2) else (0, 32 * x + 10 * k, 10)

/-- Bits of a component of a layout. -/
def rawBits (layout depth k : Nat) : Nat := (rawPlace layout depth k 0).2.2

/-- Line y of plane p of a raw picture, as a little-endian number. -/
def rawLineValue (layout : Nat) (i : Image) (p y : Nat) : Nat :=
  (List.range (layoutParts layout)).foldl (fun v k =>
    let sz := i.planeSize k
    if y < sz.2 then (List.range sz.1).foldl (fun v x =>
      let q := rawPlace layout i.depth k x
      if q.1 = p then v + sampleAt (i.plane k) x y % 2 ^ q.2.2 * 2 ^ q.2.1 else v) v
    else v) 0

/-- A picture in a raw layout: its planes one after another, each line in PITCH bytes (R267). Padding bytes are not written: what
stands there is open. -/
def rawBytes (layout pitch : Nat) (i : Image) : List Byte :=
  let ps := rawPlanes layout i.width i.height
  (ps.zip (List.range ps.length)).flatMap fun e => (List.range e.1.2).flatMap fun y =>
    leBytes e.1.1 (rawLineValue layout i e.2 y) ++ (List.range (rawPitch pitch e.1.1 - e.1.1)).map fun n => Config.padding e.2 y n

/-- The picture that bytes in a raw layout hold. -/
def rawImage (layout depth pitch w h : Nat) (colour : Option Colour) (bs : List Byte) : Image :=
  let ps := rawPlanes layout w h
  let start : Nat → Nat := fun p => ((ps.take p).map fun e => rawPitch pitch e.1 * e.2).sum
  let i : Image := { width := w, height := h, depth := depth, chroma := layoutChroma layout, rgb := layoutRgb layout, colour := colour }
  let sample : Nat → Nat → Nat → Nat := fun k x y =>
    let q := rawPlace layout depth k x
    let line := start q.1 + y * rawPitch pitch (ps.getD q.1 (0, 0)).1
    bits (leAt bs (line + q.2.1 / 8) 4) (q.2.1 % 8) q.2.2
  { i with planes := (List.range (layoutParts layout)).map fun k => planeOf (i.planeSize k).1 (i.planeSize k).2 (sample k) }

/-- A raw picture of mid-level samples (R269). -/
def rawBlank (layout depth w h : Nat) (colour : Option Colour) : Image :=
  { flatImage w h depth (layoutChroma layout) (List.replicate (layoutParts layout) (midLevel depth)) with rgb := layoutRgb layout, colour := colour }

/-! ### RFC 4175 (R269) -/

/-- A pgroup of RFC 4175: its bytes, pixels and lines. -/
def pgroup (layout d : Nat) : Nat × Nat × Nat :=
  if layout = 12 ∨ layout = 14 then (4, 1, 1)
  else match layoutChroma layout with
    | 0 => if d = 8 then (6, 2, 2) else if d = 10 then (15, 4, 2) else (9, 2, 2)
    | 1 => if d = 8 then (4, 2, 1) else if d = 10 then (5, 2, 1) else (6, 2, 1)
    | _ => if d = 8 then (3, 1, 1) else if d = 10 then (15, 4, 1) else (9, 2, 1)

/-- The samples of the smallest group of a sampling in the order of RFC 4175: component, column and line within the group; and the
group's columns. [PRESUMED, unsafe: log entry 18.] -/
def groupOrder (layout : Nat) : List (Nat × Nat × Nat) × Nat :=
  if layout = 12 ∨ layout = 13 then ((List.range (if layout = 12 then 4 else 3)).map fun k => (k, 0, 0), 1)
  else if layout = 14 then ([(1, 0, 0), (0, 0, 0), (2, 0, 0), (3, 0, 0)], 1)
  else match layoutChroma layout with
    | 0 => ([(0, 0, 0), (0, 1, 0), (0, 0, 1), (0, 1, 1), (1, 0, 0), (2, 0, 0)], 2)
    | 1 => ([(1, 0, 0), (0, 0, 0), (2, 0, 0), (0, 1, 0)], 2)
    | _ => ([(1, 0, 0), (0, 0, 0), (2, 0, 0)], 1)

/-- Column and line of a component that a group's sample at luma (x, y) stands for. -/
def partAt (layout k x y : Nat) : Nat × Nat :=
  if k = 0 ∨ k = 3 ∨ layoutRgb layout then (x, y)
  else (if layoutChroma layout = 2 then x else x / 2, if layoutChroma layout = 0 then y / 2 else y)

/-- The bytes of the pgroup at pixel x of line y: its samples most significant bit first. -/
def pgroupBytes (layout : Nat) (i : Image) (x y : Nat) : List Byte :=
  let d := i.depth
  let g := pgroup layout d
  let o := groupOrder layout
  let vs := (List.range (g.2.1 / o.2)).flatMap fun n => o.1.map fun e =>
    let q := partAt layout e.1 (x + o.2 * n + e.2.1) (y + e.2.2)
    sampleAt (i.plane e.1) q.1 q.2
  beBytes g.1 (vs.foldl (fun v a => v * 2 ^ d + a % 2 ^ d) 0)

/-- Changes one sample of a picture. -/
def Image.put (i : Image) (k x y v : Nat) : Image :=
  { i with planes := i.planes.modify k fun p => p.modify y fun l => l.set x v }

/-- A pgroup placed at pixel x of line y. -/
def Image.putGroup (i : Image) (layout x y : Nat) (bs : List Byte) : Image :=
  let d := i.depth
  let g := pgroup layout d
  let o := groupOrder layout
  let es := (List.range (g.2.1 / o.2)).flatMap fun n => o.1.map fun e => (e.1, x + o.2 * n + e.2.1, y + e.2.2)
  let v := beNat (bs.take g.1)
  let total := 8 * g.1
  ((es.zip (List.range es.length)).foldl (fun j e =>
    let q := partAt layout e.1.1 e.1.2.1 e.1.2.2
    j.put e.1.1 q.1 q.2 (bits v (total - d * (e.2 + 1)) d)) i)

/-- The payload of an RTP packet: behind its fixed header, contributing sources and header extension (RFC 3550).
[PRESUMED, unsafe: log entry 18.] -/
def rtpPayload (bs : List Byte) : List Byte :=
  let n := 12 + 4 * (beAt bs 0 1 % 16)
  if (beAt bs 0 1).testBit 4 then bs.drop (n + 4 + 4 * beAt bs (n + 2) 2) else bs.drop n

/-- The line headers of an RFC 4175 payload: length, line, offset; of at most n. -/
def lineHeads : Nat → List Byte → List (Nat × Nat × Nat) × List Byte
  | 0, bs => ([], bs)
  | n + 1, bs =>
    let h := (beAt bs 0 2, beAt bs 2 2 % 2 ^ 15, beAt bs 4 2 % 2 ^ 15)
    if (beAt bs 4 2).testBit 15 then let r := lineHeads n (bs.drop 6); (h :: r.1, r.2) else ([h], bs.drop 6)

/-- The pgroups of one line's part of a payload. -/
def Image.putLine (i : Image) (layout y off : Nat) (bs : List Byte) : Image :=
  let g := pgroup layout i.depth
  (List.range (bs.length / g.1)).foldl (fun j n => j.putGroup layout (off + g.2.1 * n) y (bs.drop (g.1 * n))) i

/-- The pgroups of an RFC 4175 payload, behind its extended sequence number, each placed by its line number and offset (R269). -/
def Image.putPayload (i : Image) (layout : Nat) (payload : List Byte) : Image :=
  let r := lineHeads 16 (payload.drop 2)
  (r.1.foldl (fun (a : Image × List Byte) h => (a.1.putLine layout h.2.1 h.2.2 (a.2.take h.1), a.2.drop h.1)) (i, r.2)).1

/-! ### Crop and scaling (R248, R249) -/

/-- A crop as it meets a picture: the rectangle, intersected with the picture; 0 stands for the rest (R248). -/
def cropOf (x y w h iw ih : Nat) : Nat × Nat × Nat × Nat :=
  let x := min x iw
  let y := min y ih
  (x, y, if w = 0 then iw - x else min w (iw - x), if h = 0 then ih - y else min h (ih - y))

/-- A picture is smaller than its crop (R248). -/
def cropClips (x y w h iw ih : Nat) : Bool :=
  decide (iw ≤ x ∨ ih ≤ y ∨ iw < x + w ∨ ih < y + h)

/-- The part of a picture within a rectangle of luma samples. -/
def Image.crop (i : Image) (x y w h : Nat) : Image :=
  let j := { i with width := w, height := h }
  let ox : Nat → Nat := fun k => if (k = 1 ∨ k = 2) ∧ ¬ i.rgb ∧ i.chroma ≠ 2 then x / 2 else x
  let oy : Nat → Nat := fun k => if (k = 1 ∨ k = 2) ∧ ¬ i.rgb ∧ i.chroma = 0 then y / 2 else y
  { j with planes := (List.range i.planes.length).map fun k =>
      (((i.plane k).drop (oy k)).take (j.planeSize k).2).map fun l => (l.drop (ox k)).take (j.planeSize k).1 }

/-- Taps of a bilinear filter. -/
def linearTaps (luma : Bool) (phase : Nat) : List Int :=
  let two : List Int := [256 - 4 * (phase : Int), 4 * (phase : Int)]
  if luma then [0, 0, 0] ++ two ++ [0, 0, 0] else [0] ++ two ++ [0]

/-- Taps brought to a sum of 256, the difference on the tap nearest to the position (R249). -/
def sumTo256 (luma : Bool) (phase : Nat) (ts : List Int) : List Int :=
  let ts := (List.range (if luma then 8 else 4)).map fun k => ts.getD k 0
  let mid := (if luma then 3 else 1) + if 32 < phase then 1 else 0
  ts.modify mid fun t => t + (256 - ts.sum)

/-- The coefficients of a kernel for a phase (R249): bilinear ones exactly; the Lanczos and Catmull-Rom kernels are 1 at their own
position and 0 at the others; SHARP luma is zero outside ±3. [DESIGN CHOICE, unsafe: log entry 86.] -/
def tapsOf (kernel : Nat) (luma : Bool) (phase : Nat) : List Int :=
  if kernel = 3 ∨ (phase = 0 ∧ kernel ≤ 1) then linearTaps luma phase
  else
    let ts := Config.kernelTaps kernel luma phase
    let ts := if kernel = 1 ∧ luma then (ts.set 0 0).set 7 0 else ts
    sumTo256 luma phase ts

/-- Samples that one box of the pre-average spans in a dimension: 1, 2 or 4 (R249). -/
def boxOf (win wout : Nat) : Nat := if win ≤ 2 * wout then 1 else if win ≤ 4 * wout then 2 else 4

/-- A line of box averages, rounded to nearest. [DESIGN CHOICE, unsafe: log entry 86.] -/
def boxLine (n : Nat) (l : List Nat) : List Nat :=
  if n ≤ 1 then l
  else (List.range (ceilDiv l.length n)).map fun k =>
    (((List.range n).map fun j => l.getD (min (n * k + j) (l.length - 1)) 0).sum + n / 2) / n

/-- Twice the position of an output sample in its source, times the output size (R249): its numerator, of a plane whose samples are
`sub` luma samples apart and whose first one is sited `site` half luma samples from luma 0. -/
def sourcePos (xd win wout sub site : Nat) : Int × Nat :=
  ((2 * xd + 1) * win - (wout : Int) - (site * wout : Nat), 2 * wout * sub)

/-- A line scaled to `wout` samples (R249). `win` is its size in luma samples. [DESIGN CHOICE, unsafe: log entry 86.] -/
def scaleLine (kernel : Nat) (luma : Bool) (win wout sub site : Nat) (l : List Nat) : List Nat :=
  let n := boxOf l.length wout
  let b := boxLine n l
  (List.range wout).map fun xd =>
    let p := sourcePos xd win wout sub site
    let num : Int := 2 * p.1 - ((n - 1) * p.2 : Nat)
    let den : Nat := 2 * n * p.2
    let base := num / (den : Int)
    let ph := ((2 * 64 * (num % (den : Int)).toNat + den) / (2 * den))
    let base := if ph = 64 then base + 1 else base
    let ts := tapsOf kernel luma (ph % 64)
    let first := base - if luma then 3 else 1
    let at_ : Nat → Int := fun k => ((b.getD (nearIndex b.length (first + k)) 0 : Nat) : Int)
    let v := ((ts.zip (List.range ts.length)).map fun e => e.1 * at_ e.2).sum
    (clampI 0 4095 ((v + 128) / 256)).toNat

/-- A plane scaled in both dimensions. -/
def scalePlane (kernel : Nat) (luma : Bool) (win hin wout hout subX siteX subY siteY : Nat) (p : Plane) : Plane :=
  let q := p.map (scaleLine kernel luma win wout subX siteX)
  columnsOf hout ((columnsOf wout q).map (scaleLine kernel luma hin hout subY siteY))

/-- A depth raised to 12 bits, zero low bits (R257); alpha keeps its full range (R260). -/
def to12 (depth v : Nat) : Nat := v * 2 ^ (12 - depth)
def alpha12 (depth v : Nat) : Nat := (2 * v * 4095 + (2 ^ depth - 1)) / (2 * (2 ^ depth - 1))

/-- Bits of alpha in a picture of a depth: those of its layout. -/
def alphaBits (depth : Nat) : Nat := if depth = 10 then 2 else depth

/-- Scaling of each plane to a size, with chroma brought to 4:4:4 in the same step, at 12 bits (R246, R249). Chroma of a 4:2:0 source
stands half a line below luma, or on it where the source says so; that of 4:2:2 on every second column. -/
def Image.scale (i : Image) (kernel w h : Nat) : Image :=
  let top := match i.colour with
    | some c => decide (c.loc = 2)
    | none => false
  let whole := decide (i.chroma = 2) || i.rgb
  let plane : Nat → Plane := fun k =>
    let p := (i.plane k).map fun l => l.map (if k = 3 then alpha12 (alphaBits i.depth) else to12 i.depth)
    if k = 0 ∨ k = 3 then scalePlane kernel true i.width i.height w h 1 0 1 0 p
    else if whole then scalePlane kernel i.rgb i.width i.height w h 1 0 1 0 p
    else scalePlane kernel false i.width i.height w h 2 0 (if i.chroma = 0 then 2 else 1) (if i.chroma = 0 && !top then 1 else 0) p
  { i with width := w, height := h, depth := 12, chroma := 2, planes := (List.range i.planes.length).map plane }

/-! ### Colour and range (R254–R256) -/

/-- The colour code of a description: 1 BT709, 2 BT2020, 3 PQ, 4 HLG; what the table does not list, or no description, counts as
COLOUR_IN_DEFAULT (R254). -/
def colourCode (default_ : Nat) (c : Option Colour) : Nat :=
  match c with
  | none => default_
  | some c =>
    let sdr := decide (c.transfer ∈ [1, 6, 14, 15])
    if c.primaries = 1 ∧ c.matrix = 1 ∧ sdr then 1
    else if c.primaries = 9 ∧ c.matrix = 9 then
      if sdr then 2 else if c.transfer = 16 then 3 else if c.transfer = 18 then 4 else default_
    else default_

/-- The description that an output of a colour code and range signals (R254). -/
def colourOf (code : Nat) (full : Bool) : Colour :=
  match code with
  | 1 => { primaries := 1, transfer := 1, matrix := 1, full := full }
  | 2 => { primaries := 9, transfer := 14, matrix := 9, full := full }
  | 3 => { primaries := 9, transfer := 16, matrix := 9, full := full }
  | _ => { primaries := 9, transfer := 18, matrix := 9, full := full }

/-- The range of a source: full for RGB, else as its description says. -/
def Image.full (i : Image) : Bool := i.rgb || (match i.colour with
  | some c => c.full
  | none => false)

/-- A colour that a pass converts into another one; only BT709 and BT2020 (R255). -/
def converts (a b : Nat) : Bool := decide ((a = 1 ∧ b = 2) ∨ (a = 2 ∧ b = 1))

/-- A picture of one code that an output of another code shows unchanged (R255). -/
def mismatched (a b : Nat) : Bool := decide (a ≠ b) && !converts a b

/-- Spans of limited range at 12 bits (R256). -/
def lowOf (full : Bool) : Nat := if full then 0 else 256
def highOf (full luma : Bool) : Nat := if full then 4095 else if luma then 3760 else 3840

/-- Nearest integer of a / b, ties upward. -/
def nearestUp (a : Int) (b : Nat) : Int := (2 * a + b) / (2 * b)

/-- A sample mapped to the other range, clipped to the target span (R256). -/
def mapRange (toFull luma : Bool) (v : Nat) : Nat :=
  let x : Int := v
  let r := if luma then (if toFull then nearestUp ((x - 256) * 4095) 3504 else nearestUp (x * 3504) 4095 + 256)
    else (if toFull then nearestUp ((x - 2048) * 4095) 3584 + 2048 else nearestUp ((x - 2048) * 3584) 4095 + 2048)
  (clampI (lowOf toFull : Nat) (highOf toFull luma : Nat) r).toNat

/-- Range change of the planes of a picture that is not R'G'B'. -/
def Image.toRange (i : Image) (toFull : Bool) : Image :=
  if i.full == toFull ∨ i.rgb then i
  else { i with colour := some { i.colour.getD {} with full := toFull },
                planes := (i.planes.zip (List.range i.planes.length)).map fun e =>
                  if e.2 = 3 then e.1 else e.1.map fun l => l.map (mapRange toFull (decide (e.2 = 0))) }

/-- Changes the pixels of a 4:4:4 picture. -/
def Image.mapPixels (i : Image) (f : Pixel → Pixel) : Image :=
  let px : Nat → Nat → Pixel := fun x y => f ⟨sampleAt (i.plane 0) x y, sampleAt (i.plane 1) x y, sampleAt (i.plane 2) x y⟩
  { i with planes := [planeOf i.width i.height fun x y => (px x y).c0, planeOf i.width i.height fun x y => (px x y).c1,
                      planeOf i.width i.height fun x y => (px x y).c2] ++ i.planes.drop 3 }

/-- Colour codes of R'G'B' with the primaries of a code, for the arithmetic of R255. -/
def rgbCode (code : Nat) : Nat := 16 + code

/-- Colour and range conversion of a 4:4:4 picture of colour `a` to an output of colour `b`, range and form (R254–R256). A PQ or HLG
picture, or an SDR one for a PQ or HLG output, keeps its colour values. [DESIGN CHOICE, unsafe: log entry 86.] -/
def Image.recolour (i : Image) (a b : Nat) (full rgbOut : Bool) : Image :=
  let i := if i.rgb && !rgbOut then { (i.mapPixels (Config.convertPixel (rgbCode a) a)) with rgb := false, colour := some (colourOf a true) } else i
  let i := if converts a b then
      let j := i.toRange true
      j.mapPixels (Config.convertPixel (if i.rgb then rgbCode a else a) (if i.rgb then rgbCode b else b))
    else i
  let out := if converts a b then b else if i.rgb then b else a
  let i := if rgbOut && !i.rgb then { ((i.toRange true).mapPixels (Config.convertPixel out (rgbCode out))) with rgb := true } else i
  let i := i.toRange full
  { i with colour := some { colourOf b i.full with loc := 0 } }

/-! ### Orientation (R250) -/

/-- Orientation exchanges width and height (R250). -/
def turned (orient : Nat) : Bool := orient % 2 == 1

/-- The source of output pixel (x, y) of a picture of w × h. -/
def orientPos (orient w h x y : Nat) : Nat × Nat :=
  match orient with
  | 0 => (x, y)
  | 1 => (y, h - 1 - x)
  | 2 => (w - 1 - x, h - 1 - y)
  | 3 => (w - 1 - y, x)
  | 4 => (w - 1 - x, y)
  | 5 => (w - 1 - y, h - 1 - x)
  | 6 => (x, h - 1 - y)
  | _ => (y, x)

/-- A 4:4:4 picture in an orientation. -/
def Image.orient (i : Image) (code : Nat) : Image :=
  let w := if turned code then i.height else i.width
  let h := if turned code then i.width else i.height
  let source : Plane → Nat → Nat → Nat := fun p x y => sampleAt p (orientPos code i.width i.height x y).1 (orientPos code i.width i.height x y).2
  { i with width := w, height := h, planes := i.planes.map fun p => planeOf w h (source p) }

/-! ### Chroma and depth (R257) -/

/-- The chroma sample of column x: [1 2 1] / 4 centred on column 2x. [DESIGN CHOICE, unsafe: log entry 86.] -/
def halveColumns (w : Nat) (p : Plane) : Plane :=
  planeOf (ceilDiv w 2) p.length fun x y =>
    let at_ : Int → Nat := fun d => sampleAt p (2 * x + d) y
    (at_ (-1) + 2 * at_ 0 + at_ 1 + 2) / 4

/-- The chroma sample of a pair of lines: [1 1] / 2. -/
def halveLines (h : Nat) (p : Plane) : Plane :=
  (List.range (ceilDiv h 2)).map fun y =>
    let a := p.getD (2 * y) []
    let b := p.getD (min (2 * y + 1) (h - 1)) []
    (a.zip b).map fun e => (e.1 + e.2 + 1) / 2

/-- A 4:4:4 picture in a chroma format. -/
def Image.toChroma (i : Image) (chroma : Nat) : Image :=
  if chroma = 2 ∨ i.rgb then i
  else
    let half : Plane → Plane := fun p => let q := halveColumns i.width p; if chroma = 0 then halveLines i.height q else q
    { i with chroma := chroma, planes := (i.planes.zip (List.range i.planes.length)).map fun e =>
        if e.2 = 1 ∨ e.2 = 2 then half e.1 else e.1 }

/-- A sample at another depth: shifted left, or rounded with ties upward and clipped to the range in force. -/
def depthSample (from_ into : Nat) (full luma : Bool) (v : Nat) : Nat :=
  if from_ ≤ into then v * 2 ^ (into - from_)
  else
    let n := from_ - into
    let r := (v + 2 ^ (n - 1)) / 2 ^ n
    let lo := lowOf full / 2 ^ (12 - into)
    let hi := if full then 2 ^ into - 1 else highOf false luma / 2 ^ (12 - into)
    max lo (min hi r)

/-- A picture at another depth; alpha scales its full range. -/
def Image.toDepth (i : Image) (depth : Nat) : Image :=
  { i with depth := depth, planes := (i.planes.zip (List.range i.planes.length)).map fun e => e.1.map fun l =>
      l.map (if e.2 = 3 then fun v => (2 * v * (2 ^ alphaBits depth - 1) + 4095) / (2 * 4095)
        else depthSample i.depth depth i.full (decide (e.2 = 0) || i.rgb)) }

/-- The samples of an identity: those of the input, shifted left by the increase in depth (R247). -/
def Image.deepen (i : Image) (depth : Nat) : Image :=
  if depth ≤ i.depth then i
  else { i with depth := depth, planes := i.planes.map fun p => p.map fun l => l.map fun v => v * 2 ^ (depth - i.depth) }

/-! ### A pass (R246) -/

/-- The settings of a pass: crop, size before orientation, orientation, kernel, colour code and range of its output. -/
structure PassSet where
  x : Nat := 0
  y : Nat := 0
  w : Nat := 0
  h : Nat := 0
  outW : Nat
  outH : Nat
  orient : Nat := 0
  kernel : Nat := 0
  colour : Nat
  full   : Bool
  rgb    : Bool := false
  deriving DecidableEq, Repr

/-- Steps 1 to 4 of a pass on a picture of a colour code. -/
def Image.shape (i : Image) (code : Nat) (p : PassSet) : Image :=
  let c := cropOf p.x p.y p.w p.h i.width i.height
  ((((i.crop c.1 c.2.1 c.2.2.1 c.2.2.2).scale p.kernel p.outW p.outH).recolour code p.colour p.full p.rgb).orient p.orient)

/-- Steps 6 and 7. -/
def Image.finish (i : Image) (chroma depth : Nat) : Image := (i.toChroma chroma).toDepth depth

/-! ### Blending (R259, R260) -/

/-- A global alpha at 12 bits. -/
def globalAlpha (g : Nat) : Nat := (2 * g * 4095 + 255) / 510

/-- One alpha times another, over 4,095. [DESIGN CHOICE, unsafe: log entry 86.] -/
def timesAlpha (a g : Nat) : Nat := (a * g + 2047) / 4095

/-- A component of a layer blended over what is below it. -/
def blend (a l below : Nat) : Nat := (a * l + (4095 - a) * below + 2047) / 4095

/-- A layer as it is drawn: its 4:4:4 picture, its place, and its alpha at a canvas position. -/
structure Drawn where
  image : Image
  dx    : Int
  dy    : Int
  dw    : Nat
  dh    : Nat
  deriving DecidableEq, Repr

/-- A canvas position lies in a rectangle. -/
def Drawn.covers (d : Drawn) (x y : Nat) : Bool :=
  decide (d.dx ≤ (x : Int) ∧ (x : Int) < d.dx + d.dw ∧ d.dy ≤ (y : Int) ∧ (y : Int) < d.dy + d.dh)

/-- A component of a layer at a canvas position. -/
def Drawn.part (d : Drawn) (k x y : Nat) : Nat := sampleAt (d.image.plane k) ((x : Int) - d.dx) ((y : Int) - d.dy)

/-- A layer drawn over a canvas of 4:4:4 samples, with its alpha at each position. -/
def drawOver (canvas : Image) (d : Drawn) (alpha : Nat → Nat → Nat) : Image :=
  let drawn : Plane → Nat → Nat → Nat → Nat := fun p k x y =>
    if d.covers x y then blend (alpha x y) (d.part k x y) (sampleAt p x y) else sampleAt p x y
  let planes := (canvas.planes.zip (List.range canvas.planes.length)).map fun e => planeOf canvas.width canvas.height (drawn e.1 e.2)
  { canvas with planes := planes }

end Sys2Proof
end

