-- ==== Sys2Proof/Machine/Operands.lean ====
section
/-! DEFINITION. The operand forms that several units share: raster times and their arithmetic (R8–R13), durations, unit and
kind codes (R445, R446), the fields of IOP items and Chaec Link headers as bytes. -/

namespace Sys2Proof.Machine

/-! ### Raster arithmetic -/

/-- Length of the cycle of linear counts for L lines per frame (R10). -/
def countCycle (l : Nat) : Nat := l * 2 ^ 56

/-- Linear count of a raster time in line ticks (R10). -/
def linear (l : Nat) (t : RTime) : Nat := (t.frame * l + t.line) * 65536 + t.phase

/-- The raster time at a linear count. -/
def ofLinear (l n : Nat) : RTime :=
  ⟨n / (l * 65536) % 2 ^ 40, n / 65536 % l, n % 65536⟩

/-- A signed residue modulo m. -/
def signedMod (m : Nat) (i : Int) : Int :=
  if (i % (m : Int)) * 2 < (m : Int) then i % (m : Int) else i % (m : Int) - m

/-- A − B as R10 takes it: modulo the count's cycle, signed. -/
def rdiff (l : Nat) (a b : RTime) : Int := signedMod (countCycle l) ((linear l a : Int) - linear l b)

/-- A raster time moved by a signed number of line ticks. -/
def rshift (l : Nat) (t : RTime) (ticks : Int) : RTime :=
  ofLinear l (((linear l t : Int) + ticks) % (countCycle l : Int)).toNat

/-- Lines per frame of a domain. -/
def State.lpf (s : State) (rd : Nat) : Nat := s.get Od.rd_LINES_PER_FRAME rd

/-- A later than B in a domain (R10). -/
def State.later (s : State) (rd : Nat) (a b : RTime) : Bool := decide (0 < rdiff (s.lpf rd) a b)

/-- A raster time that the domain accepts (R9). -/
def State.validTime (s : State) (rd : Nat) (t : RTime) : Bool := decide (t.line < s.lpf rd)

/-- A time less than 2^38 frames ahead of the domain's present (R11). -/
def State.notTooFar (s : State) (rd : Nat) (t : RTime) : Bool :=
  decide (rdiff (s.lpf rd) t (s.now rd) < (2 ^ 38 * s.lpf rd * 65536 : Nat))

/-- The start of LINE 0 of the next frame. -/
def nextFrame (t : RTime) : RTime := ⟨(t.frame + 1) % 2 ^ 40, 0, 0⟩

/-- The start of the next line of a domain. -/
def State.nextLine (s : State) (rd : Nat) : RTime :=
  if (s.now rd).line + 1 < s.lpf rd then ⟨(s.now rd).frame, (s.now rd).line + 1, 0⟩ else nextFrame (s.now rd)

/-- A domain runs (R14). -/
def State.enabled (s : State) (rd : Nat) : Bool := s.flag Od.rd_ENABLE rd

/-- Line ticks of a domain in 10^9 × RATE_DEN seconds: ticks × 10^9 × D / this is a duration in ns. -/
def State.ticksPer (s : State) (rd : Nat) : Nat := s.get Od.rd_RATE_NUM rd * s.lpf rd * 65536

/-- |ticks| of a domain last at most ns nanoseconds. -/
def State.ticksWithin (s : State) (rd : Nat) (ticks : Int) (ns : Nat) : Bool :=
  decide (ticks.natAbs * s.get Od.rd_RATE_DEN rd * 10 ^ 9 ≤ ns * s.ticksPer rd)

/-- Lines of a domain that a duration of num / den seconds takes, rounded up (t / t_line). -/
def State.linesOf (s : State) (rd num den : Nat) : Nat :=
  ceilDiv (num * s.get Od.rd_RATE_NUM rd * s.lpf rd) (den * s.get Od.rd_RATE_DEN rd)

/-- Active lines A of a domain (R167). -/
def State.activeLines (s : State) (rd : Nat) : Nat := s.get Od.rd_ACTIVE_LAST rd - s.get Od.rd_ACTIVE_FIRST rd + 1

/-! ### Time -/

/-- Nanoseconds since PORST_N (R417): 5 ns are 6 cycles of 1.2 GHz. -/
def State.uptimeNs (s : State) : Nat := s.cycle * 5 / 6

/-- Cycles of a duration in ns, rounded up. -/
def nsCycles (ns : Nat) : Nat := ceilDiv (ns * 6) 5

/-- Cycles of a duration in ms. -/
def msCycles (ms : Nat) : Nat := ms * 1200000

/-- Cycle count of a duration in µs. -/
def usCycles (n : Nat) : Nat := n * 1200

/-- Cycles of a duration in seconds. -/
def secCycles (n : Nat) : Nat := n * 1200000000

/-! ### Units (R445) -/

namespace Unit

def crown (cw : Nat) : Nat := 128 + cw
def conditioner (ic : Nat) : Nat := 144 + ic
def hbmHalf (h : Nat) : Nat := 152 + h
def queueEngine : Nat := 156
def forwarding (e : Nat) : Nat := 157 + e
def port (p : Nat) : Nat := 160 + p
def raster : Nat := 288
def control : Nat := 290
def carding : Nat := 291
def dma : Nat := 292
def pcie : Nat := 293
def island : Nat := 295
def thermal : Nat := 296
def fuses : Nat := 297
def collector : Nat := 298

end Unit

/-! ### Fault messages (R444, R446) -/

/-- Severity of a KIND (R446); 0 for a reserved kind. -/
def kindSev (k : Nat) : Nat :=
  if k ∈ [0x01, 0x10, 0x28, 0x29] then 1
  else if k ∈ [0x02, 0x03, 0x04, 0x05, 0x06, 0x07, 0x08, 0x09, 0x11, 0x12, 0x13, 0x20, 0x21, 0x48, 0x60] then 2
  else if k ∈ [0x0A, 0x14, 0x15, 0x2A, 0x31, 0x38, 0x50, 0x51, 0x62, 0x68, 0x69] then 3
  else if k ∈ [0x16, 0x52, 0x61, 0x70] then 4
  else 0

/-- The word of a fault message (R444). -/
def FaultMsg.word (m : FaultMsg) : Nat :=
  m.unit % 2 ^ 10 * 2 ^ 62 + m.kind % 2 ^ 8 * 2 ^ 54 + m.sev % 8 * 2 ^ 51 + m.acc % 8 * 2 ^ 48 +
    m.master % 256 * 2 ^ 40 + m.addr % 2 ^ 40

/-- A unit reports a fault: it holds the message until the collector accepts it (R444). -/
def State.report (s : State) (unit kind acc master addr : Nat) : State :=
  { s with faults := { s.faults with held := s.faults.held ++ [⟨unit, kind, kindSev kind, acc, master, addr, 0xF⟩] } }

/-- A report of no access. -/
def State.reportInfo (s : State) (unit kind addr : Nat) : State := s.report unit kind 0 0xFF addr

/-- A report of an on-chip byte: corrected (0x01) or uncorrectable (0x02), with its STORE code. -/
def State.reportSram (s : State) (unit kind acc master addr store : Nat) : State :=
  { s with faults := { s.faults with
      held := s.faults.held ++ [⟨unit, kind, kindSev kind, acc, master, addr, store⟩] } }

/-- Master codes (R444). -/
def Master.code : Master → Nat
  | .crownPort cw => 128 + cw
  | .conditioner ic => 144 + ic
  | .queueEngine => 152
  | .records => 152
  | .dma _ => 155
  | .bar2 => 156
  | .firmware => 157

/-- Address of an on-chip store in a fault message or a repair (the on-chip form of R302): MACRO, column, row. -/
def onChip (mac col row : Nat) : Nat := mac % 256 * 2 ^ 32 + col % 2 ^ 15 * 2 ^ 16 + row % 2 ^ 16

end Sys2Proof.Machine
end

