-- ==== Sys2Proof/Machine/Interrupts.lean ====
section
/-! DEFINITION. Interrupt sources and vectors (R435–R442): an event of a source, the claim of a vector, the completion of a
source, and the sending of messages. A message is sent when a meaning ends (`State.sendMessages`). -/

namespace Sys2Proof.Machine

/-- SRC_CFG at reset: COAL_TIME 20 µs; sources 225–240 fast with COAL_COUNT 1, the others COAL_COUNT 8; sources 0 and
256–511 read zero (R435). -/
def srcCfgReset (src : Nat) : Nat :=
  if src = 0 ∨ 256 ≤ src then 0
  else if 225 ≤ src ∧ src ≤ 240 then 2 ^ 31 + 20 * 2 ^ 15 + 1 * 2 ^ 7
  else 20 * 2 ^ 15 + 8 * 2 ^ 7

def State.srcCfg (s : State) (src : Nat) : Nat := tget s.host.srcCfg (srcCfgReset src) src

def cfgPriority (c : Nat) : Nat := bits c 0 4
/-- COAL_COUNT; 0 acts as 1. -/
def cfgCount (c : Nat) : Nat := max 1 (bits c 7 8)
def cfgFast (c : Nat) : Bool := c.testBit 31
/-- VECTOR of the normal class; 63 acts as 0. -/
def cfgVector (c : Nat) : Nat := if cfgFast c then 63 else if bits c 25 6 = 63 then 0 else bits c 25 6

def State.irq (s : State) (src : Nat) : IrqSource := tget s.host.sources {} src

def State.setIrq (s : State) (src : Nat) (q : IrqSource) : State :=
  { s with host := { s.host with sources := tput s.host.sources {} src q } }

/-- COAL_TIME in cycles; 0 acts as 1 µs. -/
def cfgTime (c : Nat) : Nat := usCycles (max 1 (bits c 15 10))

/-- A source of given configuration after one event in a cycle (R437): the first event of a count starts its timer. -/
def IrqSource.event (q : IrqSource) (cfg cycle : Nat) : IrqSource :=
  let q := { q with raised := (q.raised + 1) % 2 ^ 32 }
  if cfgPriority cfg = 0 then q
  else if q.pending then { q with count := q.count + 1 }
  else
    let n := q.count + 1
    if n < cfgCount cfg then { q with count := n, timer := true, since := if q.timer then q.since else cycle }
    else if q.active then { q with count := n, timer := false, reached := true }
    else { q with count := n, timer := false, pending := true }

/-- An event of interrupt source src (R435, R437). Source 0 never fires and 256–511 are reserved. -/
def State.raise (s : State) (src : Nat) : State :=
  if src = 0 ∨ 256 ≤ src then s else s.setIrq src ((s.irq src).event (s.srcCfg src) s.cycle)

/-- A source whose moderation timer expires when COAL_TIME has passed (R437). -/
def IrqSource.expire (q : IrqSource) (cfg cycle : Nat) : IrqSource :=
  if q.timer && decide (q.since + cfgTime cfg ≤ cycle) then
    if q.active then { q with timer := false, reached := true } else { q with timer := false, pending := true }
  else q

/-- A source under a new configuration (R437). -/
def IrqSource.reconfigure (q : IrqSource) (cfg : Nat) : IrqSource :=
  if cfgPriority cfg = 0 then { q with pending := false, count := 0, timer := false, reached := false }
  else if q.timer && decide (cfgCount cfg ≤ q.count) then
    if q.active then { q with timer := false, reached := true } else { q with timer := false, pending := true }
  else q

def State.vector (s : State) (v : Nat) : IrqVector := tget s.host.vectors {} v

def State.setVector (s : State) (v : Nat) (x : IrqVector) : State :=
  { s with host := { s.host with vectors := tput s.host.vectors {} v x } }

/-- The pending sources of a vector, with their priorities. -/
def State.pendingOn (s : State) (v : Nat) : List (Nat × Nat) :=
  (s.host.sources.filter fun e => e.2.pending && decide (cfgVector (s.srcCfg e.1) = v)).map fun e =>
    (e.1, cfgPriority (s.srcCfg e.1))

/-- The source of highest priority, the lower number among equals. -/
def bestSource : List (Nat × Nat) → Option (Nat × Nat)
  | [] => none
  | e :: es =>
    match bestSource es with
    | none => some e
    | some b => if e.2 > b.2 ∨ (e.2 = b.2 ∧ e.1 < b.1) then some e else some b

/-- A claim of vector v: the state after it and the value read (R438). -/
def State.claimVector (s : State) (v : Nat) : State × Nat :=
  match bestSource (s.pendingOn v) with
  | none => ((s.setVector v { s.vector v with sent := false }).bump Od.irq_EMPTY_CLAIMS, 0)
  | some (src, _) =>
    (s.setIrq src { s.irq src with pending := false, active := true, vector := v, count := 0, timer := false },
      src + 2 ^ 16 * min 255 (s.irq src).count)

/-- A completion of source src on vector v (R438). -/
def State.completeVector (s : State) (v src : Nat) : State :=
  if (s.irq src).active && decide ((s.irq src).vector = v) then
    (s.setIrq src { s.irq src with
      active := false, pending := (s.irq src).pending || (s.irq src).reached, reached := false }).setVector v
      { s.vector v with sent := false }
  else s.bump Od.irq_COMPLETE_ERRORS

/-- A message of vector v is held (R441). -/
def HostState.holds (h : HostState) (v : Nat) : Bool :=
  (tget h.vectors {} v).masked || h.functionMask || !h.msixEnabled || !h.busMaster || h.d3hot || !h.linkUp

/-- A due message of vector v: it is sent, or held under R441; in D3hot the first one sets PME_Status (R442). -/
def sendOne (ho : HostState × List Output) (v : Nat) : HostState × List Output :=
  let h := ho.1
  let x := tget h.vectors {} v
  if h.holds v then
    let h' := { h with vectors := tput h.vectors {} v { x with sent := true, held := true }
                       heldCount := (h.heldCount + 1) % 2 ^ 32 }
    if h.d3hot && !h.pmeStatus then
      if h.pmeEnabled then ({ h' with pmeStatus := true, pmeSent := (h'.pmeSent + 1) % 2 ^ 32 }, .pme :: ho.2)
      else ({ h' with pmeStatus := true }, ho.2)
    else (h', ho.2)
  else
    ({ h with vectors := tput h.vectors {} v { x with sent := true, held := false }
              messages := (h.messages + 1) % 2 ^ 64 }, .msix v :: ho.2)

/-- The ARMED vectors that have a pending source (R438). -/
def State.dueVectors (s : State) : List Nat :=
  if s.host.sources.any (fun e => e.2.pending) then
    (List.range 64).filter fun v => !(s.vector v).sent && (s.pendingOn v != [])
  else []

/-- Every ARMED vector with a pending source sends its message (R438, R441, R442). -/
def State.sendMessages (s : State) : State :=
  let ho := s.dueVectors.foldl sendOne (s.host, s.out)
  { s with host := ho.1, out := ho.2 }

/-- Held messages whose condition has ended are sent (R441). -/
def State.sendHeld (s : State) : State :=
  let ho := (s.host.vectors.filter fun e => e.2.held && !s.host.holds e.1).foldl
    (fun ho e => (fun h : HostState =>
      ({ h with vectors := tput h.vectors {} e.1 { tget h.vectors {} e.1 with held := false }
                messages := (h.messages + 1) % 2 ^ 64 }, Output.msix e.1 :: ho.2)) ho.1) (s.host, s.out)
  { s with host := ho.1, out := ho.2 }

/-- A stream's event (R436): a bit going from 0 to 1 raises one event on the source of the stream's group. -/
def State.streamEvent (s : State) (sid bit : Nat) : State :=
  if (tget s.host.streamEvt 0 sid).testBit bit then s
  else ({ s with host := { s.host with
      streamEvt := tput s.host.streamEvt 0 sid (setBit (tget s.host.streamEvt 0 sid) bit) } }).raise (97 + sid % 128)

/-- Writes a stream's STATE and raises its event when it changes (R75, R436). -/
def State.setStreamState (s : State) (sid st : Nat) : State :=
  if s.get Od.st_STATE sid = st then s else (s.set Od.st_STATE sid st).streamEvent sid 0

end Sys2Proof.Machine
end

