-- ==== Sys2Proof/Machine/CommandOps.lean ====
section
/-! DEFINITION. The command service (R64–R69): tickets, queues per code, the exclusion of R65, and the running of a command
by its row. -/

namespace Sys2Proof.Machine

/-! ### Item statuses (R49) -/

namespace Status

def ok : Nat := 0x00
def pending : Nat := 0x01
def noObject : Nat := 0x02
def noSubindex : Nat := 0x03
def typeMismatch : Nat := 0x04
def length : Nat := 0x05
def outOfRange : Nat := 0x06
def readOnly : Nat := 0x07
def writeOnly : Nat := 0x08
def denied : Nat := 0x09
def inUse : Nat := 0x0A
def aborted : Nat := 0x0B
def busy : Nat := 0x0C
def mismatch : Nat := 0x0D
def failed : Nat := 0x0E
/-- The dictionary is not live: the model's own code (R63 answers the whole frame). -/
def notReady : Nat := 0x10

end Status

/-! ### Result codes (R69) -/

namespace Result

def ok : Nat := 0x0000
def badArgs : Nat := 0x0001
def outOfRange : Nat := 0x0002
def noSuchTarget : Nat := 0x0003
def inUse : Nat := 0x0004
def timeout : Nat := 0x0007
def noCells : Nat := 0x0010
def noConditioner : Nat := 0x0011
def noMemoryBw : Nat := 0x0012
def noPortCapacity : Nat := 0x0013
def noContext : Nat := 0x0014
def noMemory : Nat := 0x0015
def budgetBelowReserve : Nat := 0x0016
def unsupported : Nat := 0x0017
def noDomain : Nat := 0x0018
def signatureBad : Nat := 0x0020
def rollback : Nat := 0x0021
def imageFormat : Nat := 0x0022
def wrongTarget : Nat := 0x0023
def noSlot : Nat := 0x0024
def tooLate : Nat := 0x0030
def unreachable : Nat := 0x0031
def noSpace : Nat := 0x0040
def alignment : Nat := 0x0041
def uncorrectable : Nat := 0x0042
def fusesExhausted : Nat := 0x0050
def repairFailed : Nat := 0x0051
def noFuseSupply : Nat := 0x0052
def linkFailed : Nat := 0x0060
def tableFull : Nat := 0x0070
def internal : Nat := 0x00FF

end Result

def State.cmdQueue (s : State) (code : Nat) : CmdQueue := tget s.cmds.queues {} code

def State.setCmdQueue (s : State) (code : Nat) (q : CmdQueue) : State :=
  { s with cmds := { s.cmds with queues := tput s.cmds.queues {} code q } }

/-- Codes that exclude one another (R65). [DESIGN CHOICE, unsafe: log entry 31.] -/
def exclusive : List Nat := [0x30, 0x31, 0x33, 0x41, 0x70]

/-- A command of the code may start now: none of its code runs, and none that excludes it.
[DESIGN CHOICE, unsafe: log entry 31.] -/
def State.mayStart (s : State) (code : Nat) : Bool :=
  (s.cmdQueue code).running.isNone &&
    (decide (code ∉ exclusive) || exclusive.all fun c => (s.cmdQueue c).running.isNone)

/-- The next ticket: 0 is skipped (R65). -/
def CmdState.nextTicket (c : CmdState) : Nat := if (c.ticket + 1) % 2 ^ 32 = 0 then 1 else (c.ticket + 1) % 2 ^ 32

/-- An argument block without what stands in its reserved bytes and bits (R6, R68). -/
def plainArgs (code : Nat) (args : List Byte) : List Byte :=
  match code with
  | 0x01 => args.take 2 ++ leBytes 2 (leAt args 2 1 % 2)
  | 0x20 => args.take 3 ++ [0#8] ++ args.drop 4
  | 0x31 => args.take 1 ++ [0#8] ++ args.drop 2
  | 0x33 => args.take 1 ++ [0#8] ++ args.drop 2
  | 0x50 => args.take 3 ++ [0#8] ++ args.drop 4
  | _ => args

/-- A command begins to run. A FUSE_REPAIR whose TARGET is neither of R302 and R303 has its result at once.
[DEDUCED, unsafe: log entry 82.] -/
def CmdEntry.begin (e : CmdEntry) : CmdEntry :=
  if e.code = 0x33 ∧ 2 ≤ leAt e.args 0 1 then { e with result := some (Result.outOfRange, []) } else e

/-- Accepts a command: it runs, or waits. -/
def State.acceptCommand (s : State) (code session : Nat) (args : List Byte) (held : Option HeldResponse) : State :=
  let t := s.cmds.nextTicket
  let e : CmdEntry := { ticket := t, code := code, session := session, args := plainArgs code args, at_ := s.cycle, held := held }
  let q := s.cmdQueue code
  let s := { s with cmds := { s.cmds with ticket := t } }
  if s.mayStart code && q.waiting == [] then s.setCmdQueue code { q with running := some e.begin }
  else s.setCmdQueue code { q with waiting := q.waiting ++ [e] }

/-- Attaches the result to the running command of a code. -/
def State.attach (s : State) (code : Nat) (result : Nat) (data : List Byte) : State :=
  let q := s.cmdQueue code
  match q.running with
  | none => s
  | some e => { s with lastStatus := result }.setCmdQueue code { q with running := some { e with result := some (result, data) } }

/-- Runs a command by its row. The entry of the code that runs and has these arguments takes the effect; where none runs,
the command is accepted for the mailbox session first, while the dictionary is live and not halted (R63, R457). `body` answers its result, or none while the command goes on.
[DESIGN CHOICE, unsafe: log entry 31.] -/
def State.runCommand (s : State) (code : Nat) (args : List Byte)
    (body : State → State × Option (Nat × List Byte)) : State :=
  match (s.cmdQueue code).running with
  | some e =>
    if e.result = none ∧ e.args = plainArgs code args then
      match body s with
      | (s', some (r, d)) => s'.attach code r d
      | (s', none) => s'
    else { s with lastStatus := Status.busy }
  | none =>
    if ¬ s.live then { s with lastStatus := Status.notReady }
    else if s.halted && code != 0x70 then { s with lastStatus := Status.inUse }
    else if s.mayStart code && (s.cmdQueue code).waiting == [] then
      match body (s.acceptCommand code 0 args none) with
      | (s', some (r, d)) => s'.attach code r d
      | (s', none) => s'
    else { s with lastStatus := Status.busy }

/-- The result a command that goes on gets later. -/
def State.finishCommand (s : State) (code result : Nat) (data : List Byte) : State :=
  match (s.cmdQueue code).running with
  | some e => if e.result = none then s.attach code result data else s
  | none => s

/-- A body that ends with a result. -/
def answer (s : State) (r : Nat) (d : List Byte := []) : State × Option (Nat × List Byte) := (s, some (r, d))

end Sys2Proof.Machine
end

