-- ==== Sys2Proof/Machine/Flags.lean ====
section
/-! DEFINITION. The check computations: the per-byte code of on-chip stores (R293), the outcome of a page decode (R284),
CRCs and checksums, the neighbour-refresh LFSR (R288), and the address map of HBM3 (R273). -/

namespace Sys2Proof.Machine

def bit (n i : Nat) : Nat := b2n (n.testBit i)

/-! ### Extended Hamming (13,8) (R293): bit k − 1 of a stored word is position k, bit 12 is p0 -/

/-- The stored word of a data byte. -/
def hammingWord (d : Nat) : Nat :=
  let p1 := (bit d 0 + bit d 1 + bit d 3 + bit d 4 + bit d 6) % 2
  let p2 := (bit d 0 + bit d 2 + bit d 3 + bit d 5 + bit d 6) % 2
  let p4 := (bit d 1 + bit d 2 + bit d 3 + bit d 7) % 2
  let p8 := (bit d 4 + bit d 5 + bit d 6 + bit d 7) % 2
  let w := p1 + 2 * p2 + 4 * bit d 0 + 8 * p4 + 16 * bit d 1 + 32 * bit d 2 + 64 * bit d 3 + 128 * p8 +
    256 * bit d 4 + 512 * bit d 5 + 1024 * bit d 6 + 2048 * bit d 7
  w + 4096 * (((List.range 12).map (bit w)).sum % 2)

/-- The data bits of a stored word, as they stand. -/
def hammingData (w : Nat) : Nat :=
  bit w 2 + 2 * bit w 4 + 4 * bit w 5 + 8 * bit w 6 + 16 * bit w 8 + 32 * bit w 9 + 64 * bit w 10 + 128 * bit w 11

/-- The syndrome of a stored word: the XOR of the positions of its 1 bits. -/
def hammingSyndrome (w : Nat) : Nat :=
  (List.range 12).foldl (fun a k => if w.testBit k then a ^^^ (k + 1) else a) 0

/-- What a read of an on-chip byte finds. -/
inductive ByteOutcome where
  | clean | corrected | uncorrectable
  deriving DecidableEq, Repr

/-- The decoding table of R293: outcome and data. -/
def hammingDecode (w : Nat) : ByteOutcome × Nat :=
  let s := hammingSyndrome w
  let p := ((List.range 13).map (bit w)).sum % 2
  if s = 0 then (if p = 0 then .clean else .corrected, hammingData w)
  else if p = 1 ∧ s ≤ 12 then (.corrected, hammingData (w ^^^ 2 ^ (s - 1)))
  else (.uncorrectable, hammingData w)

/-! ### HBM3 addresses (R272, R273) -/

/-- One past the last device address of HBM3. -/
def hbmEnd : Nat := 0x0C00000000

/-- Pseudo-channel of a device address. -/
def pcOf (a : Nat) : Nat := bits a 8 6 ^^^ bits a 14 6

/-- Offset of a device address within its pseudo-channel. -/
def pcOffset (a : Nat) : Nat := bits a 14 22 * 256 + a % 256

/-- Controller half of a device address. -/
def halfOf (a : Nat) : Nat := pcOf a / 16

/-- Start of the page that holds an address: regions lie on 128 KiB, so pages lie on 4 KiB. -/
def pageOf (a : Nat) : Nat := a / 4096 * 4096

/-! ### The neighbour-refresh LFSR (R288) -/

/-- One step of the Galois LFSR with polynomial x^32 + x^22 + x^2 + x + 1. -/
def lfsrStep (x : Nat) : Nat :=
  if x.testBit 31 then (x * 2 % 2 ^ 32) ^^^ 0x00400007 else x * 2 % 2 ^ 32

/-- n steps. -/
def lfsrSteps : Nat → Nat → Nat
  | 0, x => x
  | n + 1, x => lfsrSteps n (lfsrStep x)

/-! ### CRCs, bit by bit -/

/-- One byte into a reflected CRC of polynomial `poly`. -/
def crcByteReflected (poly : Nat) (c b : Nat) : Nat :=
  (List.range 8).foldl (fun x _ => if x % 2 = 1 then x / 2 ^^^ poly else x / 2) (c ^^^ b)

/-- One byte into an unreflected CRC of w bits. -/
def crcByte (w poly : Nat) (c b : Nat) : Nat :=
  (List.range 8).foldl (fun x _ => if x.testBit (w - 1) then (x * 2 % 2 ^ w) ^^^ poly else x * 2 % 2 ^ w)
    (c ^^^ b * 2 ^ (w - 8))

/-- CRC-32C of bytes. -/
def crc32c (bs : List Byte) : Nat := bs.foldl (fun c b => crcByteReflected 0x82F63B78 c b.toNat) 0xFFFFFFFF ^^^ 0xFFFFFFFF

/-- CRC-32 of IEEE 802.3. -/
def crc32 (bs : List Byte) : Nat := bs.foldl (fun c b => crcByteReflected 0xEDB88320 c b.toNat) 0xFFFFFFFF ^^^ 0xFFFFFFFF

end Sys2Proof.Machine
end

