-- ==== Sys2Proof/Machine/PageCode.lean ====
section
/-! DEFINITION. The page code of PROTECTED regions (R282): a shortened binary BCH code over GF(2^16). -/

namespace Sys2Proof.Machine

/-- x times an element of GF(2^16), under x^16 + x^12 + x^3 + x + 1. -/
def gfTimesX (a : Nat) : Nat := if a.testBit 15 then (2 * a % 65536) ^^^ 0x100B else 2 * a

/-- A product in GF(2^16), over the bits of b from the highest of n. -/
def gfMulBits (a b : Nat) : Nat → Nat → Nat
  | 0, acc => acc
  | n + 1, acc => gfMulBits a b n (gfTimesX acc ^^^ if b.testBit n then a else 0)

def gfMul (a b : Nat) : Nat := gfMulBits a b 16 0

/-- α^i, where α is x. -/
def gfAlpha : Nat → Nat
  | 0 => 1
  | i + 1 => gfTimesX (gfAlpha i)

/-- A polynomial over GF(2^16), lowest coefficient first, times x + c. -/
def gfTimesRoot (p : List Nat) (c : Nat) : List Nat :=
  List.zipWith (fun a b => a ^^^ gfMul b c) (0 :: p) (p ++ [0])

/-- The 16 conjugates of an element. -/
def gfConjugates (c : Nat) : Nat → List Nat
  | 0 => []
  | n + 1 => c :: gfConjugates (gfMul c c) n

/-- Minimal polynomial of α^i as a word whose bit k is the coefficient of x^k. -/
def minPoly (i : Nat) : Nat :=
  ((gfConjugates (gfAlpha i) 16).foldl gfTimesRoot [1]).foldr (fun c w => 2 * w + c % 2) 0

/-- A product of polynomials over GF(2), over the bits of b from the highest of n. -/
def clMul (a b : Nat) : Nat → Nat → Nat
  | 0, acc => acc
  | n + 1, acc => clMul a b n ((2 * acc) ^^^ if b.testBit n then a else 0)

/-- The generator of strength t: the product of the minimal polynomials of α, α^3, …, α^(2t − 1); its degree is 16t. -/
def pageGenerator (t : Nat) : Nat := (List.range t).foldl (fun g k => clMul g (minPoly (2 * k + 1)) 17 0) 1

/-- The division register after one message bit. -/
def parityBit (t g reg : Nat) (b : Bool) : Nat :=
  let r := 2 * reg % 2 ^ (16 * t)
  if reg.testBit (16 * t - 1) == b then r else r ^^^ g % 2 ^ (16 * t)

/-- The division register after one byte, bit 7 first. -/
def parityByte (t g reg : Nat) (b : Byte) : Nat :=
  [7, 6, 5, 4, 3, 2, 1, 0].foldl (fun r k => parityBit t g r (b.getLsbD k)) reg

/-- The page tag of an address: A[39:12] with four leading zero bits, as bytes in the order in which they enter. -/
def pageTag (p : Nat) : List Byte := (leBytes 4 (p / 4096 % 2 ^ 28)).reverse

/-- The 16t parity bits of the page at p. -/
def pageParity (t p : Nat) (data : List Byte) : Nat :=
  let g := pageGenerator t
  (pageTag p ++ data).foldl (parityByte t g) 0

/-- The trailer of a page: the parity most significant first in bytes 0 to 2t − 1, zeros after it. -/
def pageTrailer (t p : Nat) (data : List Byte) : List Byte :=
  (leBytes (2 * t) (pageParity t p data)).reverse ++ List.replicate (128 - 2 * t) 0#8

end Sys2Proof.Machine
end

