-- ==== Sys2Proof/Machine/MemoryOps.lean ====
section
/-! DEFINITION. The operations of HBM3 and of the on-chip stores (R272–R306): bytes, regions, page reads and writes,
neighbour refresh, on-chip reads. -/

namespace Sys2Proof.Machine

/-! ### Bytes of HBM3: an unlisted byte reads as 0 -/

/-- One byte of HBM3. [DESIGN CHOICE, unsafe: log entry 10.] -/
def State.hbmByte (s : State) (a : Nat) : Byte := tget s.mem.bytes 0#8 a

/-- n bytes from address a. -/
def State.hbmBytes (s : State) (a n : Nat) : List Byte := (List.range n).map fun k => s.hbmByte (a + k)

/-- Bytes written from an address up, in canonical form. -/
def putBytes (t : Tab Byte) (a : Nat) (bs : List Byte) : Tab Byte := tputRun t 0#8 a bs

/-- Writes bytes of HBM3. -/
def State.hbmPut (s : State) (a : Nat) (bs : List Byte) : State :=
  { s with mem := { s.mem with bytes := putBytes s.mem.bytes a bs } }

/-- Zeroes a span. -/
def State.hbmZero (s : State) (a n : Nat) : State :=
  { s with mem := { s.mem with bytes := s.mem.bytes.filter fun e => decide (e.1 < a ∨ a + n ≤ e.1) } }

/-! ### Regions (R275–R281) -/

def State.regionExists (s : State) (r : Nat) : Bool := decide (r < 256) && s.get Od.reg_KIND r != 255

def State.regionOpen (s : State) (r : Nat) : Bool := decide (r < 256) && s.get Od.reg_KIND r == 0

def State.regionProtected (s : State) (r : Nat) : Bool := decide (r < 256) && s.get Od.reg_KIND r == 1

/-- The regions that exist. -/
def State.regions (s : State) : List Nat := (List.range 256).filter fun r => s.regionExists r

/-- Bytes that a region of a kind and size occupies (R275). -/
def extentOf (kind size : Nat) : Nat := if kind = 1 then size * 33 / 32 else size

/-- The n bytes from a all lie in the data of region r. -/
def State.inRegion (s : State) (r a n : Nat) : Bool :=
  s.regionExists r && decide (s.get Od.reg_BASE r ≤ a ∧ a + n ≤ s.get Od.reg_BASE r + s.get Od.reg_SIZE r)

/-- The region whose data holds the n bytes from a. -/
def State.regionAt (s : State) (a n : Nat) : Option Nat := (List.range 256).find? fun r => s.inRegion r a n

/-- Two spans overlap. -/
def overlaps (a n b m : Nat) : Bool := decide (a < b + m ∧ b < a + n)

/-- A span lies in HBM3 clear of every extent. -/
def State.extentFree (s : State) (a n : Nat) : Bool :=
  decide (a + n ≤ hbmEnd) && s.regions.all fun r => !overlaps a n (s.get Od.reg_BASE r) (s.get Od.reg_EXTENT r)

/-- A multiple of m that is at least n. -/
def roundUp (m n : Nat) : Nat := ceilDiv n m * m

/-- The lowest of some addresses. -/
def lowest : List Nat → Option Nat
  | [] => none
  | a :: as => match lowest as with
    | none => some a
    | some b => some (min a b)

/-- The lowest 128 KiB-aligned address at which an extent of n bytes fits: 0, or the end of some extent rounded up. -/
def State.lowestFit (s : State) (n : Nat) : Option Nat :=
  lowest ((0 :: s.regions.map fun r => roundUp 131072 (s.get Od.reg_BASE r + s.get Od.reg_EXTENT r)).filter fun a =>
    s.extentFree a n)

/-- The first test of R276 that fails, or the BASE to use. -/
def State.regionTests (s : State) (region kind t base size : Nat) : Nat ⊕ Nat :=
  if ¬ region < 256 ∨ s.regionExists region then .inl Result.noSuchTarget
  else if ¬ ((kind = 1 ∧ t ∈ [8, 16, 24, 32, 48, 64]) ∨ (kind = 0 ∧ t < 2)) then .inl Result.outOfRange
  else if size = 0 ∨ size % 131072 ≠ 0 ∨ (base ≠ 2 ^ 64 - 1 ∧ base % 131072 ≠ 0) then .inl Result.alignment
  else if s.mem.trainingFailed then .inl Result.noSpace
  else if base = 2 ^ 64 - 1 then
    match s.lowestFit (extentOf kind size) with
    | some a => .inr a
    | none => .inl Result.noSpace
  else if s.extentFree base (extentOf kind size) then .inr base
  else .inl Result.noSpace

/-- The trailer of a page of a PROTECTED region (R275, R282): data and trailer are written together, so a page's trailer follows from
its data and the region's T; flipped bits are counted apart. [DESIGN CHOICE, unsafe: log entry 46.] -/
def State.trailer (s : State) (r page : Nat) : List Byte := pageTrailer (s.get Od.reg_T r) page (s.hbmBytes page 4096)

/-- Fills a new region (R277): zero data with valid trailers (`State.trailer`), zeros, or nothing.
[DESIGN CHOICE, unsafe: log entry 11.] -/
def State.fillRegion (s : State) (kind t base size : Nat) : State :=
  let s := { s with mem := { s.mem with
    flips := s.mem.flips.filter fun e => decide (e.1 < base ∨ base + extentOf kind size ≤ e.1)
    writeBacks := s.mem.writeBacks.filter fun p => decide (p < base ∨ base + extentOf kind size ≤ p) } }
  if kind = 1 ∨ t = 1 then s.hbmZero base size else s

/-- A region exists from now on (R276, R304). -/
def State.nameRegion (s : State) (region kind t base size : Nat) : State :=
  (((((s.set Od.reg_KIND region kind).set Od.reg_T region t).set Od.reg_BASE region base).set
    Od.reg_SIZE region size).set Od.reg_EXTENT region (extentOf kind size)).set Od.reg_CREATED_AT region (RTime.word (s.now 0))

/-- Fills and makes a region. -/
def State.makeRegion (s : State) (region kind t base size : Nat) : State :=
  (s.fillRegion kind t base size).nameRegion region kind t base size

/-- Removes a region: every object of its index returns to its default (R304), and memory is not cleared (R281). -/
def State.dropRegion (s : State) (region : Nat) : State :=
  { s with
           od := s.od.filter fun e => decide (e.1 / 256 ≠ 0x5000 + region)
           mem := { s.mem with
             bad := tdel s.mem.bad region
             flips := s.mem.flips.filter fun e => !s.inRegion region e.1 4096
             writeBacks := s.mem.writeBacks.filter fun p => !s.inRegion region p 4096 } }

/-- PICTURE_REGION is usable (R280). -/
def State.regionUsable (s : State) (r : Nat) : Bool := s.regionOpen r && decide (2 ^ 30 ≤ s.get Od.reg_SIZE r)

/-- The present PICTURE_REGION is usable. [DESIGN CHOICE, unsafe: log entry 45.] -/
def State.pictureUsable (s : State) : Bool := s.regionUsable (s.get Od.mil_PICTURE_REGION)

/-- The firmware's 16 MiB at the base of PICTURE_REGION: the shelf copies, the ring of checkpoint mirrors, and the exchange data of
rows in different crowns (R110, R116, R145). [DESIGN CHOICE, unsafe: log entry 84.] -/
def State.pictureBase (s : State) : Nat := s.get Od.reg_BASE (s.get Od.mil_PICTURE_REGION)

/-- Address of a word of a shelf copy. -/
def State.shelfAddr (s : State) (slot addr : Nat) : Nat := s.pictureBase + 73728 * slot + 18 * addr

/-- Address of a record in the ring, which holds 16 of each cell. -/
def State.ringAddr (s : State) (cc number : Nat) : Nat := s.pictureBase + 2359296 + (16 * cc + number % 16) * 288

/-- Address of a crown's exchange data in HBM3. -/
def State.exchangeAddr (s : State) (cw : Nat) : Nat := s.pictureBase + 2949120 + 393216 * cw

/-- An access lies in, or touches, PICTURE_REGION. -/
def State.touchesPicture (s : State) (a n : Nat) : Bool :=
  let r := s.get Od.mil_PICTURE_REGION
  s.regionExists r && overlaps a n (s.get Od.reg_BASE r) (s.get Od.reg_SIZE r)

/-- Size of the largest free span that starts at a 128 KiB-aligned end of an extent, rounded down to 128 KiB. -/
def State.freeSpanAt (s : State) (a : Nat) : Nat :=
  if s.extentFree a 131072 then
    (((s.regions.map fun r => s.get Od.reg_BASE r).filter fun b => a < b).foldl min hbmEnd - a) / 131072 * 131072
  else 0

/-- BASE and SIZE of the region 0 that the firmware creates (R279), or none. -/
def State.defaultRegion (s : State) : Option (Nat × Nat) :=
  let size := 2 ^ 34
  if s.extentFree 0 size then some (0, size)
  else match s.lowestFit size with
    | some a => some (a, size)
    | none =>
      let starts := 0 :: s.regions.map fun r => roundUp 131072 (s.get Od.reg_BASE r + s.get Od.reg_EXTENT r)
      let best := starts.foldl (fun (b : Nat × Nat) a =>
        if s.freeSpanAt a > b.2 ∨ (s.freeSpanAt a = b.2 ∧ a < b.1) then (a, s.freeSpanAt a) else b) (hbmEnd, 0)
      if 2 ^ 30 ≤ best.2 then some best else none

/-- The firmware creates region 0 when it does not exist (R279). -/
def State.createRegion0 (s : State) : State :=
  if s.regionExists 0 ∨ s.mem.trainingFailed then s
  else match s.defaultRegion with
    | some (a, n) => s.makeRegion 0 0 1 a n
    | none => s

/-! ### Pages (R282–R285) -/

/-- Bits of stored pages that changed since they were written. -/
def State.addFlips (s : State) (fs : List (Nat × Nat)) : State :=
  let flips := fs.foldl (fun t f =>
    match s.regionAt (pageOf f.1) 4096 with
    | some r => if s.regionProtected r then tput t 0 (pageOf f.1) (tget t 0 (pageOf f.1) + f.2) else t
    | none => t) s.mem.flips
  { s with mem := { s.mem with flips := flips } }

/-- Lists an uncorrectable page: at most 64, oldest dropped first (R304). -/
def listBad (l : List Nat) (p : Nat) : List Nat :=
  if p ∈ l then l else (l ++ [p]).drop (l.length + 1 - 64)

/-- What a page read finds (R284). -/
inductive PageOutcome where
  | clean
  | corrected (n : Nat)
  | uncorrectable
  deriving DecidableEq, Repr

/-- Decodes a page of strength t with n changed bits. Beyond t it is uncorrectable, or miscorrected as some 1 to t errors:
which of the two is a free value. [DESIGN CHOICE, unsafe: log entry 46.] -/
def pageDecode (t n free : Nat) : PageOutcome :=
  if n = 0 then .clean
  else if n ≤ t then .corrected n
  else if free % 2 = 0 ∨ t = 0 then .uncorrectable
  else .corrected (free / 2 % t + 1)

/-- Reads one page of a PROTECTED region for a master: counters, report, write-back (R284). ACC is 1 for a read, 4 for a
scrub. -/
def State.readPage (s : State) (r p acc master : Nat) : State × PageOutcome :=
  let n := tget s.mem.flips 0 p
  let t := s.get Od.reg_T r
  let o := pageDecode t n s.freeValue
  let s := if t < n then s.useFree else s
  let s := s.bumpBy Od.hbm_BYTES_READ 0 0 4224
  match o with
  | .clean => (s, o)
  | .corrected k =>
    let s := s.bumpBy Od.reg_CORRECTED_BITS r 0 k
    let s := if s.get Od.reg_MAX_IN_PAGE r < k then s.set Od.reg_MAX_IN_PAGE r k else s
    let s := if ceilDiv t 2 ≤ k then s.report (Unit.hbmHalf (halfOf p)) 0x10 acc master p else s
    let s := if s.get Od.hbm_WRITEBACK_BITS ≤ k ∧ p ∉ s.mem.writeBacks then
      { s with mem := { s.mem with writeBacks := s.mem.writeBacks ++ [p] } } else s
    (s, o)
  | .uncorrectable =>
    let s := s.bump Od.reg_UNCORRECTABLE_READS r
    let s := { s with mem := { s.mem with bad := tput s.mem.bad [] r (listBad (tget s.mem.bad [] r) p) } }
    (s.report (Unit.hbmHalf (halfOf p)) 0x11 acc master p, o)

/-- The page addresses that n bytes from a touch. -/
def pagesOf (a n : Nat) : List Nat :=
  if n = 0 then [] else (List.range ((a + n - 1) / 4096 - a / 4096 + 1)).map fun k => pageOf a + 4096 * k

/-- Reads pages in turn; whether one of them was uncorrectable. -/
def State.readPages (s : State) (r acc master : Nat) (ps : List Nat) : State × Bool :=
  ps.foldl (fun (q : State × Bool) p =>
    let q' := q.1.readPage r p acc master
    (q'.1, q.2 || decide (q'.2 = .uncorrectable))) (s, false)

/-- A page write: data and trailer are written together, and the page is good again (R282–R285). -/
def State.writePages (s : State) (r a : Nat) (data : List Byte) : State :=
  let ps := pagesOf a data.length
  let s := s.hbmPut a data
  let s := { s with mem := { s.mem with
    flips := s.mem.flips.filter fun e => decide (e.1 ∉ ps)
    writeBacks := s.mem.writeBacks.filter fun p => decide (p ∉ ps)
    bad := tput s.mem.bad [] r ((tget s.mem.bad [] r).filter fun p => decide (p ∉ ps)) } }
  s.bumpBy Od.hbm_BYTES_WRITTEN 0 0 (4224 * ps.length)

/-! ### Neighbour refresh (R288) -/

/-- Rows within the radius of a row that exist. -/
def neighbourRows (radius row : Nat) : Nat :=
  ((List.range radius).map fun d => b2n (d + 1 ≤ row) + b2n (row + d + 1 < Config.rowsPerBank)).sum

/-- One demand ACT: its half draws, and a hit activates the neighbours. -/
def State.demandAct (s : State) (a : DemandAct) : State :=
  let h := a.pc.val / 16
  let x := lfsrSteps 16 (tget s.mem.lfsr 0 h)
  let s := { s with mem := { s.mem with lfsr := tput s.mem.lfsr 0 h x } }
  if x % 2 ^ s.get Od.hbm_NR_K = 0 then
    s.bumpBy Od.hbm_NR_ACTIVATES 0 0 (neighbourRows (s.get Od.hbm_NR_RADIUS) a.row)
  else s

/-- The demand ACTs of one cycle, in increasing pseudo-channel order. -/
def State.demandActs (s : State) (acts : List DemandAct) : State :=
  if acts = [] then s
  else ((List.range 64).flatMap fun p => acts.filter fun a => decide (a.pc.val = p)).foldl State.demandAct s

/-- A seed drawn from the TRNG; a draw of zero is replaced by a further one. -/
def drawSeed : Nat → Nat → Nat × Nat
  | 0, d => (1, d)
  | fuel + 1, d =>
    let x := leNat ((List.range 4).map fun k => Config.draw (d + k))
    if x = 0 then drawSeed fuel (d + 4) else (x, d + 4)

/-- Seeds the four LFSRs. -/
def State.seedLfsrs (s : State) : State :=
  let s := { s with mem := { s.mem with seededAt := s.cycle } }
  (List.range 4).foldl (fun t h =>
    let x := drawSeed 64 t.sec.draws
    { t with mem := { t.mem with lfsr := tput t.mem.lfsr 0 h x.1 }, sec := { t.sec with draws := x.2 } }) s

/-! ### Accesses (R283, R284, R286) -/

/-- What a master receives. -/
inductive Received where
  | data (bs : List Byte)
  | poisoned
  | rejected
  deriving DecidableEq, Repr

/-- Counts the parity retries of an access: one to three failures end in a retry that succeeds. -/
def State.parityRetries (s : State) (n : Nat) : State :=
  if 1 ≤ n ∧ n ≤ 3 then s.bump Od.hbm_PARITY_RETRIES else s

/-- Some of n bytes lie in a poisoned granule (R463). -/
def State.granulePoisoned (s : State) (a n : Nat) : Bool := s.mem.poisoned.any fun g => overlaps g 256 a n

/-- Granules that satisfy p are poisoned no longer. -/
def State.cleanGranules (s : State) (p : Nat → Bool) : State :=
  { s with mem := { s.mem with poisoned := s.mem.poisoned.filter fun g => !p g } }

/-- The granule of an address is poisoned. [DESIGN CHOICE, unsafe: log entry 46.] -/
def State.poisonGranule (s : State) (a : Nat) : State :=
  { s with mem := { s.mem with poisoned := if a / 256 * 256 ∈ s.mem.poisoned then s.mem.poisoned else s.mem.poisoned ++ [a / 256 * 256] } }

/-- n values that the spec leaves open, as bytes. -/
def State.freeBytes (s : State) (n : Nat) : List Byte := (List.range n).map fun k => BitVec.ofNat 8 (Config.free (s.freeUsed + k))

def State.useFrees (s : State) (n : Nat) : State := { s with freeUsed := s.freeUsed + n }

/-- A read of len bytes by a master (R284, R286); a poisoned granule makes its next read uncorrectable, and a read that
takes in a miscorrected page receives values that the spec leaves open. [DESIGN CHOICE, safe: log entry 67.] -/
def State.hbmRead (s : State) (master a len : Nat) (m : MemMeet) : State × Received :=
  let s := (s.addFlips m.flips).demandActs m.acts
  match s.regionAt a len with
  | none => (s, .rejected)
  | some r =>
    let s := s.parityRetries m.parity
    let bad := s.granulePoisoned a len
    let s := s.cleanGranules fun g => overlaps g 256 a len
    if s.regionProtected r then
      let q := s.readPages r 1 master (pagesOf a len)
      if m.parity ≥ 4 ∨ bad then
        ((q.1.bump Od.reg_UNCORRECTABLE_READS r).report (Unit.hbmHalf (halfOf a)) 0x11 1 master (pageOf a), .poisoned)
      else if q.2 then (q.1, .poisoned)
      else if (pagesOf a len).any fun p => decide (s.get Od.reg_T r < tget s.mem.flips 0 p) then
        (q.1.useFrees len, .data (q.1.freeBytes len))
      else (q.1, .data (s.hbmBytes a len))
    else
      let s := s.bumpBy Od.hbm_BYTES_READ 0 0 len
      let s := if m.severity = 1 then s.bump Od.hbm_SEVERITY_CORRECTED else s
      if m.severity ≥ 2 ∨ m.parity ≥ 4 ∨ bad then (s.report (Unit.hbmHalf (halfOf a)) 0x13 1 master a, .poisoned)
      else (s, .data (s.hbmBytes a len))

/-- Whole pages in address order from one page boundary. -/
def wholePages (a n : Nat) : Bool := decide (a % 4096 = 0 ∧ n % 4096 = 0 ∧ 0 < n)

/-- A write by a master (R275, R283, R286); whether it was accepted. Where the retries of its parity errors all fail, what
the bytes then hold is not stated: free values. [DESIGN CHOICE, unsafe: log entry 46.] -/
def State.hbmWrite (s : State) (master a : Nat) (data : List Byte) (m : MemMeet) : State × Bool :=
  let s := (s.addFlips m.flips).demandActs m.acts
  match s.regionAt a data.length with
  | none => (s, false)
  | some r =>
    if s.regionProtected r && !wholePages a data.length then
      ((s.bump Od.reg_WRITES_REJECTED r).report (Unit.hbmHalf (halfOf (pageOf a))) 0x12 2 master (pageOf a), false)
    else
      let s := s.parityRetries m.parity
      let bs := if m.parity ≥ 4 then s.freeBytes data.length else data
      let s := if m.parity ≥ 4 then
        ((s.useFrees data.length).poisonGranule a).report (Unit.hbmHalf (halfOf a)) 0x14 2 master a
      else s.cleanGranules fun g => decide (a ≤ g ∧ g + 256 ≤ a + data.length)
      if s.regionProtected r then (s.writePages r a bs, true)
      else ((s.hbmPut a bs).bumpBy Od.hbm_BYTES_WRITTEN 0 0 data.length, true)

/-! ### On-chip bytes (R293–R295): a location is (STORE × 1,024 + instance) × 2^32 + byte -/

def sramLoc (store inst addr : Nat) : Nat := (store * 1024 + inst) * 2 ^ 40 + addr

def storeOf (loc : Nat) : Nat := loc / 2 ^ 50

def instanceOf (loc : Nat) : Nat := loc / 2 ^ 40 % 1024

/-- The unit that reports an on-chip byte of a store. -/
def storeUnit (store inst : Nat) : Nat :=
  match store with
  | 0 => inst
  | 1 => Unit.crown inst
  | 2 => Unit.crown inst
  | 3 => Unit.queueEngine
  | 4 => Unit.forwarding inst
  | 5 => Unit.conditioner inst
  | 6 => Unit.island
  | 7 => Unit.control
  | _ => Unit.port (4 * inst)

/-- Counts a corrected byte of a store. -/
def State.countCorrected (s : State) (store : Nat) : State :=
  { s with mem := { s.mem with
      storeCorrected := tput s.mem.storeCorrected 0 store ((tget s.mem.storeCorrected 0 store + 1) % 2 ^ 32) } }.bump
    Od.sto_SRAM_CORRECTED

/-- Counts an uncorrectable byte of a store. -/
def State.countUncorrectable (s : State) (store : Nat) : State :=
  { s with mem := { s.mem with
      storeUncorrectable := tput s.mem.storeUncorrectable 0 store ((tget s.mem.storeUncorrectable 0 store + 1) % 2 ^ 32) } }.bump
    Od.sto_SRAM_UNCORRECTABLE

/-- Bits of a stored on-chip byte inverted. -/
def State.flipSram (s : State) (loc x : Nat) : State :=
  { s with mem := { s.mem with sram := tput s.mem.sram 0 loc (tget s.mem.sram 0 loc ^^^ x % 2 ^ 13) } }

/-- A write of an on-chip byte: it is good, and a waiting write-back of it is dropped (R294, R295). -/
def State.writeSram (s : State) (loc : Nat) : State :=
  { s with mem := { s.mem with sram := tdel s.mem.sram loc, sramWriteBacks := tdel s.mem.sramWriteBacks loc } }

/-- A read of an on-chip byte (R295): the outcome is counted and reported, and a corrected byte waits for its write-back. -/
def State.readSram (s : State) (loc acc master : Nat) : State × ByteOutcome :=
  let x := tget s.mem.sram 0 loc
  let store := storeOf loc
  let inst := instanceOf loc
  match (hammingDecode x).1 with
  | .clean => (s, .clean)
  | .corrected =>
    let s := s.countCorrected store
    let s := { s with mem := { s.mem with sramWriteBacks := tput s.mem.sramWriteBacks 0 loc x } }
    let s := if store = 0 then s.bump Od.cell_CORRECTED inst
      else if store = 1 then s.bump Od.crown_CORRECTED inst
      else if store = 5 then s.bump Od.ic_CORRECTED inst else s
    (s.reportSram (storeUnit store inst) 0x01 acc master (loc % 2 ^ 40) store, .corrected)
  | .uncorrectable =>
    ((s.countUncorrectable store).reportSram (storeUnit store inst) 0x02 acc master (loc % 2 ^ 40) store, .uncorrectable)

/-- Initialisation of a store: every byte of it is written (R296). -/
def State.initStore (s : State) (store inst : Nat) : State :=
  let here : Nat → Bool := fun loc => decide (storeOf loc = store ∧ instanceOf loc = inst)
  { s with mem := { s.mem with
      sram := s.mem.sram.filter fun e => !here e.1
      sramWriteBacks := s.mem.sramWriteBacks.filter fun e => !here e.1 } }

/-! ### Fuse entries (R301, R306) -/

/-- Store and instance of a fuse address of TARGET 0 (R302). -/
def fuseStore (addr : Nat) : Nat := bits addr 56 8
def fuseInstance (addr : Nat) : Nat := bits addr 40 16

/-- Instances of a store: cells, crowns, forwarding engines, conditioners, quads; 1 for single stores, 0 for none. -/
def storeInstances (store : Nat) : Nat :=
  match store with
  | 0 => 128 | 1 => 16 | 2 => 16 | 3 => 1 | 4 => 2 | 5 => 8 | 6 => 1 | 7 => 1 | 8 => 32
  | _ => 0

/-- Pending repairs of the stores that a reset initialises take effect (R302). -/
def State.repairsApply (s : State) (p : Nat → Nat → Bool) : State :=
  { s with mem := { s.mem with fuses := s.mem.fuses.map fun e =>
      if e.target = 0 ∧ e.state = 2 ∧ p (fuseStore e.addr) (fuseInstance e.addr) then { e with state := 1 } else e } }

/-- Consumes a fuse entry. -/
def State.burnFuse (s : State) (target state addr : Nat) : State :=
  { s with mem := { s.mem with fuses := s.mem.fuses ++ [(⟨target, state, addr⟩ : FuseEntry)] } }.set Od.sto_FUSE_ENTRIES_LEFT 0
    (s.get Od.sto_FUSE_ENTRIES_LEFT - 1)

/-! ### Pseudo-channels (R289–R292) -/

def State.pc (s : State) (p : Nat) : PseudoChannel := tget s.mem.pcs {} p

def State.setPc (s : State) (p : Nat) (x : PseudoChannel) : State :=
  { s with mem := { s.mem with pcs := tput s.mem.pcs {} p x } }

/-- Temperature of a pseudo-channel's stack, in 0.1 °C. -/
def State.stackTemp (s : State) (p : Nat) : Int :=
  if p < 32 then s.getInt Od.hbm_TEMP_0 else s.getInt Od.hbm_TEMP_1

/-- A pseudo-channel has not been retrained by twice the interval after its last retrain (R291). -/
def State.retrainLate (s : State) (p : Nat) : Bool :=
  decide ((s.pc p).lastAt + 2 * msCycles (s.get Od.hbm_RETRAIN_INTERVAL) ≤ s.cycle)

/-- RD_0 is in vertical blanking. -/
def State.blanking0 (s : State) : Bool :=
  decide ((s.now 0).line > s.get Od.rd_ACTIVE_LAST 0 ∨ (s.now 0).line < s.get Od.rd_ACTIVE_FIRST 0)

/-- RD_0 time of the vertical-blanking start at or before the present. -/
def State.blankStart0 (s : State) : RTime :=
  let n := s.now 0
  let line := s.get Od.rd_ACTIVE_LAST 0 + 1
  if line ≤ n.line then ⟨n.frame, line, 0⟩ else ⟨(n.frame + (2 ^ 40 - 1)) % 2 ^ 40, line, 0⟩

/-- p may be retrained in the present blanking: RD_0 blanks, and p fell due at its start or before (R291). -/
def State.retrainBlank (s : State) (p : Nat) : Bool := s.blanking0 && !s.later 0 (s.pc p).dueTime s.blankStart0

/-- Cycle at which a pseudo-channel becomes due by its interval (R290). -/
def State.retrainAt (s : State) (p : Nat) : Nat :=
  let x := s.pc p
  let n := msCycles (s.get Od.hbm_RETRAIN_INTERVAL)
  if x.retrained then x.lastAt + n else x.lastAt + p * n / 64

/-- A pseudo-channel falls due now. -/
def State.fallDue (s : State) (p : Nat) : State := s.setPc p { s.pc p with dueAt := some s.cycle, dueTime := s.now 0 }

/-- p is the next of the due pseudo-channels: by due time, then by number (R291). -/
def State.retrainNext (s : State) (p : Nat) : Bool :=
  match (s.pc p).dueAt with
  | none => false
  | some d => s.mem.pcs.all fun e =>
      match e.2.dueAt with
      | none => true
      | some d' => decide (e.1 = p ∨ d < d' ∨ (d = d' ∧ p < e.1))

/-- A pause may start now: none runs, and the last one started at least 2 µs ago (R291). -/
def State.pauseFree (s : State) : Bool :=
  s.mem.pause.isNone && (match s.mem.lastPause with
    | none => true
    | some a => decide (a + usCycles 2 ≤ s.cycle))

/-- Starts the pause of a pseudo-channel. -/
def State.startPause (s : State) (p : Nat) : State :=
  ({ s with mem := { s.mem with pause := some (s.cycle, p), lastPause := some s.cycle } }).setPc p
    { s.pc p with state := 1 }

/-- Pauses are placed in the blanking of RD_0 (R291). -/
def State.retrainAligned (s : State) : Bool := s.flag Od.hbm_RETRAIN_ALIGN && s.get Od.rd_LOCK_STATE 0 == 2

/-- A repair's pause may start now: placed as a retraining pause is (R303). -/
def State.repairMayPause (s : State) : Bool := s.pauseFree && (!s.retrainAligned || s.blanking0)

/-- The pause of a repair, which no other overlaps. -/
def State.repairPause (s : State) (ns : Nat) : State :=
  { s with mem := { s.mem with lastPause := some (s.cycle + (ns * 6 / 5 - usCycles 2)) } }

end Sys2Proof.Machine
end

