-- ==== Sys2Proof/Machine/QueueOps.lean ====
section
/-! DEFINITION. The operations of batts, pools and queues (R307–R329): what an owner holds, allocation and release,
back-pressure, appends, reads, drops and replication. -/

namespace Sys2Proof.Machine

/-! ### Owners and minima (R310, R311) -/

/-- OWNER_KIND codes (R307). -/
def ownPort : Nat := 0
def ownStream : Nat := 1
def ownHost : Nat := 2
def ownEngine : Nat := 3

def poolOf (batt : Nat) : Nat := batt / 2 ^ 28

def State.batt (s : State) (b : Nat) : Option Batt := tfind s.queues.batts b

def State.freeBatts (s : State) (p : Nat) : FreeBatts := tget s.queues.free {} p

def State.setFree (s : State) (p : Nat) (f : FreeBatts) : State :=
  { s with queues := { s.queues with free := tput s.queues.free {} p f } }

/-- Address of a batt's tag in its pool (R307). -/
def State.tagAddr (s : State) (b : Nat) : Nat :=
  s.get Od.pool_BASE (poolOf b) + 2304 * s.get Od.pool_BATTS (poolOf b) + 4 * (b % 2 ^ 28)

/-- The 4 bytes of a tag (R307). -/
def Batt.tag (x : Batt) : List Byte := leBytes 1 x.refs ++ leBytes 1 x.kind ++ leBytes 2 x.owner

/-- Sets a batt's tag, which the queue engine keeps in HBM3 (R307). The tags' own accesses are not counted in BYTES_READ and
BYTES_WRITTEN. [DESIGN CHOICE, unsafe: log entry 47.] -/
def State.setBatt (s : State) (b : Nat) (x : Batt) : State :=
  ({ s with queues := { s.queues with batts := tset s.queues.batts b x } }).hbmPut (s.tagAddr b) x.tag

/-- A pool that is allocated. -/
def State.poolOn (s : State) (p : Nat) : Bool := decide (p < 16) && s.flag Od.pool_ENABLE p

/-- Batts of a pool in use, pinned ones included. -/
def State.poolInUse (s : State) (p : Nat) : List (Nat × Batt) := s.queues.batts.filter fun e => poolOf e.1 = p

/-- Pinned batts of a pool (R314). -/
def State.pinnedIn (s : State) (p : Nat) : Nat := ((s.poolInUse p).filter fun e => e.2.refs = 255).length

/-- The batts of a pool that an owner uses; templates count in PINNED instead. -/
def State.ownerUse (s : State) (p kind owner : Nat) : Nat :=
  ((s.poolInUse p).filter fun e => e.2.refs ≠ 255 ∧ e.2.kind = kind ∧ e.2.owner = owner).length

/-- An owner's active minimum in a pool. -/
def State.ownerMin (s : State) (p kind owner : Nat) : Nat :=
  if kind = ownPort then if s.get Od.qg_INGEST_POOL owner = p then s.get Od.qg_INGEST_MIN owner else 0
  else if kind = ownStream then
    match tfind s.queues.streamMin owner with
    | some (q, n) => if q = p then n else 0
    | none => 0
  else if kind = ownHost then if (s.get Od.pool_CLASS_DEFAULT p).testBit 3 then s.get Od.pool_HOST_MIN p else 0
  else 0

/-- Minima of a pool, each at the larger of its active and its written value (R310). -/
def State.minima (s : State) (p : Nat) : Nat :=
  ((List.range 128).map fun q => if s.get Od.qg_INGEST_POOL q = p then
      max (s.get Od.qg_INGEST_MIN q) (s.getShadow Od.qg_INGEST_MIN q) else 0).sum
    + (s.queues.streamMin.map fun e => if e.2.1 = p then e.2.2 else 0).sum
    + (if (s.get Od.pool_CLASS_DEFAULT p).testBit 3 then
        max (s.get Od.pool_HOST_MIN p) (s.getShadow Od.pool_HOST_MIN p) else 0)

/-- RESERVED (R311). -/
def State.reserved (s : State) (p : Nat) : Nat := s.minima p + s.pinnedIn p

/-- SHARED (R311). -/
def State.shared (s : State) (p : Nat) : Nat := s.get Od.pool_BATTS p - s.reserved p

/-- The owners that use batts of a pool. -/
def State.ownersIn (s : State) (p : Nat) : List (Nat × Nat) :=
  (((s.poolInUse p).filter fun e => e.2.refs ≠ 255).map fun e => (e.2.kind, e.2.owner)).eraseDups

/-- SHARED_IN_USE: what owners use beyond their minima. -/
def State.sharedInUse (s : State) (p : Nat) : Nat :=
  ((s.ownersIn p).map fun o => s.ownerUse p o.1 o.2 - s.ownerMin p o.1 o.2).sum

/-- Free shared batts. -/
def State.sharedFree (s : State) (p : Nat) : Nat := s.shared p - s.sharedInUse p

/-! ### Back-pressure (R317, R318) -/

/-- WARN_n of a pool. -/
def State.warnMark (s : State) (p n : Nat) : Nat :=
  match n with
  | 1 => s.get Od.pool_WARN_1 p
  | 2 => s.get Od.pool_WARN_2 p
  | _ => s.get Od.pool_WARN_3 p

/-- Level n holds: it is asserted at its mark or below, and stays until the count rises above mark and hysteresis. -/
def State.levelHolds (s : State) (p free shared n : Nat) : Bool :=
  decide (free * 1000 ≤ s.warnMark p n * shared) ||
    (decide (n ≤ s.get Od.pool_WARN_STATE p) &&
      decide (free * 1000 ≤ (s.warnMark p n + s.get Od.pool_WARN_HYST p) * shared))

/-- Priorities that a level pauses on a band (R318). -/
def pauseMask (level : Nat) : Nat := if level = 0 then 0 else if level = 1 then 0x03 else 0x1F

def State.link (s : State) (p : Nat) : PortLink := tget s.lanes.links {} p

def State.setLink (s : State) (p : Nat) (l : PortLink) : State :=
  { s with lanes := { s.lanes with links := tput s.lanes.links {} p l } }

/-- A port is ACTIVE. -/
def State.portActive (s : State) (p : Nat) : Bool := decide (p < 128) && s.get Od.port_PORT_STATE p == 2

/-- A port is a Chaec Link band. -/
def State.isBand (s : State) (p : Nat) : Bool := decide (p < 128) && s.get Od.port_MODE p == 1

/-- Block codes of what a band or lane sends: PAUSE, ALIGN, TRAIN. -/
def blockPause : Nat := 1
def blockAlign : Nat := 2
def blockTrainEnd : Nat := 3

/-- Sends a PAUSE block with a mask (R348). -/
def State.sendPause (s : State) (p mask : Nat) : State :=
  let s := (s.setLink p { s.link p with sentMask := mask, sentAt := s.cycle }).emit (.block p blockPause mask)
  if mask = 0 then s else s.bump Od.port_PAUSES_SENT p

/-- The mask that the pool of a band's ingest calls for. -/
def State.pauseWanted (s : State) (p : Nat) : Nat := pauseMask (s.get Od.pool_WARN_STATE (s.get Od.qg_INGEST_POOL p))

/-- Every ACTIVE band that ingests into a pool sends its new mask, where it changed (R348). -/
def State.pauseBands (s : State) (pool : Nat) : State :=
  (List.range 128).foldl (fun t p =>
    if t.portActive p && t.isBand p && decide (t.get Od.qg_INGEST_POOL p = pool) && t.pauseWanted p != (t.link p).sentMask
    then t.sendPause p (t.pauseWanted p) else t) s

/-- n crossings of a pool (R317). -/
def State.crossings : Nat → Nat → State → State
  | 0, _, s => s
  | n + 1, p, s => State.crossings n p ((s.bump Od.pool_WARN_CROSSINGS p).raise 242)

/-- After a change of a pool's counts: levels, crossings, pauses and the lowest free count. -/
def State.poolChanged (s : State) (p : Nat) : State :=
  if ¬ s.poolOn p then s
  else
    let shared := s.shared p
    let free := shared - s.sharedInUse p
    let low := match tget s.queues.lowFree none p with
      | some l => min l free
      | none => free
    let s := { s with queues := { s.queues with lowFree := tput s.queues.lowFree none p (some low) } }
    let old := s.get Od.pool_WARN_STATE p
    let new := ((List.range 3).filter fun n => s.levelHolds p free shared (n + 1)).foldl (fun m n => max m (n + 1)) 0
    if new = old then s
    else (State.crossings (new - old + (old - new)) p (s.set Od.pool_WARN_STATE p new)).pauseBands p

/-! ### Allocation (R309, R311) -/

/-- Reads the ring's head until the cache holds 32. [DESIGN CHOICE, unsafe: log entry 47.] -/
def FreeBatts.fill : Nat → FreeBatts → Nat → FreeBatts
  | 0, f, _ => f
  | n + 1, f, batts =>
    if 32 ≤ f.cache.length then f
    else if f.fresh < batts then FreeBatts.fill n { f with cache := f.fresh :: f.cache, fresh := f.fresh + 1 } batts
    else match f.ring with
      | i :: r => FreeBatts.fill n { f with cache := i :: f.cache, ring := r } batts
      | [] => f

/-- The free batts when an allocation finds the cache empty: the refill that it waits for has come (R309). -/
def FreeBatts.waited (f : FreeBatts) (batts : Nat) : FreeBatts :=
  if f.cache = [] then { f.fill 32 batts with refill := false } else f

/-- Takes the index most recently placed in the cache. -/
def FreeBatts.pop (f : FreeBatts) (batts : Nat) : Option (Nat × FreeBatts) :=
  match (f.waited batts).cache with
  | i :: c => some (i, { f.waited batts with cache := c })
  | [] => none

/-- The ring holds an entry. -/
def FreeBatts.ringHas (f : FreeBatts) (batts : Nat) : Bool := decide (f.fresh < batts) || f.ring != []

/-- An allocation that finds the cache empty waits for the refill: the cycles of its wait are a free value. -/
def State.stall (s : State) (p : Nat) : State :=
  if (s.freeBatts p).cache = [] then (s.bumpBy Od.pool_CACHE_STALLS p 0 s.freeValue).useFree else s

/-- Takes one batt of a pool for an owner. -/
def State.takeBatt (s : State) (p kind owner refs : Nat) : Option (State × Nat) :=
  let batts := s.get Od.pool_BATTS p
  match (s.freeBatts p).pop batts with
  | none => none
  | some (i, f) =>
    let b := p * 2 ^ 28 + i
    let f := { f with refill := f.refill || (decide (f.cache.length ≤ s.get Od.pool_REFILL_MARK p) && f.ringHas batts) }
    some (((s.stall p).setFree p f).setBatt b ⟨refs, kind, owner⟩, b)

/-- How many of n more batts an owner would take from the shared part (R311). -/
def State.sharedNeed (s : State) (p kind owner n : Nat) : Nat :=
  let u := s.ownerUse p kind owner
  let m := s.ownerMin p kind owner
  (u + n - m) - (u - m)

/-- Takes n batts. -/
def State.takeBatts : Nat → State → Nat → Nat → Nat → Nat → Option (State × List Nat)
  | 0, s, _, _, _, _ => some (s, [])
  | n + 1, s, p, kind, owner, refs =>
    match s.takeBatt p kind owner refs with
    | none => none
    | some (s', b) =>
      match State.takeBatts n s' p kind owner refs with
      | none => none
      | some (s'', bs) => some (s'', b :: bs)

/-- Allocates n batts for an owner, or none when the pool is disabled or its shared part cannot serve them (R312). -/
def State.allocate (s : State) (p kind owner n refs : Nat) : Option (State × List Nat) :=
  if s.poolOn p && decide (s.sharedNeed p kind owner n ≤ s.sharedFree p) then
    match s.takeBatts n p kind owner refs with
    | some (s', bs) => some (s'.poolChanged p, bs)
    | none => none
  else none

/-- Address of a batt (R307). -/
def State.battAddr (s : State) (b : Nat) : Nat := s.get Od.pool_BASE (poolOf b) + 2304 * (b % 2 ^ 28)

/-- Batts that bytes need. -/
def battsFor (n : Nat) : Nat := ceilDiv n 2304

/-- Writes bytes into batts in order: their queue entries. -/
def State.fillBatts : State → List Nat → List Byte → State × List QEntry
  | s, [], _ => (s, [])
  | s, b :: bs, data =>
    let part := data.take 2304
    let r := State.fillBatts ((s.hbmPut (s.battAddr b) part).bumpBy Od.hbm_BYTES_WRITTEN 0 0 part.length) bs (data.drop 2304)
    (r.1, ⟨b, part.length⟩ :: r.2)

/-- The bytes of queue entries (R321). -/
def State.entryBytes (s : State) (es : List QEntry) : List Byte :=
  es.flatMap fun e => s.hbmBytes (s.battAddr e.batt) e.len

def Packet.length (k : Packet) : Nat := (k.entries.map fun e => e.len).sum

/-! ### Release (R313, R314, R316) -/

/-- A spill: the entries below the top 32 go to the ring's tail, the oldest first. [DESIGN CHOICE, unsafe: log entry 47.] -/
def FreeBatts.spilled (f : FreeBatts) : FreeBatts :=
  { f with cache := f.cache.take 32, ring := f.ring ++ (f.cache.drop 32).reverse, spill := false }

/-- A freed batt goes onto its pool's cache of 64 entries (R309); a full one has spilled first. -/
def State.freeBatt (s : State) (b : Nat) : State :=
  let p := poolOf b
  let s := s.hbmPut (s.tagAddr b) [0#8]
  let f := s.freeBatts p
  let f := if 64 ≤ f.cache.length then f.spilled else f
  let f := { f with cache := b % 2 ^ 28 :: f.cache }
  let f := { f with spill := f.spill || decide (s.get Od.pool_SPILL_MARK p < f.cache.length) }
  (({ s with queues := { s.queues with batts := tdel s.queues.batts b } }).setFree p f).poolChanged p

/-- The batts whose count reached zero return to their pools' caches, in the cycle that follows (R313). -/
def State.returnBatts (s : State) : State :=
  s.queues.returning.foldl (fun t b => t.freeBatt b) { s with queues := { s.queues with returning := [] } }

/-- One decrement of a batt's REFCOUNT; a batt whose count reaches zero returns in the following cycle. -/
def State.decrement (s : State) (b : Nat) : State :=
  match s.batt b with
  | none => (s.bump Od.qg_COUNT_FAULTS 128).reportInfo Unit.queueEngine 0x20 b
  | some x =>
    if x.refs = 0 then (s.bump Od.qg_COUNT_FAULTS 128).reportInfo Unit.queueEngine 0x20 b
    else if x.refs = 255 then s
    else if x.refs = 1 then
      let s := s.setBatt b { x with refs := 0 }
      { s with queues := { s.queues with returning := s.queues.returning ++ [b] } }
    else s.setBatt b { x with refs := x.refs - 1 }

def State.decrementAll (s : State) (es : List QEntry) : State := es.foldl (fun t e => t.decrement e.batt) s

/-- Frees a pinned template (R310). -/
def State.unpin (s : State) (b : Nat) : State := if (s.batt b).isSome then s.freeBatt b else s

/-- Sets the REFCOUNT of batts. -/
def State.setRefs (s : State) (es : List QEntry) (n : Nat) : State :=
  es.foldl (fun t e => match t.batt e.batt with
    | some x => t.setBatt e.batt { x with refs := n }
    | none => t) s

/-! ### Queues (R320–R325) -/

def State.queue (s : State) (q : Nat) : Queue := tget s.queues.queues {} q

def State.setQueue (s : State) (q : Nat) (x : Queue) : State :=
  { s with queues := { s.queues with queues := tput s.queues.queues {} q x } }

/-- Entries of a queue. -/
def Queue.entries (x : Queue) : Nat := (x.packets.map fun k => k.entries.length).sum

/-- Bytes of a queue. -/
def Queue.bytes (x : Queue) : Nat := (x.packets.map Packet.length).sum

/-- Queue entries of the queue store. -/
def entryStore : Nat := 2621440

/-- Free entries of the queue store. -/
def State.entriesFree (s : State) : Nat :=
  entryStore - (s.queues.queues.map fun e => e.2.entries).sum - s.queues.entriesCut

/-- Why an append is dropped: beyond DEPTH_LIMIT, or an egress queue of a port that is not ACTIVE (R343); or no entries. -/
inductive AppendFate where
  | linked | depth | store
  deriving DecidableEq, Repr

def State.appendFate (s : State) (q n : Nat) : AppendFate :=
  if s.get Od.qg_DEPTH_LIMIT (q / 8) < (s.queue q).entries + n ∨ (q < 1024 ∧ ¬ s.portActive (q / 8)) then .depth
  else if s.entriesFree < n then .store
  else .linked

/-- Counts and undoes a dropped append (R324). -/
def State.dropAppend (s : State) (q : Nat) (k : Packet) (f : AppendFate) : State :=
  let s := match f with
    | .depth => s.setQueue q { s.queue q with dropped := ((s.queue q).dropped + 1) % 2 ^ 32 }
    | _ => s.bump Od.qg_ENTRY_STORE_DROPS 128
  s.decrementAll k.entries

/-- Links a packet to a queue. -/
def State.linkPacket (s : State) (q : Nat) (k : Packet) : State :=
  let x := s.queue q
  s.setQueue q { x with packets := x.packets ++ [{ k with at_ := s.cycle }], enqueued := (x.enqueued + 1) % 2 ^ 64 }

/-- Highest PRI of a queue's packets. -/
def topPri (ks : List Packet) : Nat := ks.foldl (fun m k => max m k.pri) 0

/-- Takes the first element that satisfies p. -/
def takeFirst {α : Type} (p : α → Bool) : List α → Option (α × List α)
  | [] => none
  | a :: as => if p a then some (a, as) else
      match takeFirst p as with
      | some (b, bs) => some (b, a :: bs)
      | none => none

/-- The packet that a read of the queue takes: the oldest of the highest PRI (R323). -/
def Queue.head (x : Queue) : Option Packet := x.packets.find? fun k => k.pri = topPri x.packets

/-- Reads a packet of a queue. -/
def State.readQueue (s : State) (q : Nat) : Option (State × Packet) :=
  match takeFirst (fun k : Packet => k.pri = topPri (s.queue q).packets) (s.queue q).packets with
  | none => none
  | some (k, ks) => some (s.setQueue q { s.queue q with packets := ks }, k)

/-- Discards every packet of a port's queues, those linked in this very cycle included (R343). -/
def State.emptyPort (s : State) (p : Nat) : State :=
  (List.range 8).foldl (fun t k =>
    let x := t.queue (8 * p + k)
    (t.setQueue (8 * p + k) { x with packets := [], flushed := (x.flushed + x.packets.length) % 2 ^ 32 }).decrementAll
      (x.packets.flatMap fun y => y.entries)) s

/-- Discards every packet of a queue that was linked before this cycle (R325). -/
def State.flushQueue (s : State) (q : Nat) : State :=
  let x := s.queue q
  let gone := x.packets.filter fun k => decide (k.at_ ≠ s.cycle)
  (s.setQueue q { x with
    packets := x.packets.filter fun k => decide (k.at_ = s.cycle)
    flushed := (x.flushed + gone.length) % 2 ^ 32 }).decrementAll (gone.flatMap fun k => k.entries)

/-- Flushes the queues of a group whose bits are set. -/
def State.flushGroup (s : State) (g mask : Nat) : State :=
  (bitList mask 8).foldl (fun t k => t.flushQueue (8 * g + k)) s

/-! ### Pool spans (R308) -/

/-- Bytes that a pool spans. -/
def poolSpan (batts : Nat) : Nat := batts * 2312

/-- Bytes of the picture stores of every stream. [DESIGN CHOICE, unsafe: log entry 45.] -/
def State.pictureStores (s : State) : Nat := (s.streams.streams.map fun e => e.2.store + (e.2.oldStores.map fun o => o.1).sum).sum

/-- Spans of a region that a new pool must keep clear of: other pools, the firmware's 16 MiB, and the picture stores, which
fill PICTURE_REGION from its end downwards. -/
def State.takenSpans (s : State) (r p : Nat) : List (Nat × Nat) :=
  ((List.range 16).filter fun q => q ≠ p ∧ s.poolOn q ∧ s.get Od.pool_REGION q = r).map
      (fun q => (s.get Od.pool_BASE q, poolSpan (s.get Od.pool_BATTS q)))
    ++ (if s.get Od.mil_PICTURE_REGION = r then
        [(s.get Od.reg_BASE r, 2 ^ 24),
          (s.get Od.reg_BASE r + s.get Od.reg_SIZE r - s.pictureStores, s.pictureStores)] else [])

/-- The lowest 4 KiB-aligned address of a region for a span of n bytes clear of the others. -/
def State.poolPlace (s : State) (r p n : Nat) : Option Nat :=
  let taken := s.takenSpans r p
  lowest ((s.get Od.reg_BASE r :: taken.map fun t => roundUp 4096 (t.1 + t.2)).filter fun a =>
    s.inRegion r a n && taken.all fun t => !overlaps a n t.1 t.2)

/-- A pool's region, as R278 and R280 allow. -/
def State.poolRegionOk (s : State) (p : Nat) : Bool :=
  let r := s.get Od.pool_REGION p
  s.regionOpen r && (decide (r ≠ s.get Od.mil_PICTURE_REGION) || s.pictureUsable)

/-- Allocates a pool's span and frees every batt of it. [DESIGN CHOICE, unsafe: log entry 47.] -/
def State.openPool (s : State) (p a : Nat) : State :=
  ((((s.set Od.pool_BASE p a).set Od.pool_ENABLE p 1).setFree p { refill := true }).poolChanged p)

/-- The firmware enables POOL_0 where its region lets it (R280, R308). -/
def State.enablePool0 (s : State) : State :=
  if s.poolRegionOk 0 then
    match s.poolPlace (s.get Od.pool_REGION 0) 0 (poolSpan (s.get Od.pool_BATTS 0)) with
    | some a => s.openPool 0 a
    | none => s.set Od.pool_ENABLE 0 0
  else s.set Od.pool_ENABLE 0 0

/-- The pool that serves a class, or the host (bit 3): the lowest-numbered enabled one whose bit is set (R310). -/
def State.poolFor (s : State) (bitNo : Nat) : Option Nat :=
  (List.range 16).find? fun p => s.poolOn p && (s.get Od.pool_CLASS_DEFAULT p).testBit bitNo

/-! ### Replication (R315) -/

/-- Splits destinations into sets of 254. -/
def destSets : Nat → List PacketDest → List (List PacketDest)
  | 0, _ => []
  | n + 1, ds => if ds = [] then [] else ds.take 254 :: destSets n (ds.drop 254)

/-- The packet of one destination: its template, then the payload. -/
def PacketDest.packet (d : PacketDest) (es : List QEntry) (sid : Option Nat) (chaec : Bool) : Packet :=
  { pri := d.pri, entries := d.template.toList ++ es, templated := d.template.toList.length, sid := sid, chaec := chaec,
    due := d.due, pcrAt := d.pcrAt, rowInfo := d.rowInfo }

/-! ### Ingest (R312, R318) -/

/-- Class of a packet's priority (R318): 0 LIVE, 1 PACED, 2 BULK. [DESIGN CHOICE, unsafe: log entry 47.] -/
def classOfPri (pri : Nat) : Nat := if 5 ≤ pri then 0 else if 2 ≤ pri then 1 else 2

/-- A level affects a class. -/
def levelAffects (level cls : Nat) : Bool := decide ((level = 1 ∧ cls = 2) ∨ (level = 2 ∧ 1 ≤ cls) ∨ level = 3)

/-- Takes in a packet from a port: its batts, or its discard by back-pressure or for want of batts. -/
def State.ingest (s : State) (port pri : Nat) (data : List Byte) : State × Option (List QEntry) :=
  let p := s.get Od.qg_INGEST_POOL port
  let n := battsFor data.length
  let level := s.get Od.pool_WARN_STATE p
  let cls := classOfPri pri
  let fromShared := decide (0 < s.sharedNeed p ownPort port n)
  if fromShared && levelAffects level cls && decide (cls = 0) then (s.bump Od.pool_LIVE_DROPS p, none)
  else if fromShared && levelAffects level cls && !s.isBand port then (s.bump Od.pool_PAUSE_DISCARDS p, none)
  else match s.allocate p ownPort port n 1 with
    | none => (s.bump Od.pool_NO_BATT_DROPS p, none)
    | some (s', bs) =>
      let r := s'.fillBatts bs data
      (r.1, some r.2)

/-- Takes in bytes of the engine's own traffic, from POOL_0 with no minimum (R310). -/
def State.ingestEngine (s : State) (data : List Byte) : State × Option (List QEntry) :=
  match s.allocate 0 ownEngine 0 (battsFor data.length) 1 with
  | none => (s.bump Od.pool_NO_BATT_DROPS 0, none)
  | some (s', bs) =>
    let r := s'.fillBatts bs data
    (r.1, some r.2)

end Sys2Proof.Machine
end

