-- ==== Sys2Proof/Machine/LaneOps.lean ====
section
/-! DEFINITION. The operations of lanes, ports and Chaec Link packets (R330–R354): headers, sealing, transmission, the
bring-up stages, the TIMING exchange. -/

namespace Sys2Proof.Machine

/-! ### Headers (R345, R346) -/

/-- The fields of a Chaec Link header but for LENGTH and HCRC. -/
structure ChHeader where
  dest   : Nat
  srcDev : Nat
  kind   : Nat
  prio   : Nat
  hops   : Nat := 16
  flags  : Nat := 0
  stream : Nat := 0
  seq    : Nat := 0
  seg    : Nat := 0
  rtime  : Nat := 0
  row    : Nat := 0
  pic    : Nat := 0
  deriving DecidableEq, Repr

/-- The 36 header bytes with a given HCRC. -/
def ChHeader.raw (h : ChHeader) (len hcrc : Nat) : List Byte :=
  leBytes 9 (h.dest % 2 ^ 32 * 2 ^ 40 + h.srcDev % 2 ^ 16 * 2 ^ 24 + h.kind % 256 * 2 ^ 16 + h.prio % 8 * 2 ^ 13 +
      h.hops % 32 * 2 ^ 8 + h.flags % 256) ++
  leBytes 9 (h.stream % 2 ^ 32 * 2 ^ 40 + h.seq % 2 ^ 32 * 2 ^ 8 + h.seg % 256) ++
  leBytes 9 h.rtime ++
  leBytes 9 (len % 2 ^ 16 * 2 ^ 56 + h.row % 2 ^ 16 * 2 ^ 40 + h.pic % 2 ^ 24 * 2 ^ 16 + hcrc % 2 ^ 16)

/-- CRC-16 of polynomial 0x1021, initial value 0xFFFF, not reflected (R346). -/
def crc16 (bs : List Byte) : Nat := bs.foldl (fun c b => crcByte 16 0x1021 c b.toNat) 0xFFFF

/-- The header bytes with their HCRC. -/
def ChHeader.bytes (h : ChHeader) (len : Nat) : List Byte := h.raw len (crc16 (h.raw len 0))

/-- An unsealed packet. -/
def ChHeader.packet (h : ChHeader) (payload : List Byte) : List Byte :=
  h.bytes payload.length ++ payload ++ leBytes 4 (crc32c payload)

/-- The header that 36 bytes spell. -/
def ChHeader.ofBytes (bs : List Byte) : ChHeader :=
  let w0 := leAt bs 0 9
  let w1 := leAt bs 9 9
  let w3 := leAt bs 27 9
  { dest := bits w0 40 32, srcDev := bits w0 24 16, kind := bits w0 16 8, prio := bits w0 13 3, hops := bits w0 8 5,
    flags := bits w0 0 8, stream := bits w1 40 32, seq := bits w1 8 32, seg := bits w1 0 8, rtime := leAt bs 18 9,
    row := bits w3 40 16, pic := bits w3 16 24 }

/-- LENGTH of a header. -/
def chLength (bs : List Byte) : Nat := bits (leAt bs 27 9) 56 16

/-- The header check holds. -/
def hcrcOk (bs : List Byte) : Bool :=
  decide (crc16 (bs.take 27 ++ [0#8, 0#8] ++ (bs.drop 29).take 7) = leAt bs 27 2)

/-- Body of a packet: payload and tag, as sent. -/
def chBody (bs : List Byte) : List Byte := (bs.drop 36).take (bs.length - 40)

/-- The trailer and the length check hold (R346). -/
def trailerOk (bs : List Byte) : Bool :=
  let len := chLength bs
  let tag := if (leAt bs 0 1).testBit 0 then 16 else 0
  decide (len ≤ 9216 ∧ bs.length = 36 + len + tag + 4) && decide (crc32c (chBody bs) = leAt bs (bs.length - 4) 4)

/-! ### Lanes and ports -/

def State.lane (s : State) (l : Nat) : LaneState := tget s.lanes.lanes {} l

def State.setLane (s : State) (l : Nat) (x : LaneState) : State :=
  { s with lanes := { s.lanes with lanes := tput s.lanes.lanes {} l x } }

/-- A quad is powered. -/
def State.quadOn (s : State) (q : Nat) : Bool := tget s.lanes.quadOn false q

/-- The port whose band a lane lies in: the lowest lane of its quad whose band is wide enough to hold it, or itself (R7, R330). -/
def State.portOf (s : State) (l : Nat) : Nat :=
  match ((List.range 4).map fun k => l / 4 * 4 + k).find? fun p =>
      decide (p ≤ l ∧ l < p + s.get Od.port_WIDTH p) && decide (s.get Od.port_MODE p = 1) with
  | some p => p
  | none => l

/-- A lane lies in a wider band and is not its lowest lane (R330). -/
def State.isMember (s : State) (l : Nat) : Bool := decide (s.portOf l ≠ l)

/-- MODE as it reads: 3 MEMBER inside a wider band. -/
def State.portMode (s : State) (p : Nat) : Nat := if s.isMember p then 3 else s.get Od.port_MODE p

/-- Lanes of a port. -/
def State.portLanes (s : State) (p : Nat) : List Nat :=
  if s.get Od.port_MODE p = 1 then (List.range (s.get Od.port_WIDTH p)).map fun k => p + k else [p]

/-- lanes(p) of R84: ACTIVE_WIDTH while the port is ACTIVE, and its own lanes otherwise (R343). -/
def State.lanesFor (s : State) (p : Nat) : Nat :=
  if s.portActive p then s.get Od.port_ACTIVE_WIDTH p else (s.portLanes p).length

/-- Lanes in use: those whose band lane index is in use, or the lane of a 10GBASE-R port. -/
def State.lanesInUse (s : State) (p : Nat) : List Nat :=
  if s.get Od.port_MODE p = 1 then
    (s.portLanes p).filter fun l => decide (s.get Od.lane_LANE_INDEX l ∈ (s.link p).inUse)
  else s.portLanes p

/-- Sets LINK_STATE of lanes. -/
def State.setLinkState (s : State) (ls : List Nat) (v : Nat) : State :=
  ls.foldl (fun t l => t.set Od.lane_LINK_STATE l v) s

/-- Erases what the bring-up of a lane found. -/
def State.clearLanes (s : State) (ls : List Nat) : State :=
  ls.foldl (fun t l => (t.setLane l {}).set Od.lane_LANE_INDEX l 255) s

/-- A port starts bring-up from its MODE, or rests (R330–R332). A 10GBASE-R lane transmits its fixed taps (R337). A LINK_RETRAIN that
waits for the port goes on waiting (R344). -/
def State.startBringUp (s : State) (p : Nat) : State :=
  let ls := s.portLanes p
  let s := s.clearLanes ls
  let l := s.link p
  let fresh : PortLink := { stageAt := s.cycle, detectAt := s.cycle, timeouts := l.timeouts, retraining := l.retraining,
                            retrainAt := l.retrainAt }
  if !s.quadOn (p / 4) then ((s.setLinkState ls 0).set Od.port_PORT_STATE p 0).setLink p fresh
  else if s.get Od.port_MODE p = 1 then
    ((s.setLinkState ls 1).set Od.port_PORT_STATE p 1).setLink p
      { fresh with stage := 1, backoff := decide (8 ≤ l.timeouts) }
  else if s.get Od.port_MODE p = 2 then
    (((s.setLinkState ls 3).set Od.lane_TX_FFE p (s.get Od.lane_TX_FFE_10G p)).set Od.port_PORT_STATE p 1).setLink p fresh
  else ((s.setLinkState ls 6).set Od.port_PORT_STATE p 0).setLink p { fresh with timeouts := 0 }

/-- The part of leaving ACTIVE that the port itself sees (R342, R343): objects, keys, queues.
[DESIGN CHOICE, unsafe: log entry 48.] -/
def State.portDown (s : State) (p cause : Nat) : State :=
  let s := ((s.set Od.port_LAST_DOWN_CAUSE p cause).bump Od.port_LINK_DOWNS p).set Od.port_ACTIVE_WIDTH p 0
  let s := (s.set Od.port_SEALED p 0).raise 243
  (s.emptyPort p).startBringUp p

/-- Lowest FOM among lanes. -/
def State.lowestFom (s : State) (ls : List Nat) : Nat := (ls.map fun l => s.get Od.lane_FOM l).foldl min 255

/-- A port becomes ACTIVE (R338, R350). -/
def State.portUp (s : State) (p : Nat) : State :=
  let ls := s.lanesInUse p
  let l := s.link p
  let s := ((s.set Od.port_PORT_STATE p 2).set Od.port_ACTIVE_WIDTH p ls.length).bump Od.port_LINK_UPS p
  let s := ls.foldl (fun t k => ((t.set Od.lane_LINK_STATE k 5).set Od.lane_FOM_LOW k (t.get Od.lane_FOM k)).set
    Od.lane_TRAIN_TIME k ((t.cycle - l.detectAt) / 1200)) s
  let s := (s.setLink p { l with stage := 5, timeouts := 0, retraining := false }).raise 243
  let s := if l.retraining then s.finishCommand 0x42 Result.ok (leBytes 1 (s.lowestFom ls)) else s
  if s.isBand p && s.pauseWanted p != 0 then s.sendPause p (s.pauseWanted p) else s

/-! ### Bring-up of a band (R338–R341) -/

/-- Legal FFE taps that the spec leaves open: C_MAIN at least 32, sum 64 (R337). -/
def freeTaps (f : Nat) : Nat :=
  let main := 32 + f % 33
  let pre := f / 33 % (64 - main + 1)
  pre * 2 ^ 16 + main * 2 ^ 8 + (64 - main - pre)

/-- One tap after a request: 1 INCREMENT, 2 DECREMENT, else HOLD. -/
def tapStep (tap req : Nat) : Int := if req = 1 then (tap : Int) + 1 else if req = 2 then (tap : Int) - 1 else tap

/-- Taps after the requests of a training frame: taken where the limits of R337 allow them, else AT_LIMIT.
[DESIGN CHOICE, unsafe: log entry 48.] -/
def tapsAfter (taps : Nat) (req : List Nat) : Nat :=
  let a := tapStep (bits taps 16 8) (req.getD 0 0)
  let b := tapStep (bits taps 8 8) (req.getD 1 0)
  let c := tapStep (bits taps 0 8) (req.getD 2 0)
  if a + b + c = 64 ∧ 32 ≤ b ∧ 0 ≤ a ∧ 0 ≤ c then a.toNat * 2 ^ 16 + b.toNat * 2 ^ 8 + c.toNat else taps

/-- The status of a frame after the requests it answers: UPDATED where a tap took its step, AT_LIMIT where one was refused. -/
def tapStatus (taps : Nat) (req : List Nat) : List Nat :=
  let took := decide (tapsAfter taps req ≠ taps)
  (List.range 3).map fun k => if req.getD k 0 = 0 ∨ 2 < req.getD k 0 then 0 else if took then 1 else 2

/-- Every lane of a list satisfies p. -/
def State.allLanes (s : State) (ls : List Nat) (f : LaneState → Bool) : Bool := ls.all fun l => f (s.lane l)

/-- The own-side condition of a stage (R338). -/
def State.stageCondition (s : State) (p : Nat) : Bool :=
  let l := s.link p
  let ls := s.portLanes p
  if l.stage = 1 then !l.backoff && s.allLanes ls (fun x => x.found)
  else if l.stage = 2 then s.allLanes ls fun x => x.ownReady && x.peerReady
  else if l.stage = 3 then s.allLanes (s.lanesInUse p) fun x => x.blockLock && x.aligned
  else if l.stage = 4 then l.accepted
  else false

/-- A SERIAL as it is compared: byte 0 most significant (R358's table of carding messages). -/
def serialRank (n : Nat) : Nat := beNat (leBytes 16 n)

/-- Own SERIAL. -/
def State.serial (s : State) : Nat := s.get Od.id_SERIAL

/-- The body of a capability packet (R341): SERIAL, port, width, SEAL_MODE, feature bits. -/
def capabilityBody (c : Capability) : List Byte :=
  leBytes 16 c.serial ++ leBytes 1 c.port ++ leBytes 1 c.width ++ leBytes 1 c.sealMode ++ leBytes 1 0

/-- This device's capability on a band. -/
def State.ownCapability (s : State) (p : Nat) : Capability :=
  ⟨s.serial, p, (s.link p).inUse.length, s.get Od.port_SEAL_MODE p, none⟩

/-- The digest that an end signs (R351): both capability bodies, then both ephemeral keys, the lower SERIAL's first. -/
def sealDigest (a b : Capability) (ea eb : List Byte) : List Byte :=
  if serialRank a.serial ≤ serialRank b.serial then Config.sha512 (capabilityBody a ++ capabilityBody b ++ ea ++ eb)
  else Config.sha512 (capabilityBody b ++ capabilityBody a ++ eb ++ ea)

/-- An end accepts its neighbour (R484). -/
def State.acceptsPeer (s : State) (own peer : Capability) (ephDraw : Nat) (o : SealOffer) : Bool :=
  decide (leNat (Config.sha512 o.root) = s.get Od.sec_VENDOR_ROOT_HASH) &&
  Config.ecdsaVerify o.root (Config.sha512 (o.cert.take 153)) ((o.cert.drop 153).take 132) &&
  decide (leAt o.cert 4 16 = peer.serial) &&
  Config.ecdsaVerify ((o.cert.drop 20).take 133) (sealDigest own peer (Config.ecdhPublic ephDraw) o.ephemeral) o.signature &&
  (decide (s.get Od.sec_SEAL_PEER_MODE ≠ 1) || decide (peer.serial ∈ s.sec.sealPeers))

/-- The key blocks of both directions, this device's sending one first (R351). -/
def sealBlocks (own peer : Capability) (ephDraw : Nat) (o : SealOffer) : List Byte × List Byte :=
  let lower := decide (serialRank own.serial ≤ serialRank peer.serial)
  let low := if lower then own.serial else peer.serial
  let high := if lower then peer.serial else own.serial
  let salt := leBytes 16 low ++ leBytes 16 high
  let z := Config.ecdhShared ephDraw o.ephemeral
  let info : Nat → List Byte := fun c => [0x43, 0x4C, 0x20, 0x73, 0x65, 0x61, 0x6C, 0x20].map (BitVec.ofNat 8) ++
    (if c = 0 then [0x6C, 0x32, 0x68] else [0x68, 0x32, 0x6C]).map (BitVec.ofNat 8)
  let l2h := Config.hkdf salt z (info 0) 36
  let h2l := Config.hkdf salt z (info 1) 36
  if lower then (l2h, h2l) else (h2l, l2h)

/-- Message codes of LINK packets that this device sends. -/
def msgCapability : Nat := 0x0701
def msgRekey : Nat := 0x0702
def msgSignature : Nat := 0x0703

/-- Draws an ephemeral key for a band and sends a LINK packet with it. -/
def State.sendSealOffer (s : State) (p msg : Nat) : State :=
  let n := s.sec.draws
  let c := s.ownCapability p
  ((s.useDraws 66).setLink p { s.link p with ephDraw := n }).emit
    (.message p msg [c.serial, c.port, c.width, c.sealMode, leNat (Config.ecdhPublic n), leNat Config.vendorRootKey,
      s.get Od.sec_IDENTITY_CERT])

/-- Sends this device's capability packet (R341). -/
def State.sendCapability (s : State) (p : Nat) : State :=
  let c := s.ownCapability p
  if c.sealMode = 0 then s.emit (.message p msgCapability [c.serial, c.port, c.width, c.sealMode])
  else s.sendSealOffer p msgCapability

/-- Sends the signature of R351 step 2, once the neighbour's ephemeral key is known. -/
def State.sendSignature (s : State) (p : Nat) (own peer : Capability) (ephDraw : Nat) (o : SealOffer) : State :=
  s.emit (.message p msgSignature
    [leNat (Config.ecdsaSign (sealDigest own peer (Config.ecdhPublic ephDraw) o.ephemeral))])

/-- READY_MASK of a band: its READY lanes by band lane index. -/
def State.readyMask (s : State) (p : Nat) : Nat :=
  ((s.portLanes p).filter fun l => (s.lane l).ownReady && (s.lane l).peerReady).foldl (fun m l =>
    setBit m (s.get Od.lane_LANE_INDEX l)) 0

/-- Sends TRAIN_END on each lane (R334, R339). -/
def State.sendTrainEnd (s : State) (p : Nat) : State :=
  (s.portLanes p).foldl (fun t l => t.emit (.block l blockTrainEnd (s.readyMask p))) s

/-- The band moves to its next stage. -/
def State.nextStage (s : State) (p : Nat) : State :=
  let l := { s.link p with stageAt := s.cycle }
  let ls := s.portLanes p
  if l.stage = 1 then
    let s := ls.foldl (fun t k => ((t.set Od.lane_TX_FFE k (freeTaps t.freeValue)).useFree).setLane k { found := true }) s
    (s.setLinkState ls 2).setLink p { l with stage := 2 }
  else if l.stage = 2 then
    ((s.sendTrainEnd p).setLinkState ls 3).setLink p { l with stage := 3, inUse := List.range (s.get Od.port_WIDTH p) }
  else if l.stage = 3 then
    ((s.setLinkState (s.lanesInUse p) 4).setLink p { l with stage := 4, peer := none, accepted := false }).sendCapability p
  else if l.stage = 4 then s.portUp p
  else s

/-- The bring-up of a band fails, and it returns to DETECT with a cause (R351) or none. -/
def State.failBringUp (s : State) (p : Nat) (cause : Option Nat) : State :=
  match cause with
  | some c => (s.set Od.port_LAST_DOWN_CAUSE p c).startBringUp p
  | none => s.startBringUp p

/-- Sub-bands of a band by band lane index, widest first, lowest index first (R340). -/
def subBands (width : Nat) : List (List Nat) :=
  if width = 4 then [[0, 1], [2, 3], [0], [1], [2], [3]] else if width = 2 then [[0], [1]] else []

/-- The sub-band on which a band may come up. -/
def State.narrowTo (s : State) (p : Nat) : Option (List Nat) :=
  if s.flag Od.port_NARROW_OK p then
    (subBands (s.get Od.port_WIDTH p)).find? fun ix =>
      decide (s.get Od.port_MIN_WIDTH p ≤ ix.length) &&
      ix.all fun i => (s.portLanes p).any fun l =>
        decide (s.get Od.lane_LANE_INDEX l = i) && (s.lane l).ownReady && (s.lane l).peerReady
  else none

/-- A stage times out (R338): TRAIN_FAILS of each lane, the run of timeouts, and DETECT again. -/
def State.stageTimesOut (s : State) (p : Nat) : State :=
  let l := s.link p
  let s := (s.portLanes p).foldl (fun t k => t.bump Od.lane_TRAIN_FAILS k) s
  let n := l.timeouts + 1
  let s := if n = 8 then s.reportInfo (Unit.port p) 0x30 0 else s
  (s.setLink p { l with timeouts := n }).startBringUp p

/-- A band comes up narrow (R340). -/
def State.narrowBand (s : State) (p : Nat) (ix : List Nat) : State :=
  let s := s.sendTrainEnd p
  let s := (s.setLink p { s.link p with stage := 3, stageAt := s.cycle, inUse := ix }).bump Od.port_NARROWED p
  let used := s.lanesInUse p
  let s := (s.setLinkState ((s.portLanes p).filter fun l => decide (l ∉ used)) 7).setLinkState used 3
  s.report (Unit.port p) 0x31 0 0xFF ix.length

/-- Cycles after which a stage times out (R338): TRAIN 500 ms, LOCK 5 ms, EXCHANGE 20 ms, or 200 ms when either end has SEAL_MODE
non-zero. -/
def State.stageTime (s : State) (p : Nat) : Nat :=
  let l := s.link p
  if l.stage = 2 then msCycles 500
  else if l.stage = 3 then msCycles 5
  else if s.get Od.port_SEAL_MODE p ≠ 0 ∨ l.peer.any (fun c => c.sealMode ≠ 0) then msCycles 200
  else msCycles 20

/-! ### Transmission (R350, R352) -/

/-- The device's free-running link timebase, in 1/65,536 ns (R349). -/
def State.linkTime (s : State) : Nat := s.cycle * 5 * 65536 / 6

/-- Counts a packet or frame sent. -/
def State.countOut (s : State) (p n : Nat) : State :=
  let b := s.get Od.port_BYTES p
  (s.bump Od.port_FRAMES_OUT p).set Od.port_BYTES p (setBits b 64 64 (bits b 64 64 + n))

/-- Counts a packet or frame accepted. -/
def State.countIn (s : State) (p n : Nat) : State :=
  let b := s.get Od.port_BYTES p
  (s.bump Od.port_FRAMES_IN p).set Od.port_BYTES p (setBits b 0 64 (bits b 0 64 + n))

/-- The key that the next packet is sealed under: a new key is taken with the first packet of its phase. -/
def SealState.sendKey (k : SealState) : SealKey := k.nextTx.getD k.tx

/-- Seals a packet (R352): the header with SEALED and KEY_PHASE is the associated data. -/
def sealPacket (k : SealKey) (bs : List Byte) : List Byte :=
  let h := ChHeader.ofBytes bs
  let h := { h with flags := setBits (setBit h.flags 0) 5 1 (b2n k.phase) }
  let hb := h.bytes (chLength bs)
  let body := Config.gcmSeal k.block k.counter hb (chBody bs)
  hb ++ body ++ leBytes 4 (crc32c body)

/-- Records the departure of a TIMING packet (R349). -/
def State.noteTiming (s : State) (p : Nat) (seqT : Nat) : State :=
  let l := s.link p
  s.setLink p { l with timing := { l.timing with
    lastTx := s.linkTime
    txTimes := ((seqT, s.linkTime) :: l.timing.txTimes).take 16
    lastRts := (List.range 8).map fun rd => s.now rd } }

/-- Sends the bytes of a packet or frame on a port; the MAC pads a short frame to 64 bytes with its FCS (R350). -/
def State.transmit (s : State) (p : Nat) (bs : List Byte) : State :=
  if s.isBand p then
    let s := if (ChHeader.ofBytes bs).kind = 3 then s.noteTiming p (leAt bs 36 8) else s
    match (s.link p).keys with
    | none => (s.countOut p bs.length).emit (.packet p bs)
    | some k =>
      let key := k.sendKey
      let k' := { k with tx := { key with counter := key.counter + 1 }, nextTx := none
                         keyedAt := if k.nextTx.isSome then s.cycle else k.keyedAt }
      let sealed := sealPacket key bs
      ((s.setLink p { s.link p with keys := some k' }).countOut p sealed.length).emit (.packet p sealed)
  else
    let bs := bs ++ List.replicate (60 - bs.length) 0#8
    (s.countOut p bs.length).emit (.packet p (bs ++ leBytes 4 (crc32 bs)))

/-- One's complement sum of 16-bit words. -/
def onesSum : List Byte → Nat
  | [] => 0
  | [a] => a.toNat * 256
  | a :: b :: rest => a.toNat * 256 + b.toNat + onesSum rest

/-- The internet checksum. -/
def inetChecksum (bs : List Byte) : Nat :=
  let a := onesSum bs
  let b := a % 65536 + a / 65536
  let c := b % 65536 + b / 65536
  65535 - (c % 65536 + c / 65536) % 65536

/-- Replaces bytes at an offset. -/
def patch (bs : List Byte) (off : Nat) (v : List Byte) : List Byte := bs.take off ++ v ++ bs.drop (off + v.length)

/-- Fills in what the egress port computes in the frame of a template (R314): IPv4 or IPv6 length, IPv4 header checksum,
UDP length and checksum. The IP header stands at 14, or at 18 behind a VLAN tag. -/
def fillUdp (bs : List Byte) : List Byte :=
  let ip := if beAt bs 12 2 = 0x8100 then 18 else 14
  let v4 := decide (bits (beAt bs ip 1) 4 4 = 4)
  let udp := if v4 then ip + 20 else ip + 40
  let bs := if v4 then patch bs (ip + 2) (beBytes 2 (bs.length - ip)) else patch bs (ip + 4) (beBytes 2 (bs.length - udp))
  let bs := if v4 then
    patch (patch bs (ip + 10) [0#8, 0#8]) (ip + 10)
      (beBytes 2 (inetChecksum ((patch bs (ip + 10) [0#8, 0#8]).drop ip |>.take 20))) else bs
  let bs := patch (patch bs (udp + 4) (beBytes 2 (bs.length - udp))) (udp + 6) [0#8, 0#8]
  let addrs := if v4 then (bs.drop (ip + 12)).take 8 else (bs.drop (ip + 8)).take 32
  let pseudo := addrs ++ [0#8, 17#8] ++ beBytes 2 (bs.length - udp)
  let sum := inetChecksum (pseudo ++ bs.drop udp)
  patch bs (udp + 6) (beBytes 2 (if sum = 0 then 65535 else sum))

/-- The PCR of a domain's present instant: its raster time in 27 MHz units, as base, six ones and extension (R180). -/
def State.pcrNow (s : State) (rd : Nat) : List Byte :=
  let t := linear (s.lpf rd) (s.now rd) * 27000000 * s.get Od.rd_RATE_DEN rd / s.ticksPer rd
  beBytes 6 (t / 300 % 2 ^ 33 * 2 ^ 15 + 63 * 2 ^ 9 + t % 300)

/-- The bytes of a queued packet as the port sends them (R180, R314). -/
def State.packetOut (s : State) (p : Nat) (k : Packet) : List Byte :=
  let raw := s.entryBytes k.entries
  let bs := match k.pcrAt, k.sid with
    | some off, some sid => patch raw off (s.pcrNow (s.get Od.st_DOMAIN sid))
    | _, _ => raw
  if k.templated = 0 then bs
  else if s.isBand p then
    let h := ChHeader.ofBytes bs
    let h := match k.rowInfo with
      | some r => { h with flags := r.flags, seq := r.seq, seg := r.seg, rtime := r.rtime, row := r.row, pic := r.pic }
      | none => h
    h.packet (bs.drop 36)
  else fillUdp bs

/-- Sends the engine's own packet on a port: through queue 1,568 with batts of POOL_0, or, while POOL_0 is disabled, at
once through the control processor's frame buffer (R280, R310, R320). -/
def State.sendControl (s : State) (p pri : Nat) (short : Bool) (bs : List Byte) : State :=
  if s.poolOn 0 then
    match s.ingestEngine bs with
    | (s', none) => s'
    | (s', some es) => s'.linkPacket 1568 { pri := pri, entries := es, port := p, short := short }
  else s.transmit p bs

/-! ### TIMING (R349) -/

/-- Own device address in the fabric. -/
def State.ownAddr (s : State) : Nat := s.get Od.card_OWN_ADDR

/-- The TIMING packet that falls due. -/
def State.sendTiming (s : State) (p : Nat) : State :=
  let l := s.link p
  let t := l.timing
  let seq := t.sent + 1
  let rts := if t.lastRts = [] then List.replicate 8 (⟨0, 0, 0⟩ : RTime) else t.lastRts
  let payload := leBytes 8 seq ++ leBytes 8 t.lastTx ++ leBytes 8 t.rxSeq ++ leBytes 8 t.rxAt ++
    rts.flatMap fun r => leBytes 9 (RTime.word r)
  let h : ChHeader := { dest := 0, srcDev := s.ownAddr, kind := 3, prio := 7 }
  (s.setLink p { l with timing := { t with sent := seq, dueAt := some s.cycle } }).sendControl p 7 false (h.packet payload)

/-- A received TIMING packet: the link delay, and the neighbour's raster times (R349). -/
def State.takeTiming (s : State) (p : Nat) (x : TimingPayload) : State :=
  let l := s.link p
  let t := l.timing
  let fresh := decide (t.rxSeq + 1 = x.seqT ∧ 0 < t.rxSeq)
  let delay := match t.txTimes.find? fun e => e.1 = x.echoSeq with
    | some (_, t1) => if fresh then (((t.rxAt : Int) - t1) - ((x.prevTx : Int) - x.echoRx)) / 2 else t.delay
    | none => t.delay
  s.setLink p { l with timing := { t with
    rxSeq := x.seqT, rxAt := s.linkTime, delay := delay
    rts := if fresh then x.rts else t.rts, rtsAt := if fresh then t.rxAt else t.rtsAt } }

/-- Line ticks of a domain that a time in 1/65,536 ns takes. -/
def State.ticksOf (s : State) (rd : Nat) (t : Int) : Int :=
  t * (s.ticksPer rd : Nat) / ((65536 * 10 ^ 9 * s.get Od.rd_RATE_DEN rd : Nat) : Int)

/-- The neighbour's raster time of RD_rd now: RT_k advanced by the delay and the time since (R19, R349). -/
def State.neighbourTime (s : State) (p rd : Nat) : Option RTime :=
  let t := (s.link p).timing
  match t.rts[rd]? with
  | none => none
  | some r => some (rshift (s.lpf rd) r (s.ticksOf rd (t.delay + ((s.linkTime : Int) - t.rtsAt))))

end Sys2Proof.Machine
end

