-- ==== Sys2Proof/Machine/EgressOps.lean ====
section
/-! DEFINITION. The operations of egress scheduling (R400–R412): the shaper's eligibility, the calendar, gate lists and their
guard, resets, and appends seen by the shaper. Times are linear line-tick counts of the port's domain. -/

namespace Sys2Proof.Machine

def State.egPort (s : State) (p : Nat) : EgressPort := tget s.egress.ports {} p

def State.setEgPort (s : State) (p : Nat) (x : EgressPort) : State :=
  { s with egress := { s.egress with ports := tput s.egress.ports {} p x } }

def State.shaper (s : State) (q : Nat) : ShaperQueue := tget s.egress.queues {} q

def State.setShaper (s : State) (q : Nat) (x : ShaperQueue) : State :=
  { s with egress := { s.egress with queues := tput s.egress.queues {} q x } }

/-- A port's raster domain. -/
def State.portDomain (s : State) (p : Nat) : Nat := s.get Od.port_DOMAIN p % 8

/-- Lines per frame of a port's domain. -/
def State.portLpf (s : State) (p : Nat) : Nat := s.lpf (s.portDomain p)

/-- Linear tick count of a port's present. -/
def State.ticksNow (s : State) (p : Nat) : Nat := linear (s.portLpf p) (s.now (s.portDomain p))

/-- Difference of two linear counts of a port, signed (R10). -/
def State.ticksDiff (s : State) (p a b : Nat) : Int := signedMod (countCycle (s.portLpf p)) ((a : Int) - b)

/-- A linear count moved by ticks. -/
def State.ticksAdd (s : State) (p a : Nat) (d : Int) : Nat :=
  (((a : Int) + d) % (countCycle (s.portLpf p) : Int)).toNat

/-! ### The shaper (R401–R404) -/

/-- Raw RATE of a queue. -/
def State.rate (s : State) (q : Nat) : Nat := s.get Od.egr_RATE (q / 8) (q % 8)

/-- Cost of a packet (R401). -/
def State.cost (s : State) (q : Nat) (k : Packet) : Nat :=
  ((k.length : Int) + s.getInt Od.egr_OVERHEAD (q / 8) (q % 8)).toNat

/-- Ticks to carry c bytes at the rate r. -/
def carryTicks (c r : Nat) : Nat := ceilDiv (c * 2 ^ 24) r

/-- Burst tolerance in ticks. -/
def burstTicks (burst r : Nat) : Nat := burst * 2 ^ 24 / r

/-- E of a head packet of cost c, at time `now` (R402). -/
def State.eligibility (s : State) (q c now : Nat) : Nat :=
  let p := q / 8
  let r := s.rate q
  let back := s.ticksAdd p now (-(burstTicks (s.get Od.egr_BURST p (q % 8)) r : Int))
  let base := if 0 < s.ticksDiff p back (s.shaper q).tPrev then back else (s.shaper q).tPrev
  s.ticksAdd p base (carryTicks c r)

/-- Index of the slot of a time (R404): the first slot at or after it. -/
def slotOf (e : Nat) : Nat := ceilDiv e 4096

/-- The slot of a time has come. -/
def State.slotReached (s : State) (p e : Nat) : Bool := decide (0 ≤ s.ticksDiff p (s.ticksNow p) (slotOf e * 4096))

/-- Places a queue against the E it holds: eligible already, in its slot, or parked (R404). -/
def State.place (s : State) (q : Nat) : State :=
  let p := q / 8
  let x := s.shaper q
  match x.elig with
  | none => s.setShaper q { x with slot := none }
  | some e =>
    if s.slotReached p e then s.setShaper q { x with slot := none }
    else
      let x := if x.waited then x else { x with waited := true, shaped := (x.shaped + 1) % 2 ^ 32 }
      let here := s.ticksNow p / 4096
      if s.ticksDiff p (slotOf e * 4096) (here * 4096) < 4096 * 4096 then s.setShaper q { x with slot := some (slotOf e) }
      else s.setShaper q { x with slot := some (here + 4095), parked := (x.parked + 1) % 2 ^ 32 }

/-! ### Gate lists (R408, R409) -/

/-- The entries that 8-byte records spell: MASK and DURATION. -/
def gateEntries (bs : List Byte) : List (Nat × Nat) :=
  (List.range (bs.length / 8)).map fun k => (leAt bs (8 * k) 1, leAt bs (8 * k + 4) 4)

/-- The records of a list. -/
def gateBytes (es : List (Nat × Nat)) : List Byte :=
  es.flatMap fun e => leBytes 1 e.1 ++ leBytes 3 0 ++ leBytes 4 e.2

/-- Cycle of a list in ticks. -/
def State.gateCycle (s : State) (p cyc : Nat) : Nat := if cyc = 0 then s.portLpf p * 65536 else cyc

/-- The segments of a cycle: entries cut at its end, the last one held to its end. -/
def gateSegments : Nat → List (Nat × Nat) → List (Nat × Nat)
  | _, [] => []
  | left, [(m, _)] => if left = 0 then [] else [(m, left)]
  | left, (m, d) :: rest => if left ≤ d then (if left = 0 then [] else [(m, left)]) else (m, d) :: gateSegments (left - d) rest

/-- The mask at a position of the cycle. -/
def maskAt : List (Nat × Nat) → Nat → Nat
  | [], _ => 0xFF
  | (m, d) :: rest, pos => if pos < d then m else maskAt rest (pos - d)

/-- Ticks for which queue q stays open from a position on, over a list of segments. -/
def openRun (q : Nat) : List (Nat × Nat) → Nat → Nat
  | [], _ => 0
  | (m, d) :: rest, pos =>
    if d ≤ pos then openRun q rest (pos - d)
    else if m.testBit q then d - pos + openRun q rest 0
    else 0

/-- Ticks until the gate of q closes, from a position of a cycle; none when it never does. -/
def openFor (q : Nat) (segs : List (Nat × Nat)) (pos : Nat) : Option Nat :=
  if segs.all fun e => e.1.testBit q then none else some (openRun q (segs ++ segs) pos)

/-- Longest unbroken run of the gate of q, runs that wrap included. -/
def longestRun (q : Nat) : List (Nat × Nat) → Nat → Nat → Nat
  | [], cur, best => max cur best
  | (m, d) :: rest, cur, best =>
    if m.testBit q then longestRun q rest (cur + d) best else longestRun q rest 0 (max cur best)

/-- Longest run of a cycle; none when the gate never closes. -/
def longestOpen (q : Nat) (segs : List (Nat × Nat)) : Option Nat :=
  if segs.all fun e => e.1.testBit q then none else some (longestRun q (segs ++ segs) 0 0)

/-- Segments of the list in force, if there is one. -/
def State.gateSegs (s : State) (p : Nat) : Option (List (Nat × Nat)) :=
  (s.egPort p).gates.map fun g => gateSegments (s.gateCycle p (s.get Od.egr_OPER_CYCLE p)) g

/-- Segments of a pending list. -/
def State.pendingSegs (s : State) (p : Nat) (c : GateChange) : Option (List (Nat × Nat)) :=
  c.install.map fun i => gateSegments (s.gateCycle p i.2.1) i.2.2

/-- L(BASE) of the list in force. -/
def State.gateBase (s : State) (p : Nat) : Nat := linear (s.portLpf p) (RTime.ofWord (s.get Od.egr_OPER_BASE p))

/-- Position within the cycle of the list in force. -/
def State.gatePos (s : State) (p : Nat) : Nat :=
  (s.ticksDiff p (s.ticksNow p) (s.gateBase p) % (s.gateCycle p (s.get Od.egr_OPER_CYCLE p) : Int)).toNat

/-- Number of the cycle in progress, counted from BASE, modulo 2^64. -/
def State.gateCycleNo (s : State) (p : Nat) : Nat :=
  (s.ticksDiff p (s.ticksNow p) (s.gateBase p) / (s.gateCycle p (s.get Od.egr_OPER_CYCLE p) : Int) % 2 ^ 64).toNat

/-- Ticks that the last byte of a packet of cost c takes to leave at the port's line rate (R409). -/
def State.wireTicks (s : State) (p c : Nat) : Nat :=
  ceilDiv (c * s.ticksPer (s.portDomain p)) (s.get Od.port_ACTIVE_WIDTH p * 1250000000 * s.get Od.rd_RATE_DEN (s.portDomain p))

/-- The gate of queue q is open now. -/
def State.gateOpen (s : State) (q : Nat) : Bool := (s.get Od.egr_GATE_STATE (q / 8)).testBit (q % 8)

/-- The guard lets a packet of cost c start: its gate stays open until its last byte has left (R409). -/
def State.guardAllows (s : State) (q c : Nat) : Bool :=
  let p := q / 8
  if ¬ s.flag Od.egr_GATE_GUARD p then true
  else
    let need := s.wireTicks p c
    let now := match s.gateSegs p with
      | none => none
      | some g => openFor (q % 8) g (s.gatePos p)
    match (s.egPort p).change with
    | none => match now with
      | none => true
      | some n => decide (need ≤ n)
    | some ch =>
      let left := (s.ticksDiff p ch.startAt (s.ticksNow p)).toNat
      match now with
      | some n =>
        if n < left then decide (need ≤ n)
        else match s.pendingSegs p ch with
          | none => true
          | some g => match openFor (q % 8) g 0 with
            | none => true
            | some m => decide (need ≤ left + m)
      | none => match s.pendingSegs p ch with
        | none => true
        | some g => match openFor (q % 8) g 0 with
          | none => true
          | some m => decide (need ≤ left + m)

/-- A run of open ticks is too short for a need. -/
def tooShort (need : Nat) (run : Option Nat) : Bool := match run with
  | none => false
  | some n => decide (n < need)

/-- The guard discards a head packet: no run of its gate is long enough, under the list in force and any pending list. -/
def State.guardDiscards (s : State) (q c : Nat) : Bool :=
  let p := q / 8
  s.flag Od.egr_GATE_GUARD p &&
    (match s.gateSegs p with
      | none => false
      | some g => tooShort (s.wireTicks p c) (longestOpen (q % 8) g)) &&
    (match (s.egPort p).change with
      | none => true
      | some ch => match s.pendingSegs p ch with
        | none => false
        | some g => tooShort (s.wireTicks p c) (longestOpen (q % 8) g))

/-! ### Heads of queues -/

/-- A packet of the queue is still leaving the port. -/
def State.sendingFrom (s : State) (q : Nat) : Bool :=
  (match (s.egPort (q / 8)).sending with
    | some x => decide (x.queue = q)
    | none => false) ||
  (match (s.egPort (q / 8)).interrupted with
    | some x => decide (x.queue = q)
    | none => false)

/-- The head packets that the guard discards leave the queue (R409). -/
def State.guardPurge : Nat → State → Nat → State
  | 0, s, _ => s
  | n + 1, s, q =>
    match (s.queue q).head with
    | none => s
    | some k =>
      if s.guardDiscards q (s.cost q k) then
        match s.readQueue q with
        | none => s
        | some (s', k') =>
          let x := s'.shaper q
          State.guardPurge n ((s'.setShaper q { x with guardDrops := (x.guardDrops + 1) % 2 ^ 32 }).decrementAll k'.entries) q
      else s

/-- The head packet of a queue takes its E and its place at the present (R402, R404). -/
def State.headPlaced (s : State) (q : Nat) : State :=
  let x := { s.shaper q with elig := none, slot := none }
  match (s.queue q).head with
  | none => s.setShaper q x
  | some k =>
    if s.rate q = 0 then s.setShaper q x
    else (s.setShaper q { x with elig := some (s.eligibility q (s.cost q k) (s.ticksNow (q / 8))) }).place q

/-- A packet becomes the head of an egress queue: the guard's test, then its E and its place (R403, R409). -/
def State.newHead (s : State) (q : Nat) : State :=
  let s := s.guardPurge (s.queue q).packets.length q
  (s.setShaper q { s.shaper q with waited := false, gated := false }).headPlaced q

/-- The head packet is eligible under its shaper. -/
def State.headEligible (s : State) (q : Nat) : Bool :=
  if s.rate q = 0 then true
  else match (s.shaper q).elig with
    | none => false
    | some e => s.slotReached (q / 8) e

/-- A reset of a queue's shaper at time S: its T_prev, and the E and place of its head packet (R405). -/
def State.resetShaper (s : State) (q : Nat) : State :=
  let p := q / 8
  let now := s.ticksNow p
  let r := s.rate q
  let t := if s.get Od.egr_RESET_MODE p (q % 8) = 1 ∧ r ≠ 0 then
    s.ticksAdd p now (-(burstTicks (s.get Od.egr_BURST p (q % 8)) r : Int)) else now
  let s := s.setShaper q { s.shaper q with tPrev := t }
  if s.sendingFrom q then s else s.headPlaced q

/-- Every shaped queue of the ports on a domain is reset at its jump (R406). [DESIGN CHOICE, unsafe: log entry 26.] -/
def State.jumpShapers (s : State) (rd : Nat) : State :=
  (List.range 1024).foldl (fun t q =>
    if t.portDomain (q / 8) = rd ∧ t.rate q ≠ 0 then t.resetShaper q else t) s

/-- Appends a packet to a queue (R322, R324): it is linked and, as the new head of an egress queue, gets its E; or it is
dropped. -/
def State.append (s : State) (q : Nat) (k : Packet) : State :=
  match s.appendFate q k.entries.length with
  | .linked =>
    let top := (s.queue q).head
    let s := s.linkPacket q k
    if q < 1024 ∧ (s.queue q).head ≠ top ∧ ¬ s.sendingFrom q then s.newHead q else s
  | f => s.dropAppend q k f

/-- Links one set of payload batts to its destinations (R315). -/
def State.linkSet (s : State) (es : List QEntry) (ds : List PacketDest) (sid : Option Nat) (chaec : Bool) : State :=
  ds.foldl (fun t d => t.append d.queue (d.packet es sid chaec)) (s.setRefs es ds.length)

/-- Releases a packet to its destinations: set 0 at once, the further sets by copies (R313, R315). With no destination its
batts return. -/
def State.release (s : State) (es : List QEntry) (ds : List PacketDest) (pool kind owner : Nat) (sid : Option Nat)
    (chaec : Bool) : State :=
  match destSets (ds.length + 1) ds with
  | [] => s.decrementAll es
  | d0 :: more =>
    let data := s.entryBytes es
    let s := s.linkSet es d0 sid chaec
    { s with queues := { s.queues with copies := s.queues.copies ++ more.map fun d => ⟨data, d, pool, kind, owner, sid, chaec⟩ } }

/-- The next copy of a further payload set is written, or skipped (R315). -/
def State.copyNext (s : State) : State :=
  match s.queues.copies with
  | [] => s
  | c :: rest =>
    let s := { s with queues := { s.queues with copies := rest } }
    match s.allocate c.pool c.kind c.owner (battsFor c.data.length) 1 with
    | none => s.bumpBy Od.pool_REPLICATION_DROPS c.pool 0 c.dests.length
    | some (s', bs) =>
      let r := s'.fillBatts bs c.data
      r.1.linkSet r.2 c.dests c.sid c.chaec

/-! ### Starting a packet (R400) -/

/-- Control queues in the order in which they are taken. -/
def controlQueues : List Nat := [1568, 1569, 1570, 1571]

/-- The oldest packet of the highest PRI of a control queue for a port. -/
def controlHead (ks : List Packet) (p : Nat) : Option Packet :=
  let mine := ks.filter fun k => k.port = p
  mine.find? fun k => k.pri = topPri mine

/-- A control packet that a port sends: a HALTED engine sends no GLOBAL packet (R457). -/
def State.mayControl (s : State) (p : Nat) (k : Packet) : Bool :=
  !s.halted || !s.isBand p || decide ((ChHeader.ofBytes (s.entryBytes k.entries)).kind ≠ 5)

/-- The control queue that holds a packet for the port. -/
def State.controlFor (s : State) (p : Nat) : Option (Nat × Packet) :=
  controlQueues.findSome? fun q => (controlHead ((s.queue q).packets.filter fun k => s.mayControl p k) p).map fun k => (q, k)

/-- Highest queue of a port whose head may start now; none while HALTED (R457). -/
def State.sendable (s : State) (p : Nat) : Option Nat :=
  if s.halted then none
  else ((List.range 8).map fun k => 8 * p + 7 - k).find? fun q =>
    match (s.queue q).head with
    | none => false
    | some k => s.headEligible q && s.gateOpen q && !(s.link p).paused.testBit k.pri && s.guardAllows q (s.cost q k) &&
        !s.sendingFrom q

/-- Heads that are eligible but wait for a gate or the guard are counted once (R413). -/
def State.countGated (s : State) (p : Nat) : State :=
  (List.range 8).foldl (fun t k =>
    let q := 8 * p + k
    match (t.queue q).head with
    | none => t
    | some h =>
      let x := t.shaper q
      if t.headEligible q ∧ ¬ x.gated ∧ (¬ t.gateOpen q ∨ ¬ t.guardAllows q (t.cost q h)) then
        t.setShaper q { x with gated := true, gatedCount := (x.gatedCount + 1) % 2 ^ 32 }
      else t) s

/-- Starts a packet of a queue on its port. -/
def State.startFrom (s : State) (p q : Nat) : State :=
  match s.readQueue q with
  | none => s
  | some (s', k) =>
    let x := s'.shaper q
    let c := s'.cost q k
    let t := if s'.rate q = 0 then s'.ticksNow p else x.elig.getD (s'.ticksNow p)
    let s' := s'.setShaper q { x with
      tPrev := t, elig := none, slot := none, packets := (x.packets + 1) % 2 ^ 64, bytes := (x.bytes + c) % 2 ^ 64 }
    (s'.setEgPort p { s'.egPort p with sending := some ⟨q, k⟩ }).transmit p (s'.packetOut p k)

/-- Starts a control packet on a port. -/
def State.startControl (s : State) (p q : Nat) (k : Packet) : State :=
  match takeFirst (fun x : Packet => decide (x = k)) (s.queue q).packets with
  | none => s
  | some (_, ks) =>
    let s := s.setQueue q { s.queue q with packets := ks }
    (s.setEgPort p { s.egPort p with sending := some ⟨q, k⟩ }).transmit p (s.packetOut p k)

end Sys2Proof.Machine
end

