-- ==== Sys2Proof/Machine/FabricOps.lean ====
section
/-! DEFINITION. The operations of the fabric (R358–R397): carding messages and state, the forwarding tables, the routing of
packets and frames, global operations. -/

namespace Sys2Proof.Machine

/-- Command code of a global operation. -/
def globalCode : GlobalKind → Nat
  | .fabricSwap => 0x11
  | .snapshot _ => 0x12
  | .broadcast _ => 0x13

/-! ### Carding (R360–R372) -/

def State.card (s : State) : CardState := s.fabric.card

def State.setCard (s : State) (c : CardState) : State := { s with fabric := { s.fabric with card := c } }

/-- A band takes part in carding (R360). -/
def State.cardBand (s : State) (p : Nat) : Bool := s.isBand p && s.portActive p && !(s.link p).loopback

/-- A band that joins two separate fabrics (R370). [DESIGN CHOICE, unsafe: log entry 48.] -/
def State.foreignBand (s : State) (p : Nat) : Bool :=
  s.card.neighbours.any fun n =>
    decide (n.port = p ∧ s.get Od.card_CARD_STATE = 2 ∧ n.offer.addr ≠ 0xFFFF ∧
      (n.offer.root ≠ s.get Od.card_ROOT_SERIAL ∨ n.offer.epoch ≠ s.get Od.card_EPOCH))

/-- The bands that take part in carding. -/
def State.cardBands (s : State) : List Nat := (List.range 128).filter fun p => s.cardBand p

/-- Sends a carding message on a band, at priority 7. -/
def State.sendCard (s : State) (p : Nat) (payload : List Byte) : State :=
  s.sendControl p 7 false (({ dest := 0xFFFF0000, srcDev := s.ownAddr, kind := 4, prio := 7 } : ChHeader).packet payload)

/-- Sends a carding message on several bands. -/
def State.sendCards (s : State) (ps : List Nat) (payload : List Byte) : State := ps.foldl (fun t p => t.sendCard p payload) s

/-- Sets CARD_STATE and raises its source (R435). -/
def State.setCardState (s : State) (v : Nat) : State :=
  if s.get Od.card_CARD_STATE = v then s else (s.set Od.card_CARD_STATE 0 v).raise 244

/-- An operation that is armed and whose AT has not passed is discarded by a new epoch; its issuer completes (R397). -/
def State.discardOps (s : State) : State :=
  let gone := s.fabric.ops.filter fun o => o.part.isNone
  let ids := gone.map fun o : GlobalOp => o.opId
  let notes := gone.map fun o : GlobalOp => (o.opId, globalCode o.kind, 3, o.applied, o.at_)
  let s := { s with fabric := { s.fabric with
    ops := mapIf (fun o : GlobalOp => o.part.isNone) (fun o => { o with part := some 3, confirmed := true }) s.fabric.ops
    log := (notes.reverse ++ s.fabric.log).take 16 } }
  let s := { s with raster := { s.raster with sched := s.raster.sched.filter fun e => match e.kind with
    | .globalOp i => decide (i ∉ ids)
    | _ => true } }
  gone.foldl (fun t o => if o.from_.isNone then t.finishCommand (globalCode o.kind) Result.unreachable (leBytes 2 o.applied) else t) s

/-- Takes an epoch with carding state cleared, and sends RESTART on the bands (R361). -/
def State.takeEpoch (s : State) (e : Nat) (but : Option Nat) : State :=
  let s := s.discardOps
  let s := (((((((s.set Od.card_EPOCH 0 e).set Od.card_OWN_ADDR 0 0xFFFF).set Od.card_BLOCK 0 0).set Od.card_ROOT_SERIAL 0
    s.serial).set Od.card_PARENT_PORT 0 255).set Od.card_DEPTH 0 0).set Od.card_FAIL_CAUSE 0 0).set Od.card_MAX_DEPTH 0 0
  let s := s.setCard { epochAt := s.cycle, changedAt := s.cycle, valuesAt := s.cycle, hbAt := s.cycle, starting := s.card.starting }
  (s.setCardState 1).sendCards ((s.cardBands).filter fun p => decide (some p ≠ but)) (leBytes 1 1 ++ leBytes 4 e)

/-- Starts an epoch of this device's own (R361). -/
def State.startEpoch (s : State) : State :=
  s.takeEpoch ((s.card.neighbours.foldl (fun m n => max m n.offer.epoch) (s.get Od.card_EPOCH) + 1) % 2 ^ 32) none

/-- Rank of an offer: root, distance, sender, port, smaller is better (R362). -/
def offerRank (n : CardNeighbour) : Nat × Nat × Nat × Nat :=
  (serialRank n.offer.root, n.offer.dist + 1, serialRank n.offer.serial, n.port)

/-- A comes before B in the order of R362. -/
def rankLt (a b : Nat × Nat × Nat × Nat) : Bool :=
  decide (a.1 < b.1 ∨ (a.1 = b.1 ∧ (a.2.1 < b.2.1 ∨ (a.2.1 = b.2.1 ∧
    (a.2.2.1 < b.2.2.1 ∨ (a.2.2.1 = b.2.2.1 ∧ a.2.2.2 < b.2.2.2))))))

/-- The best of the neighbours' offers. -/
def bestOffer : List CardNeighbour → Option CardNeighbour
  | [] => none
  | n :: ns => match bestOffer ns with
    | none => some n
    | some m => if rankLt (offerRank m) (offerRank n) then some m else some n

/-- The offer that the device adopts: none when its own is best. -/
def State.adopted (s : State) : Option CardNeighbour :=
  match bestOffer (s.card.neighbours.filter fun n => n.offer.epoch = s.get Od.card_EPOCH) with
  | none => none
  | some n => if rankLt (serialRank s.serial, 0, serialRank s.serial, 0) (offerRank n) then none else some n

/-- The CHILD message (R363). -/
def State.childMsg (s : State) : List Byte := leBytes 1 3 ++ leBytes 4 (s.get Od.card_EPOCH) ++ leBytes 16 s.serial

/-- Adopts the best offer: a change of parent is announced by CHILD, and a device beside a CARDED fabric sends JOIN. -/
def State.adopt (s : State) : State :=
  let best := s.adopted
  if best.map (fun n => n.port) = s.card.parent.map (fun n => n.port) ∧
      best.map (fun n => (n.offer.root, n.offer.dist)) = s.card.parent.map (fun n => (n.offer.root, n.offer.dist)) then
    s.setCard { s.card with parent := best }
  else
    let s := s.setCard { s.card with parent := best, counts := none, changedAt := s.cycle }
    match best with
    | none => ((s.set Od.card_PARENT_PORT 0 255).set Od.card_DEPTH 0 0).set Od.card_ROOT_SERIAL 0 s.serial
    | some n =>
      let s := ((s.set Od.card_PARENT_PORT 0 n.port).set Od.card_DEPTH 0 (n.offer.dist + 1)).set Od.card_ROOT_SERIAL 0
        n.offer.root
      let s := s.sendCard n.port s.childMsg
      if n.offer.addr ≠ 0xFFFF then
        (s.setCard { s.card with joining := true }).sendCard n.port (leBytes 1 6 ++ leBytes 16 s.serial)
      else s

/-- The OFFER message of this device (R362). -/
def State.offerMsg (s : State) : List Byte :=
  leBytes 1 2 ++ leBytes 4 (s.get Od.card_EPOCH) ++ leBytes 16 (s.get Od.card_ROOT_SERIAL) ++
    leBytes 1 (s.get Od.card_DEPTH) ++ leBytes 1 (s.get Od.card_MAX_DEPTH) ++ leBytes 2 s.ownAddr ++
    leBytes 4 s.card.hbSeq ++ leBytes 16 s.serial

/-- Replaces what is known of the neighbour on a band. -/
def State.noteNeighbour (s : State) (p : Nat) (o : CardOffer) : State :=
  s.setCard { s.card with neighbours := ⟨p, o⟩ :: s.card.neighbours.filter fun n => n.port ≠ p }

/-- An OFFER arrives (R361, R362, R370, R372). -/
def State.takeOffer (s : State) (p : Nat) (o : CardOffer) : State :=
  if ¬ s.cardBand p then s
  else if s.get Od.card_CARD_STATE = 2 ∧ o.addr ≠ 0xFFFF ∧
      (o.root ≠ s.get Od.card_ROOT_SERIAL ∨ o.epoch ≠ s.get Od.card_EPOCH) then s.noteNeighbour p o
  else if s.get Od.card_EPOCH < o.epoch then ((s.takeEpoch o.epoch (some p)).noteNeighbour p o).adopt
  else if o.epoch < s.get Od.card_EPOCH then s
  else
    let s := s.noteNeighbour p o
    let s := if s.get Od.card_PARENT_PORT = p ∧ o.hbSeq ≠ s.card.hbSeq then
      s.setCard { s.card with hbSeq := o.hbSeq, hbAt := s.cycle } else s
    if s.get Od.card_CARD_STATE = 2 then
      if s.get Od.card_PARENT_PORT = p then s.set Od.card_DEPTH 0 (o.dist + 1) else s
    else s.adopt

/-- A CHILD message names this device (R363): among several bands to one child the lowest-numbered is the tree band. -/
def State.takeChild (s : State) (p epoch serial : Nat) : State :=
  if ¬ s.cardBand p ∨ epoch ≠ s.get Od.card_EPOCH then s
  else match s.card.children.find? fun c => c.serial = serial with
    | none => s.setCard { s.card with children := s.card.children ++ [⟨p, serial, none⟩], counts := none, changedAt := s.cycle }
    | some c => if p < c.port then
        s.setCard { s.card with
          children := mapIf (fun c : CardChildState => decide (c.serial = serial)) (fun c => { c with port := p }) s.card.children
          counts := none, changedAt := s.cycle } else s

/-- A child's COUNT (R363). -/
def State.takeCount (s : State) (p : Nat) (c : CardCounts) : State :=
  if c.epoch ≠ s.get Od.card_EPOCH then s
  else s.setCard { s.card with
    children := mapIf (fun k : CardChildState => decide (k.port = p)) (fun k => { k with counts := some c }) s.card.children
    counts := none, valuesAt := s.cycle }

/-- ceil(log2 n). -/
def clog2 (n : Nat) : Nat := if n ≤ 1 then 0 else Nat.log2 (n - 1) + 1

/-- The two largest of some numbers, summed. -/
def twoLargest (l : List Nat) : Nat :=
  let m := l.foldl (fun (a : Nat × Nat) x => if a.1 ≤ x then (x, a.1) else if a.2 < x then (a.1, x) else a) (0, 0)
  m.1 + m.2

/-- The COUNT of a device with given children's counts (R363). -/
def countsOf (epoch : Nat) (cs : List CardCounts) : CardCounts :=
  { epoch := epoch
    need := if cs = [] then 1 else 2 ^ clog2 (1 + (cs.map fun c => c.need).sum)
    devices := 1 + (cs.map fun c => c.devices).sum
    height := if cs = [] then 0 else 1 + (cs.map fun c => c.height).foldl max 0
    diam := max ((cs.map fun c => c.diam).foldl max 0) (twoLargest (cs.map fun c => c.height + 1)) }

/-- Children before one another: decreasing NEED, then the lower SERIAL (R365). -/
def childBefore (a b : CardChildState) : Bool :=
  let na : Nat := (a.counts.map fun c => c.need).getD 0
  let nb : Nat := (b.counts.map fun c => c.need).getD 0
  decide (nb < na ∨ (na = nb ∧ serialRank a.serial ≤ serialRank b.serial))

def insertChild (c : CardChildState) : List CardChildState → List CardChildState
  | [] => [c]
  | d :: ds => if childBefore c d then c :: d :: ds else d :: insertChild c ds

/-- Children with the BASE of each one's block (R365). -/
def placeChildren (base : Nat) (cs : List CardChildState) : List (CardChildState × Nat) :=
  ((cs.foldr insertChild []).foldl (fun (a : List (CardChildState × Nat) × Nat) c =>
    (a.1 ++ [(c, a.2)], a.2 + (c.counts.map fun k => k.need).getD 0)) ([], base)).1

/-! ### The longest-prefix table (R380, R381) -/

/-- A fabric route of an origin. -/
def fabricRoute (origin plen port key : Nat) : LpmEntry :=
  { w0 := 2 ^ 71 + origin * 2 ^ 67 + plen * 2 ^ 59 + port * 2 ^ 48, w1 := key % 2 ^ 32 * 2 ^ 40, w2 := 0 }

def LpmEntry.ty (e : LpmEntry) : Nat := bits e.w0 69 2
def LpmEntry.origin (e : LpmEntry) : Nat := bits e.w0 67 2
def LpmEntry.plen (e : LpmEntry) : Nat := bits e.w0 59 8
def LpmEntry.port (e : LpmEntry) : Nat := bits e.w0 48 8
def LpmEntry.nextHop (e : LpmEntry) : Nat := bits e.w0 0 48
def LpmEntry.key (e : LpmEntry) : Nat := bits e.w1 0 72 * 2 ^ 56 + bits e.w2 16 56

/-- The top PLEN bits of a 128-bit key. -/
def topBits (plen key : Nat) : Nat := key % 2 ^ 128 / 2 ^ (128 - plen)

/-- An entry matches a lookup key of a type. -/
def LpmEntry.hits (e : LpmEntry) (ty key : Nat) : Bool :=
  decide (e.ty = ty ∧ topBits e.plen e.key = topBits e.plen key)

/-- Two entries have one key. -/
def LpmEntry.sameKey (a b : LpmEntry) : Bool :=
  decide (a.ty = b.ty ∧ a.plen = b.plen ∧ topBits a.plen a.key = topBits b.plen b.key)

/-- Slots of a list of entries. -/
def slotsOf {α : Type} (l : List α) : Tab α := (List.range l.length).zip l

/-- Inserts an entry before the first one of shorter prefix, or replaces the one of its key. -/
def lpmInsert (e : LpmEntry) : List LpmEntry → List LpmEntry
  | [] => [e]
  | d :: ds => if d.sameKey e then e :: ds else if d.plen < e.plen then e :: d :: ds else d :: lpmInsert e ds

/-- Entries of a copy in slot order, longest prefix first. -/
def TableCopy.routes (c : TableCopy) : List LpmEntry := c.lpm.map fun e => e.2

/-- A write that changes tables reaches the shadow and both copies (R388). -/
def State.writeTables (s : State) (f : TableCopy → TableCopy) : State :=
  { s with fabric := { s.fabric with shadow := f s.fabric.shadow, copy0 := f s.fabric.copy0, copy1 := f s.fabric.copy1 } }

/-- Rewrites the longest-prefix table. -/
def State.setRoutes (s : State) (l : List LpmEntry) : State := s.writeTables fun c => { c with lpm := slotsOf l }

/-- Inserts a route. -/
def State.addRoute (s : State) (e : LpmEntry) : State := s.setRoutes (lpmInsert e s.fabric.copy0.routes)

/-- The copy that serves a port: engine 0 for ports 0–63 and the engine's own traffic (R377). -/
def State.copyFor (s : State) (p : Option Nat) : TableCopy :=
  match p with
  | some q => if 64 ≤ q then s.fabric.copy1 else s.fabric.copy0
  | none => s.fabric.copy0

/-- Longest-prefix lookup (R381). -/
def TableCopy.route (c : TableCopy) (ty key : Nat) : Option LpmEntry := c.routes.find? fun e => e.hits ty key

/-! ### Assignment (R364–R366) -/

/-- Installs this device's block and routes, and forwards ASSIGN to its children (R366). -/
def State.installBlock (s : State) (base log2 devices diameter maxDepth : Nat) : State :=
  let own := base + 2 ^ log2 - 1
  let placed := placeChildren base s.card.children
  let keep := s.fabric.copy0.routes.filter fun e => decide (e.origin ≠ 1 ∧ e.origin ≠ 2)
  let routes := fabricRoute 1 16 0xFE (own * 65536) ::
    placed.map (fun c => fabricRoute 1 (16 - clog2 ((c.1.counts.map fun k => k.need).getD 1)) c.1.port (c.2 * 65536)) ++
    (match s.card.parent with
      | some n => [fabricRoute 1 0 n.port 0]
      | none => [])
  let s := s.setRoutes (routes.foldl (fun l e => lpmInsert e l) keep)
  let s := ((((s.set Od.card_OWN_ADDR 0 own).set Od.card_BLOCK 0 (base * 65536 + log2)).set Od.card_FABRIC_DEVICES 0
    devices).set Od.card_FABRIC_DIAMETER 0 diameter).set Od.card_MAX_DEPTH 0 maxDepth
  let s := placed.foldl (fun t c => t.sendCard c.1.port
    (leBytes 1 5 ++ leBytes 4 (t.get Od.card_EPOCH) ++ leBytes 2 c.2 ++
      leBytes 1 (clog2 ((c.1.counts.map fun k => k.need).getD 1)) ++ leBytes 2 devices ++ leBytes 1 diameter ++
      leBytes 1 maxDepth)) s
  let s := (s.setCard { s.card with hbAt := s.cycle, joining := false }).setCardState 2
  let s := if 64 < devices ∧ s.get Od.tab_LEARN_MODE = 0 then
      (s.set Od.tab_LEARN_SUSPENDED 0 1).reportInfo (Unit.forwarding 0) 0x2A 0
    else s.set Od.tab_LEARN_SUSPENDED 0 0
  if s.card.starting then (s.setCard { s.card with starting := false }).finishCommand 0x41 Result.ok (leBytes 2 devices) else s

/-- FAIL_CAUSE of the root's refusal, or none (R364). -/
def cardRefusal (c : CardCounts) : Option Nat :=
  if 4096 < c.devices then some 2 else if 12 < c.diam then some 1 else if 32768 < c.need then some 3 else none

/-- Carding fails at this device (R364, R368). -/
def State.cardFails (s : State) (cause result : Nat) : State :=
  let s := (((s.set Od.card_FAIL_CAUSE 0 cause).setCardState 4)).reportInfo Unit.carding 0x38 cause
  if s.card.starting then (s.setCard { s.card with starting := false }).finishCommand 0x41 result [] else s

/-- Nothing has changed for CARD_QUIET: the parent and the children, and, at the root, its values (R363). -/
def State.cardIsQuiet (s : State) : Bool :=
  decide ((if s.card.parent.isNone then max s.card.changedAt s.card.valuesAt else s.card.changedAt) +
    msCycles (s.get Od.card_CARD_QUIET) ≤ s.cycle)

/-- CARD_QUIET has passed without a change: COUNT goes to the parent, or the root assigns (R363–R365). -/
def State.cardQuiet (s : State) : State :=
  if s.get Od.card_CARD_STATE ≠ 1 ∨ s.card.counts.isSome ∨ s.card.children.any (fun c => c.counts.isNone) ∨ ¬ s.cardIsQuiet then s
  else
    let c := countsOf (s.get Od.card_EPOCH) (s.card.children.filterMap fun k => k.counts)
    let s := s.setCard { s.card with counts := some c }
    match s.card.parent with
    | some n => s.sendCard n.port (leBytes 1 4 ++ leBytes 4 c.epoch ++ leBytes 4 c.need ++ leBytes 2 c.devices ++
        leBytes 1 c.height ++ leBytes 1 c.diam)
    | none =>
      let s := s.set Od.card_ADDR_NEED 0 c.need
      match cardRefusal c with
      | some k => s.cardFails k Result.outOfRange
      | none => s.installBlock 0 (clog2 c.need) c.devices c.diam c.height

/-- ASSIGN from the parent (R366). -/
def State.takeAssign (s : State) (p : Nat) (a : CardAssign) : State :=
  if a.epoch = s.get Od.card_EPOCH ∧ s.get Od.card_PARENT_PORT = p ∧ s.get Od.card_CARD_STATE = 1 then
    s.installBlock a.base a.log2 a.devices a.diameter a.maxDepth
  else s

/-! ### Joins and grafts (R369, R371) -/

/-- Roles of a GRAFT message as the model codes them: an address for a joiner; a route for the block of S towards the band on
which the message comes, for F and the devices above it, which the devices of S pass on; the PLEN 0 route towards the near
device N, whose address and port the message names; a route for the block of S to the parent, for the devices below L.
[DESIGN CHOICE, unsafe: log entry 50.] -/
def graftJoin : Nat := 0
def graftRoute : Nat := 1
def graftUp : Nat := 2
def graftBelow : Nat := 3

/-- The lowest address of this device's block that neither it, nor a child's block, nor an earlier joiner uses. -/
def State.freeAddress (s : State) : Option Nat :=
  let b := s.get Od.card_BLOCK
  let base := bits b 16 16
  let size := 2 ^ bits b 0 8
  let blocks := placeChildren base s.card.children
  ((List.range size).map fun k => base + k).find? fun a =>
    decide (a ≠ s.ownAddr ∧ a ∉ s.card.joiners.map fun j => j.1) &&
      blocks.all fun c => decide (a < c.2 ∨ c.2 + (c.1.counts.map fun k => k.need).getD 0 ≤ a)

/-- A JOIN arrives: an address is given here, or it travels on towards the root; one that would be too deep goes no further
(R369). -/
def State.takeJoin (s : State) (p serial : Nat) : State :=
  if s.get Od.card_CARD_STATE ≠ 2 ∨ ¬ s.cardBand p then s
  else
    if 12 < s.get Od.card_DEPTH + 1 + s.get Od.card_MAX_DEPTH then s
    else match s.freeAddress with
    | some a =>
      let s := (s.setCard { s.card with joiners := s.card.joiners ++ [(a, serial)] }).addRoute (fabricRoute 2 16 p (a * 65536))
      (s.bump Od.card_GRAFTS).sendCard p
        (leBytes 1 7 ++ leBytes 4 (s.get Od.card_EPOCH) ++ leBytes 2 a ++ leBytes 1 16 ++ leBytes 1 graftJoin ++ leBytes 1 255)
    | none => match s.card.parent with
      | some n => (s.setCard { s.card with joinPorts := s.card.joinPorts ++ [p] }).sendCard n.port
          (leBytes 1 6 ++ leBytes 16 serial)
      | none => s

/-- A GRAFT message. [DESIGN CHOICE, unsafe: log entry 50.] -/
def graftMsg (epoch block plen role port : Nat) : List Byte :=
  leBytes 1 7 ++ leBytes 4 epoch ++ leBytes 2 block ++ leBytes 1 plen ++ leBytes 1 role ++ leBytes 1 port

/-- The port that the present route of a device address names. -/
def State.routePort (s : State) (dev : Nat) : Option Nat := (s.fabric.copy0.route 0 (dev * 65536 * 2 ^ 96)).map fun e => e.port

/-- Passes a GRAFT message on towards a port of the tree. -/
def State.passGraft (s : State) (q : Option Nat) (msg : List Byte) : State :=
  match q with
  | some q => if s.cardBand q then s.sendCard q msg else s
  | none => s

/-- An address lies in a block of a prefix length. -/
def inBlock (block plen dev : Nat) : Bool := decide (block / 2 ^ (16 - plen) = dev / 2 ^ (16 - plen))

/-- The message of role 1 at a device: a device of S passes it on towards N and F; F and the devices above it install the route of
S's block towards the band that it came on and pass it on up to L, whose own block takes S's in, and which turns the old way to P
(R371). -/
def State.graftAbove (s : State) (p : Nat) (g : CardGraft) : State :=
  let msg : Nat → List Byte := fun role => graftMsg g.epoch g.block g.plen role g.port
  if inBlock g.block g.plen s.ownAddr then s.passGraft (s.routePort 0xFFFF) (msg graftRoute)
  else
    let old := s.routePort g.block
    let here := inBlock (bits (s.get Od.card_BLOCK) 16 16) (16 - bits (s.get Od.card_BLOCK) 0 8) g.block
    let s := ((s.addRoute (fabricRoute 2 g.plen p (g.block * 65536))).setCard { s.card with
      children := s.card.children ++ [⟨p, 0, none⟩] }).bump Od.card_GRAFTS
    if here then s.passGraft old (msg graftBelow)
    else s.passGraft (some (s.get Od.card_PARENT_PORT)) (msg graftRoute)

/-- The message of role 2 at a device of S: its PLEN 0 route turns towards N; N's turns to the band to F (R371). -/
def State.graftPath (s : State) (p : Nat) (g : CardGraft) : State :=
  let q := if s.ownAddr = g.block then g.port else (s.routePort g.block).getD 255
  let s := ((s.addRoute (fabricRoute 2 0 q 0)).set Od.card_PARENT_PORT 0 q).setCard { s.card with
    parent := s.card.neighbours.find? fun n => n.port = q
    children := (s.card.children.filter fun c => c.port ≠ q) ++ [⟨p, 0, none⟩] }
  let s := s.bump Od.card_GRAFTS
  if s.ownAddr = g.block then s else s.passGraft (some q) (graftMsg g.epoch g.block g.plen graftUp g.port)

/-- The message of role 3 at a device below L: the route of S's block turns to its parent, and the message goes on down the old
way to P, whose route through the failed band it replaces (R371). -/
def State.graftDown (s : State) (g : CardGraft) : State :=
  let old := s.routePort g.block
  let s := (s.addRoute (fabricRoute 2 g.plen (s.get Od.card_PARENT_PORT) (g.block * 65536))).bump Od.card_GRAFTS
  s.passGraft old (graftMsg g.epoch g.block g.plen graftBelow g.port)

/-- A GRAFT arrives (R369, R371). [DESIGN CHOICE, unsafe: log entry 50.] -/
def State.takeGraft (s : State) (p : Nat) (g : CardGraft) : State :=
  if g.epoch ≠ s.get Od.card_EPOCH ∨ ¬ s.cardBand p then s
  else if g.role = graftJoin then
    if s.ownAddr = 0xFFFF then
      let s := ((s.set Od.card_OWN_ADDR 0 g.block).set Od.card_BLOCK 0 (g.block * 65536)).addRoute
        (fabricRoute 1 16 0xFE (g.block * 65536))
      ((s.addRoute (fabricRoute 1 0 p 0)).setCard { s.card with joining := false, hbAt := s.cycle }).setCardState 2
    else match s.card.joinPorts with
      | [] => s
      | q :: qs => (((s.setCard { s.card with joinPorts := qs }).addRoute (fabricRoute 2 16 q (g.block * 65536))).bump
          Od.card_GRAFTS).sendCard q (leBytes 1 7 ++ leBytes 4 g.epoch ++ leBytes 2 g.block ++ leBytes 1 16 ++
            leBytes 1 graftJoin ++ leBytes 1 255)
  else if g.role = graftRoute then s.graftAbove p g
  else if g.role = graftUp then s.graftPath p g
  else if g.role = graftBelow then s.graftDown g
  else s

/-- An ALTERNATE band comes before another (R371). -/
def graftBefore (a b : GraftBand) : Bool :=
  decide (a.farDist < b.farDist ∨ (a.farDist = b.farDist ∧ (a.farAddr < b.farAddr ∨
    (a.farAddr = b.farAddr ∧ a.nearAddr < b.nearAddr))))

def bestGraft : List GraftBand → Option GraftBand
  | [] => none
  | b :: bs => match bestGraft bs with
    | none => some b
    | some c => if graftBefore c b then some c else some b

/-- GRAFT_WAIT ends: the device whose parent band failed chooses its band, and its messages install the routes (R371).
[DESIGN CHOICE, unsafe: log entry 50.] -/
def State.graftEnds (s : State) (bands : List GraftBand) : State :=
  if ¬ s.card.grafting ∨ s.cycle < s.card.graftAt + msCycles (s.get Od.card_GRAFT_WAIT) then s
  else
    let s := s.setCard { s.card with grafting := false, hbAt := s.cycle }
    match bestGraft bands with
    | none => s
    | some b =>
      let sum := b.farDist + 1 + b.depth + (s.card.counts.map fun c => c.height).getD 0 + s.get Od.card_MAX_DEPTH
      if 12 < sum then s
      else
        let blk := s.get Od.card_BLOCK
        let e := s.get Od.card_EPOCH
        let s := (((s.set Od.card_FABRIC_DIAMETER 0 sum).set Od.card_DEPTH 0 (b.farDist + 1 + b.depth)).addRoute
          (fabricRoute 2 0 b.toward.val 0)).set Od.card_PARENT_PORT 0 b.toward.val
        let s := (s.setCard { s.card with
          parent := s.card.neighbours.find? fun n => n.port = b.toward.val
          children := s.card.children.filter fun c => c.port ≠ b.toward.val }).bump Od.card_GRAFTS
        let s := if b.depth = 0 then s
          else s.sendCard b.toward.val (graftMsg e b.nearAddr 16 graftUp b.nearPort.val)
        s.sendCard b.toward.val (graftMsg e (bits blk 16 16) (16 - bits blk 0 8) graftRoute 255)

/-- What carding makes of a band that leaves ACTIVE (R362, R371). -/
def State.cardBandLost (s : State) (p : Nat) : State :=
  let was := decide (s.get Od.card_PARENT_PORT = p)
  let s := s.setCard { s.card with neighbours := s.card.neighbours.filter fun n => n.port ≠ p }
  if s.get Od.card_CARD_STATE = 2 then
    if was then (s.set Od.card_PARENT_PORT 0 255).setCard { s.card with grafting := true, graftAt := s.cycle, parent := none } else s
  else
    let kids := s.card.children.filter fun c => c.port ≠ p
    (if kids.length = s.card.children.length then s else s.setCard { s.card with children := kids, counts := none, changedAt := s.cycle }).adopt

/-- Tree bands: to the parent and to the children. -/
def State.treePorts (s : State) : List Nat :=
  (((if s.get Od.card_PARENT_PORT = 255 then [] else [s.get Od.card_PARENT_PORT]) ++ s.card.children.map fun c => c.port).filter fun p =>
    s.portActive p).eraseDups

/-! ### The exact-match table (R377–R387) -/

/-- The bits of word 0 that make the key: KEY_TYPE and KEY. -/
def keyOf (w0 : Nat) : Nat := bits w0 68 2 * 2 ^ 68 + bits w0 6 60 * 2 ^ 6

/-- Key of a MAC and VLAN. -/
def macKey (mac vlan : Nat) : Nat := mac % 2 ^ 48 * 2 ^ 18 + vlan % 2 ^ 12 * 2 ^ 6

/-- Key of a STREAM. -/
def streamKey (stream : Nat) : Nat := 2 ^ 68 + stream % 2 ^ 32 * 2 ^ 34

/-- Key of a multicast group. -/
def groupKey (dev : Nat) : Nat := 2 * 2 ^ 68 + dev % 2 ^ 16 * 2 ^ 50

/-- CRC-32C with a given initial value. -/
def crc32cFrom (init : Nat) (bs : List Byte) : Nat :=
  bs.foldl (fun c b => crcByteReflected 0x82F63B78 c b.toNat) init ^^^ 0xFFFFFFFF

/-- Bucket of a key (R378): KEY_TYPE and KEY stand, the other bits of word 0 count as zero. -/
def bucketOf (seed key : Nat) : Nat := crc32cFrom seed (leBytes 9 (bits key 6 60 * 2 ^ 6)) % 2 ^ 14

def emValid (e : Nat × Nat) : Bool := e.1.testBit 71
def emStatic (e : Nat × Nat) : Bool := e.1.testBit 70
def emOrigin (e : Nat × Nat) : Nat := bits e.1 66 2
def emLearned (e : Nat × Nat) : Bool := emValid e && !emStatic e && decide (emOrigin e = 0 ∧ bits e.1 68 2 = 0)
def emPort (e : Nat × Nat) : Nat := bits e.2 64 8
def emTarget (e : Nat × Nat) : Nat := bits e.2 48 16
def emStamp (e : Nat × Nat) : Nat := bits e.2 32 16
def emCand (e : Nat × Nat) : Nat := bits e.2 24 8
def emCandTime (e : Nat × Nat) : Nat := bits e.2 0 24

/-- The slot that holds a key: two matching entries never exist. -/
def TableCopy.lookup (c : TableCopy) (key : Nat) : Option (Nat × (Nat × Nat)) :=
  c.em.find? fun e => emValid e.2 && decide (keyOf e.2.1 = key)

/-- Slots in which a key may stand, in the order of R387: its bucket, then the overflow store. -/
def slotsFor (seed key : Nat) : List Nat :=
  ((List.range 4).map fun k => 4 * bucketOf seed key + k) ++ ((List.range 1024).map fun k => 65536 + k)

/-- A free slot for a key. -/
def TableCopy.freeSlot (c : TableCopy) (seed key : Nat) : Option Nat :=
  (slotsFor seed key).find? fun i => (tfind c.em i).isNone

/-- Seconds clock and microsecond clock of the tables. -/
def State.secondsClock (s : State) : Nat := s.uptimeNs / 10 ^ 9 % 2 ^ 16
def State.microClock (s : State) : Nat := s.uptimeNs / 1000 % 2 ^ 24

/-- Age of an entry (R386). -/
def State.ageOf (s : State) (e : Nat × Nat) : Nat := (s.secondsClock + 2 ^ 16 - emStamp e) % 2 ^ 16

/-- The learned entry of greatest age among slots, the lowest slot among equals. -/
def State.oldest (s : State) (c : TableCopy) : List Nat → Option (Nat × Nat)
  | [] => none
  | i :: is =>
    match tfind c.em i, s.oldest c is with
    | some e, none => if emLearned e then some (i, s.ageOf e) else none
    | some e, some b => if emLearned e ∧ b.2 ≤ s.ageOf e then some (i, s.ageOf e) else some b
    | none, b => b

/-- The victim of an insertion (R387): of its bucket under EVICT_POLICY (RANDOM draws a free value), else the oldest
learned overflow entry. -/
def State.victim (s : State) (c : TableCopy) (key : Nat) : Option Nat :=
  let b := (List.range 4).map fun k => 4 * bucketOf (s.get Od.tab_HASH_SEED) key + k
  let learned := b.filter fun i => match tfind c.em i with
    | some e => emLearned e
    | none => false
  if learned = [] then (s.oldest c ((List.range 1024).map fun k => 65536 + k)).map fun v => v.1
  else if s.get Od.tab_EVICT_POLICY = 1 then learned[s.freeValue % learned.length]?
  else (s.oldest c b).map fun v => v.1

/-- Writes a slot in the shadow and in both copies. -/
def State.writeSlot (s : State) (i : Nat) (w0 w1 : Nat) : State :=
  s.writeTables fun c => { c with em := tset c.em i (w0, w1) }

/-- Invalidates a slot. -/
def State.clearSlot (s : State) (i : Nat) : State := s.writeTables fun c => { c with em := tdel c.em i }

/-- Places an entry: over its key, in a free slot, or over a victim; none where it cannot be placed (R387). -/
def State.insertEntry (s : State) (w0 w1 : Nat) : Option State :=
  let c := s.fabric.copy0
  match c.lookup (keyOf w0) with
  | some (i, _) => some (s.writeSlot i w0 w1)
  | none => match c.freeSlot (s.get Od.tab_HASH_SEED) (keyOf w0) with
    | some i => some (s.writeSlot i w0 w1)
    | none => match s.victim c (keyOf w0) with
      | some i => some (((if s.get Od.tab_EVICT_POLICY = 1 then s.useFree else s).writeSlot i w0 w1).bump Od.tab_EVICTIONS)
      | none => none

/-- Word 1 of an entry. -/
def emWord (port target stamp cand candTime : Nat) : Nat :=
  port % 256 * 2 ^ 64 + target % 2 ^ 16 * 2 ^ 48 + stamp % 2 ^ 16 * 2 ^ 32 + cand % 256 * 2 ^ 24 + candTime % 2 ^ 24

/-- A lookup with its hit: AGE_STAMP is written (R386). -/
def State.lookupHit (s : State) (p : Option Nat) (key : Nat) : State × Option (Nat × Nat) :=
  match (s.copyFor p).lookup key with
  | none => (s, none)
  | some (i, e) => (s.writeSlot i e.1 (setBits e.2 32 16 s.secondsClock), some e)

/-- A learn takes its place: those of one cycle stand by increasing port number (R383). -/
def placeLearn (l : Learn) : List Learn → List Learn
  | [] => [l]
  | m :: ms => if m.at_ = l.at_ ∧ l.port < m.port then l :: m :: ms else m :: placeLearn l ms

/-- A learn enters the queue, or is dropped (R382, R383). -/
def State.learn (s : State) (mac vlan port target : Nat) : State :=
  if s.get Od.tab_LEARN_MODE = 0 ∧ s.get Od.tab_LEARN_SUSPENDED = 0 then
    if s.fabric.learnQ.length < 256 then
      { s with fabric := { s.fabric with learnQ := placeLearn ⟨macKey mac vlan, port, target, s.cycle⟩ s.fabric.learnQ } }
    else s.bump Od.tab_LEARN_DROPS
  else s

/-- Applies one learn (R384, R385, R387). [DEDUCED, unsafe: log entry 51.] -/
def State.applyLearn (s : State) (l : Learn) : State :=
  let s := s.bump Od.tab_LEARNS
  match s.fabric.copy0.lookup l.key with
  | none =>
    match s.insertEntry (2 ^ 71 + l.key) (emWord l.port l.target s.secondsClock 0xFF 0) with
    | some t => t
    | none => s.bump Od.tab_LEARN_FAILS
  | some (i, e) =>
    if ¬ emLearned e ∨ (emPort e = l.port ∧ (l.port ≠ 0xFC ∨ emTarget e = l.target)) then
      if emStatic e ∨ ¬ emLearned e then s.writeSlot i e.1 (setBits e.2 32 16 s.secondsClock)
      else s.writeSlot i e.1 (emWord l.port l.target s.secondsClock 0xFF 0)
    else if emCand e ≠ l.port ∨ (l.port = 0xFC ∧ tget s.fabric.candDev 0 i ≠ l.target) then
      let s := (s.writeSlot i e.1 (emWord (emPort e) (emTarget e) (emStamp e) l.port s.microClock)).bump Od.tab_MOVE_CANDIDATES
      { s with fabric := { s.fabric with candDev := tput s.fabric.candDev 0 i l.target } }
    else if s.get Od.tab_MOVE_HOLD ≤ (s.microClock + 2 ^ 24 - emCandTime e) % 2 ^ 24 then
      (s.writeSlot i e.1 (emWord l.port l.target s.secondsClock 0xFF 0)).bump Od.tab_MOVES
    else s

/-! ### Forwarding of packets (R373, R374) -/

/-- A device that forwards (R358, R367, R457). -/
def State.forwards (s : State) : Bool := decide (s.ownAddr ≠ 0xFFFF ∧ s.get Od.card_CARD_STATE = 2)

/-- A discard for want of a route. -/
def State.noRoute (s : State) : State := s.bump Od.card_NO_ROUTE

/-- Relays a packet out of ports: its HOPS are decremented, and each copy takes queue PRIO of its port (R347, R373). -/
def State.relay (s : State) (from_ : Option Nat) (bs : List Byte) (ports : List Nat) : State :=
  let h := ChHeader.ofBytes bs
  let ports := ports.filter fun p => decide (some p ≠ from_)
  if ports = [] then s.noRoute
  else match from_ with
    | none =>
      match s.ingestEngine bs with
      | (s', none) => s'
      | (s', some es) => s'.release es (ports.map fun p => { queue := 8 * p + h.prio, pri := h.prio, template := none }) 0 ownEngine 0 none true
    | some f =>
      if h.hops = 0 then s.bump Od.port_HOP_DROPS f
      else
        let out := ({ h with hops := h.hops - 1 } : ChHeader).packet ((bs.drop 36).take (chLength bs))
        match s.ingest f h.prio out with
        | (s', none) => s'
        | (s', some es) => s'.release es (ports.map fun p => { queue := 8 * p + h.prio, pri := h.prio, template := none })
            (s.get Od.qg_INGEST_POOL f) ownPort f none true

/-- A row packet delivered here goes to the queue of its STREAM entry (R374). -/
def State.deliverRow (s : State) (from_ : Option Nat) (bs : List Byte) : State :=
  let h := ChHeader.ofBytes bs
  match s.lookupHit from_ (streamKey h.stream) with
  | (s', none) => s'.noRoute
  | (s', some e) =>
    let r := match from_ with
      | some f => s'.ingest f h.prio bs
      | none => s'.ingestEngine bs
    match r with
    | (t, none) => t
    | (t, some es) => t.append (emTarget e) { pri := h.prio, entries := es, chaec := true }

/-- Members of a replication list: egress ports and internal queues. -/
def State.replicate (s : State) (from_ : Option Nat) (pri : Nat) (bs : List Byte) (members : List Nat) : State :=
  let dests : List PacketDest := members.filterMap fun m =>
    if m < 128 then if some m = from_ then none else some { queue := 8 * m + pri, pri := pri, template := none }
    else some { queue := m - 0x8000, pri := pri, template := none }
  let r := match from_ with
    | some f => s.ingest f pri bs
    | none => s.ingestEngine bs
  match r with
  | (t, none) => t
  | (t, some es) => t.release es dests (match from_ with
      | some f => s.get Od.qg_INGEST_POOL f
      | none => 0) (if from_.isSome then ownPort else ownEngine) (from_.getD 0) none true

/-! ### Global operations (R392–R397) -/

/-- The payload of an announcement, as the model lays it out: type 1, OP_ID, AT, code, SET or items. -/
def announcementBytes (a : Announcement) : List Byte :=
  leBytes 1 1 ++ leBytes 4 a.opId ++ leBytes 9 (RTime.word a.at_) ++ leBytes 1 (globalCode a.kind) ++
    (match a.kind with
      | .fabricSwap => []
      | .snapshot n => leBytes 1 n
      | .broadcast i => i)

/-- Sends a GLOBAL packet on bands; a payload of at most 64 bytes is short (R392). -/
def State.sendGlobal (s : State) (ps : List Nat) (payload : List Byte) : State :=
  ps.foldl (fun t p => t.sendControl p 7 (decide (payload.length ≤ 64))
    (({ dest := 0xFFFF0000, srcDev := t.ownAddr, kind := 5, prio := 7 } : ChHeader).packet payload)) s

/-- RD_0 may take part in a global operation (R394). -/
def State.globalReady (s : State) : Bool :=
  decide (s.get Od.rd_LOCK_STATE 0 = 2) ||
    (decide (s.get Od.rd_SOURCE 0 = 0) && decide (s.get Od.card_PARENT_PORT = 255))

def State.globalOp (s : State) (id : Nat) : Option GlobalOp := s.fabric.ops.find? fun o => o.opId = id

def State.setGlobalOp (s : State) (o : GlobalOp) : State :=
  { s with fabric := { s.fabric with ops := mapIf (fun x : GlobalOp => decide (x.opId = o.opId)) (fun _ => o) s.fabric.ops } }

/-- The part of this device when an announcement arrives: none while ARMED (R394). [DEDUCED, unsafe: log entry 52.] -/
def State.globalPart (s : State) (at_ : RTime) : Option Nat :=
  if rdiff (s.lpf 0) at_ (s.now 0) ≤ 0 then some 2 else if s.globalReady then none else some 1

/-- Return data of a finished operation at its issuer. -/
def GlobalOp.data (o : GlobalOp) : List Byte :=
  match o.kind with
  | .fabricSwap => leBytes 9 (RTime.word o.at_) ++ leBytes 2 o.applied
  | .snapshot _ => leBytes 4 o.opId
  | .broadcast _ => leBytes 2 o.applied

/-- GLOBAL_LOG holds an operation at this device: its record is made when its part is known, and its count of devices follows the
confirmations (R396). -/
def State.logOp (s : State) (o : GlobalOp) : State :=
  match o.part with
  | none => s
  | some part =>
    let e := (o.opId, globalCode o.kind, part, o.applied, o.at_)
    let l := if s.fabric.log.any (fun x => decide (x.1 = o.opId)) then s.fabric.log.map fun x => if x.1 = o.opId then e else x
      else (e :: s.fabric.log).take 16
    { s with fabric := { s.fabric with log := l } }

/-- Confirms an operation once this device has acted and holds the confirmations of its subtrees (R396). -/
def State.confirmOp (s : State) (id : Nat) : State :=
  match s.globalOp id with
  | none => s
  | some o =>
    match o.part with
    | none => s
    | some _ =>
      if o.confirmed ∨ o.waiting ≠ [] then s
      else
        let s := s.setGlobalOp { o with confirmed := true }
        match o.from_ with
        | some p => s.sendGlobal [p] (leBytes 1 2 ++ leBytes 4 o.opId ++ leBytes 2 o.applied)
        | none => if o.applied = s.get Od.card_FABRIC_DEVICES then s.finishCommand (globalCode o.kind) Result.ok o.data else s

/-- An operation becomes known here: it is forwarded on the other tree bands, and its part is decided (R394). -/
def State.learnOp (s : State) (a : Announcement) (from_ : Option Nat) : State :=
  if (s.globalOp a.opId).isSome then s
  else
    let ports := s.treePorts.filter fun p => decide (some p ≠ from_)
    let part := s.globalPart a.at_
    let op : GlobalOp := { opId := a.opId, at_ := a.at_, kind := a.kind, part := part, from_ := from_, waiting := ports }
    let s := { s with fabric := { s.fabric with
      ops := s.fabric.ops ++ [op] } }
    let s := if part.isNone then
      { s with raster := { s.raster with sched := s.raster.sched ++ [(⟨0, a.at_, .globalOp a.opId⟩ : Sched)] } } else s
    ((s.logOp op).sendGlobal ports (announcementBytes a)).confirmOp a.opId

/-- A confirmation arrives from a subtree (R396). -/
def State.takeConfirm (s : State) (p id applied : Nat) : State :=
  match s.globalOp id with
  | none => s
  | some o =>
    if p ∈ o.waiting then
      let o := { o with waiting := o.waiting.erase p, applied := o.applied + applied }
      ((s.setGlobalOp o).logOp o).confirmOp id
    else s

end Sys2Proof.Machine
end

