-- ==== Sys2Proof/Machine/RasterOps.lean ====
section
/-! DEFINITION. The lock of raster domains to their references (R17–R23): measurements, slewing, lock states, the loss of a
reference, jumps. -/

namespace Sys2Proof.Machine

/-- Sets bits of a unit's STICKY (R455). -/
def State.setSticky (s : State) (unit k : Nat) : State :=
  s.set Od.unit_STICKY unit (setBit (s.get Od.unit_STICKY unit) k)

/-- Moves a domain to a lock state: 0 FREE_RUN, 1 ACQUIRING, 2 LOCKED, 3 HOLDOVER; the change is reported (R23), and an exit
from LOCKED is counted (R16). Jumps belong to ACQUIRING alone (R21): a domain that leaves it has none due. -/
def State.setLock (s : State) (rd st : Nat) : State :=
  let old := s.get Od.rd_LOCK_STATE rd
  if old = st then s
  else
    let s := if st = 1 then s else s.setDom rd { s.dom rd with jumpDue := false }
    let s := ((s.set Od.rd_LOCK_STATE rd st).reportInfo Unit.raster 0x40 (rd + 16 * st)).raise 245
    let s := if old = 2 then s.bump Od.rd_LOCK_EVENTS rd else s
    if old = 2 ∧ st = 3 then s.setSticky Unit.raster 5 else s

/-- Forgets the span that leads to LOCKED. -/
def RasterDomain.clearSpan (d : RasterDomain) : RasterDomain := { d with spanFrames := 0, spanCount := 0 }

/-- Counts a measurement within LOCK_WINDOW into the span; it counts for the frames since the one before (R20). -/
def RasterDomain.addSpan (d : RasterDomain) : RasterDomain :=
  { d with
    spanCount := d.spanCount + 1
    spanFrames := d.spanFrames + match d.lastFrame with
      | some f => (d.pos.frame + 2 ^ 40 - f) % 2 ^ 40
      | none => 0 }

/-- Largest frequency offset in line ticks per frame (R21). -/
def State.slewLimit (s : State) (rd : Nat) : Int := (s.get Od.rd_SLEW_MAX rd * s.lpf rd * 65536 / 1000000 : Nat)

/-- Writes PHASE_ERROR; an error beyond its type is a free value. [DESIGN CHOICE, safe: log entry 24.] -/
def State.setPhaseError (s : State) (rd : Nat) (e : Int) : State :=
  if -2 ^ 31 ≤ e ∧ e < 2 ^ 31 then s.setInt Od.rd_PHASE_ERROR rd e
  else (s.set Od.rd_PHASE_ERROR rd s.freeValue).useFree

/-- Cycles in which an offset removes an error of e line ticks (R21). [DEDUCED, unsafe: log entry 25.] -/
def State.slewTime (s : State) (rd : Nat) (e slew : Int) : Nat :=
  ceilDiv (e.natAbs * s.get Od.rd_RATE_DEN rd * 1200000000) (s.get Od.rd_RATE_NUM rd * slew.natAbs)

/-- The correction after a measurement: slewing up to JUMP_THRESHOLD; beyond it a jump falls due in ACQUIRING (R21). A
LOCKED domain whose error lies within LOCK_WINDOW and beyond JUMP_THRESHOLD keeps the slew it has: R21 gives it neither a new
slew nor a jump. [DESIGN CHOICE, unsafe: log entry 70.] -/
def State.correct (s : State) (rd : Nat) (e : Int) : State :=
  let d := s.dom rd
  if e.natAbs ≤ s.get Od.rd_JUMP_THRESHOLD rd then
    let slew := clampI (-s.slewLimit rd) (s.slewLimit rd) e
    s.setDom rd { d with slew := slew, slewEnd := some (s.cycle + s.slewTime rd e slew), jumpDue := false }
  else if s.get Od.rd_LOCK_STATE rd = 1 then s.setDom rd { d with jumpDue := true }
  else s

/-- The frequency between two measurements: the reference advanced by `ticks` in `cycles`, as an offset in line ticks per
frame, rounded (R20). [DEDUCED, unsafe: log entry 25.] -/
def State.freqOffset (s : State) (rd : Nat) (ticks : Int) (cycles : Nat) : Int :=
  let n : Nat := s.get Od.rd_RATE_NUM rd * cycles
  (2 * ticks * (s.get Od.rd_RATE_DEN rd * 1200000000 : Nat) + n) / (2 * n : Nat) - (s.lpf rd * 65536 : Nat)

/-- Records the reference's position at a measurement and the frequency since the one before (R20). -/
def State.noteReference (s : State) (rd : Nat) (e : Int) : State :=
  let d := s.dom rd
  let ref : Int := (linear (s.lpf rd) (s.now rd) : Nat) + e
  s.setDom rd { d with
    lastRef := some (s.cycle, ref)
    freq := match d.lastRef with
      | some (c, r) => if c < s.cycle then s.freqOffset rd ((ref - r) % (countCycle (s.lpf rd) : Int)) (s.cycle - c) else d.freq
      | none => d.freq }

/-- One measurement of a domain's phase error, source minus domain (R20). -/
def State.measure (s : State) (rd : Nat) (e : Int) : State :=
  let s := (s.setPhaseError rd e).noteReference rd e
  let within := s.ticksWithin rd e (s.get Od.rd_LOCK_WINDOW rd)
  let s := if s.get Od.rd_LOCK_STATE rd = 3 then
    (s.setDom rd { (s.dom rd).clearSpan with slew := 0, slewEnd := none }).setLock rd 1 else s
  let s := if s.get Od.rd_LOCK_STATE rd = 2 ∧ ¬ within then s.setLock rd 1 else s
  let s := s.setDom rd (if within then (s.dom rd).addSpan else (s.dom rd).clearSpan)
  let s := s.setDom rd { s.dom rd with lastFrame := some (s.dom rd).pos.frame }
  let s := if s.get Od.rd_LOCK_STATE rd = 1 ∧ within ∧ 16 ≤ (s.dom rd).spanFrames ∧ 2 ≤ (s.dom rd).spanCount then
    s.setLock rd 2 else s
  s.correct rd e

/-- A LOCKED domain whose reference is lost enters HOLDOVER and keeps the frequency measured last (R20).
[DEDUCED, unsafe: log entry 25.] -/
def State.referenceLost (s : State) (rd : Nat) : State :=
  if s.get Od.rd_LOCK_STATE rd = 2 then
    (s.setDom rd { s.dom rd with holdoverAt := s.cycle, slew := (s.dom rd).freq, slewEnd := none }).setLock rd 3
  else s

/-- A domain turns to a source: FREE_RUN, or ACQUIRING with nothing carried over (R20). [DEDUCED, unsafe: log entry 25.] -/
def State.turnTo (s : State) (rd src : Nat) : State :=
  let s := s.setDom rd { (s.dom rd).clearSpan with
    src := src, lastFrame := none, edgeSeen := false, misses := 0, jumpDue := false
    slew := 0, slewEnd := none, freq := 0, lastRef := none, nextSrc := none }
  s.setLock rd (if src = 0 then 0 else 1)

/-- A domain is enabled and measures the given source. -/
def State.locksTo (s : State) (rd src : Nat) : Bool := s.enabled rd && decide ((s.dom rd).src = src)

/-- The port whose band a FABRIC domain follows (R19). -/
def State.fabricPort (s : State) (rd : Nat) : Nat :=
  if s.get Od.rd_SOURCE_SEL rd = 255 then s.get Od.card_PARENT_PORT else s.get Od.rd_SOURCE_SEL rd

/-- Every domain that satisfies p takes f. -/
def State.eachDomain (s : State) (p : State → Nat → Bool) (f : State → Nat → State) : State :=
  (List.range 8).foldl (fun t rd => if p t rd then f t rd else t) s

/-- Domains locked to a band that leaves ACTIVE lose their reference. -/
def State.bandLost (s : State) (p : Nat) : State :=
  s.eachDomain (fun t rd => t.locksTo rd 3 && decide (t.fabricPort rd = p)) State.referenceLost

/-- The multiple of EDGE_CADENCE frames whose window holds the present position: the edge expected for a frame falls
FRAME_OFFSET before its start (R20, R21). [DEDUCED, unsafe: log entry 25.] -/
def State.edgeNumber (s : State) (rd : Nat) : Int :=
  let per : Nat := s.get Od.rd_EDGE_CADENCE rd * s.lpf rd * 65536
  (2 * ((linear (s.lpf rd) (s.now rd) : Nat) + s.getInt Od.rd_FRAME_OFFSET rd) + per - 1) / (2 * per : Nat)

/-- Error of a REF_FRAME edge: the window's expected instant less FRAME_OFFSET, minus the present. -/
def State.edgeError (s : State) (rd : Nat) : Int :=
  s.edgeNumber rd * (s.get Od.rd_EDGE_CADENCE rd * s.lpf rd * 65536 : Nat) - s.getInt Od.rd_FRAME_OFFSET rd -
    (linear (s.lpf rd) (s.now rd) : Nat)

/-- An edge on a pin, for one domain. -/
def State.takeEdge (s : State) (rd : Nat) : State :=
  if (s.dom rd).edgeSeen then s
  else (s.setDom rd { s.dom rd with edgeSeen := true }).measure rd (s.edgeError rd)

/-- Line ticks of a domain in t ns. -/
def State.ticksOfNs (s : State) (rd t : Nat) : Nat := t * s.ticksPer rd / (10 ^ 9 * s.get Od.rd_RATE_DEN rd)

/-- Error against the PTP time t in ns since the SMPTE epoch (R17). -/
def State.ptpError (s : State) (rd t : Nat) : Int :=
  signedMod (countCycle (s.lpf rd)) ((s.ticksOfNs rd t : Int) - s.getInt Od.rd_FRAME_OFFSET rd - linear (s.lpf rd) (s.now rd))

/-- Error against the neighbour's raster time (R19). -/
def State.fabricError (s : State) (rd : Nat) (t : RTime) : Int :=
  signedMod (countCycle (s.lpf rd)) ((linear (s.lpf rd) t : Int) - s.getInt Od.rd_FRAME_OFFSET rd - linear (s.lpf rd) (s.now rd))

/-- Multiple of c nearest to n, the greater of two equally near (R21). -/
def nearestMultiple (c n : Nat) : Nat := (2 * n + c) / (2 * c) * c

/-- Line ticks that a domain counts in some cycles at its nominal rate. -/
def State.ticksOfCycles (s : State) (rd n : Nat) : Nat := n * s.ticksPer rd / (1200000000 * s.get Od.rd_RATE_DEN rd)

/-- The FRAME that a PTP or FABRIC reference gives for the domain's frame start nearest to the present: n of R17, or the
neighbour's FRAME, each less FRAME_OFFSET, carried on from the last measurement (R21). -/
def State.referenceFrame (s : State) (rd : Nat) : Nat :=
  match (s.dom rd).lastRef with
  | none => (s.now rd).frame
  | some (c, r) =>
    let per : Nat := s.lpf rd * 65536
    ((2 * (r + (s.ticksOfCycles rd (s.cycle - c) : Nat)) + per) / (2 * per : Nat) % (2 ^ 40 : Nat)).toNat

/-- The FRAME in which a jump lands (R21): for REF_FRAME the multiple of EDGE_CADENCE nearest to the present FRAME.
[DESIGN CHOICE, unsafe: log entry 26.] -/
def State.jumpFrame (s : State) (rd : Nat) : Nat :=
  if (s.dom rd).src = 1 then nearestMultiple (s.get Od.rd_EDGE_CADENCE rd) ((s.now rd).frame) % 2 ^ 40
  else s.referenceFrame rd

/-- A domain starts at raster time 0 with the values then active (R14). -/
def State.startDomain (s : State) (rd : Nat) : State :=
  (s.setDom rd {}).turnTo rd (s.get Od.rd_SOURCE rd)

/-- A domain stops: it holds raster time 0 (R14). -/
def State.stopDomain (s : State) (rd : Nat) : State := (s.setDom rd {}).setLock rd 0

/-- A port leaves ACTIVE (R342, R343): objects, keys and queues, the packet it sends, the domains and the carding behind it. -/
def State.dropSending (s : State) (p : Nat) : State :=
  let x := s.egPort p
  let s := s.setEgPort p { x with sending := none, interrupted := none }
  let s := match x.sending with
    | some k => s.decrementAll k.packet.entries
    | none => s
  match x.interrupted with
  | some k => s.decrementAll k.packet.entries
  | none => s

end Sys2Proof.Machine
end

