-- ==== Sys2Proof/Machine/LinkOps.lean ====
section
/-! DEFINITION. What a port's change of state means to the other units (R216, R342, R343, R371). -/

namespace Sys2Proof.Machine

/-- A port leaves ACTIVE with a cause: what it sends and queues is discarded, domains locked to it lose their reference,
carding loses the band, and the port starts bring-up again (R342, R343). -/
def State.leaveActive (s : State) (p cause : Nat) : State :=
  if s.portActive p then
    let s := (s.dropSending p).portDown p cause
    if s.isBand p then (s.bandLost p).cardBandLost p else s
  else s

/-- A group's membership report as the model sends it: IGMPv3 or MLDv2 by the address's form, 1 joins, 0 leaves (R216). -/
def membershipMsg : Nat := 0x0216

/-- Sends the membership report of a group on a port. -/
def State.sendMembership (s : State) (p : Nat) (join : Bool) (group : List Byte) : State :=
  s.emit (.message p membershipMsg [b2n join, leNat group, group.length])

/-- The groups of every open stream that are joined on a port. -/
def State.groupsOn (s : State) (p : Nat) : List (List Byte) :=
  s.streams.streams.flatMap fun e => (e.2.memberships.filter fun m => m.1 = p).map fun m => m.2

/-- Reports every membership of a port again (R216): when it becomes ACTIVE, and at a query. -/
def State.reportMemberships (s : State) (p : Nat) : State :=
  (s.groupsOn p).foldl (fun t g => t.sendMembership p true g) s

end Sys2Proof.Machine
end

