-- ==== Sys2Proof/Machine/StreamOps.lean ====
section
/-! DEFINITION. What a stream's objects say (R73–R99, R150–R171, R197–R204, R208–R209, R244–R270): inputs, outputs, layers,
rungs, rates, stages and their costs, conditioning passes, limits of formats and levels. -/

namespace Sys2Proof.Machine

def State.stream (s : State) (sid : Nat) : Stream := tget s.streams.streams {} sid

def State.setStream (s : State) (sid : Nat) (x : Stream) : State :=
  { s with streams := { s.streams with streams := tput s.streams.streams {} sid x } }

/-- Stream states (R75). -/
def stClosed : Nat := 0
def stArmed : Nat := 1
def stRunning : Nat := 2
def stClosing : Nat := 3
def stDropped : Nat := 4
def stAlias : Nat := 5

def State.streamState (s : State) (sid : Nat) : Nat := s.get Od.st_STATE sid

/-- A stream that is CLOSED or DROPPED. -/
def State.streamShut (s : State) (sid : Nat) : Bool := s.streamState sid == 0 || s.streamState sid == 4

def State.streamType (s : State) (sid : Nat) : Nat := s.get Od.st_TYPE sid
def State.streamClass (s : State) (sid : Nat) : Nat := s.get Od.st_CLASS sid
def State.streamDomain (s : State) (sid : Nat) : Nat := s.get Od.st_DOMAIN sid % 8

/-! ### Entries (R73) -/

/-- An entry of INPUTS. -/
structure InEntry where
  kind     : Nat
  layer    : Nat
  port     : Nat
  selector : Nat
  group    : List Byte
  deriving DecidableEq, Repr

/-- An entry of OUTPUTS. -/
structure OutEntry where
  kind     : Nat
  rung     : Nat
  port     : Nat
  destPort : Nat
  target   : Nat
  address  : List Byte
  deriving DecidableEq, Repr

/-- Pieces of n bytes. -/
def pieces (n : Nat) (bs : List Byte) : List (List Byte) := (List.range (bs.length / n)).map fun k => (bs.drop (n * k)).take n

def inEntries (bs : List Byte) : List InEntry :=
  (pieces 24 bs).map fun e => ⟨leAt e 0 1, leAt e 1 1, leAt e 2 2, leAt e 4 4, (e.drop 8).take 16⟩

def outEntries (bs : List Byte) : List OutEntry :=
  (pieces 32 bs).map fun e => ⟨leAt e 0 1, leAt e 1 1, leAt e 2 2, leAt e 4 2, leAt e 8 4, (e.drop 12).take 16⟩

def State.inputs (s : State) (sid : Nat) : List InEntry := inEntries (s.blob Od.st_INPUTS sid)

def State.outputs (s : State) (sid : Nat) : List OutEntry := outEntries (s.blob Od.st_OUTPUTS sid)

/-- An input is compressed: RTP, a transport stream, Chaec Link, or host DMA of a DECODE or TRANSCODE stream (host input of
the other types is raw). [DESIGN CHOICE, unsafe: log entry 20.] -/
def InEntry.compressed (e : InEntry) (type : Nat) : Bool :=
  decide (e.kind ≤ 2) || (decide (e.kind = 3) && (decide (type = 0) || decide (type = 2)))

/-- The first 12 bytes of an IPv4-mapped address. -/
def v4Mapped (a : List Byte) : Bool :=
  decide (a.take 12 = List.replicate 10 0#8 ++ [0xFF#8, 0xFF#8])

/-- An address is multicast. -/
def isMulticast (a : List Byte) : Bool :=
  if v4Mapped a then decide (bits (leAt a 12 1) 4 4 = 0xE) else decide (leAt a 0 1 = 0xFF)

/-! ### Layers (R244, R270) -/

/-- The fields of LAYER_CFG_n. -/
structure LayerCfg where
  format : Nat
  fec    : Nat
  width  : Nat
  height : Nat
  level  : Nat
  slots  : Nat
  depth  : Nat
  program : Nat
  pid    : Nat
  deriving DecidableEq, Repr

def State.layerCfg (s : State) (sid n : Nat) : LayerCfg :=
  let b := leBytes 16 (s.get Od.dec_LAYER_CFG sid n)
  ⟨leAt b 0 1, leAt b 1 1, leAt b 2 2, leAt b 4 2, leAt b 6 1, leAt b 7 1, leAt b 12 1, leAt b 8 2, leAt b 10 2⟩

/-- The fields of RUNG_COND_r; of LAYER_n, its crop, kernel and orientation. -/
structure CondCfg where
  x      : Nat
  y      : Nat
  w      : Nat
  h      : Nat
  orient : Nat
  kernel : Nat
  colour : Nat
  range  : Nat
  outW   : Nat
  outH   : Nat
  deriving DecidableEq, Repr

def State.rungCond (s : State) (sid r : Nat) : CondCfg :=
  let b := leBytes 16 (s.get Od.cond_RUNG_COND sid r)
  ⟨leAt b 0 2, leAt b 2 2, leAt b 4 2, leAt b 6 2, leAt b 8 1, leAt b 9 1, leAt b 10 1, leAt b 11 1, leAt b 12 2, leAt b 14 2⟩

/-- The fields of LAYER_n. -/
structure LayerPlace where
  enable : Bool
  matte  : Bool
  orient : Nat
  kernel : Nat
  alpha  : Nat
  global : Nat
  matteOf : Nat
  empty  : Nat
  x      : Nat
  y      : Nat
  w      : Nat
  h      : Nat
  dx     : Int
  dy     : Int
  dw     : Nat
  dh     : Nat
  fill   : Nat
  deriving DecidableEq, Repr

def State.layerPlace (s : State) (sid n : Nat) : LayerPlace :=
  let b := leBytes 32 (s.get Od.cond_LAYER sid n)
  { enable := (leAt b 0 1).testBit 0, matte := (leAt b 0 1).testBit 1, orient := leAt b 1 1, kernel := leAt b 2 1, alpha := leAt b 3 1,
    global := leAt b 4 1, matteOf := leAt b 5 1, empty := leAt b 6 1, x := leAt b 8 2, y := leAt b 10 2, w := leAt b 12 2,
    h := leAt b 14 2, dx := toInt 16 (leAt b 16 2), dy := toInt 16 (leAt b 18 2), dw := leAt b 20 2, dh := leAt b 22 2, fill := leAt b 24 4 }

/-! ### Rates -/

/-- Frame rate of a stream: its domain's, or BULK_RATE of a BULK stream (R198). -/
def State.streamRate (s : State) (sid : Nat) : Nat × Nat :=
  if s.streamClass sid = 2 then (s.get Od.rc_BULK_RATE_NUM sid, s.get Od.rc_BULK_RATE_DEN sid)
  else (s.get Od.rd_RATE_NUM (s.streamDomain sid), s.get Od.rd_RATE_DEN (s.streamDomain sid))

/-- The settings of a rung. -/
def State.rungCfg (s : State) (sid r : Nat) : RungCfg :=
  let rate := s.streamRate sid
  { format := s.get Od.enc_FORMAT sid r, profile := s.get Od.enc_PROFILE sid r, level := s.get Od.enc_LEVEL sid r,
    tier := s.get Od.enc_TIER sid r, preset := s.get Od.enc_PRESET sid r, width := s.get Od.enc_WIDTH sid r,
    height := s.get Od.enc_HEIGHT sid r, depth := s.get Od.enc_BIT_DEPTH sid r, mode := s.get Od.rc_MODE sid r,
    bitrate := s.get Od.rc_BITRATE sid r, maxBitrate := s.get Od.rc_MAX_BITRATE sid r, cpbBits := s.get Od.rc_CPB_BITS sid r,
    initFullness := s.get Od.rc_INIT_FULLNESS sid r, qpLow := s.get Od.rc_QP_LOW sid r, qpHigh := s.get Od.rc_QP_HIGH sid r,
    qpTarget := s.get Od.rc_QP_TARGET sid r, rowCap := s.get Od.rc_ROW_CAP sid r, qpStep := s.get Od.rc_ROW_QP_STEP sid r,
    debtSpread := s.get Od.rc_DEBT_SPREAD sid r, brimEntry := s.get Od.rc_BRIM_ENTRY sid r, aq := s.get Od.rc_AQ_STRENGTH sid r,
    hrd := s.get Od.rc_HRD_SIGNAL sid r != 0, refs := s.get Od.enc_REFS sid, gopB := s.get Od.enc_GOP_B sid,
    lookahead := s.get Od.enc_LOOKAHEAD sid, refreshMode := s.get Od.enc_REFRESH_MODE sid,
    refreshPeriod := s.get Od.enc_REFRESH_PERIOD sid, rateNum := rate.1, rateDen := rate.2, cls := s.streamClass sid }

/-- VBR's MAX_BITRATE 0 stands for 2 × BITRATE (R197). -/
def RungCfg.maxRate (c : RungCfg) : Nat := if c.mode = 1 ∧ c.maxBitrate = 0 then 2 * c.bitrate else c.maxBitrate

/-- peak_rate in bit/s (R201). -/
def RungCfg.peak (c : RungCfg) : Nat := if c.mode = 0 ∨ c.mode = 4 then c.bitrate else c.maxRate

/-- The rate whose quotient by f is budget_per_picture (R201). -/
def RungCfg.budgetRate (c : RungCfg) : Nat := if c.mode = 2 ∨ c.mode = 3 then c.maxBitrate else c.bitrate

/-- CPB size in bits (R201). -/
def RungCfg.cpb (c : RungCfg) : Nat :=
  if c.cpbBits ≠ 0 then c.cpbBits
  else if c.mode = 0 then c.bitrate
  else if c.mode = 4 then 2 * c.bitrate * c.rateDen / c.rateNum
  else c.maxRate

/-- Block columns and block rows of a picture (R153, R162). -/
def blocks64 (n : Nat) : Nat := ceilDiv n 64

def RungCfg.rows (c : RungCfg) : Nat := blocks64 c.height
def RungCfg.cols (c : RungCfg) : Nat := blocks64 c.width

/-- Worst-case sizes of R186: SKIP_BITS, INTRA_BITS, OH. -/
def skipBits (format : Nat) : Nat := match format with | 0 => 40 | 1 => 384 | _ => 48
def intraBits (format : Nat) : Nat := match format with | 0 => 128 | 1 => 512 | _ => 160
def rowOverhead (format : Nat) : Nat := match format with | 0 => 480 | 1 => 448 | _ => 560
def preMax : Nat := 8192

/-- picture_reserve (R201). -/
def RungCfg.reserve (c : RungCfg) : Nat :=
  preMax + c.rows * rowOverhead c.format + c.rows * c.cols * intraBits c.format

/-- F_0 (R199). -/
def RungCfg.firstFullness (c : RungCfg) : Nat := c.cpb * c.initFullness / 1000

/-! ### Limits of formats and levels (R150, R152, R155, R208); the level tables are those of the standards it names -/

/-- A level: number × 10, luma picture size, luma sample rate, Main and High tier bit rate and buffer in kbit. -/
structure LevelRow where
  level  : Nat
  size   : Nat
  rate   : Nat
  br     : Nat
  brHigh : Nat
  cpb    : Nat
  cpbHigh : Nat
  deriving DecidableEq, Repr

/-- HEVC (ITU-T H.265, Annex A). [PRESUMED, unsafe: log entry 17.] -/
def hevcLevels : List LevelRow :=
  [⟨10, 36864, 552960, 128, 0, 350, 0⟩, ⟨20, 122880, 3686400, 1500, 0, 1500, 0⟩, ⟨21, 245760, 7372800, 3000, 0, 3000, 0⟩,
   ⟨30, 552960, 16588800, 6000, 0, 6000, 0⟩, ⟨31, 983040, 33177600, 10000, 0, 10000, 0⟩,
   ⟨40, 2228224, 66846720, 12000, 30000, 12000, 30000⟩, ⟨41, 2228224, 133693440, 20000, 50000, 20000, 50000⟩,
   ⟨50, 8912896, 267386880, 25000, 100000, 25000, 100000⟩, ⟨51, 8912896, 534773760, 40000, 160000, 40000, 160000⟩,
   ⟨52, 8912896, 1069547520, 60000, 240000, 60000, 240000⟩, ⟨60, 35651584, 1069547520, 60000, 240000, 60000, 240000⟩,
   ⟨61, 35651584, 2139095040, 120000, 480000, 120000, 480000⟩]

/-- AVC (ITU-T H.264, Annex A), High profile's rates; sizes and rates in macroblocks × 256.
[PRESUMED, unsafe: log entry 17.] -/
def avcLevels : List LevelRow :=
  [(10, 99, 1485, 64, 175), (11, 396, 3000, 192, 500), (12, 396, 6000, 384, 1000), (13, 396, 11880, 768, 2000),
   (20, 396, 11880, 2000, 2000), (21, 792, 19800, 4000, 4000), (22, 1620, 20250, 4000, 4000), (30, 1620, 40500, 10000, 10000),
   (31, 3600, 108000, 14000, 14000), (32, 5120, 216000, 20000, 20000), (40, 8192, 245760, 20000, 25000),
   (41, 8192, 245760, 50000, 62500), (42, 8704, 522240, 50000, 62500), (50, 22080, 589824, 135000, 135000),
   (51, 36864, 983040, 240000, 240000), (52, 36864, 2073600, 240000, 240000)].map fun e : Nat × Nat × Nat × Nat × Nat =>
    ⟨e.1, e.2.1 * 256, e.2.2.1 * 256, e.2.2.2.1, e.2.2.2.1, e.2.2.2.2, e.2.2.2.2⟩

/-- AV1 (Annex A); the buffer holds one second. [PRESUMED, unsafe: log entry 17.] -/
def av1Levels : List LevelRow :=
  [(20, 147456, 4423680, 1500, 0), (21, 278784, 8363520, 3000, 0), (30, 665856, 19975680, 6000, 0),
   (31, 1065024, 31950720, 10000, 0), (40, 2359296, 70778880, 12000, 30000), (41, 2359296, 141557760, 20000, 50000),
   (50, 8912896, 267386880, 30000, 100000), (51, 8912896, 534773760, 40000, 160000), (52, 8912896, 1069547520, 60000, 240000),
   (53, 8912896, 1069547520, 60000, 240000), (60, 35651584, 1069547520, 60000, 240000)].map
    fun e : Nat × Nat × Nat × Nat × Nat =>
      ⟨e.1, e.2.1, e.2.2.1, e.2.2.2.1, e.2.2.2.2, e.2.2.2.1, e.2.2.2.2⟩

def levelsOf (format : Nat) : List LevelRow := match format with | 0 => hevcLevels | 1 => avcLevels | _ => av1Levels

/-- The coded size pads to 8, or to 16 for AVC (R151). -/
def codedSize (format n : Nat) : Nat := if format = 1 then ceilDiv n 16 * 16 else ceilDiv n 8 * 8

/-- A rung meets a level and tier. AVC High allows 5/4 of the tabled rates. [PRESUMED, unsafe: log entry 17.] -/
def RungCfg.meets (c : RungCfg) (l : LevelRow) (high : Bool) : Bool :=
  let px := codedSize c.format c.width * codedSize c.format c.height
  let f := if c.format = 1 ∧ c.profile = 100 then 1250 else 1000
  decide (px ≤ l.size ∧ px * c.rateNum ≤ l.rate * c.rateDen) &&
    decide (c.peak ≤ (if high then l.brHigh else l.br) * f ∧ c.cpb ≤ (if high then l.cpbHigh else l.cpb) * f)

/-- Sizes of R150. -/
def RungCfg.sizeOk (c : RungCfg) : Bool :=
  let w := if c.format = 0 then 8192 else 4096
  let h := match c.format with | 0 => 4352 | 1 => 2304 | _ => 4096
  decide (128 ≤ c.width ∧ c.width ≤ w ∧ c.width % 2 = 0 ∧ 64 ≤ c.height ∧ c.height ≤ h ∧ c.height % 2 = 0) &&
    decide (c.rows ≤ (match c.format with | 0 => 68 | 1 => 36 | _ => 64))

/-- Profile and bit depth of R150. -/
def RungCfg.profileOk (c : RungCfg) : Bool :=
  match c.format with
  | 0 => (c.profile == 1 && c.depth == 8) || (c.profile == 2 && (c.depth == 8 || c.depth == 10))
  | 1 => (c.profile == 66 || c.profile == 100) && c.depth == 8
  | 2 => c.profile == 0 && (c.depth == 8 || c.depth == 10)
  | _ => false

/-- A rung is supported (R150, R152). -/
def RungCfg.supported (c : RungCfg) : Bool :=
  c.sizeOk && c.profileOk && decide (c.preset ≤ 2) &&
    (if c.level = 0 then (levelsOf c.format).any fun l => c.meets l false || (c.format != 1 && c.meets l true)
     else (levelsOf c.format).any fun l => decide (l.level = c.level) &&
       c.meets l (c.tier == 1 && c.format != 1) && (c.tier == 0 || c.format == 1 || decide (40 ≤ c.level)))

/-- Highest level of R208. -/
def topLevel (format : Nat) : Nat := match format with | 0 => 61 | 1 => 52 | _ => 60

/-- Profiles that the engine decodes (R208): general_profile_idc, profile_idc (66 for Constrained Baseline), seq_profile. -/
def decProfiles (format : Nat) : List Nat := match format with | 0 => [1, 2, 3] | 1 => [66, 77, 100] | _ => [0]

/-- A decode layer's configuration lies within R208. -/
def LayerCfg.supported (c : LayerCfg) : Bool :=
  decide (c.format ≤ 2) && decide (c.width ≤ (if c.format = 1 then 4096 else 8192)) &&
    decide (c.height ≤ (if c.format = 1 then 2304 else 4352)) && decide (0 < c.width ∧ 0 < c.height) &&
    decide (c.depth = 8 ∨ c.depth = 10) && decide (c.level ≤ topLevel c.format)

/-- Largest decoded picture buffer of a level (R239). -/
def LayerCfg.dpb (c : LayerCfg) : Nat :=
  let lv := if c.level = 0 then topLevel c.format else c.level
  let size := c.width * c.height
  if c.slots ≠ 0 then c.slots
  else match c.format with
    | 0 =>
      let most := ((hevcLevels.filter fun l => l.level ≤ lv).map fun l => l.size).foldl max 0
      if size * 4 ≤ most then 16 else if size * 2 ≤ most then 12 else if size * 4 ≤ 3 * most then 8 else 6
    | 1 =>
      let mbs := ceilDiv c.width 16 * ceilDiv c.height 16
      let most := ([(10, 396), (11, 900), (12, 2376), (21, 4752), (22, 8100), (31, 18000), (32, 20480), (40, 32768), (42, 34816),
        (50, 110400), (51, 184320)].filter fun e : Nat × Nat => e.1 ≤ lv).foldl (fun m e => max m e.2) 396
      max 1 (min 16 (most / max 1 mbs))
    | _ => 10

/-! ### Stages and costs (R83, R156, R169) -/

/-- Encode throughput in pixel/s (R156). -/
def encRate (format preset : Nat) : Nat :=
  (if format = 0 then [240000000, 150000000, 75000000] else if format = 1 then [400000000, 250000000, 125000000]
    else [160000000, 100000000, 50000000]).getD preset 1

def decRate : Nat := 600000000

/-- ENC_BPP. -/
def encBpp (format preset : Nat) : Nat := [10, 12, 16].getD preset 16 + if format = 2 then 4 else 0

/-- Layers with a decode stage: the compressed inputs' layers, or layer 0 of PLAYOUT. -/
def State.decodeLayers (s : State) (sid : Nat) : List Nat :=
  if s.streamType sid = 4 then [0]
  else (((s.inputs sid).filter fun e => e.compressed (s.streamType sid)).map fun e => e.layer % 16).eraseDups

/-- The stream has encode stages: ENCODE and TRANSCODE always; COMPOSE and PLAYOUT when an output of KIND 0–3 asks for one.
[DESIGN CHOICE, unsafe: log entry 20.] -/
def State.encodes (s : State) (sid : Nat) : Bool :=
  decide (s.streamType sid = 1 ∨ s.streamType sid = 2) ||
    (decide (s.streamType sid = 3 ∨ s.streamType sid = 4) && (s.outputs sid).any fun o => decide (o.kind ≤ 3))

/-- Rungs that are encoded. -/
def State.rungs (s : State) (sid : Nat) : List Nat :=
  if s.encodes sid then List.range (if s.streamType sid = 2 then s.get Od.enc_RUNGS sid else 1) else []

/-- The stream encodes raw RTP video (INPUTS KIND 5). [DEDUCED, unsafe: log entry 68.] -/
def State.rawRtp (s : State) (sid : Nat) : Bool :=
  decide (s.streamType sid = 1) && match s.inputs sid with
    | e :: _ => e.kind == 5
    | [] => false

/-- Size of layer 0's source: the largest that LAYER_CFG allows; raw RTP video has rung 0's size while MAX_WIDTH and
MAX_HEIGHT stand at their defaults. [DEDUCED, unsafe: log entry 68.] -/
def State.layerSize (s : State) (sid : Nat) : Nat × Nat :=
  let c := s.layerCfg sid 0
  if s.rawRtp sid ∧ c.width = 1920 ∧ c.height = 1080 then (s.get Od.enc_WIDTH sid 0, s.get Od.enc_HEIGHT sid 0)
  else (c.width, c.height)

/-- Size of the picture that conditioning takes: the canvas for COMPOSE, else layer 0's.
[DESIGN CHOICE, unsafe: log entry 20.] -/
def State.sourceSize (s : State) (sid : Nat) : Nat × Nat :=
  if s.streamType sid = 3 then (s.get Od.cond_CANVAS_WIDTH sid, s.get Od.cond_CANVAS_HEIGHT sid)
  else s.layerSize sid

/-- Milli-cells of a decode. -/
def State.decodeCost (s : State) (sid layer : Nat) : Nat :=
  let c := s.layerCfg sid layer
  let r := s.streamRate sid
  ceilDiv (1000 * c.width * c.height * r.1 * (if s.streamType sid = 4 then 2 else 1)) (r.2 * decRate)

/-- Milli-cells of an encode; a lower rung reuses the analysis. -/
def State.encodeCost (s : State) (sid r : Nat) : Nat :=
  let c := s.rungCfg sid r
  ceilDiv ((if r = 0 then 1000 else 700) * c.width * c.height * c.rateNum) (c.rateDen * encRate c.format c.preset)

/-- Stages of a stream with their costs: 0–15 decodes, 16 + r encodes. [DESIGN CHOICE, unsafe: log entry 20.] -/
def State.stageCosts (s : State) (sid : Nat) : List (Nat × Nat) :=
  (s.decodeLayers sid).map (fun l => (l, s.decodeCost sid l)) ++ (s.rungs sid).map fun r => (16 + r, s.encodeCost sid r)

/-! ### Conditioning passes (R246–R264) -/

/-- A crop (R248), with 0 standing for the rest. -/
def cropSize (off size whole : Nat) : Nat := if size = 0 then whole - off else size

/-- Bytes per pixel of a raw layout × 8. -/
def layoutBits (l : Nat) : Nat :=
  [12, 12, 24, 24, 24, 16, 32, 16, 22, 24, 48, 36, 32, 32, 32].getD l 24

/-- The source of the stream's pictures is decoded. -/
def State.decodedSource (s : State) (sid : Nat) : Bool := s.decodeLayers sid != []

/-- Output size and depth and chroma of pass r. -/
def State.passOut (s : State) (sid r : Nat) : Nat × Nat :=
  let src := s.sourceSize sid
  let c := s.rungCond sid r
  if s.encodes sid then ((s.rungCfg sid r).width, (s.rungCfg sid r).height)
  else
    let w := cropSize c.x c.w src.1
    let h := cropSize c.y c.h src.2
    (if c.outW = 0 then (if turned c.orient then h else w) else c.outW,
      if c.outH = 0 then (if turned c.orient then w else h) else c.outH)

/-- A pass is an identity (R247): raw RTP video comes in the rung's depth. [DEDUCED, unsafe: log entry 68.] -/
def State.passIdentity (s : State) (sid r : Nat) : Bool :=
  let src := s.sourceSize sid
  let c := s.rungCond sid r
  let out := s.passOut sid r
  let chromaIn := if s.streamType sid = 3 then 2 else if s.decodedSource sid then 0 else layoutChroma (s.get Od.cond_RAW_LAYOUT_IN sid)
  let chromaOut := if s.encodes sid then 0 else layoutChroma (s.get Od.cond_RAW_LAYOUT sid)
  let depthOut := if s.encodes sid then (s.rungCfg sid r).depth else layoutDepth (s.get Od.cond_RAW_LAYOUT sid)
  let depthIn := if s.decodedSource sid then (s.layerCfg sid 0).depth
    else if s.rawRtp sid then depthOut else layoutDepth (s.get Od.cond_RAW_LAYOUT_IN sid)
  decide (c.x = 0 ∧ c.y = 0 ∧ cropSize 0 c.w src.1 = src.1 ∧ cropSize 0 c.h src.2 = src.2 ∧ out = src ∧ c.orient = 0) &&
    decide ((c.colour = 0 ∨ c.colour = s.get Od.cond_COLOUR_IN_DEFAULT sid) ∧ c.range = 0) &&
    decide (chromaIn = chromaOut ∧ depthIn ≤ depthOut)

/-- Raw output passes: 0 for a stream with no encode and a raw output. -/
def State.rawOut (s : State) (sid : Nat) : Bool := !s.encodes sid && s.outputs sid != []

/-- Overlap of [a, a + n) with [0, m). -/
def visible (a : Int) (n m : Nat) : Nat := (min (a + n) (m : Int) - max a 0).toNat

/-- The layers of a composition that are drawn or serve as mattes. -/
def State.composed (s : State) (sid : Nat) : List Nat := (List.range 16).filter fun n => (s.layerPlace sid n).enable

/-- Cropped input pixels of a layer. -/
def State.layerIn (s : State) (sid n : Nat) : Nat :=
  let c := s.layerCfg sid n
  let p := s.layerPlace sid n
  cropSize p.x p.w c.width * cropSize p.y p.h c.height

/-- Drawn output pixels of a layer. -/
def State.layerOut (s : State) (sid n : Nat) : Nat :=
  let p := s.layerPlace sid n
  visible p.dx p.dw (s.get Od.cond_CANVAS_WIDTH sid) * visible p.dy p.dh (s.get Od.cond_CANVAS_HEIGHT sid)

/-- A pass to place: number, pixels charged per frame, input and output pixels, ORIENT, output height. -/
structure PassCost where
  pass   : Nat
  pixels : Nat
  inPx   : Nat
  outPx  : Nat
  orient : Nat
  outH   : Nat
  deriving DecidableEq, Repr

/-- Passes of a stream (R264). -/
def State.passCosts (s : State) (sid : Nat) : List PassCost :=
  let src := s.sourceSize sid
  let comp : List PassCost := if s.streamType sid = 3 then
      let ls := s.composed sid
      let canvas := s.get Od.cond_CANVAS_WIDTH sid * s.get Od.cond_CANVAS_HEIGHT sid
      let o := (ls.map fun n => (s.layerPlace sid n).orient).foldl (fun a b => if b = 0 ∨ b = 4 then a else b) 0
      [⟨0x10, canvas + (ls.map fun n => max (s.layerIn sid n) (s.layerOut sid n)).sum, (ls.map fun n => s.layerIn sid n).sum,
        canvas, o, s.get Od.cond_CANVAS_HEIGHT sid⟩]
    else []
  let one : Nat → List PassCost := fun r =>
    if s.passIdentity sid r then []
    else
      let c := s.rungCond sid r
      let i := cropSize c.x c.w src.1 * cropSize c.y c.h src.2
      let o := s.passOut sid r
      [⟨r, max i (o.1 * o.2), i, o.1 * o.2, c.orient, o.2⟩]
  let rungs := if s.encodes sid then s.rungs sid else if s.rawOut sid ∧ s.streamType sid ≠ 3 then [0] else []
  comp ++ (if s.streamType sid = 3 then [] else rungs.flatMap one)

/-- Rate of a pass in pixel/s, rounded up. -/
def State.passRate (s : State) (sid : Nat) (p : PassCost) : Nat :=
  ceilDiv (p.pixels * (s.streamRate sid).1) (s.streamRate sid).2

/-! ### Lags (R169, R221) -/

/-- Lines of the stream's domain in n cycles of 1.2 GHz, rounded up. -/
def State.streamLines (s : State) (sid cycles : Nat) : Nat := s.linesOf (s.streamDomain sid) cycles 1200000000

/-- Cycles of 1.2 GHz of a row of an encode: pixels × 1.2 GHz / rate. -/
def rowCycles (c : RungCfg) : Nat := ceilDiv (c.width * 64 * 1200000000) (encRate c.format c.preset)

/-- Cycles of a decoded row. -/
def decRowCycles (width : Nat) : Nat := width * 64 * 2

/-- A conditioner on the path rotates by 90° or 270°. -/
def State.rotates (s : State) (sid : Nat) : Bool := (s.passCosts sid).any fun p => turned p.orient

/-- in_lines of R169 before the lower rung's wait. -/
def State.inLines (s : State) (sid : Nat) : Nat :=
  let src := s.layerSize sid
  if s.rotates sid then s.lpf (s.streamDomain sid)
  else ceilDiv (64 * s.activeLines (s.streamDomain sid)) src.2 +
    if s.decodedSource sid then s.streamLines sid (decRowCycles src.1) else 0

/-- MIN_LAG of a LIVE stream (R169). -/
def State.minLag (s : State) (sid : Nat) : Nat :=
  let base := s.get Od.st_LEAD_LINES sid + s.get Od.enc_EGRESS_LINES sid + s.inLines sid + 5
  ((s.rungs sid).map fun r => base + s.streamLines sid (rowCycles (s.rungCfg sid r)) +
    if r = 0 then 0 else s.streamLines sid (rowCycles (s.rungCfg sid 0))).foldl max 0

/-- LAG (R167): DISPLAY_LAG, or MIN_LAG of the settings where it is 0. -/
def State.lag (s : State) (sid : Nat) : Nat :=
  if s.get Od.enc_DISPLAY_LAG sid = 0 then s.minLag sid else s.get Od.enc_DISPLAY_LAG sid

/-- DD_OFFSET, GIVEUP_LINES and MX_LINES for a displayed size (R221). -/
def State.ddOffset (s : State) (sid w h : Nat) : Nat :=
  ceilDiv (64 * s.activeLines (s.streamDomain sid)) (max 1 h) + s.streamLines sid (decRowCycles w)
def State.giveupLines (s : State) (sid w : Nat) : Nat := s.streamLines sid (w * 64 / 8) + 1
def State.mxLines (s : State) (sid w : Nat) : Nat := s.streamLines sid (w * 64) + 1

/-- DL(r) for a picture of height h (R167). -/
def State.displayLine (s : State) (sid h r : Nat) : Nat :=
  s.get Od.rd_ACTIVE_FIRST (s.streamDomain sid) + 64 * r * s.activeLines (s.streamDomain sid) / max 1 h

/-- The raster time of line `l` of frame F. -/
def State.lineOf (s : State) (sid frame : Nat) (l : Int) : RTime :=
  rshift (s.lpf (s.streamDomain sid)) ⟨frame, 0, 0⟩ (l * 65536)

/-- D(r) of a rung's row (R167). -/
def State.rowDeadline (s : State) (sid frame h r : Nat) : RTime :=
  s.lineOf sid frame ((s.displayLine sid h r + s.lag sid : Nat) - (s.get Od.st_LEAD_LINES sid : Int))

/-- CD(r) (R167). -/
def State.completionDeadline (s : State) (sid frame h r : Nat) : RTime :=
  s.lineOf sid frame ((s.displayLine sid h r + s.lag sid : Nat) - (s.get Od.st_LEAD_LINES sid + s.get Od.enc_EGRESS_LINES sid : Nat))

/-- The start of LINE 0 of frame F + n. -/
def State.frameDeadline (frame n : Nat) : RTime := ⟨(frame + n) % 2 ^ 40, 0, 0⟩

/-- PTS of source frame F; the frame of a decode time may lie before frame 0 (R161). -/
def State.pts (s : State) (sid : Nat) (frame : Int) : Nat :=
  let r := s.streamRate sid
  ((frame * 90000 * (r.2 : Int) / (r.1 : Int) + (s.get Od.enc_TS_OFFSET sid : Int)) % (2 ^ 32 : Nat)).toNat

/-- Queue priority of a stream within its class band (the PRI object; 0xFF the top).
[DESIGN CHOICE, unsafe: log entry 23.] -/
def State.streamPri (s : State) (sid : Nat) : Nat :=
  let p := s.get Od.st_PRI sid
  match s.streamClass sid with
  | 0 => if 5 ≤ p ∧ p ≤ 7 then p else 7
  | 1 => if 2 ≤ p ∧ p ≤ 4 then p else 4
  | _ => if p ≤ 1 then p else 1

end Sys2Proof.Machine
end

