-- ==== Sys2Proof/Machine/CellOps.lean ====
section
/-! DEFINITION. Cells, crowns and conditioners as the Milliner sees them (R86–R92, R113, R119, R264, R498–R503): loads,
placement, spares, crown clocks and voltages, wakes. -/

namespace Sys2Proof.Machine

def State.cell (s : State) (cc : Nat) : Cell := tget s.cells.cells {} cc

def State.setCell (s : State) (cc : Nat) (x : Cell) : State :=
  { s with cells := { s.cells with cells := tput s.cells.cells {} cc x } }

def State.crown (s : State) (cw : Nat) : Crown := tget s.cells.crowns {} cw

def State.setCrown (s : State) (cw : Nat) (x : Crown) : State :=
  { s with cells := { s.cells with crowns := tput s.cells.crowns {} cw x } }

/-- Cells of a crown (R100). -/
def cellsOf (cw : Nat) : List Nat := (List.range 8).map fun k => 8 * cw + k

/-- Cell states (R119). -/
def cellIdle : Nat := 0
def cellBusy : Nat := 1
def cellWaiting : Nat := 2
def cellDraining : Nat := 3
def cellRetired : Nat := 4
def cellParked : Nat := 5
def cellWaking : Nat := 6

def State.cellState (s : State) (cc : Nat) : Nat := s.get Od.cell_STATE cc

/-- IDLE, BUSY or WAITING by the row that the cell holds; other states stand. -/
def State.refreshCell (s : State) (cc : Nat) : State :=
  if s.cellState cc ≤ 2 then
    match (s.cell cc).row with
    | none => s.set Od.cell_STATE cc cellIdle
    | some r => s.set Od.cell_STATE cc (if r.waitDep || r.waitMem then cellWaiting else cellBusy)
  else s

/-- A cell is retired by a fault or by a write (R91, R120). -/
def State.isRetired (s : State) (cc : Nat) : Bool :=
  s.flag Od.cell_RETIRED_BY_FAULT cc || ((s.cell cc).byWrite && s.cellState cc == cellRetired)

def State.cellsRetired (s : State) : Nat := ((List.range 128).filter fun cc => s.isRetired cc).length

/-! ### Loads -/

/-- A share of a stage on a cell (R88). -/
structure Share where
  sid   : Nat
  stage : Nat
  pos   : Nat
  n     : Nat
  cost  : Nat
  deriving DecidableEq, Repr

/-- Cost of one share. -/
def StageSet.share (g : StageSet) : Nat := ceilDiv g.cost (max 1 g.cells.length)

/-- Shares on a cell. -/
def State.sharesOn (s : State) (cc : Nat) : List Share :=
  s.streams.streams.flatMap fun e => e.2.stages.flatMap fun g =>
    ((List.range g.cells.length).filter fun k => g.cells[k]? = some cc).map fun k =>
      ⟨e.1, g.stage, k, g.cells.length, g.share⟩

/-- LOAD_MILLI of a cell. -/
def State.cellLoad (s : State) (cc : Nat) : Nat := ((s.sharesOn cc).map fun h => h.cost).sum

/-- LOAD_MAX_MILLI of a crown. -/
def State.crownLoad (s : State) (cw : Nat) : Nat := ((cellsOf cw).map fun cc => s.cellLoad cc).foldl max 0

/-- Load of a cell once every cell set that waits for a swap point has come (R86). -/
def State.nextLoad (s : State) (cc : Nat) : Nat :=
  (s.streams.streams.map fun e =>
    let of : List StageSet → Nat := fun gs => (gs.map fun g => (g.cells.filter fun c => c = cc).length * g.share).sum
    max (of e.2.stages) (of (e.2.nextStages.getD []))).sum

def State.ceiling (s : State) : Nat := s.get Od.mil_LOAD_CEILING

/-- Admitted cell load. -/
def State.cellsUsed (s : State) : Nat :=
  (s.streams.streams.map fun e => (e.2.stages.map fun g => g.cost).sum).sum

/-- CELL_CAP (R83). -/
def State.cellCap (s : State) : Nat := (128 - s.get Od.mil_SPARE_CELLS - s.cellsRetired) * s.ceiling

/-! ### Row times and slack (R81, R170, R223), in cycles of 1.2 GHz -/

/-- Longest row time of a stage. -/
def State.rowTime (s : State) (sid stage : Nat) : Nat :=
  if stage < 16 then decRowCycles (s.layerCfg sid stage).width else rowCycles (s.rungCfg sid (stage - 16))

/-- Row slack of a LIVE stage: LAG less the MIN_LAG of the stream's settings (R170). -/
def State.slack (s : State) (sid stage : Nat) : Nat :=
  if stage < 16 then 0
  else
    let rd := s.streamDomain sid
    (s.lag sid - s.minLag sid) * s.get Od.rd_RATE_DEN rd * 1200000000 / (s.get Od.rd_RATE_NUM rd * s.lpf rd)

/-- A stage of a class may share a cell with what is there (R81). -/
def State.slackOk (s : State) (cls rt slack cc : Nat) : Bool :=
  (s.sharesOn cc).all fun h =>
    if cls = 0 ∧ s.streamClass h.sid ≠ 0 then decide (s.rowTime h.sid h.stage ≤ slack)
    else if cls ≠ 0 ∧ s.streamClass h.sid = 0 then decide (rt ≤ s.slack h.sid h.stage)
    else true

/-! ### Placement (R88) -/

/-- Shares of a cost under a ceiling. -/
def shareCount (cost ceiling : Nat) : Nat := max 1 (ceilDiv cost ceiling)

/-- Load of a cell with the shares of a trial. -/
def trialLoad (s : State) (placed : List (Nat × Nat)) (cc : Nat) : Nat :=
  s.cellLoad cc + ((placed.filter fun p => p.1 = cc).map fun p => p.2).sum

/-- A forced clock leaves room for a load (R113). -/
def State.forceAllows (s : State) (cw load : Nat) : Bool :=
  let a := s.get Od.crown_CLOCK_FORCE cw
  let b := s.getShadow Od.crown_CLOCK_FORCE cw
  (decide (a = 0) || decide (load * 1200 ≤ s.ceiling * a)) && (decide (b = 0) || decide (load * 1200 ≤ s.ceiling * b))

/-- Cells that may take one more share of cost x. -/
def State.candidates (s : State) (mask : Nat) (placed : List (Nat × Nat)) (x cls rt slack : Nat) : List Nat :=
  (List.range 128).filter fun cc =>
    mask.testBit (cc / 8) && !s.flag Od.cell_SPARE cc && !(s.crown (cc / 8)).banned &&
    decide (s.cellState cc ∉ [cellDraining, cellRetired]) && !s.isRetired cc && decide (s.get Od.crown_POWER_STATE (cc / 8) ≠ 3) &&
    decide (trialLoad s placed cc + x ≤ s.ceiling) && s.forceAllows (cc / 8) (trialLoad s placed cc + x) &&
    s.slackOk cls rt slack cc

/-- Insertion by a strict order. -/
def insertBy {α : Type} (lt : α → α → Bool) (a : α) : List α → List α
  | [] => [a]
  | b :: bs => if lt b a then b :: insertBy lt a bs else a :: b :: bs

def sortBy {α : Type} (lt : α → α → Bool) (l : List α) : List α := l.foldr (insertBy lt) []

/-- Cells by highest load, then lowest number. -/
def byLoad (load : Nat → Nat) (l : List Nat) : List Nat :=
  sortBy (fun a b => decide (load b < load a ∨ (load a = load b ∧ a < b))) l

/-- Candidates of a crown. -/
def inCrown (cand : List Nat) (cw : Nat) : List Nat := cand.filter fun d => d / 8 = cw

/-- Most cells that m of some crowns offer. -/
def mostCells (cand : List Nat) (cws : List Nat) (m : Nat) : Nat :=
  ((sortBy (fun a b : Nat => decide (b < a)) (cws.map fun cw => (inCrown cand cw).length)).take m).sum

/-- m crowns that offer n cells, those with the most loaded cells first. -/
def pickCrowns (cand : List Nat) : Nat → Nat → List Nat → List Nat
  | 0, _, _ => []
  | m + 1, n, cws =>
    match cws.find? fun cw => decide (n ≤ (inCrown cand cw).length + mostCells cand (cws.filter fun c => c ≠ cw) m) with
    | none => []
    | some cw => cw :: pickCrowns cand m (n - (inCrown cand cw).length) (cws.filter fun c => c ≠ cw)

/-- The cells of n shares of one stage: in as few crowns as possible, one for up to 8, and among equally few in those with the
highest present load (R88). -/
def State.placeStage (s : State) (mask : Nat) (placed : List (Nat × Nat)) (n x cls rt slack : Nat) : Option (List Nat) :=
  let cand := byLoad (trialLoad s placed) (s.candidates mask placed x cls rt slack)
  let cws := (cand.map fun cc => cc / 8).eraseDups
  match (List.range (if n ≤ 8 then 1 else 16)).find? fun m => decide (n ≤ mostCells cand cws (m + 1)) with
  | none => none
  | some m => some ((cand.filter fun cc => (pickCrowns cand (m + 1) n cws).contains (cc / 8)).take n)

/-- A stage to place: number, cost, row time, slack. -/
structure ToPlace where
  stage : Nat
  cost  : Nat
  rt    : Nat
  slack : Nat
  deriving DecidableEq, Repr

/-- Places stages in order, largest share first. -/
def State.placeStages (s : State) (mask cls : Nat) : List ToPlace → List (Nat × Nat) → Option (List StageSet)
  | [], _ => some []
  | g :: gs, placed =>
    let n := shareCount g.cost s.ceiling
    let x := ceilDiv g.cost n
    match s.placeStage mask placed n x cls g.rt g.slack with
    | none => none
    | some cells =>
      match s.placeStages mask cls gs (cells.map (fun c => (c, x)) ++ placed) with
      | none => none
      | some rest => some (⟨g.stage, g.cost, cells⟩ :: rest)

/-- Takes a stream's shares off, for a trial against the others' load. -/
def State.without (s : State) (sid : Nat) : State := s.setStream sid { s.stream sid with stages := [] }

/-- Trial placement of a stream of stages with given costs (R84, R86), largest share first; of equal shares those of the
costlier stage go first, as in the worked example of chapter 3. BULK stages hold no cells.
[DEDUCED, unsafe: log entry 69.] -/
def State.trialPlace (s : State) (sid : Nat) : Option (List StageSet) :=
  if s.streamClass sid = 2 then some ((s.stageCosts sid).map fun g => ⟨g.1, 0, []⟩)
  else
    let t := s.without sid
    let gs := (s.stageCosts sid).map fun g => (⟨g.1, g.2, s.rowTime sid g.1, s.slack sid g.1⟩ : ToPlace)
    let size : ToPlace → Nat := fun g => ceilDiv g.cost (shareCount g.cost s.ceiling)
    t.placeStages (s.get Od.st_CROWN_MASK sid) (s.streamClass sid) (sortBy (fun a b => decide (size b < size a ∨ (size a = size b ∧ b.cost < a.cost))) gs) []

/-! ### Conditioners (R84, R264) -/

/-- Rate placed on a conditioner. -/
def State.icRate (s : State) (ic : Nat) : Nat :=
  (s.streams.streams.map fun e => ((e.2.passes.filter fun p => p.ic = ic).map fun p => p.rate).sum).sum

/-- LOAD_MILLI of a conditioner. [DESIGN CHOICE, unsafe: log entry 65.] -/
def State.icLoad (s : State) (ic : Nat) : Nat := ceilDiv (s.icRate ic * 1000) 2000000000

/-- First fit of passes, largest first; `used` is what this trial has placed. -/
def State.fitPasses (s : State) : List (PassCost × Nat) → List (Nat × Nat) → Option (List Pass)
  | [], _ => some []
  | (p, rate) :: rest, used =>
    match (List.range 8).find? fun ic =>
        decide (s.get Od.ic_STATE ic ≠ 2) &&
        decide ((s.icRate ic + ((used.filter fun u => u.1 = ic).map fun u => u.2).sum + rate) * 1000 ≤ 2000000000 * s.ceiling) with
    | none => none
    | some ic =>
      match s.fitPasses rest ((ic, rate) :: used) with
      | none => none
      | some ps => some ({ pass := p.pass, ic := ic, rate := rate, rotates := decide (p.orient ≠ 0 ∧ p.orient ≠ 4), crown := 2 * ic } :: ps)

/-- Trial placement of a stream's passes. A BULK stream's passes hold no conditioner. -/
def State.trialPasses (s : State) (sid : Nat) : Option (List Pass) :=
  let ps := (s.passCosts sid).map fun p => (p, s.passRate sid p)
  if s.streamClass sid = 2 then
    some (ps.map fun p => { pass := p.1.pass, ic := 255, rate := 0, rotates := decide (p.1.orient ≠ 0 ∧ p.1.orient ≠ 4) })
  else
    (s.setStream sid { s.stream sid with passes := [] }).fitPasses (sortBy (fun a b => decide (b.2 < a.2)) ps) []

/-! ### Voltages (R500, R503) -/

/-- Nominal voltage of a crown clock in mV. -/
def nominalMv (mhz : Nat) : Nat := if mhz = 1200 then 800 else if mhz = 900 then 730 else 660

/-- Crowns that are neighbours. -/
def crownNeighbours (n m : Nat) : Bool :=
  decide ((n / 8 = m / 8 ∧ (n + 1 = m ∨ m + 1 = n)) ∨ n + 8 = m ∨ m + 8 = n)

/-- A crown's logic is powered. -/
def State.crownPowered (s : State) (cw : Nat) : Bool := s.get Od.crown_POWER_STATE cw != 0

/-- Clock that the voltage of a crown serves: the higher of the present one and a step up in progress. -/
def State.voltageClock (s : State) (cw : Nat) : Nat := max (s.get Od.crown_CLOCK_MHZ cw) ((s.crown cw).step.getD 0)

/-- Set point before R503: nominal plus trim. -/
def State.baseMv (s : State) (cw : Nat) : Nat := ((nominalMv (s.voltageClock cw) : Int) + tget s.power.crownTrim 0 cw).toNat

/-- Set point of a crown: raised until no powered neighbour is more than 150 mV above. -/
def State.setPoint (s : State) (cw : Nat) : Nat :=
  ((List.range 16).filter fun m => crownNeighbours cw m && s.crownPowered m).foldl (fun v m => max v (s.baseMv m - 150)) (s.baseMv cw)

/-- Sets the crown regulators and VDD_CORE_TARGET: highest set point plus 30 mV, rounded up to 5 mV, 700 to 850. -/
def State.setVoltages (s : State) : State :=
  let on := (List.range 16).filter fun cw => s.crownPowered cw
  let mv := on.map fun cw => (cw, s.setPoint cw)
  let top := (mv.map fun e => e.2).foldl max 0
  let target := max 700 (min 850 (roundUp 5 (top + 30)))
  let up := decide (s.get Od.sys_VDD_CORE_TARGET < target)
  let s := { s with power := { s.power with crownMv := mv, avsPending := s.power.avsPending || up, avsAt := if up then s.cycle else s.power.avsAt } }
  if s.get Od.sys_VDD_CORE_TARGET = target then s else s.set Od.sys_VDD_CORE_TARGET 0 target

/-! ### Crown clocks and wakes (R92, R113, R114, R501) -/

/-- The clock a crown needs. [DESIGN CHOICE, unsafe: log entry 42.] -/
def State.neededClock (s : State) (cw : Nat) : Nat :=
  if s.get Od.crown_CLOCK_FORCE cw ≠ 0 then s.get Od.crown_CLOCK_FORCE cw
  else if s.get Od.mil_CLOCK_SCALING = 0 then 1200
  else
    let m := ((cellsOf cw).map fun cc => s.nextLoad cc).foldl max 0
    if m * 1200 ≤ s.ceiling * 600 then 600 else if m * 1200 ≤ s.ceiling * 900 then 900 else 1200

/-- A condition that has stood since a cycle has stood for DOWN_HOLD seconds (R92, R498). -/
def State.heldLow (s : State) (since : Option Nat) : Bool := match since with
  | none => false
  | some c => decide (c + secCycles (s.get Od.mil_DOWN_HOLD) ≤ s.cycle)

/-- The cycle from which a condition stands, where it stood before from `since`. -/
def stands (since : Option Nat) (holds : Bool) (cycle : Nat) : Option Nat :=
  if holds then some (since.getD cycle) else none

/-- The load of a crown allows a lower clock now (R92). -/
def State.loadLow (s : State) (cw : Nat) : Bool :=
  decide (s.get Od.crown_POWER_STATE cw = 2 ∧ s.neededClock cw < s.get Od.crown_CLOCK_MHZ cw)

/-- Starts a step of a crown's clock. -/
def State.startStep (s : State) (cw mhz : Nat) : State :=
  (s.setCrown cw { s.crown cw with step := some mhz, stepAt := s.cycle }).setVoltages

/-- Steps a crown up where its load, or a forced clock, needs it; a load that needs the present clock ends the wait for a
step down (R92). -/
def State.raiseCrown (s : State) (cw : Nat) : State :=
  let s := if s.neededClock cw < s.get Od.crown_CLOCK_MHZ cw then s else s.setCrown cw { s.crown cw with downDue := false }
  if s.get Od.crown_POWER_STATE cw = 2 ∧ s.voltageClock cw < s.neededClock cw then s.startStep cw (s.neededClock cw) else s

/-- A forced clock that could not be stepped to, since another step ran or the crown was under reset, is stepped to (R113). -/
def State.followForce (s : State) (cw : Nat) : State :=
  let f := s.get Od.crown_CLOCK_FORCE cw
  if f ≠ 0 ∧ s.get Od.crown_POWER_STATE cw = 2 ∧ (s.crown cw).step = none ∧ s.get Od.crown_CLOCK_MHZ cw ≠ f then s.startStep cw f
  else s.raiseCrown cw

/-- Wakes a parked crown; its cells show WAKING. -/
def State.wakeCrown (s : State) (cw : Nat) : State :=
  if s.get Od.crown_POWER_STATE cw = 0 then
    let s := (s.set Od.crown_POWER_STATE cw 1).set Od.crown_CLOCK_MHZ cw 600
    ((cellsOf cw).foldl (fun t cc => if t.isRetired cc then t else t.set Od.cell_STATE cc cellWaking) s).setVoltages
  else s

/-- Crowns on which a stream holds shares. -/
def Stream.crowns (x : Stream) : List Nat := ((x.stages.flatMap fun g => g.cells).map fun c => c / 8).eraseDups

/-- Wakes and steps up the crowns of a list. -/
def State.prepareCrowns (s : State) (cws : List Nat) : State := cws.foldl (fun t cw => (t.wakeCrown cw).raiseCrown cw) s

/-- State of a conditioner half: 0 off, 1 on, 2 powering up. -/
def State.half (s : State) (h : Nat) : Nat := tget s.power.halves 0 h

def State.setHalf (s : State) (h v : Nat) : State := { s with power := { s.power with halves := tput s.power.halves 0 h v } }

/-- Powers the halves that passes need (R498). -/
def State.prepareHalves (s : State) (ps : List Pass) : State :=
  ps.foldl (fun t p => if p.ic < 8 ∧ t.half (p.ic / 4) = 0 then t.setHalf (p.ic / 4) 2 else t) s

/-- Some pass is placed on a half. -/
def State.halfUsed (s : State) (half : Nat) : Bool :=
  s.streams.streams.any fun e => e.2.passes.any fun p => decide (p.ic < 8 ∧ p.ic / 4 = half)

/-- STATE of conditioners by the passes they hold: ACTIVE with one, IDLE without; OUT_OF_SERVICE stands. -/
def State.refreshConditioners (s : State) : State :=
  (List.range 8).foldl (fun t ic =>
    if t.get Od.ic_STATE ic = 2 then t
    else t.set Od.ic_STATE ic (b2n (t.half (ic / 4) == 1 && t.streams.streams.any fun e => e.2.passes.any fun p => p.ic == ic))) s

/-- Everything a set of stages and passes waits for is done (R76, R86). -/
def State.placedReady (s : State) (x : Stream) : Bool :=
  (x.crowns.all fun cw => decide (s.get Od.crown_POWER_STATE cw = 2) && decide (s.neededClock cw ≤ s.get Od.crown_CLOCK_MHZ cw)) &&
    x.passes.all fun p => decide (8 ≤ p.ic) || decide (s.half (p.ic / 4) = 1)

/-! ### Spares (R90) -/

/-- A BULK row runs on a cell. -/
def State.bulkRow (s : State) (cc : Nat) : Bool := match (s.cell cc).row with
  | some r => decide (r.point.cls = 2)
  | none => false

/-- A cell without a share that is in service. -/
def State.cellFree (s : State) (cc : Nat) : Bool :=
  s.sharesOn cc == [] && !s.flag Od.cell_SPARE cc && !s.isRetired cc && !(s.crown (cc / 8)).banned &&
    decide (s.cellState cc ∉ [cellDraining, cellRetired]) && ((s.cell cc).row.isNone || s.bulkRow cc)

def State.spares (s : State) : List Nat := (List.range 128).filter fun cc => s.flag Od.cell_SPARE cc

/-- The cell that becomes a spare next: the highest-numbered free cell of the highest-numbered crown that holds no spare, or,
when every crown with a free cell holds one, of the highest-numbered such crown. -/
def State.nextSpare (s : State) : Option Nat :=
  let free := (List.range 128).filter fun cc => s.cellFree cc
  let fresh := free.filter fun cc => s.spares.all fun d => decide (d / 8 ≠ cc / 8)
  if fresh = [] then free.getLast? else fresh.getLast?

/-- Takes up to n spares. [DESIGN CHOICE, unsafe: log entry 35.] -/
def State.takeSpares : Nat → State → State
  | 0, s => s
  | n + 1, s => match s.nextSpare with
    | none => s
    | some cc => State.takeSpares n ((s.set Od.cell_SPARE cc 1).wakeCrown (cc / 8))

/-- Spares held and asked for are brought together. -/
def State.balanceSpares (s : State) : State :=
  let want := s.get Od.mil_SPARE_CELLS
  let held := s.spares
  if held.length < want then State.takeSpares (want - held.length) s
  else (held.take (held.length - want)).foldl (fun t cc => t.set Od.cell_SPARE cc 0) s

end Sys2Proof.Machine
end

