-- ==== Sys2Proof/Machine/CodeOps.lean ====
section
/-! DEFINITION. Control stores and the cells' sequencers (R124–R149): microwords and their fields, the loader's checks,
bundles, banks, shelf copies, patches, fetch, conditions, the effects of resource fields on what the model holds. -/

namespace Sys2Proof.Machine

/-! ### Microwords (R127, R128) -/

/-- The trap word (R137). -/
def trapWord : Nat := 2

def mwNext (w : Nat) : Nat := bits w 132 12
def mwSeqOp (w : Nat) : Nat := bits w 126 6
def mwCond (w : Nat) : Nat := bits w 120 6
def mwMe (w : Nat) : Nat := bits w 102 18
def mwXf (w : Nat) : Nat := bits w 86 16
def mwIp (w : Nat) : Nat := bits w 76 10
def mwLf (w : Nat) : Nat := bits w 66 10
def mwEc (w : Nat) : Nat := bits w 52 14
def mwLs0 (w : Nat) : Nat := bits w 39 13
def mwLs1 (w : Nat) : Nat := bits w 26 13
def mwVa (w : Nat) : Nat := bits w 8 18
def mwMsg (w : Nat) : Nat := bits w 2 6
def mwStop (w : Nat) : Nat := bits w 0 2

/-- Every resource field is NOP. -/
def mwIdle (w : Nat) : Bool := decide (bits w 2 118 = 0)

/-- A load/store field is valid. -/
def lsValid (f : Nat) : Bool := decide (bits f 10 3 ≤ 6) && (decide (bits f 10 3 = 0) || decide (bits f 7 3 ≤ 4))

/-- The sequencing fields are valid (R129, R132, R136). -/
def seqValid (w : Nat) : Bool :=
  let op := bits (mwSeqOp w) 3 3
  let low := bits (mwSeqOp w) 0 3
  (match op with
    | 0 => decide (mwCond w = 0 ∧ low ≤ 2)
    | 1 => decide (bits low 1 2 ≠ 3)
    | 2 => decide (mwCond w % 2 = 0 ∧ bits low 1 2 ≠ 3)
    | 3 => decide (low = 0)
    | 4 => decide (mwNext w = 0 ∧ mwCond w = 0 ∧ low = 0)
    | 5 => mwIdle w && decide (mwStop w = 0)
    | _ => false) && decide (mwStop w ≠ 3) && (decide (mwStop w ≠ 1) || decide (op = 0))

/-- A word is valid under R127–R136. -/
def mwValid (w : Nat) : Bool :=
  seqValid w && decide (bits (mwMe w) 14 4 ≤ 9) && decide (bits (mwXf w) 12 4 ≤ 8) &&
    (decide (bits (mwXf w) 12 4 = 0) || decide (bits (mwXf w) 5 3 ≤ 4 ∧ bits (mwXf w) 2 3 ≤ 4)) &&
    decide (bits (mwIp w) 7 3 ≤ 6) && decide (bits (mwLf w) 5 3 ≤ 5) &&
    (decide (bits (mwLf w) 5 3 ≠ 0) || decide (bits (mwLf w) 8 2 = 0)) &&
    decide (bits (mwEc w) 10 4 ≤ 14) && lsValid (mwLs0 w) && lsValid (mwLs1 w) && decide (bits (mwVa w) 13 5 ≤ 21) &&
    decide (bits (mwMsg w) 3 3 ≤ 6)

/-- An entry has its VALID bit. -/
def entryValid (e : Nat) : Bool := e.testBit 15

/-- An entry is well-formed: bits [14:12] zero. -/
def entryOk (e : Nat) : Bool := decide (bits e 12 3 = 0)

/-! ### Banks (R137–R142) -/

def State.bank (s : State) (i : Nat) : Bank := tget s.code.banks {} i

def State.setBank (s : State) (i : Nat) (b : Bank) : State :=
  { s with code := { s.code with banks := tput s.code.banks {} i b } }

/-- The bank on which new pictures of a crown start. -/
def State.activeBank (s : State) (cw : Nat) : Nat := bit (s.get Od.cs_BANK_ACTIVE) cw

/-- An image runs: state LOADED, ACTIVE or DRAINING. -/
def Bank.holds (b : Bank) : Bool := decide (2 ≤ b.state)

/-- ENTRY[n] of a bank. -/
def Bank.entry (b : Bank) (n : Nat) : Nat := b.entries.getD n 0

/-- The number of a row's entry (R135): FORMAT × 4 + PRESET, PRESET 3 for decode. -/
def rowEntry (format preset : Nat) : Nat := format * 4 + preset

/-- A row entry is valid on the active bank of some crown of a mask. -/
def State.rowEntryOn (s : State) (mask n : Nat) : Bool :=
  (bitList mask 16).any fun cw =>
    let b := s.bank (2 * cw + s.activeBank cw)
    b.holds && entryValid (b.entry n)

/-- Stages with pictures on a bank of a crown: encode pictures that started there. -/
def State.bankUsers (s : State) (cw b : Nat) : Nat :=
  (s.streams.streams.map fun e =>
    (((e.2.pics.filter fun p => p.started && decide ((cw, b) ∈ p.banks)).map fun p => p.rung).eraseDups).length +
    (e.2.layers.filter fun l => l.2.pics.any fun p => decide ((cw, b) ∈ p.banks)).length).sum

/-- A DRAINING bank that no picture uses becomes LOADED (R140). -/
def State.endDrains (s : State) : State :=
  (List.range 16).foldl (fun t cw =>
    let b := 1 - t.activeBank cw
    if (t.bank (2 * cw + b)).state = 4 ∧ t.bankUsers cw b = 0 then
      (t.setBank (2 * cw + b) { t.bank (2 * cw + b) with state := 2 }).set Od.cs_DRAIN_MASK 0
        (clearBit (t.get Od.cs_DRAIN_MASK) cw)
    else t) s

/-- BANK_SELECT becomes active (R140). -/
def State.swapBanks (s : State) (v : Nat) : State :=
  let old := s.get Od.cs_BANK_ACTIVE
  let s := (s.set Od.cs_BANK_SELECT 0 v)
  let s := (List.range 16).foldl (fun t cw =>
    if bit v cw = bit old cw then t
    else
      let n := 2 * cw + bit v cw
      let o := 2 * cw + bit old cw
      let t := t.setBank n { t.bank n with state := 3 }
      if (t.bank o).state = 3 then
        (t.setBank o { t.bank o with state := 4 }).set Od.cs_DRAIN_MASK 0 (setBit (t.get Od.cs_DRAIN_MASK) cw)
      else t) s
  (s.set Od.cs_BANK_ACTIVE 0 (v % 2 ^ 16)).endDrains

/-- The first of the tests of R139 that a value of BANK_SELECT fails. -/
def State.bankSelectTest (s : State) (v : Nat) : Option Nat :=
  let named := (List.range 16).map fun cw => s.bank (2 * cw + bit v cw)
  if named.any fun b => decide (b.state ≤ 1) then some Status.inUse
  else if named.any fun b => decide (b.rollback < s.get Od.cs_MICROCODE_ROLLBACK) then some Status.outOfRange
  else none

/-! ### Bundles (R143–R147) -/

/-- The image of a bundle: fields and payload. -/
structure Bundle where
  kind     : Nat
  flags    : Nat
  product  : Nat
  stepping : Nat
  imageId  : Nat
  version  : Nat
  rollback : Nat
  words    : Nat
  payload  : List Byte
  entries  : List Nat
  root     : List Byte
  digest   : List Byte
  signed   : List Byte
  sig      : List Byte
  deriving DecidableEq, Repr

def Bundle.ofBytes (bs : List Byte) : Bundle :=
  let n := leAt bs 28 4
  { kind := leAt bs 6 1, flags := leAt bs 7 1, product := leAt bs 8 4, stepping := leAt bs 12 4, imageId := leAt bs 16 4,
    version := leAt bs 20 4, rollback := leAt bs 24 2, words := leAt bs 26 2, payload := (bs.drop 360).take n,
    entries := (List.range 64).map fun k => leAt bs (32 + 2 * k) 2, root := (bs.drop 160).take 133,
    digest := (bs.drop 296).take 64, signed := bs.take (359 + n), sig := (bs.drop (360 + n)).take 132 }

/-- The layout checks of step 4; KIND 3 is a configuration set (R478). -/
def bundleLayout (bs : List Byte) (kind : Nat) : Bool :=
  let n := leAt bs 28 4
  let words := leAt bs 26 2
  decide (bs.take 4 = [0x42#8, 0x56#8, 0x4D#8, 0x43#8]) && decide (leAt bs 4 2 = 1) && decide (leAt bs 6 1 = kind) &&
    decide (bs.length = 360 + n + 132) && decide (leAt bs 24 2 ≤ 63) &&
    (decide (kind = 1) || (bs.drop 32).take 128 == List.replicate 128 0#8) &&
    (if kind = 1 then decide (1 ≤ words ∧ words ≤ 4096 ∧ n = 18 * words) else decide (words = 0 ∧ 16 ≤ n ∧ n ≤ (if kind = 3 then 262144 else 65536)))

/-- The words of a microcode payload. -/
def Bundle.wordList (b : Bundle) : List Nat := (pieces 18 b.payload).map leNat

/-- Words as a table of those that differ from the trap word. -/
def wordTab (ws : List Nat) : Tab Nat := ((List.range ws.length).zip ws).filter fun e => e.2 ≠ trapWord

/-- The digest and signature of a bundle verify under a root key of a given hash. -/
def signatureOk (b : Bundle) (rootHash : Nat) : Bool :=
  decide (leNat (Config.sha512 b.root) = rootHash) && decide (Config.sha512 b.payload = b.digest) &&
    Config.ecdsaVerify b.root (Config.sha512 b.signed) b.sig

/-- Steps 4 to 6 of R144 for a kind, with the root key hash and the rollback counter it answers to: the first failing
result. -/
def bundleFails (bs : List Byte) (kind rootHash counter : Nat) : Option Nat :=
  let b := Bundle.ofBytes bs
  if ¬ bundleLayout bs kind then some Result.imageFormat
  else if ¬ signatureOk b rootHash then some Result.signatureBad
  else if b.product ≠ 0x9672 ∨ b.stepping ≠ 0xB0 then some Result.wrongTarget
  else if b.rollback < counter then some Result.rollback
  else if kind = 1 ∧ ¬ (b.wordList.all mwValid && b.entries.all entryOk) then some Result.imageFormat
  else none

/-- The tests of a bundle under the vendor root key. -/
def State.bundleTest (s : State) (bs : List Byte) (kind counter : Nat) : Option Nat :=
  bundleFails bs kind (s.get Od.sec_VENDOR_ROOT_HASH) counter

/-- Bytes of flash; an erased byte reads 0xFF. [DESIGN CHOICE, unsafe: log entry 10.] -/
def State.flashBytes (s : State) (a n : Nat) : List Byte := (List.range n).map fun k => tget s.sec.flash 0xFF#8 (a + k)

/-- A load from the flash waits at its copy while the flash is programmed (R489). -/
def State.flashBusy (s : State) (source : Nat) : Bool := decide (source = 0 ∧ s.get Od.sec_FLASH_STATE = 1)

/-- Step 3 of R144: the bytes copied from flash (0) or device memory (1), or the failing result. -/
def State.copySource (s : State) (source addr len : Nat) : State × (Nat ⊕ List Byte) :=
  if source = 0 then (s, .inr (s.flashBytes addr len))
  else match s.regionAt addr len with
    | none => (s, .inl Result.noSuchTarget)
    | some _ =>
      match s.hbmRead 157 addr len { flips := [], severity := 0, parity := 0, acts := [] } with
      | (t, .data bs) => (t, .inr bs)
      | (t, _) => (t, .inl Result.imageFormat)

/-- The bytes of a bank's 4,096 words (R125). -/
def bankBytes (words : Tab Nat) : List Byte := (List.range 4096).flatMap fun a => leBytes 18 (tget words trapWord a)

/-- Shelf copies of images that no bank holds go. -/
def State.tidyShelf (s : State) : State :=
  let keep := s.code.shelf.filter fun h =>
    s.code.banks.any fun b => decide (1 ≤ b.2.state) && b.2.imageId == h.imageId && b.2.version == h.version
  { s with code := { s.code with shelf := keep } }

/-- The shelf copy of an image. -/
def State.shelfCopy (s : State) (imageId version : Nat) : Option Shelf :=
  s.code.shelf.find? fun h => decide (h.imageId = imageId ∧ h.version = version)

/-- Writes the shelf copy of an image where PICTURE_REGION can hold it (R145, R280): over the copy of the same image, or in the
lowest free place. -/
def State.shelve (s : State) (imageId version : Nat) (words : Tab Nat) : State :=
  if s.pictureUsable then
    match s.shelfCopy imageId version with
    | some h => s.hbmPut (s.shelfAddr h.slot 0) (bankBytes words)
    | none => match (List.range 32).find? fun k => s.code.shelf.all fun h => h.slot != k with
      | some k =>
        ({ s with code := { s.code with shelf := s.code.shelf ++ [(⟨imageId, version, k⟩ : Shelf)] } }).hbmPut
          (s.shelfAddr k 0) (bankBytes words)
      | none => s
  else s

/-- An image enters a bank, which takes the given state. -/
def State.loadBank (s : State) (i : Nat) (b : Bundle) (st : Nat) : State :=
  let s := s.setBank i
    { state := st, imageId := b.imageId, version := b.version, rollback := b.rollback,
      digest := leAt b.digest 0 4, entries := b.entries, words := wordTab b.wordList }
  let cw := i / 2
  let keep := s.mem.sram.filter fun e =>
    !decide (storeOf e.1 = 2 ∧ instanceOf e.1 = cw ∧ e.1 % 2 ^ 40 / 73728 = i % 2)
  { s with mem := { s.mem with sram := keep } }

/-- Advances a rollback counter of OTP (R470): only with VDD_EFUSE; without it ADVANCE_SKIPPED counts. -/
def State.advanceCounter (s : State) (which v : Nat) : State :=
  let r := if which = 0 then Od.cs_MICROCODE_ROLLBACK else if which = 1 then Od.img_PATCH_ROLLBACK else Od.img_CONFIG_ROLLBACK
  if s.get r < v then
    if s.sec.efuse then s.set r 0 v else s.bump Od.sec_ADVANCE_SKIPPED
  else s

/-- The slot of an active patch with an image's identity (R147). -/
def State.patchSlot (s : State) (imageId version : Nat) : Option Nat :=
  (List.range s.code.patches.length).find? fun k =>
    match s.code.patches[k]? with
    | some p => decide (p.imageId = imageId ∧ p.version = version ∧ p.state = 1)
    | none => false

/-- Takes a slot for a verified patch (R147): the slot, or none when all 256 are used. -/
def State.takePatch (s : State) (b : Bundle) : State × Option Nat :=
  match s.patchSlot b.imageId b.version with
  | some k => (s, some k)
  | none =>
    if s.code.patches.length < 256 then
      ({ s with code := { s.code with patches := s.code.patches ++ [(⟨b.imageId, b.version, 0, b.payload⟩ : PatchSlot)] } },
        some s.code.patches.length)
    else (s, none)

/-- Verified patches become active and supersede lower versions (R148). -/
def State.activatePatches (s : State) : State :=
  let now := s.code.patches.map fun p => if p.state = 0 then { p with state := 1 } else p
  let older : PatchSlot → Bool := fun p => now.any fun q =>
    decide (p.state = 1 ∧ q.state = 1 ∧ q.imageId = p.imageId ∧ p.version < q.version)
  { s with code := { s.code with patches := now.map fun p => if older p then { p with state := 2 } else p } }

/-! ### Sequencers (R126, R129–R136) -/

/-- An error of a cell's row is pending: its message is held, severity 2 or more (R117). -/
def State.rowError (s : State) (cc : Nat) : Bool :=
  s.faults.held.any fun m => decide (2 ≤ m.sev ∧ (m.unit = cc ∨ m.master = cc))

/-- Number of the bank that a cell fetches from. -/
def State.cellBank (s : State) (cc : Nat) : Nat := 2 * (cc / 8) + (s.cell cc).bank

/-- The cell that a bank of the crown store serves next: in rotating order after the one served last (R108). -/
def Crown.served (x : Crown) (bank : Nat) : Option Nat :=
  let last := tget x.turn 7 bank
  (tget x.asks [] bank).foldl (fun (best : Option Nat) c => match best with
    | none => some c
    | some d => if (c + 7 - last) % 8 < (d + 7 - last) % 8 then some c else best) none

/-- A cell waits for a bank that serves another cell first (R108). -/
def State.bankWaits (s : State) (cc : Nat) : Bool :=
  let x := s.crown (cc / 8)
  x.asks.any fun e => e.2.contains (cc % 8) && x.served e.1 != some (cc % 8)

/-- A cell may issue a word: its crown runs, no loader writes its bank (R124), no bank of the crown store keeps it waiting, and it
holds a row that has not ended and has no error. [DESIGN CHOICE, unsafe: log entry 35.] -/
def State.mayIssue (s : State) (cc : Nat) : Bool :=
  !s.rowError cc && decide (s.get Od.crown_POWER_STATE (cc / 8) = 2) && decide ((s.bank (s.cellBank cc)).state ≠ 1) &&
    !s.bankWaits cc && (match (s.cell cc).row with
    | some r => !r.ended && !r.waitMem
    | none => false)

/-- The 18 bytes of a word of a bank are read (R124): the state after, and whether one could not be corrected. -/
def State.readWord (s : State) (cw bank addr acc master : Nat) : State × Bool :=
  (List.range 18).foldl (fun (q : State × Bool) k =>
    let r := q.1.readSram (sramLoc 2 cw (bank * 73728 + addr * 18 + k)) acc master
    (r.1, q.2 || decide (r.2 = .uncorrectable))) (s, false)

/-- Fences a word (R126). -/
def State.fence (s : State) (i addr : Nat) : State :=
  let b := s.bank i
  if addr ∈ b.fenced then s else s.setBank i { b with fenced := b.fenced ++ [addr] }

/-- A fetch: the word, or none for a fenced one, whose fetch is reported (R126). -/
def State.fetch (s : State) (cc : Nat) : State × Option Nat :=
  let i := s.cellBank cc
  let a := (s.cell cc).addr
  let q := s.readWord (cc / 8) ((s.cell cc).bank) a 3 cc
  let t := if q.2 then q.1.fence i a else q.1
  if a ∈ (t.bank i).fenced then (t.report cc 0x08 3 cc a, none) else (t, some (tget (t.bank i).words trapWord a))

/-- What a row's context conditions read (R134): blocks of the row, rows of the picture, bit depth, whether the source is 4:4:4,
whether the rung is a lower one, blocks of the refresh column, whether a reference is missing. -/
structure RowFacts where
  cols    : Nat := 1
  rows    : Nat := 1
  depth   : Nat := 8
  full444 : Bool := false
  lower   : Bool := false
  refresh : Nat := 0
  missing : Bool := false
  deriving DecidableEq, Repr

/-- Chroma format of the source of an encode: that of a raw layout, else 4:2:0 (R210, R267). -/
def State.encodeChroma (s : State) (sid : Nat) : Nat :=
  match (s.stream sid).layers with
  | [] => 0
  | l :: _ => match l.2.last with
    | some p => p.image.chroma
    | none => 0

/-- The facts of the row of a record. -/
def State.rowFacts (s : State) (p : Checkpoint) : RowFacts :=
  let x := s.stream p.sid
  if 16 ≤ p.stage then
    match x.pics.find? fun q => decide (q.rung = p.index ∧ q.pic = p.pic) with
    | none => {}
    | some q =>
      { cols := q.cfg.cols, rows := q.rows.length, depth := q.cfg.depth, full444 := decide (s.encodeChroma p.sid = 2), lower := decide (q.rung ≠ 0),
        refresh := if q.sweep.isSome then ceilDiv q.cfg.cols (max 1 q.cfg.refreshPeriod) else 0 }
  else
    let l := tget x.layers {} p.index
    match l.pics.find? fun q => decide (q.pic = p.pic) with
    | none => {}
    | some q =>
      { cols := ceilDiv q.start.width 64, rows := q.rows.length, depth := q.start.depth,
        missing := l.buffer.any fun b => b.substitute && q.start.refs.contains b.position }

/-- Row context and stage (R134, conditions 36 to 55). -/
def State.rowCondition (s : State) (r : CellRow) (c : Nat) : Bool :=
  let f := s.rowFacts r.point
  match c with
  | 36 => decide (r.done = 0)
  | 37 => decide (f.cols ≤ r.done + 1)
  | 38 => decide (r.point.row = 0)
  | 39 => decide (f.rows ≤ r.point.row + 1)
  | 40 => r.point.rap
  | 41 => r.point.brim
  | 42 => r.point.tainted
  | 43 => r.point.aboveConcealed
  | 44 => decide (r.point.row = 0) || decide (min f.cols (r.done + 2) ≤ r.above)
  | 45 => decide (r.point.refreshCol ≤ r.done ∧ r.done < r.point.refreshCol + f.refresh)
  | 46 => f.missing
  | 47 => r.waitMem
  | 48 => decide (r.point.format = 0)
  | 49 => decide (r.point.format = 1)
  | 50 => decide (r.point.format = 2)
  | 51 => decide (16 ≤ r.point.stage)
  | 52 => decide (r.point.stage < 16)
  | 53 => decide (f.depth = 10)
  | 54 => f.full444
  | _ => f.lower

/-- Condition c (R134). When a resource has done its work is timing, and comes as a bit of `ext`.
[DESIGN CHOICE, unsafe: log entry 84.] -/
def State.condition (s : State) (cc ext c : Nat) : Bool :=
  let x := s.cell cc
  if c < 5 then ext.testBit c
  else if c < 7 then decide (tget x.ready 0 (c - 5) ≤ s.cycle)
  else if c = 7 then x.inbound != []
  else if c < 16 then x.vaFlags.testBit (c - 8)
  else if c < 24 then (tget x.result 0 4).testBit (c - 16)
  else if c < 32 then (tget x.result 0 0).testBit (c - 24)
  else if c = 32 then decide (x.lc0 = 0)
  else if c = 33 then decide (x.lc1 = 0)
  else if c = 34 then decide (x.lc0 = 1)
  else if c = 35 then decide (x.lc1 = 1)
  else if c < 56 then match x.row with
    | none => false
    | some r => s.rowCondition r c
  else if c < 63 then x.user.testBit (c - 56)
  else true

/-- Decrements a loop counter: 1 LC0, 2 LC1; a counter at 0 stays (R131). -/
def Cell.countDown (x : Cell) (sel : Nat) : Cell :=
  if sel = 1 then { x with lc0 := x.lc0 - 1 } else if sel = 2 then { x with lc1 := x.lc1 - 1 } else x

/-! ### Resource fields: the registers and stores that the model holds (R128) -/

/-- Lane width and lanes of a layout. -/
def laneBits (layout : Nat) : Nat := if layout = 0 then 12 else 8
def laneCount (layout : Nat) : Nat := if layout = 0 then 6 else 9

/-- Lanewise result of two operands and the destination before. [DESIGN CHOICE, unsafe: log entry 34.] -/
def laneMap (layout : Nat) (f : Nat → Nat → Nat → Nat) (a b d : Nat) : Nat :=
  let w := laneBits layout
  ((List.range (laneCount layout)).map fun k =>
    f (bits a (w * k) w) (bits b (w * k) w) (bits d (w * k) w) % 2 ^ w * 2 ^ (w * k)).sum

/-- The result of a vector operation on one lane, modulo the lane; a shift, a product or a sum of products that falls outside
the lane is `free`, since the spec states no result there. `acc` is the destination's lane before.
[DESIGN CHOICE, unsafe: log entry 34.] -/
def vaLane (w op a b acc free : Nat) : Nat :=
  let fit : Nat → Nat := fun r => if r < 2 ^ w then r else free
  match op with
  | 1 => a + b
  | 2 => a + 2 ^ w - b
  | 3 => if a ≤ b then b - a else a - b
  | 4 => 2 ^ w - a
  | 5 => min a b
  | 6 => max a b
  | 7 => fit (a * 2 ^ b)
  | 8 => a / 2 ^ b
  | 9 => (a + 2 ^ b / 2) / 2 ^ b
  | 10 => min a b
  | 11 => fit (a * b)
  | 12 => fit (acc + a * b)
  | 13 => a &&& b
  | 14 => a ||| b
  | 15 => a ^^^ b
  | _ => a

/-- Flags 8–15 of R134 from a lane result: zero and negative are those of lane 0; carry, overflow and clip are `free` bits,
which the spec does not define. -/
def vaFlagsOf (layout r free : Nat) : Nat :=
  let w := laneBits layout
  let lanes := (List.range (laneCount layout)).map fun k => bits r (w * k) w
  let neg : Nat → Bool := fun x => x.testBit (w - 1)
  b2n (lanes.getD 0 0 == 0) + 2 * b2n (neg (lanes.getD 0 0)) + 4 * (free % 2) + 8 * (free / 2 % 2) +
    16 * b2n (lanes.any fun x => x == 0) + 32 * b2n (lanes.all fun x => x == 0) + 64 * b2n (lanes.any neg) + 128 * (free / 4 % 2)

/-- An immediate in every lane. -/
def splat (layout n : Nat) : Nat := ((List.range (laneCount layout)).map fun k => n * 2 ^ (laneBits layout * k)).sum

/-- The vector ALU field issues. [DESIGN CHOICE, unsafe: log entry 34.] [DESIGN CHOICE, unsafe: log entry 80.] -/
def State.issueVa (s : State) (cc f : Nat) : State :=
  let x := s.cell cc
  let op := bits f 13 5
  let layout := bits f 12 1
  let d := bits f 8 4
  let a := tget x.v 0 (bits f 4 4)
  let b := tget x.v 0 (bits f 0 4)
  let putV : Nat → Tab Nat := fun r => tput x.v 0 d r
  let free := s.freeValue
  if op = 0 then s
  else if op ≤ 15 then
    let r := laneMap layout (fun p q e => vaLane (laneBits layout) op p q e (Config.free (s.freeUsed + 1))) a b (tget x.v 0 d)
    if op ≤ 12 then (s.setCell cc { x with v := putV r, vaFlags := vaFlagsOf layout r free }).useFrees 2
    else s.setCell cc { x with v := putV r }
  else if op = 16 then
    let r := laneMap layout (fun p q _ => vaLane (laneBits layout) 2 p q 0 0) a b 0
    (s.setCell cc { x with vaFlags := vaFlagsOf layout r free }).useFree
  else if op = 17 then s.setCell cc { x with v := putV a }
  else if op = 18 then s.setCell cc { x with v := putV (splat layout (bits f 0 8)) }
  else if op = 19 then s.setCell cc { x with ar := tput x.ar 0 (d % 8) (a % 2 ^ 24) }
  else if op = 20 then
    if bits f 0 1 = 0 then s.setCell cc { x with lc0 := bits a 0 (laneBits layout) }
    else s.setCell cc { x with lc1 := bits a 0 (laneBits layout) }
  else if op = 21 then s.setCell cc { x with user := bits a 0 7 }
  else s

/-- Bytes of an access size. -/
def lsSize (k : Nat) : Nat := [1, 2, 4, 8, 9].getD k 1

/-- The bytes of an on-chip span are read with their code. [DESIGN CHOICE, unsafe: log entry 10.] -/
def State.readRange (s : State) (store inst a n master : Nat) : State :=
  (List.range n).foldl (fun t k => (t.readSram (sramLoc store inst (a + k)) 1 master).1) s

/-- The bytes of an on-chip span are written with their code. -/
def State.wroteRange (s : State) (store inst a n : Nat) : State :=
  (List.range n).foldl (fun t k => t.writeSram (sramLoc store inst (a + k))) s

/-! ### The crown store (R108): 16 banks of 384 KiB; the banks of a partition are interleaved by native word
[DESIGN CHOICE, unsafe: log entry 84.] -/

/-- Bytes of a bank; first byte of the row-exchange partition and of the conditioner tiles; bytes of the store. -/
def bankSize : Nat := 393216
def exchangeFrom : Nat := 13 * bankSize
def tilesFrom : Nat := 14 * bankSize
def crownSize : Nat := 16 * bankSize

/-- First bank and banks of the partition that holds a byte. -/
def crownPart (a : Nat) : Nat × Nat :=
  if a < 10 * bankSize then (0, 10) else if a < exchangeFrom then (10, 3) else if a < tilesFrom then (13, 1) else (14, 2)

/-- Bank of a byte of the crown store. -/
def crownBank (a : Nat) : Nat :=
  let p := crownPart a
  p.1 + (a - p.1 * bankSize) / 9 % p.2

/-- Where a byte of the crown store stands: bank × 2^32 + offset, by which its faults name it (R302). -/
def crownLoc (a : Nat) : Nat :=
  let p := crownPart a
  let o := a - p.1 * bankSize
  crownBank a * 2 ^ 32 + (o / 9 / p.2 * 9 + o % 9)

/-- Bytes of a crown's store. -/
def Crown.bytesAt (x : Crown) (a n : Nat) : List Byte := (List.range n).map fun k => tget x.store 0#8 (crownLoc (a + k))

/-- Bytes put into a crown's store. -/
def Crown.putAt (x : Crown) : Nat → List Byte → Crown
  | _, [] => x
  | a, b :: bs => Crown.putAt { x with store := tput x.store 0#8 (crownLoc a) b } (a + 1) bs

/-- Bytes written into a crown's store with their code. -/
def State.crownPut (s : State) (cw a : Nat) (bs : List Byte) : State :=
  (List.range bs.length).foldl (fun t k => t.writeSram (sramLoc 1 cw (crownLoc (a + k)))) (s.setCrown cw ((s.crown cw).putAt a bs))

/-- Bytes of a crown's store are read with their code by a master. -/
def State.crownRead (s : State) (cw a n master : Nat) : State :=
  (List.range n).foldl (fun t k => (t.readSram (sramLoc 1 cw (crownLoc (a + k))) 1 master).1) s

/-- A cell asks the banks of a span for an access. -/
def State.askBanks (s : State) (cc a n : Nat) : State :=
  let x := s.crown (cc / 8)
  let asks := ([crownBank a, crownBank (a + n - 1)].eraseDups).foldl (fun t b =>
    tput t [] b (if (tget t [] b).contains (cc % 8) then tget t [] b else tget t [] b ++ [cc % 8])) x.asks
  s.setCrown (cc / 8) { x with asks := asks }

/-- A cell's part of the row-exchange partition, its progress mark and its checkpoint record there.
[DESIGN CHOICE, unsafe: log entry 84.] -/
def exchangePart : Nat := 20480
def exchangeAt (cc half : Nat) : Nat := 2 * exchangePart * (cc % 8) + exchangePart * (half % 2)
def markOf (cc : Nat) : Nat := exchangeFrom + 390840 + 9 * (cc % 8)
def recordOf (cc : Nat) : Nat := exchangeFrom + 390912 + 288 * (cc % 8)

/-- The cell set of a record's picture; empty of a BULK picture, whose rows take any cell. -/
def State.setOf (s : State) (p : Checkpoint) : List Nat :=
  let x := s.stream p.sid
  if 16 ≤ p.stage then match x.pics.find? fun q => decide (q.rung = p.index ∧ q.pic = p.pic) with
    | some q => q.cells
    | none => []
  else match (tget x.layers {} p.index).pics.find? fun q => decide (q.pic = p.pic) with
    | some q => q.cells
    | none => []

/-- The cell of a row of a record's picture. -/
def State.setCellOf (s : State) (p : Checkpoint) (row : Nat) : Option Nat :=
  let cells := s.setOf p
  cells[row % max 1 cells.length]?

/-- Where a row that a cell codes leaves its exchange data in bank 13: in one half of the cell's part, and its next row in the other. -/
def State.exchangeOf (s : State) (cc : Nat) (p : Checkpoint) (row : Nat) : Nat := exchangeAt cc (row / max 1 (s.setOf p).length)

/-- The row below may run in another crown: the exchange data goes to HBM3 too (R110). -/
def State.exchangesOut (s : State) (cc : Nat) : Bool :=
  match (s.cell cc).row with
  | none => false
  | some r => match s.setCellOf r.point (r.point.row + 1) with
    | some d => decide (d / 8 ≠ cc / 8)
    | none => true

/-- A load/store field issues in unit k on what the cycle began with, `s0`: cell store, crown store, or exchange data (R106, R108,
R110). The address register steps by the size, by minus the size, or by a stride that is a free value; data of the cell store is
ready in the next cycle, of the crown store after four.
[DESIGN CHOICE, unsafe: log entry 34.] [DESIGN CHOICE, unsafe: log entry 80.] -/
def State.issueLs (s0 s : State) (cc k f : Nat) : State :=
  let x := s0.cell cc
  let op := bits f 10 3
  let n := lsSize (bits f 7 3)
  let r := bits f 4 3
  let a := tget x.ar 0 r
  let d := bits f 0 2
  let upd := bits f 2 2
  let cw := cc / 8
  if op = 0 then s
  else
    let next := match upd with
      | 0 => a
      | 1 => (a + n) % 2 ^ 24
      | 2 => (a + s.freeValue) % 2 ^ 24
      | _ => (a + 2 ^ 24 - n) % 2 ^ 24
    let s := if upd = 2 then s.useFree else s
    let step : State → State := fun t => if upd = 0 then t else t.setCell cc { t.cell cc with ar := tput (t.cell cc).ar 0 r next }
    let load : State → Nat → List Byte → State := fun t after bs =>
      t.setCell cc { t.cell cc with d := tput (t.cell cc).d 0 d (leNat bs), ready := tput (t.cell cc).ready 0 k (s.cycle + after) }
    let data := leBytes n (tget x.d 0 d)
    let limit := if op ≤ 2 then 2 ^ 20 else if op ≤ 4 then tilesFrom else exchangePart
    let slow := ceilDiv (4 * 1200) (max 1 (s.get Od.crown_CLOCK_MHZ cw))
    if limit < a + n then s.report cc 0x06 op cc (a + n - 1)
    else match op with
      | 1 => (load (step s) 1 ((List.range n).map fun j => tget x.store 0#8 (a + j))).readRange 0 cc a n cc
      | 2 =>
        let t := (step s).wroteRange 0 cc a n
        t.setCell cc { t.cell cc with store := putBytes (t.cell cc).store a data }
      | 3 => ((load (step s) slow ((s0.crown cw).bytesAt a n)).crownRead cw a n cc).askBanks cc a n
      | 4 => ((step s).crownPut cw a data).askBanks cc a n
      | 5 => match x.row with
        | none => s
        | some q =>
          let from_ := q.point.xchgAddr + a
          if q.point.xchgAddr < crownSize then
            ((load (step s) slow ((s0.crown cw).bytesAt from_ n)).crownRead cw from_ n cc).askBanks cc from_ n
          else load (step s) slow (s0.hbmBytes from_ n)
      | _ =>
        let at_ := (match x.row with
          | some q => s0.exchangeOf cc q.point q.point.row
          | none => exchangeAt cc 0) + a
        let t := ((step s).crownPut cw (exchangeFrom + at_) data).askBanks cc (exchangeFrom + at_) n
        if s0.exchangesOut cc then t.hbmPut (t.exchangeAddr cw + at_) data else t

/-- Messages that the inbound queue of a cell holds (R102). -/
def inboundMost : Nat := 32

/-- A batt that a cell asks for comes as an inbound message, when its pool serves it and the queue has room (R102, R311). -/
def State.requestBatt (s : State) (cc : Nat) (r : CellRow) : State :=
  match s.poolFor r.point.cls with
  | none => s
  | some p =>
    if inboundMost ≤ (s.cell cc).inbound.length then s
    else match s.allocate p ownStream r.point.sid 1 1 with
      | some (t, b :: _) =>
        t.setCell cc { t.cell cc with inbound := (t.cell cc).inbound ++ [b], row := some { r with batts := r.batts ++ [b] } }
      | _ => s

/-- The message field issues (R102, R128): a filled batt waits for the row's end, a batt is asked for, a progress mark is written to
bank 13 and declares one more block, a ledger update is reported, an inbound message is taken, a stream event is raised.
[DESIGN CHOICE, unsafe: log entry 84.] -/
def State.issueMsg (s0 s : State) (cc f : Nat) : State :=
  let x := s0.cell cc
  let m := bits f 0 3
  let w := tget x.m 0 m
  match bits f 3 3, (s.cell cc).row with
  | 1, some r => s.setCell cc { s.cell cc with row := some { r with filled := r.filled ++ [w] } }
  | 2, some r => s.requestBatt cc r
  | 3, some r =>
    let cols := (s.rowFacts r.point).cols
    let most := if r.point.row = 0 ∨ cols ≤ r.above then cols else r.above - 1
    let done := min most (r.done + 1)
    let wait := decide (r.point.row ≠ 0) && decide (r.above < min cols (done + 2))
    ((s.setCell cc { s.cell cc with row := some { r with done := done, waitDep := wait } }).crownPut (cc / 8) (markOf cc) (leBytes 9 w)).refreshCell cc
  | 4, some r => s.setCell cc { s.cell cc with row := some { r with ledger := r.ledger ++ [w] } }
  | 5, _ => match x.inbound with
    | w :: _ => s.setCell cc { s.cell cc with m := tput (s.cell cc).m 0 m w, inbound := (s.cell cc).inbound.drop 1 }
    | [] => s
  | 6, some r => s.streamEvent r.point.sid 7
  | _, _ => s

/-! ### The reference cache and the search pyramid (R109) -/

/-- The picture that a reference index of a row names. -/
def State.refPicOf (s : State) (p : Checkpoint) (k : Nat) : Option Nat :=
  let x := s.stream p.sid
  if 16 ≤ p.stage then ((tget x.rungs {} p.index).refs[k]?).map fun q => q.pic
  else
    let l := tget x.layers {} p.index
    match l.pics.find? fun q => decide (q.pic = p.pic) with
    | none => none
    | some q => match q.start.refs[k]? with
      | none => none
      | some pos => (l.buffer.find? fun b => b.position == pos).map fun b => b.pic

/-- A motion-estimation field reads a tile of a reference, or a band of its pyramid in an L2 search: from the crown store, or the cell
stalls until the memory port has filled it. Which tile is in the upper bits of `ext`.
[DESIGN CHOICE, unsafe: log entry 37.] [DESIGN CHOICE, unsafe: log entry 84.] -/
def State.readRef (s : State) (cc f index : Nat) : State :=
  match (s.cell cc).row with
  | none => s
  | some r =>
    let op := bits f 14 4
    if op = 0 ∨ 7 < op then s
    else match s.refPicOf r.point (bits f 11 3) with
      | none => s
      | some pic =>
        let band := decide (op = 1)
        let hit : CacheTile → Bool := fun t => decide (t.sid = r.point.sid ∧ t.stage = r.point.stage ∧ t.pic = pic ∧ t.band = band ∧ t.index = index)
        let x := s.crown (cc / 8)
        match x.cache.find? hit with
        | some t => (s.setCrown (cc / 8) { x with cache := t :: x.cache.filter fun u => !hit u }).bump Od.crown_REF_HITS (cc / 8)
        | none => (s.setCell cc { s.cell cc with row := some { r with waitMem := true, want := some (pic, band, index) } }).refreshCell cc

/-- The fields ME, XF, IP, LF and EC of a word. -/
def mwUnits (w : Nat) : List Nat := [mwMe w, mwXf w, mwIp w, mwLf w, mwEc w]

/-- A resource whose field is not NOP does the operation on what the cycle began with (R102, R128). -/
def State.issueUnit (s0 s : State) (cc k f : Nat) : State :=
  if f = 0 then s
  else
    let x := s0.cell cc
    s.setCell cc { s.cell cc with result := tput (s.cell cc).result 0 k (Config.resource k f x.store x.v (tget x.result 0 k)) }

/-- Every resource field of a word issues in one cycle, on what that cycle began with (R127).
[DESIGN CHOICE, unsafe: log entry 34.] -/
def State.issue (s : State) (cc w ext : Nat) : State :=
  let t := ((List.range 5).zip (mwUnits w)).foldl (fun t e => State.issueUnit s t cc e.1 e.2) (s.issueVa cc (mwVa w))
  let t := State.issueLs s (State.issueLs s t cc 0 (mwLs0 w)) cc 1 (mwLs1 w)
  (State.issueMsg s t cc (mwMsg w)).readRef cc (mwMe w) (ext / 2 ^ 64)

/-- A trap of a cell (R136): TRAPS counts it, and the cell reports it with the microword address. -/
def State.trap (s : State) (cc kind : Nat) : State := (s.bump Od.cs_TRAPS).report cc kind 0 0xFF (s.cell cc).addr

/-- Moves a cell's sequencer. -/
def State.goto (s : State) (cc a : Nat) : State := s.setCell cc { s.cell cc with addr := a % 4096, waited := 0 }

/-- A word of a given operation, fetched by a cell that may issue: `f` gives what follows; a word of another operation, or
a fenced one, does not issue here. -/
def State.issueWord (s : State) (cc op stop : Nat) (f : State → Nat → State) : State :=
  if s.mayIssue cc then
    match s.fetch cc with
    | (t, none) => t
    | (t, some w) => if bits (mwSeqOp w) 3 3 = op ∧ mwStop w = stop then f t w else s
  else s

end Sys2Proof.Machine
end

