-- ==== Sys2Proof/Machine/ReadyOps.lean ====
section
/-! DEFINITION. The pictures of streams and their rows, which rows are ready for a cell, and the one that it takes next (R80,
R81, R89, R90, R154, R159, R173, R221). -/

namespace Sys2Proof.Machine

/-! ### Records of streams -/

def State.rung (s : State) (sid r : Nat) : RungState := tget (s.stream sid).rungs {} r

def State.setRung (s : State) (sid r : Nat) (x : RungState) : State :=
  s.setStream sid { s.stream sid with rungs := tset (s.stream sid).rungs r x }

/-- Pictures of a rung, started ones first and in the order of their starts. -/
def State.rungPics (s : State) (sid r : Nat) : List EncPic := (s.stream sid).pics.filter fun p => p.rung = r

def State.encPic (s : State) (sid r pic : Nat) : Option EncPic := (s.rungPics sid r).find? fun p => p.pic = pic

/-- Changes the pictures of a stream that satisfy p. -/
def State.mapPics (s : State) (sid : Nat) (p : EncPic → Bool) (f : EncPic → EncPic) : State :=
  s.setStream sid { s.stream sid with pics := mapIf p f (s.stream sid).pics }

/-- Replaces a picture. -/
def State.setEncPic (s : State) (sid : Nat) (p : EncPic) : State :=
  s.mapPics sid (fun q => decide (q.rung = p.rung ∧ q.pic = p.pic)) fun _ => p

/-- Changes the n-th element of a list. -/
def setNth {α : Type} : List α → Nat → (α → α) → List α
  | [], _, _ => []
  | a :: l, 0, f => f a :: l
  | a :: l, n + 1, f => a :: setNth l n f

def EncPic.row (p : EncPic) (r : Nat) : EncRow := p.rows.getD r {}

def EncPic.withRow (p : EncPic) (r : Nat) (f : EncRow → EncRow) : EncPic := { p with rows := setNth p.rows r f }

/-- Cells of a stage. -/
def State.stageCells (s : State) (sid stage : Nat) : List Nat :=
  match (s.stream sid).stages.find? fun g => g.stage = stage with
  | some g => g.cells
  | none => []

/-- Cells n of R189: those of the picture's cell set; a BULK picture's rows run one after another. -/
def EncPic.width (p : EncPic) : Nat := max 1 p.cells.length

/-- A stream takes new pictures: RUNNING, or CLOSING before its next swap point (R76). -/
def State.takesPictures (s : State) (sid : Nat) : Bool :=
  s.streamState sid == stRunning || (s.streamState sid == stClosing && (s.stream sid).closeAtSwap)

def State.layer (s : State) (sid n : Nat) : LayerState := tget (s.stream sid).layers {} n

def State.decPic (s : State) (sid n pic : Nat) : Option DecPic := (s.layer sid n).pics.find? fun p => p.pic = pic

def DecPic.row (p : DecPic) (r : Nat) : DecRow := p.rows.getD r {}

def DecPic.withRow (p : DecPic) (r : Nat) (f : DecRow → DecRow) : DecPic := { p with rows := setNth p.rows r f }

/-! ### Rows that are ready (R80, R154, R159, R173) -/

/-- Place of a picture in decode order: its anchor, then its depth, then itself; none for a B picture without its anchor. -/
def decodeKey (ps : List EncPic) (p : EncPic) : Option (Nat × Nat × Nat) :=
  if p.cls ≤ 1 then some (p.pic, 0, 0)
  else match ps.find? fun q => p.pic < q.pic && decide (q.cls ≤ 1) with
    | some a => some (a.pic, p.cls, p.pic)
    | none => none

def keyLt (a b : Nat × Nat × Nat) : Bool :=
  decide (a.1 < b.1 ∨ (a.1 = b.1 ∧ (a.2.1 < b.2.1 ∨ (a.2.1 = b.2.1 ∧ a.2.2 < b.2.2))))

/-- A picture is next in its rung's decode order, and its pre-analysis has been done. -/
def State.mayStartPic (s : State) (sid : Nat) (p : EncPic) : Bool :=
  let byPic := sortBy (fun a b : EncPic => decide (a.pic < b.pic)) (s.rungPics sid p.rung)
  (match decodeKey byPic p with
    | none => false
    | some k => byPic.all fun q => q.started || (match decodeKey byPic q with
      | some kq => !keyLt kq k
      | none => true)) &&
  decide (p.cfg.lookahead ≤ (byPic.filter fun q => decide (p.pic < q.pic) && decide (q.cfg.rows ≤ q.inputRows)).length)

/-- The rows of rung 0 that row r of a lower rung overlaps are complete. -/
def State.analysisReady (s : State) (sid : Nat) (p : EncPic) (r : Nat) : Bool :=
  if p.rung = 0 then true
  else match (s.rungPics sid 0).find? fun q => decide (q.frame = p.frame) with
    | none => true
    | some z =>
      let h := max 1 p.cfg.height
      let first := 64 * r * z.cfg.height / h / 64
      let last := ceilDiv (min (64 * (r + 1)) h * z.cfg.height) h
      z.started && (List.range z.rows.length).all fun k =>
        decide (k < first ∨ last ≤ 64 * k) || decide (2 ≤ (z.row k).state)

/-- Row r of a picture is ready. -/
def State.encReady (s : State) (sid : Nat) (p : EncPic) (r : Nat) : Bool :=
  (p.started || (decide (r = 0) && s.mayStartPic sid p && s.takesPictures sid)) &&
  decide (r < p.rows.length) && decide ((p.row r).state = 0) && decide (r < p.inputRows) &&
  (decide (r = 0) || decide (1 ≤ (p.row (r - 1)).state)) &&
  (decide (r < p.width) || decide (2 ≤ (p.row (r - p.width)).state)) &&
  s.analysisReady sid p r

/-- Deadline of a row: D(r) of a LIVE one, the picture's of a PACED one (R160, R167); none for BULK. -/
def State.encDeadline (s : State) (sid : Nat) (p : EncPic) (r : Nat) : Option RTime :=
  match s.streamClass sid with
  | 0 => some (s.rowDeadline sid p.frame p.cfg.height r)
  | 1 => some (State.frameDeadline p.frame (1 + p.cfg.gopB + p.cfg.lookahead))
  | _ => none

/-! ### The row that a cell takes (R80) -/

/-- A row that is ready for a cell. -/
structure Choice where
  cls    : Nat
  /-- Time to its deadline in units of 2^-16 ns; 0 for BULK. -/
  left   : Int
  sid    : Nat
  stage  : Nat
  pic    : Nat
  row    : Nat
  rerun  : Bool := false
  deriving DecidableEq, Repr

/-- A comes before B (R80). -/
def Choice.before (a b : Choice) : Bool :=
  decide (a.cls < b.cls) || (decide (a.cls = b.cls) &&
    (decide (a.left < b.left) || (decide (a.left = b.left) && (decide (a.sid < b.sid) || (decide (a.sid = b.sid) &&
      (decide (a.pic < b.pic) || (decide (a.pic = b.pic) && decide (a.stage < b.stage))))))))

/-- Time from now to a raster time of a stream's domain, in units of 2^-16 ns. [DEDUCED, unsafe: log entry 28.] -/
def State.timeTo (s : State) (sid : Nat) (d : Option RTime) : Int :=
  match d with
  | none => 0
  | some t =>
    let rd := s.streamDomain sid
    rdiff (s.lpf rd) t (s.now rd) * ((s.get Od.rd_RATE_DEN rd * 10 ^ 9 * 65536 : Nat) : Int) / ((max 1 (s.ticksPer rd) : Nat) : Int)

/-- The image of the bank on which a crown's new pictures start. -/
def State.imageOn (s : State) (cw : Nat) : Nat × Nat :=
  let b := s.bank (2 * cw + s.activeBank cw)
  (b.imageId, b.version)

/-- The bank of a cell's crown on which a picture runs: the one it started on there, else one that holds its image (R140, R141). -/
def State.bankLike (s : State) (cw : Nat) (k : List (Nat × Nat) × Option (Nat × Nat)) : Option Nat :=
  match k.1.find? fun e => e.1 = cw with
  | some (_, b) => some b
  | none => match k.2 with
    | none => some (s.activeBank cw)
    | some z =>
      let fits : Nat → Bool := fun b => let y := s.bank (2 * cw + b); decide (2 ≤ y.state ∧ y.imageId = z.1 ∧ y.version = z.2)
      if fits (s.activeBank cw) then some (s.activeBank cw) else if fits 0 then some 0 else if fits 1 then some 1 else none

/-- Cells on which a BULK stage of a stream may run a row: those of CROWN_MASK, spares only when they are lent, and one that
carries LIVE rows only where the stage's longest row fits in the slack of every LIVE stage there (R80, R81, R90).
[DESIGN CHOICE, unsafe: log entry 43.] -/
def State.bulkCell (s : State) (sid stage cc : Nat) : Bool :=
  (s.get Od.st_CROWN_MASK sid).testBit (cc / 8) && (!s.flag Od.cell_SPARE cc || s.flag Od.mil_LEND_SPARES) &&
    s.slackOk 2 (s.rowTime sid stage) 0 cc

/-- The cell serves row r of a picture of a stage with a cell set. -/
def State.serves (s : State) (sid stage cc : Nat) (cells : List Nat) (r : Nat) : Bool :=
  if cells = [] then s.bulkCell sid stage cc else decide (cells.getD (r % cells.length) 128 = cc)

/-- Rows of an encode that are ready for a cell. -/
def State.encChoices (s : State) (cc : Nat) : List Choice :=
  s.streams.streams.flatMap fun e => e.2.pics.flatMap fun p =>
    let cells := if p.started then p.cells else s.stageCells e.1 (16 + p.rung)
    ((List.range p.rows.length).filter fun r => s.serves e.1 (16 + p.rung) cc cells r && s.encReady e.1 p r).map fun r =>
      { cls := s.streamClass e.1, left := s.timeTo e.1 (s.encDeadline e.1 p r), sid := e.1, stage := 16 + p.rung, pic := p.pic, row := r }

/-- How row r of a decoded picture begins (R218): 0 at an independent entry point, 1 at a wavefront substream, 2 in the midst of what the
row above parses. -/
def DecPic.entry (p : DecPic) (r : Nat) : Nat := p.start.entries.getD r 1

/-- Row r of a decoded picture is ready (R218): its data is complete, or known to be damaged, and it begins at an independent entry point or
the row above has started; a BULK picture's rows run one after another. -/
def decReady (p : DecPic) (bulk : Bool) (r : Nat) : Bool :=
  decide ((p.row r).state = 1) && (decide (r = 0) || (!bulk && decide (p.entry r = 0)) || decide ((if bulk then 3 else 2) ≤ (p.row (r - 1)).state))

/-- Deadline of a decode row: G(r) of a LIVE one (R221), the picture's of a PACED one (R224). -/
def State.decDeadline (s : State) (sid : Nat) (p : DecPic) (r : Nat) : Option RTime :=
  match s.streamClass sid with
  | 0 =>
    let w := p.start.width
    let h := p.start.height
    some (s.lineOf sid p.frame ((s.displayLine sid h r + s.ddOffset sid w h : Nat) - (s.giveupLines sid w : Int)))
  | 1 => some (State.frameDeadline p.frame (1 + p.start.reorder))
  | _ => none

/-- Rows of a decode that are ready for a cell. -/
def State.decChoices (s : State) (cc : Nat) : List Choice :=
  s.streams.streams.flatMap fun e => e.2.layers.flatMap fun l => l.2.pics.flatMap fun p =>
    ((List.range p.rows.length).filter fun r => s.serves e.1 l.1 cc p.cells r && decReady p (s.streamClass e.1 == 2) r).map fun r =>
      { cls := s.streamClass e.1, left := s.timeTo e.1 (s.decDeadline e.1 p r), sid := e.1, stage := l.1, pic := p.pic, row := r }

/-- Banks on which the picture of a record started, and its image. -/
def State.pointBanks (s : State) (p : Checkpoint) : List (Nat × Nat) × Option (Nat × Nat) :=
  if 16 ≤ p.stage then match s.encPic p.sid p.index p.pic with
    | some q => (q.banks, q.image)
    | none => ([], none)
  else match s.decPic p.sid p.index p.pic with
    | some q => (q.banks, q.image)
    | none => ([], none)

/-- A re-run may start: its record can be read here (R118), its image is here, and no word of the bank is fenced (R458).
[DESIGN CHOICE, unsafe: log entry 43.] -/
def State.rerunReady (s : State) (cc : Nat) (k : Checkpoint × Bool) : Bool :=
  (decide (k.1.cell / 8 = cc / 8) || k.2) && (match s.bankLike (cc / 8) (s.pointBanks k.1) with
    | some b => decide ((s.bank (2 * (cc / 8) + b)).fenced = [])
    | none => false)

/-- Rows to be re-run on a cell. -/
def State.rerunChoices (s : State) (cc : Nat) : List Choice :=
  ((s.cell cc).reruns.filter fun k => s.rerunReady cc k).map fun k =>
    { cls := k.1.cls, left := s.timeTo k.1.sid (if k.1.cls = 2 then none else some (RTime.ofWord k.1.deadline)), sid := k.1.sid,
      stage := k.1.stage, pic := k.1.pic, row := k.1.row, rerun := true }

/-- Everything that is ready for a cell. -/
def State.choices (s : State) (cc : Nat) : List Choice := s.rerunChoices cc ++ s.encChoices cc ++ s.decChoices cc

/-- The row that a cell takes. -/
def State.choice (s : State) (cc : Nat) : Option Choice :=
  (s.choices cc).foldl (fun (best : Option Choice) c => match best with
    | none => some c
    | some b => if c.before b then some c else best) none

/-- A LIVE row that is ready behind a row that is not LIVE counts in PREEMPT_WAITS (R81). -/
def State.countWaits (s : State) (cc cls : Nat) : State :=
  if cls = 0 then s
  else ((s.choices cc).filter fun c => c.cls = 0).foldl (fun t c => t.bump Od.ss_PREEMPT_WAITS c.sid) s

/-- The row that a cell runs is about to leave it: the LIVE rows ready behind it have waited, and the batts that it asked for are
returned (R81, R311). -/
def State.leaveRow (s : State) (cc : Nat) : State :=
  match (s.cell cc).row with
  | some r => r.batts.foldl (fun t b => t.decrement b) (s.countWaits cc r.point.cls)
  | none => s

/-- A row that leaves before any cell has taken it has waited, where it is a LIVE row ready behind one that is not (R81). -/
def State.countWaiting (s : State) (sid stage pic row : Nat) : State :=
  if (List.range 128).any fun cc => (match (s.cell cc).row with
    | some r => r.point.cls != 0 && (s.choices cc).any fun c => decide (c.cls = 0 ∧ c.sid = sid ∧ c.stage = stage ∧ c.pic = pic ∧ c.row = row)
    | none => false)
  then s.bump Od.ss_PREEMPT_WAITS sid
  else s

end Sys2Proof.Machine
end

