-- ==== Sys2Proof/Machine/AdmitOps.lean ====
section
/-! DEFINITION. Admission, opening and release of streams (R73–R78, R84–R95, R152–R181, R197–R201, R239, R248–R264, R310,
R314, R320, R374, R423). -/

namespace Sys2Proof.Machine

/-! ### Arguments that STREAM_OPEN refuses with BAD_ARGS -/

/-- An upstream SID is open for its consumers (R74). -/
def State.upstreamOk (s : State) (sid : Nat) : Bool :=
  decide (sid < 512) && decide (s.streamState sid ∈ [stArmed, stRunning, stAlias])

/-- Inputs fit the type (R73), and their upstream streams and channels serve them (R74, R423). -/
def State.inputsOk (s : State) (sid : Nat) : Bool :=
  let ins := s.inputs sid
  let t := s.streamType sid
  (match t with
    | 0 => decide (ins.length = 1) && ins.all fun e => e.compressed 0
    | 1 => decide (ins.length = 1) && ins.all fun e => !e.compressed 1
    | 2 => decide (ins.length = 1) && ins.all fun e => e.compressed 2
    | 3 => decide (1 ≤ ins.length ∧ ins.length ≤ 16) && decide ((ins.map fun e => e.layer).Nodup)
    | _ => true) &&
  ins.all fun e =>
    decide (e.layer < 16) && decide (e.kind ≤ 5) &&
    (decide (e.kind ≠ 4) || s.upstreamOk e.selector) &&
    (decide (e.kind ≠ 3) || (decide (e.selector < 32) && decide (s.get Od.dma_MODE e.selector = 2) &&
      !(s.streams.streams.any fun x => decide (x.1 ≠ sid) && !s.streamShut x.1 &&
        (s.inputs x.1).any fun i => i.kind == 3 && i.selector == e.selector) &&
      decide ((ins.filter fun i => i.kind = 3 ∧ i.selector = e.selector).length = 1)))

/-- Outputs name rungs and channels that serve them (R423), and FEC has an output of KIND 2 (R181). -/
def State.outputsOk (s : State) (sid : Nat) : Bool :=
  let outs := s.outputs sid
  outs.all (fun o => decide (o.kind ≤ 5) && decide (o.rung < 8) &&
    (decide (o.kind ≠ 4) || (decide (o.target < 32) && decide (s.get Od.dma_MODE o.target = 1)))) &&
  (s.rungs sid).all fun r =>
    let mine := outs.filter fun o => o.rung = r
    decide (s.get Od.enc_FEC_MODE sid r = 0) ||
      ((decide (mine = []) || mine.any fun o => decide (o.kind ≠ 0 ∧ o.kind ≠ 1)) &&
        decide (s.get Od.enc_FEC_L sid r * s.get Od.enc_FEC_D sid r ≤ 100))

/-- A rung's MODE suits its class and its rates (R197). -/
def RungCfg.modeOk (c : RungCfg) : Bool :=
  (decide (c.cls ≠ 0) || decide (c.mode = 3 ∨ c.mode = 4)) && (decide (c.mode ≠ 4) || decide (c.cls = 0)) &&
  (decide (c.mode ≠ 2 ∧ c.mode ≠ 3) || decide (c.maxBitrate ≠ 0)) &&
  (decide (c.mode ≠ 1) || decide (c.maxBitrate = 0 ∨ c.bitrate ≤ c.maxBitrate))

/-- A rung's mode, preset and structure are consistent (R155, R159, R180, R197). -/
def RungCfg.argsOk (c : RungCfg) (mux : Nat) : Bool :=
  decide (c.refs ≤ [1, 2, 4].getD c.preset 4) &&
  (decide (c.format ≠ 1 ∨ c.profile ≠ 66) || decide (c.gopB = 0)) &&
  (decide (c.cls ≠ 0) || decide (c.gopB = 0 ∧ c.lookahead = 0 ∧ c.refreshMode = 1)) &&
  c.modeOk &&
  (decide (mux = 0) || decide (((c.peak * c.rateDen + 152 * c.rateNum) * 188 + 30080 * 184 * c.rateDen) ≤ mux * 184 * c.rateDen))

/-- The ladder's sizes (R171). -/
def State.ladderOk (s : State) (sid : Nat) : Bool :=
  let c0 := s.rungCfg sid 0
  (s.rungs sid).all fun r =>
    let c := s.rungCfg sid r
    decide (c.width ≤ c0.width ∧ c.height ≤ c0.height ∧ c0.width ≤ 8 * c.width ∧ c0.height ≤ 8 * c.height)

/-- A scaling ratio from 1/8 to 8 (R249). -/
def ratioOk (i o : Nat) : Bool := decide (0 < i ∧ i ≤ 8 * o ∧ o ≤ 8 * i)

/-- A crop of a source of the given chroma, and the size it is scaled to (R248, R249). -/
def cropOk (x y w h srcW srcH chroma orient outW outH : Nat) : Bool :=
  let cw := cropSize x w srcW
  let ch := cropSize y h srcH
  decide (x + cw ≤ srcW ∧ y + ch ≤ srcH ∧ 64 ≤ cw ∧ 64 ≤ ch) &&
    (decide (chroma = 2) || decide (x % 2 = 0 ∧ cw % 2 = 0)) && (decide (chroma ≠ 0) || decide (y % 2 = 0 ∧ ch % 2 = 0)) &&
    ratioOk cw (if turned orient then outH else outW) && ratioOk ch (if turned orient then outW else outH)

/-- Chroma of a layer's source. -/
def State.sourceChroma (s : State) (sid layer : Nat) : Nat :=
  if layer ∈ s.decodeLayers sid then 0 else layoutChroma (s.get Od.cond_RAW_LAYOUT_IN sid)

/-- Line ticks that a LIVE rotating pass takes against the raster (R253): T_src + T1 within blanking, T1 within a row's share. -/
def State.rotationOk (s : State) (sid : Nat) (p : PassCost) : Bool :=
  let rd := s.streamDomain sid
  let l := s.lpf rd
  let a := s.activeLines rd
  let rows := blocks64 p.outH
  let src := if s.decodedSource sid then s.streamLines sid (decRowCycles (s.layerCfg sid 0).width) else 3
  let num := p.pixels * 1000 * s.get Od.rd_RATE_NUM rd * l
  let den := rows * 2000000000 * s.ceiling * s.get Od.rd_RATE_DEN rd
  decide (num ≤ (l - a - src) * den ∧ src ≤ l - a ∧ num * p.outH ≤ 64 * a * den)

/-- Conditioning and composition arguments (R248–R253, R259). -/
def State.condOk (s : State) (sid : Nat) : Bool :=
  let live := decide (s.streamClass sid = 0)
  let src := s.sourceSize sid
  (if s.streamType sid = 3 then
    (s.composed sid).all fun n =>
      let p := s.layerPlace sid n
      let c := s.layerCfg sid n
      cropOk p.x p.y p.w p.h c.width c.height (s.sourceChroma sid n) p.orient p.dw p.dh &&
        !(live && (p.orient == 2 || p.orient == 6)) &&
        !(decide (p.alpha = 3) && p.matte && true) &&
        !(decide (p.alpha = 3) && decide ((s.layerPlace sid p.matteOf).alpha = 3) && (s.layerPlace sid p.matteOf).enable)
   else
    (s.passCosts sid).all fun q =>
      let c := s.rungCond sid q.pass
      let o := s.passOut sid q.pass
      cropOk c.x c.y c.w c.h src.1 src.2 (s.sourceChroma sid 0) c.orient o.1 o.2 &&
        !(live && (c.orient == 2 || c.orient == 6))) &&
  (!(s.streamType sid == 3 && s.encodes sid) ||
    decide ((s.rungCfg sid 0).width = src.1 ∧ (s.rungCfg sid 0).height = src.2)) &&
  (!live || (s.passCosts sid).all fun q => !turned q.orient || s.rotationOk sid q)

/-- DISPLAY_LAG of a LIVE stream is 0 or at least MIN_LAG (R169). -/
def State.lagOk (s : State) (sid : Nat) : Bool :=
  decide (s.streamClass sid ≠ 0) || decide (s.get Od.enc_DISPLAY_LAG sid = 0) || decide (s.minLag sid ≤ s.get Od.enc_DISPLAY_LAG sid)

/-- The stream's objects are consistent with each other: STREAM_OPEN does not answer BAD_ARGS. -/
def State.argsOk (s : State) (sid : Nat) : Bool :=
  s.inputsOk sid && s.outputsOk sid && s.ladderOk sid && s.condOk sid &&
    ((s.rungs sid).all fun r => (s.rungCfg sid r).argsOk (s.get Od.enc_TS_MUX_RATE sid r)) &&
    s.lagOk sid

/-! ### Costs (R83, R176, R239, R310) -/

/-- Every stage is supported (R135, R150, R152, R208). -/
def State.supported (s : State) (sid : Nat) : Bool :=
  ((s.rungs sid).all fun r =>
    let c := s.rungCfg sid r
    c.supported && s.rowEntryOn (s.get Od.st_CROWN_MASK sid) (rowEntry c.format c.preset)) &&
  (s.decodeLayers sid).all fun n =>
    let c := s.layerCfg sid n
    c.supported && s.rowEntryOn (s.get Od.st_CROWN_MASK sid) (rowEntry c.format 3)

/-- A rung's budget holds its reserve (R201). -/
def RungCfg.budgetOk (c : RungCfg) : Bool :=
  decide (c.reserve * c.rateNum ≤ c.budgetRate * c.rateDen) && decide (c.reserve ≤ c.firstFullness) &&
    decide (c.reserve * c.rateNum + c.budgetRate * c.rateDen ≤ c.cpb * c.rateNum)

/-- Destinations of an output kind on a port. -/
def OutEntry.onPort (o : OutEntry) : Bool := decide (o.kind ≤ 3)

/-- Rate of an output in bit/s: its rung's peak, or the raw pixel rate. [PRESUMED, unsafe: log entry 19.] -/
def State.outputRate (s : State) (sid : Nat) (o : OutEntry) : Nat :=
  if s.encodes sid then (s.rungCfg sid o.rung).peak
  else
    let px := s.passOut sid 0
    let r := s.streamRate sid
    ceilDiv (px.1 * px.2 * layoutBits (s.get Od.cond_RAW_LAYOUT sid) * r.1) r.2

/-- What an output charges its port in bit/s: WIRE_FACTOR, and FEC on KIND 2 (R83, R181).
[PRESUMED, unsafe: log entry 19.] -/
def State.outputCharge (s : State) (sid : Nat) (o : OutEntry) : Nat :=
  let l := s.get Od.enc_FEC_L sid o.rung
  let d := s.get Od.enc_FEC_D sid o.rung
  let base := s.outputRate sid o * 1060
  if o.kind = 2 ∧ s.get Od.enc_FEC_MODE sid o.rung = 1 then ceilDiv (base * (d + 1)) (1000 * d)
  else if o.kind = 2 ∧ s.get Od.enc_FEC_MODE sid o.rung = 2 then ceilDiv (base * (d * l + l + d)) (1000 * d * l)
  else ceilDiv base 1000

/-- Charges by port; BULK outputs are not charged. [DESIGN CHOICE, unsafe: log entry 21.] -/
def State.portCharges (s : State) (sid : Nat) : List (Nat × Nat) :=
  if s.streamClass sid = 2 then []
  else ((s.outputs sid).filter OutEntry.onPort).map fun o => (o.port, s.outputCharge sid o)

/-- Load of a port in bit/s. -/
def State.portLoad (s : State) (p : Nat) : Nat :=
  (s.streams.streams.map fun e => ((e.2.portBits.filter fun b => b.1 = p).map fun b => b.2).sum).sum

/-- Local copies of a rung's coded packets: its outputs of KIND 0–3, the destinations of R315's replication. -/
def State.localCopies (s : State) (sid r : Nat) : Nat := ((s.outputs sid).filter fun o => o.rung = r ∧ o.onPort).length

/-- HBM3 traffic of a stream in bytes/s: decoding, encoding, conditioning, and the buffering and replication of what it sends,
coded or raw; each term is rounded up (R83). [DESIGN CHOICE, unsafe: log entry 78.] -/
def State.memBw (s : State) (sid : Nat) : Nat :=
  let r := s.streamRate sid
  ((s.decodeLayers sid).map fun n => ceilDiv ((s.layerCfg sid n).width * (s.layerCfg sid n).height * 6 * r.1) r.2).sum +
  ((s.rungs sid).map fun e =>
    let c := s.rungCfg sid e
    ceilDiv (c.width * c.height * encBpp c.format c.preset * r.1) r.2).sum +
  ((s.passCosts sid).map fun p => ceilDiv ((p.inPx + p.outPx) * 9 * r.1) (4 * r.2)).sum +
  ((s.rungs sid).map fun e => ceilDiv (s.rungCfg sid e).peak 8 * (1 + s.localCopies sid e)).sum +
  (if s.encodes sid then 0
   else match (s.outputs sid).find? fun o => o.onPort with
    | none => 0
    | some o => ceilDiv (s.outputRate sid o) 8 * (1 + s.localCopies sid o.rung))

/-- HBM3 traffic admitted, bytes/s. -/
def State.memBwUsed (s : State) : Nat := (s.streams.streams.map fun e => e.2.memBw).sum

/-- Picture store of an encode rung (R176). -/
def State.encStore (s : State) (sid r : Nat) : Nat :=
  let c := s.rungCfg sid r
  let b := c.cols * c.rows
  let src := if c.cls = 0 then 2 else 2 + c.gopB + c.lookahead
  let analysis := if r = 0 then b * 1152 * (1 + c.lookahead) else 0
  b * (9288 * (c.refs + 1) + 9216 * src) + analysis + ceilDiv c.cpb 8 + 65536

/-- Picture store of an input layer (R239). -/
def State.decStore (s : State) (sid n : Nat) : Nat :=
  let c := s.layerCfg sid n
  blocks64 c.width * blocks64 c.height * 9288 * (c.dpb + 2) + 65536

/-- Picture stores of a stream by stage. -/
def State.storeBytes (s : State) (sid : Nat) : List (Nat × Nat) :=
  ((s.rungs sid).map fun r => (16 + r, s.encStore sid r)) ++ (s.decodeLayers sid).map fun n => (n, s.decStore sid n)

def State.pictureStore (s : State) (sid : Nat) : Nat := ((s.storeBytes sid).map fun e => e.2).sum

/-- Picture stores that a stream's settings need and that it does not hold already (R85). -/
def State.newStore (s : State) (sid : Nat) : Nat :=
  (((s.storeBytes sid).filter fun e => !(s.stream sid).storeParts.contains e).map fun e => e.2).sum

/-- Bytes of PICTURE_REGION free for picture stores. -/
def State.pictureRoom (s : State) : Nat :=
  let r := s.get Od.mil_PICTURE_REGION
  s.get Od.reg_SIZE r - 2 ^ 24 - s.pictureStores -
    (((List.range 16).filter fun q => s.poolOn q ∧ s.get Od.pool_REGION q = r).map fun q => poolSpan (s.get Od.pool_BATTS q)).sum

/-- MIN(s) in batts (R310). -/
def State.streamMinBatts (s : State) (sid : Nat) : Nat :=
  let outs := (s.outputs sid).filter OutEntry.onPort
  ((s.rungs sid).map fun r =>
    let c := s.rungCfg sid r
    if outs.any fun o => o.rung == r then ceilDiv (2 * c.peak * c.rateDen) (8 * c.rateNum * 2304) + 8 else 0).sum +
  (if s.encodes sid then 0
   else ((outs.filter fun o => o.kind = 0).map fun _ =>
     2 * ceilDiv ((s.passOut sid 0).1 * 64 * layoutBits (s.get Od.cond_RAW_LAYOUT sid)) (8 * 2304)).sum)

/-- Templates of a stream. -/
def State.templateCount (s : State) (sid : Nat) : Nat := ((s.outputs sid).filter OutEntry.onPort).length

/-- Free input queues. -/
def State.freeInputQueues (s : State) : List Nat :=
  ((List.range 512).map fun k => 1024 + k).filter fun q => (tget s.queues.inputOwner none q).isNone

/-- Input layers that need an input queue (R320). -/
def State.queuedLayers (s : State) (sid : Nat) : List InEntry := (s.inputs sid).filter fun e => e.kind ≠ 4

/-- The pool serves the stream's minimum and templates; `own` batts of it are the stream's already. -/
def State.poolHolds (s : State) (sid own : Nat) : Bool :=
  match s.poolFor (s.streamClass sid) with
  | none => false
  | some p => decide (s.streamMinBatts sid + s.templateCount sid ≤ s.sharedFree p + own)

/-! ### The test (R84) -/

/-- Adds a failing test: the shortfall bit, and the first code. -/
def shortfall (a : Nat × Nat) (bad : Bool) (code : Nat) : Nat × Nat :=
  if bad then (setBit a.1 (code - 0x10), if a.2 = 0 then code else a.2) else a

/-- The admission test of a stream's objects as the state holds them: ADMIT_SHORTFALL and the first failing code, 0 for none.
What the stream itself has reserved does not count against it, but for its picture stores (R85). -/
def State.admission (s : State) (sid : Nat) : Nat × Nat :=
  if !s.supported sid then (setBit 0 7, Result.unsupported)
  else
    let old := s.stream sid
    let t := s.setStream sid { old with stages := [], passes := [], portBits := [], memBw := 0 }
    let bulk := decide (s.streamClass sid = 2)
    let milli := if bulk then 0 else ((s.stageCosts sid).map fun g => g.2).sum
    let a := shortfall (0, 0) (!bulk && !s.enabled (s.streamDomain sid)) Result.noDomain
    let a := shortfall a ((s.rungs sid).any fun r => !(s.rungCfg sid r).budgetOk) Result.budgetBelowReserve
    let a := shortfall a (decide (t.cellCap < t.cellsUsed + milli) || (t.trialPlace sid).isNone) Result.noCells
    let a := shortfall a (t.trialPasses sid).isNone Result.noConditioner
    let a := shortfall a (decide (s.get Od.mil_MEM_BW_LIMIT * 1000000000 < t.memBwUsed + s.memBw sid)) Result.noMemoryBw
    let charges := s.portCharges sid
    let a := shortfall a (charges.any fun c =>
      decide (t.lanesFor c.1 * 10000000000 * s.get Od.mil_PORT_LOAD_LIMIT <
        (t.portLoad c.1 + ((charges.filter fun d => d.1 = c.1).map fun d => d.2).sum) * 1000)) Result.noPortCapacity
    shortfall a
      (!s.pictureUsable || decide (s.pictureRoom < s.newStore sid) ||
        !s.poolHolds sid (match tfind s.queues.streamMin sid with
          | some (_, n) => n + old.templates.length
          | none => 0) ||
        decide (s.freeInputQueues.length + (if s.streamShut sid then 0 else (s.queuedLayers sid).length) < (s.queuedLayers sid).length))
      Result.noMemory

/-! ### Templates (R314) -/

/-- A fabric or network destination's MAC: multicast maps from the address; a unicast one is a free value, since the spec
does not say how it is resolved. -/
def State.destMac (s : State) (a : List Byte) : List Byte :=
  if v4Mapped a then
    if isMulticast a then [0x01#8, 0x00#8, 0x5E#8] ++ [BitVec.ofNat 8 (leAt a 13 1 % 128)] ++ (a.drop 14).take 2 else s.freeBytes 6
  else if isMulticast a then [0x33#8, 0x33#8] ++ (a.drop 12).take 4 else s.freeBytes 6

/-- The header bytes of an output's template. Fields that the spec leaves open (hop limits, identification, source port) are
free values. -/
def State.templateBytes (s : State) (sid : Nat) (o : OutEntry) : List Byte :=
  if o.kind = 3 then
    ({ dest := o.target, srcDev := s.ownAddr, kind := 1, prio := s.streamPri sid,
       stream := s.ownAddr * 2 ^ 16 + sid * 2 ^ 6 + o.rung * 8 } : ChHeader).raw 0 0
  else
    let vlan := s.get Od.port_VLAN_ID o.port
    let free := (s.useFrees 6).freeBytes 8
    let eth := s.destMac o.address ++ leBytes 6 (s.get Od.port_MAC_ADDR o.port) ++
      (if vlan = 0 then [] else [0x81#8, 0x00#8] ++ beBytes 2 (s.streamPri sid * 8192 + vlan))
    let udp := free.drop 6 ++ beBytes 2 o.destPort ++ [0#8, 0#8, 0#8, 0#8]
    if v4Mapped o.address then
      eth ++ [0x08#8, 0x00#8, 0x45#8, 0#8, 0#8, 0#8] ++ free.take 2 ++ [0#8, 0#8] ++ (free.drop 2).take 1 ++ [17#8, 0#8, 0#8] ++
        leBytes 4 (s.get Od.port_IPV4_ADDR o.port) ++ o.address.drop 12 ++ udp
    else
      eth ++ [0x86#8, 0xDD#8, 0x60#8, 0#8, 0#8, 0#8, 0#8, 0#8, 17#8] ++ (free.drop 2).take 1 ++
        leBytes 16 (s.get Od.port_IPV6_ADDR o.port) ++ o.address ++ udp

/-- Pins the template batts of a stream's outputs from a pool. [DESIGN CHOICE, safe: log entry 36.] -/
def State.pinTemplates (s : State) (sid p : Nat) : State :=
  let outs := (s.outputs sid).zip (List.range (s.outputs sid).length)
  (outs.filter fun o => o.1.onPort).foldl (fun t o =>
    match t.takeBatt p ownStream sid 255 with
    | none => t
    | some (t', b) =>
      let bs := t'.templateBytes sid o.1
      let r := (t'.useFrees 14).fillBatts [b] bs
      (r.1.poolChanged p).setStream sid { r.1.stream sid with templates := (r.1.stream sid).templates ++ [(o.2, b, bs.length)] }) s

/-- Frees a stream's templates. -/
def State.freeTemplates (s : State) (sid : Nat) : State :=
  let ts := (s.stream sid).templates
  (ts.foldl (fun t e => t.unpin e.2.1) s).setStream sid { s.stream sid with templates := [] }

/-! ### Opening -/

/-- RO rows whose values STREAM_OPEN zeroes: the statistics of 0x3A00+sid. -/
def State.zeroStats (s : State) (sid : Nat) : State :=
  { s with od := s.od.filter fun e => decide (e.1 / 256 ≠ 0x3A00 + sid) }

/-- Joins the multicast groups of a stream's network inputs (R216). -/
def State.joinGroups (s : State) (sid : Nat) : State :=
  let gs := (((s.inputs sid).filter fun e => (e.kind = 0 ∨ e.kind = 1 ∨ e.kind = 5) ∧ e.port < 128 ∧ isMulticast e.group)).map
    fun e => (e.port, e.group)
  let s := s.setStream sid { s.stream sid with memberships := gs }
  gs.foldl (fun t g => if t.portActive g.1 then t.sendMembership g.1 true g.2 else t) s

/-- Leaves them. -/
def State.leaveGroups (s : State) (sid : Nat) : State :=
  ((s.stream sid).memberships).foldl (fun t g => if t.portActive g.1 then t.sendMembership g.1 false g.2 else t) s

/-- Assigns input queues to the layers, and installs the STREAM entries of Chaec Link layers (R320, R374). -/
def State.assignQueues (s : State) (sid : Nat) : State :=
  (s.queuedLayers sid).foldl (fun t e =>
    match t.freeInputQueues with
    | [] => t
    | q :: _ =>
      let t := { t with queues := { t.queues with inputOwner := tput t.queues.inputOwner none q (some (sid, e.layer % 16)) } }
      if e.kind = 2 then
        (t.insertEntry (2 ^ 71 + 2 ^ 70 + 3 * 2 ^ 66 + streamKey e.selector) (emWord 0xFE q t.secondsClock 0xFF 0)).getD t
      else t) s

/-- Releases the input queues of a stream and their entries. -/
def State.releaseQueues (s : State) (sid : Nat) : State :=
  let mine := s.queues.inputOwner.filter fun e => match e.2 with
    | some (x, _) => decide (x = sid)
    | none => false
  mine.foldl (fun t e =>
    let t := { t with queues := { t.queues with inputOwner := tdel t.queues.inputOwner e.1 } }
    t.writeTables fun c => { c with em := c.em.filter fun x =>
      !(emValid x.2 && decide (bits x.2.1 68 2 = 1) && decide (emTarget x.2 = e.1)) }) s

/-- A rung's state at STREAM_OPEN: SSRC, random sequence numbers, CPB model (R178, R199). -/
def State.openRung (s : State) (sid r : Nat) : State × RungState :=
  let c := s.rungCfg sid r
  let d := s.drawBytes 6
  let ssrc := s.get Od.enc_SSRC sid r
  (s.useDraws 6, { seq := leAt d 4 2, ssrc := if ssrc = 0 then leAt d 0 4 else ssrc,
                   full := (c.firstFullness * c.rateNum : Nat), scale := c.rateNum })

/-- The rung states of a stream that opens; raw outputs use that of rung 0. -/
def State.openRungs (s : State) (sid : Nat) : State :=
  (if s.rungs sid = [] then [0] else s.rungs sid).foldl (fun t r =>
    let q := t.openRung sid r
    q.1.setStream sid { q.1.stream sid with rungs := tput (q.1.stream sid).rungs {} r q.2 }) s

/-- Sets MIN_LAG, DD_OFFSET, GIVEUP_LINES and MX_LINES of a LIVE stream (R169, R221). -/
def State.setLags (s : State) (sid : Nat) : State :=
  if s.streamClass sid ≠ 0 then (((s.set Od.enc_MIN_LAG sid 0).set Od.dec_DD_OFFSET sid 0).set Od.dec_GIVEUP_LINES sid 0).set
    Od.dec_MX_LINES sid 0
  else
    let s := s.set Od.enc_MIN_LAG sid (s.minLag sid)
    match s.decodeLayers sid with
    | [] => s
    | n :: _ =>
      let c := s.layerCfg sid n
      ((s.set Od.dec_DD_OFFSET sid (s.ddOffset sid c.width c.height)).set Od.dec_GIVEUP_LINES sid (s.giveupLines sid c.width)).set
        Od.dec_MX_LINES sid (s.mxLines sid c.width)

/-- place(s): commits the trial placement and the charges (R84, R88). -/
def State.commitPlace (s : State) (sid : Nat) (stages : List StageSet) (passes : List Pass) : State :=
  let x := s.stream sid
  let s := s.setStream sid { x with
    stages := stages, passes := passes, memBw := s.memBw sid, portBits := s.portCharges sid, store := s.pictureStore sid,
    storeParts := s.storeBytes sid }
  let s := s.set Od.st_CELLS_MILLI sid ((stages.map fun g => g.cost).sum)
  (((s.prepareCrowns (s.stream sid).crowns).prepareHalves passes).refreshConditioners)

/-- Reserves MIN(s) and pins the templates in the pool of the class. -/
def State.reservePool (s : State) (sid : Nat) : State :=
  match s.poolFor (s.streamClass sid) with
  | none => s
  | some p =>
    let s := { s with queues := { s.queues with streamMin := tset s.queues.streamMin sid (p, s.streamMinBatts sid) } }
    (s.poolChanged p).pinTemplates sid p

/-- Rows of the objects compared by R94. -/
def mergeRows : List Row := Od.all.filter fun r =>
  decide ((r.base = 0x3200 ∨ r.base = 0x3400 ∨ r.base = 0x3800) ∧ r.acc = .rws)

/-- Two streams have equal active values (R94). -/
def State.mergeEqual (s : State) (a b : Nat) : Bool :=
  decide (s.streamType a = s.streamType b ∧ s.streamClass a = s.streamClass b ∧ s.get Od.st_DOMAIN a = s.get Od.st_DOMAIN b ∧
    s.blob Od.st_INPUTS a = s.blob Od.st_INPUTS b) &&
  mergeRows.all fun r => (List.range r.subs).all fun j => decide (s.get r a j = s.get r b j)

/-- The RUNNING stream that a stream would be an alias of. -/
def State.mergeLeader (s : State) (sid : Nat) : Option Nat :=
  if s.flag Od.st_MERGE_OK sid then
    ((s.streams.streams.map fun e => e.1).filter fun x => x ≠ sid).find? fun x =>
      decide (s.streamState x = stRunning) && s.flag Od.st_MERGE_OK x && s.mergeEqual sid x
  else none

/-- An alias is charged its ports only. -/
def State.aliasTest (s : State) (sid : Nat) : Bool :=
  let charges := s.portCharges sid
  let t := s.setStream sid { s.stream sid with portBits := [] }
  charges.all fun c => decide ((t.portLoad c.1 + ((charges.filter fun d => d.1 = c.1).map fun d => d.2).sum) * 1000 ≤
    s.lanesFor c.1 * 10000000000 * s.get Od.mil_PORT_LOAD_LIMIT)

/-- Opens an alias (R94). [DESIGN CHOICE, unsafe: log entry 21.] -/
def State.openAlias (s : State) (sid leader : Nat) : State :=
  let s := (s.zeroStats sid).setStream sid { s.stream sid with portBits := s.portCharges sid }
  let s := match s.poolFor (s.streamClass sid) with
    | none => s
    | some p => s.pinTemplates sid p
  ((s.set Od.st_LEADER sid leader).set Od.st_LEADER leader leader).setStreamState sid stAlias

/-- Opens an admitted stream: ARMED (R76, R84). -/
def State.openStream (s : State) (sid : Nat) : State :=
  let st := (s.trialPlace sid).getD []
  let ps := (s.trialPasses sid).getD []
  let s := (s.zeroStats sid).setLags sid
  let s := (s.commitPlace sid st ps).reservePool sid
  let s := ((s.openRungs sid).assignQueues sid).joinGroups sid
  s.setStreamState sid stArmed

/-! ### Leaving (R76, R78, R91, R95) -/

/-- Takes a stream's rows off the cells at once (R76). -/
def State.abandonRows (s : State) (sid : Nat) : State :=
  (s.cells.cells.map fun e => e.1).foldl (fun t cc =>
    let x := t.cell cc
    let x := { x with reruns := x.reruns.filter fun k => k.1.sid ≠ sid }
    match x.row with
    | some r => if r.point.sid = sid then ((t.leaveRow cc).setCell cc { x with row := none }).refreshCell cc else t.setCell cc x
    | none => t.setCell cc x) s

/-- Rows of a stream that cells still hold belong to no stream (512) from now on: their completion is discarded (R76). -/
def State.disownRows (s : State) (sid : Nat) : State :=
  let cells := s.cells.cells.map fun e => (e.1, { e.2 with row := e.2.row.map fun r =>
    if r.point.sid = sid then { r with point := { r.point with sid := 512 } } else r })
  { s with cells := { s.cells with cells := cells } }

/-- Releases everything a stream holds; its playlist stays. -/
def State.releaseStream (s : State) (sid : Nat) : State :=
  let s := ((s.disownRows sid).leaveGroups sid).releaseQueues sid
  let s := s.freeTemplates sid
  let pool := match tfind s.queues.streamMin sid with
    | some (p, _) => some p
    | none => none
  let s := { s with queues := { s.queues with streamMin := tdel s.queues.streamMin sid } }
  let s := match pool with
    | some p => s.poolChanged p
    | none => s
  let s := s.setStream sid { playlist := (s.stream sid).playlist, nextPlaylist := none }
  let s := (s.set Od.st_CELLS_MILLI sid 0).set Od.st_LEADER sid 0xFFFF
  ((s.refreshConditioners).balanceSpares).endDrains

/-- Aliases of a leader, lowest SID first. -/
def State.aliasesOf (s : State) (sid : Nat) : List Nat :=
  (List.range 512).filter fun x => s.streamState x = stAlias && s.get Od.st_LEADER x == sid

/-- Streams that close behind one leader close behind another. -/
def State.refollow (s : State) (old new : Nat) : State :=
  { s with streams := { s.streams with streams := s.streams.streams.map fun e =>
      (e.1, if e.2.follows = some old then { e.2 with follows := some new } else e.2) } }

/-- A new leader whose CROWN_MASK is not the old one's: its shares are placed within it at its next swap point, where they fit
(R86). -/
def State.ownMask (s : State) (old new : Nat) : State :=
  if s.get Od.st_CROWN_MASK old = s.get Od.st_CROWN_MASK new then s
  else match s.trialPlace new with
    | none => s
    | some gs =>
      let x := s.stream new
      (s.setStream new { x with nextStages := some gs }).prepareCrowns { x with stages := gs }.crowns

/-- The lowest-numbered alias takes over its leader's cell set and coding state (R95, R205); the leader keeps nothing. The
alias's own objects govern the output from then on.
[DESIGN CHOICE, unsafe: log entry 22.] [DESIGN CHOICE, unsafe: log entry 79.] -/
def State.aliasTakeover (s : State) (sid : Nat) : State :=
  match s.aliasesOf sid with
  | [] => s
  | a :: rest =>
    let lead := s.stream sid
    let own := s.stream a
    let s := s.setStream a { lead with
      templates := own.templates, portBits := own.portBits, playlist := lead.playlist, memberships := lead.memberships }
    let s := s.setStream sid { templates := lead.templates, portBits := lead.portBits, playlist := lead.playlist }
    let owner := s.queues.inputOwner.map fun e => match e.2 with
      | some (x, l) => if x = sid then (e.1, some (a, l)) else e
      | none => e
    let mins := match tfind s.queues.streamMin sid with
      | some m => tset (tdel s.queues.streamMin sid) a m
      | none => s.queues.streamMin
    let s := { s with queues := { s.queues with inputOwner := owner, streamMin := mins } }
    let cells := s.cells.cells.map fun e =>
      let move : Checkpoint → Checkpoint := fun k => if k.sid = sid then { k with sid := a } else k
      (e.1, { e.2 with row := e.2.row.map fun r => { r with point := move r.point }, reruns := e.2.reruns.map fun k => (move k.1, k.2) })
    let s := { s with cells := { s.cells with cells := cells } }
    let s := rest.foldl (fun t x => t.set Od.st_LEADER x a) (s.set Od.st_LEADER a a)
    let s := ((s.zeroStats a).set Od.st_CELLS_MILLI a (s.get Od.st_CELLS_MILLI sid)).set Od.enc_MIN_LAG a (s.get Od.enc_MIN_LAG sid)
    let s := s.refollow sid a
    ((s.setStreamState a stRunning).ownMask sid a)

/-- Streams that close behind a leader that is gone are CLOSED. -/
def State.closeFollowers (s : State) (sid : Nat) : State :=
  ((s.streams.streams.filter fun e => e.2.follows = some sid).map fun e => e.1).foldl (fun t f =>
    (t.releaseStream f).setStreamState f stClosed) s

/-- A stream reaches CLOSED. [DESIGN CHOICE, unsafe: log entry 22.] -/
def State.closeStream (s : State) (sid : Nat) : State :=
  (((s.aliasTakeover sid).releaseStream sid).setStreamState sid stClosed).closeFollowers sid

/-- Pictures of a stream that have been started and are not finished, by stage and number. -/
def Stream.underWay (x : Stream) : List (Nat × Nat) :=
  ((x.pics.filter fun p => p.started).map fun p => (16 + p.rung, p.pic)) ++ x.layers.flatMap fun l => l.2.pics.map fun p => (l.1, p.pic)

/-- Streams that close behind a leader, once the last picture for their destinations has ended, are CLOSED (R76). -/
def State.endFollowers (s : State) (sid : Nat) : State :=
  let left := (s.stream sid).underWay
  (s.streams.streams.filter fun e => e.2.follows = some sid ∧ ¬ e.2.closeAtSwap).foldl (fun t e =>
    let still := e.2.lastPics.filter fun p => left.contains p
    if still = [] then (t.releaseStream e.1).setStreamState e.1 stClosed
    else t.setStream e.1 { t.stream e.1 with lastPics := still }) s

/-- One stream goes to DROPPED, or to CLOSED from CLOSING, and the drop is reported: cause 0 degrade, 1 shed. -/
def State.dropOne (s : State) (sid cause : Nat) : State :=
  let state := if s.streamState sid = stClosing then stClosed else stDropped
  ((((s.abandonRows sid).releaseStream sid).setStreamState sid state).closeFollowers sid).reportInfo Unit.control 0x68 (sid + cause * 2 ^ 12)

/-- A stream is dropped with every alias of it (R76, R95). -/
def State.dropStream (s : State) (sid cause : Nat) : State :=
  if s.streamShut sid then s
  else (s.aliasesOf sid).foldl (fun t a => t.dropOne a cause) (s.dropOne sid cause)

/-- Open streams in the order in which they are shed: BULK, PACED, LIVE, highest SID first (R91). -/
def State.shedOrder (s : State) : List Nat :=
  let held := ((s.streams.streams.filter fun e => e.2.stages != [] || e.2.passes != []).map fun e => e.1).reverse
  [2, 1, 0].flatMap fun c => held.filter fun x => s.streamClass x = c

/-- The Milliner drops one stream (R91), and reports cause 0 degrade or 1 shed. -/
def State.shedFor (s : State) (cause sid : Nat) : State := (s.dropStream sid cause).bump Od.mil_SHED_COUNT

/-- Sheds one stream (R91). -/
def State.shed (s : State) (sid : Nat) : State := s.shedFor 1 sid

/-! ### Moving shares (R91, R120, R266) -/

/-- Puts share number k of a stage onto another cell. -/
def moveShare (stage k cc : Nat) (gs : List StageSet) : List StageSet :=
  mapIf (fun g : StageSet => decide (g.stage = stage)) (fun g => { g with cells := g.cells.set k cc }) gs

/-- A list with one cell in place of another. -/
def swapCell (old new : Nat) (cs : List Nat) : List Nat := mapIf (fun c : Nat => decide (c = old)) (fun _ => new) cs

/-- Moves one share of a cell to another cell: it takes the position in the set, in the sets of the pictures under way, and in
the set that waits for a swap point (R458). -/
def State.moveTo (s : State) (h : Share) (cc : Nat) : State :=
  let x := s.stream h.sid
  let old := match x.stages.find? fun g => g.stage = h.stage with
    | some g => g.cells.getD h.pos 128
    | none => 128
  let pics := mapIf (fun p : EncPic => decide (16 + p.rung = h.stage)) (fun p => { p with cells := swapCell old cc p.cells }) x.pics
  let next := x.nextStages.map (mapIf (fun g : StageSet => decide (g.stage = h.stage)) fun g => { g with cells := swapCell old cc g.cells })
  let layers := x.layers.map fun e => (e.1, if e.1 = h.stage then
    { e.2 with pics := e.2.pics.map fun p => { p with cells := swapCell old cc p.cells } } else e.2)
  s.setStream h.sid { x with stages := moveShare h.stage h.pos cc x.stages, pics := pics, nextStages := next, layers := layers }

/-- The best cell for one share on the free capacity, within the stream's CROWN_MASK and as R88 spreads a stage over crowns:
the share stays in a crown of its stage's other cells, and goes to a further crown only in a stage of more than 8 cells. -/
def State.cellFor (s : State) (h : Share) : Option Nat :=
  let cand := byLoad s.cellLoad (s.candidates (s.get Od.st_CROWN_MASK h.sid) [] h.cost (s.streamClass h.sid) (s.rowTime h.sid h.stage)
    (s.slack h.sid h.stage))
  let cells := s.stageCells h.sid h.stage
  let others := (cells.eraseIdx h.pos).map fun c => c / 8
  let cand := cand.filter fun c => !cells.contains c
  match cand.find? fun c => others.contains (c / 8) with
  | some c => some c
  | none => if others = [] ∨ 8 < cells.length then cand.head? else none

/-- Re-places shares by R88; where one does not fit, whole streams are shed until it does. -/
def State.replaceShares (cause : Nat) : Nat → State → Nat → State
  | 0, s, _ => s
  | n + 1, s, cc =>
    match sortBy (fun a b : Share => decide (b.cost < a.cost)) (s.sharesOn cc) with
    | [] => s
    | h :: _ =>
      match s.cellFor h with
      | some d => State.replaceShares cause n ((s.moveTo h d).prepareCrowns [d / 8]) cc
      | none => match s.shedOrder with
        | [] => s
        | x :: _ => State.replaceShares cause n (s.shedFor cause x) cc

/-- Every share of a cell that goes out of service moves to one spare, the highest-numbered, or is re-placed (R91).
[DESIGN CHOICE, unsafe: log entry 76.] -/
def State.moveShares (s : State) (cc : Nat) (cause : Nat := 1) : State :=
  let hs := s.sharesOn cc
  if hs = [] then s
  else match (s.spares.filter fun d => s.forceAllows (d / 8) (hs.map fun h => h.cost).sum).getLast? with
    | some d =>
      let s := hs.foldl (fun t h => t.moveTo h d) (s.set Od.cell_SPARE d 0)
      (s.prepareCrowns [d / 8]).balanceSpares
    | none => State.replaceShares cause (hs.length + 512) s cc

/-- Moves the passes of a conditioner first fit, largest first, or sheds streams (R266). -/
def State.movePasses : Nat → State → Nat → State
  | 0, s, _ => s
  | n + 1, s, ic =>
    let mine := s.streams.streams.flatMap fun e => (e.2.passes.filter fun p => p.ic = ic).map fun p => (e.1, p)
    match sortBy (fun a b : Nat × Pass => decide (b.2.rate < a.2.rate)) mine with
    | [] => s.refreshConditioners
    | (sid, p) :: _ =>
      match s.fitPasses [(⟨p.pass, 0, 0, 0, b2n p.rotates, 0⟩, p.rate)] [] with
      | some (q :: _) =>
        State.movePasses n ((s.setStream sid { s.stream sid with
          passes := mapIf (fun y : Pass => decide (y = p)) (fun y => { y with ic := q.ic, crown := 2 * q.ic }) (s.stream sid).passes }).prepareHalves
            [{ p with ic := q.ic }]) ic
      | _ => match s.shedOrder with
        | [] => s
        | x :: _ => State.movePasses n (s.shed x) ic

/-- A port is in use under R331: by an open stream, by PTP_PORT, or as the source of a FABRIC domain. -/
def State.portBound (s : State) (p : Nat) : Bool :=
  ((List.range 512).any fun sid => !s.streamShut sid &&
    ((s.inputs sid).any (fun e => e.kind ≠ 3 && e.kind ≠ 4 && e.port == p) ||
      (s.outputs sid).any fun e => decide (e.kind ≤ 3) && e.port == p)) ||
    s.get Od.ptp_PTP_PORT == p ||
    (List.range 8).any fun rd => s.get Od.rd_SOURCE rd == 3 && s.get Od.rd_SOURCE_SEL rd == p

end Sys2Proof.Machine
end

