-- ==== Sys2Proof/Machine/HostOps.lean ====
section
/-! DEFINITION. The host interface (R281, R414–R434): who uses a region, BAR 2, the DMA channels, the reset of the function,
power states. -/

namespace Sys2Proof.Machine

/-! ### Users of a region (R281) -/

/-- A region's data holds the byte at an address. -/
def State.holds (s : State) (r a : Nat) : Bool := s.inRegion r a 1

/-- Device ranges of a descriptor in flight: SRC and DST where they lie in device memory. -/
def deviceRanges (mode : Nat) (d : Descriptor) : List Nat :=
  (if mode ≠ 1 ∧ d.control.testBit 17 then [d.src] else []) ++ (if mode ≠ 2 ∧ d.control.testBit 16 then [d.dst] else [])

/-- USERS of a region: objects that name it (CLIP_REGION 255 names none, R278), descriptors in flight, the window, a SCRUB. -/
def State.regionUsers (s : State) (r : Nat) : Nat :=
  b2n (s.get Od.mil_PICTURE_REGION == r || s.getShadow Od.mil_PICTURE_REGION == r) +
    b2n (r != 255 && (s.get Od.mil_CLIP_REGION == r || s.getShadow Od.mil_CLIP_REGION == r)) +
    ((List.range 16).filter fun p => s.poolOn p && s.get Od.pool_REGION p == r).length +
    ((s.host.dma.map fun e => match e.2.desc with
      | none => 0
      | some d => ((deviceRanges (s.get Od.dma_MODE e.1) d).filter fun a => s.holds r a).length).sum) +
    b2n (s.holds r s.host.windowBase) + b2n (s.mem.scrubbing == some r)

/-! ### Requests on the link (R416, R441, R442) -/

/-- The function may issue requests. -/
def HostState.allowed (h : HostState) : Bool := h.busMaster && !h.d3hot && h.linkUp

def State.dma (s : State) (ch : Nat) : DmaChannel := tget s.host.dma {} ch

def State.setDma (s : State) (ch : Nat) (x : DmaChannel) : State :=
  { s with host := { s.host with dma := tput s.host.dma {} ch x } }

/-- STATE codes of a channel. -/
def dmaStopped : Nat := 0
def dmaRunning : Nat := 1
def dmaIdle : Nat := 2
def dmaWaiting : Nat := 3
def dmaError : Nat := 4
def dmaFrozen : Nat := 5

/-- A channel that would issue a request: FROZEN while none is allowed. -/
def DmaChannel.settleFrozen (x : DmaChannel) (allowed : Bool) : DmaChannel :=
  if ¬ allowed ∧ (x.state = dmaRunning ∨ x.state = dmaWaiting) then { x with state := dmaFrozen, frozen := some x.state } else x

/-- Stores a channel, FROZEN where requests are blocked.
[DESIGN CHOICE, unsafe: log entry 55.] [DEDUCED, unsafe: log entry 59.] -/
def State.runDma (s : State) (ch : Nat) (x : DmaChannel) : State := s.setDma ch (x.settleFrozen s.host.allowed)

/-- Channels freeze when requests are blocked. -/
def State.freezeDma (s : State) : State :=
  { s with host := { s.host with dma := s.host.dma.map fun e => (e.1, e.2.settleFrozen s.host.allowed) } }

/-- Frozen channels resume where they stopped; one that was about to fetch asks for its descriptor. -/
def State.thawDma (s : State) : State :=
  if s.host.allowed then
    let s' := { s with host := { s.host with dma := s.host.dma.map fun e => (e.1, match e.2.frozen with
        | some st => { e.2 with state := st, frozen := none }
        | none => e.2) } }
    (s.host.dma.filter fun e => e.2.frozen == some dmaRunning && e.2.desc.isNone).foldl (fun t e => t.emit (.hostRead e.2.curDesc 32)) s'
  else s

/-- A source that holds a count becomes pending at once; an active one when it is completed (R442). -/
def IrqSource.catchUp (q : IrqSource) : IrqSource :=
  if q.pending ∨ q.count = 0 then q
  else if q.active then (if q.timer then { q with timer := false, reached := true } else q)
  else { q with timer := false, pending := true }

/-- The catch-up after D3hot, once MSI-X and bus mastering are enabled. -/
def State.d0Catch (s : State) : State :=
  if s.host.d0Due && s.host.msixEnabled && s.host.busMaster && !s.host.d3hot then
    { s with host := { s.host with
        d0Due := false
        sources := s.host.sources.map fun e => (e.1, e.2.catchUp) } }
  else s

/-- Sets or clears a cause that blocks requests. -/
def HostState.setCause (h : HostState) (c : BlockCause) (blocked : Bool) : HostState :=
  match c with
  | .busMaster => { h with busMaster := !blocked }
  | .d3hot => { h with d3hot := blocked, d0Due := h.d0Due || (h.d3hot && !blocked) }
  | .linkDown => { h with linkUp := !blocked }

/-- Speed and width of a link that comes up: the spec leaves them to training, so they are free within R443 and R414.
[DESIGN CHOICE, unsafe: log entry 55.] -/
def State.trainPcie (s : State) : State :=
  let f := s.freeValue
  ((s.useFree).set Od.pcie_LINK_SPEED 0 (f % 4 + 1)).set Od.pcie_LINK_WIDTH 0 (2 ^ (f / 4 % 4))

/-- A cause blocks requests. -/
def State.blockRequests (s : State) (c : BlockCause) : State :=
  let s := { s with host := s.host.setCause c true }
  let s := if c = .linkDown then (s.set Od.pcie_LINK_SPEED 0 0).set Od.pcie_LINK_WIDTH 0 0 else s
  s.freezeDma

/-- The PCIe domain is powered: after start-up step 3, and never in boot mode FLASH_NO_PCIE (R509, R510). -/
def State.pciePowered (s : State) : Bool := s.power.porst && decide (3 < s.power.step) && decide (s.get Od.sys_BOOT_MODE ≠ 1)

/-- A cause ends; the link comes up only where its domain is powered. -/
def State.allowRequests (s : State) (c : BlockCause) : State :=
  if c = .linkDown ∧ ¬ s.pciePowered then s
  else
  let up := decide (c = .linkDown) && !s.host.linkUp
  let s := { s with host := s.host.setCause c false }
  let s := if up then s.trainPcie else s
  (s.thawDma).d0Catch.sendHeld

/-! ### The mailbox session (R60) and the reset of the function (R415) -/

/-- The mailbox at MAILBOX_ROLE. [DESIGN CHOICE, unsafe: log entry 30.] -/
def State.mailboxSession (s : State) : Session :=
  { id := 0, origin := .mailbox, role := s.get Od.iop_MAILBOX_ROLE }

/-- The mailbox session starts afresh at MAILBOX_ROLE, without AUTH. -/
def State.resetMailbox (s : State) : State :=
  { s with iop := { s.iop with
      sessions := (if s.live then [s.mailboxSession] else []) ++ s.iop.sessions.filter fun x => decide (x.id ≠ 0)
      handshakes := s.iop.handshakes.filter fun h => decide (h.origin ≠ .mailbox)
      inFlight := s.iop.inFlight.filter fun f => decide (f.session ≠ 0) } }

/-- Answers held for the mailbox are discarded. -/
def State.dropHeldAnswers (s : State) : State :=
  let drop : CmdEntry → CmdEntry := fun e => match e.held with
    | some h => if h.session = 0 then { e with held := none } else e
    | none => e
  { s with cmds := { s.cmds with queues := s.cmds.queues.map fun q =>
      (q.1, { q.2 with running := q.2.running.map drop, waiting := q.2.waiting.map drop }) } }

/-- A channel's packets are discarded: the rest of a TO_HOST packet, and the batts of a FROM_HOST one. -/
def State.dropDmaPackets (s : State) (ch : Nat) : State :=
  let x := s.dma ch
  let s := match x.packet with
    | some (k, rest) =>
      let sent := k.length - rest.length - (if x.readback then x.moved else 0)
      s.decrementAll (k.entries.drop (((List.range k.entries.length).filter fun i =>
        ((k.entries.take (i + 1)).map QEntry.len).sum ≤ sent).length))
    | none => s
  let s := x.gatherBatts.foldl (fun t b => t.decrement b) s
  s.setDma ch { s.dma ch with packet := none, gather := [], gatherBatts := [], source := [] }

/-- The reset of the PCIe function. -/
def State.resetFunction (s : State) : State :=
  let s := (s.host.dma.map fun e => e.1).foldl (fun t ch => t.dropDmaPackets ch) s
  let s := (s.bump Od.pcie_FUNCTION_RESETS).dropHeldAnswers
  let h := s.host
  ({ s with host := {
      messages := h.messages, heldCount := h.heldCount, pmeSent := h.pmeSent, linkUp := h.linkUp
      sources := h.sources.map fun e : Nat × IrqSource => (e.1, ({ raised := e.2.raised } : IrqSource)) } }).resetMailbox

/-! ### BAR 2 (R419, R420) -/

/-- A BAR 2 access is refused. -/
def State.bar2Bad (s : State) (a n : Nat) : Bool := (s.regionAt a n).isNone || s.touchesPicture a n

def State.refuseBar2 (s : State) : State :=
  { s with host := { s.host with bar2Refused := (s.host.bar2Refused + 1) % 2 ^ 32 } }

/-- A read through BAR 2: refused reads answer all ones, an uncorrectable read a poisoned completion.
[DESIGN CHOICE, unsafe: log entry 55.] -/
def State.bar2Read (s : State) (a n : Nat) (m : MemMeet) : State :=
  if s.bar2Bad a n then s.refuseBar2.emit (.answer (List.replicate n 0xFF#8))
  else match s.hbmRead 156 a n m with
    | (t, .data bs) => t.emit (.answer bs)
    | (t, .poisoned) => ((t.bump Od.pcie_AER_UNCORRECTABLE).report Unit.pcie 0x48 1 156 a).emit (.poisoned a n)
    | (t, .rejected) => t.refuseBar2.emit (.answer (List.replicate n 0xFF#8))

/-- A write through BAR 2. -/
def State.bar2Write (s : State) (a : Nat) (data : List Byte) (m : MemMeet) : State :=
  if s.bar2Bad a data.length then s.refuseBar2
  else
    let r := s.hbmWrite 156 a data m
    if r.2 then r.1 else r.1.refuseBar2

/-- Counts an access of the wrong size or alignment (R418). -/
def State.misuseBar0 (s : State) : State :=
  { s with host := { s.host with bar0Misuse := (s.host.bar0Misuse + 1) % 2 ^ 32 } }

/-! ### DMA channels (R423–R433) -/

/-- Status of one device range. -/
def State.rangeStatus (s : State) (a n : Nat) (dst : Bool) : Nat :=
  match s.regionAt a 1 with
  | none => 3
  | some r =>
    if s.touchesPicture a n then 3
    else if ¬ s.inRegion r a n then 4
    else if dst && s.regionProtected r && !decide ((a - s.get Od.reg_BASE r) % 4096 = 0 ∧ n % 4096 = 0) then 5
    else 0

/-- The lowest non-zero status of some. -/
def firstStatus (l : List Nat) : Nat := ((l.filter fun x => x ≠ 0).foldl (fun m x => if m = 0 then x else min m x)) 0

/-- The checks of a descriptor (R427), in the order of the status codes. [DESIGN CHOICE, unsafe: log entry 55.] -/
def State.checkDescriptor (s : State) (mode : Nat) (d : Descriptor) : Nat :=
  if d.count = 0 then 1
  else if (mode ≠ 1 ∧ 5 ≤ bits d.control 21 3) ∨ (mode ≠ 2 ∧ 5 ≤ bits d.control 18 3) then 2
  else if mode = 0 ∧ ¬ d.control.testBit 17 ∧ ¬ d.control.testBit 16 then 3
  else firstStatus
    ((if mode ≠ 1 ∧ d.control.testBit 17 then [s.rangeStatus d.src d.count false] else []) ++
      (if mode ≠ 2 ∧ d.control.testBit 16 then [s.rangeStatus d.dst d.count true] else []))

/-- The channel enters a state with the fault of its source 33 + ch. -/
def State.dmaFails (s : State) (ch : Nat) : State :=
  (s.setDma ch { s.dma ch with state := dmaError, desc := none, readback := false, stopping := false }).raise (33 + ch)

/-- CONTROL as a write-back leaves it. -/
def backControl (control status : Nat) (eop : Bool) : Nat :=
  setBits (setBits (clearBit control 31) 24 4 status) 28 1 (b2n (eop || control.testBit 28))

/-- Writes CONTROL and COUNT back and counts the descriptor. -/
def State.writeBack (s : State) (ch addr control count status : Nat) (eop : Bool) : State :=
  let c := backControl control status eop
  let x := s.dma ch
  let s := (s.setDma ch { x with
      lastStatus := status, done := (x.done + 1) % 2 ^ 32, lastBack := some (addr, control, count) }).emit
    (.hostWrite addr (leBytes 4 c ++ leBytes 4 count))
  let s := s.bump Od.dma_DESCRIPTORS ch
  let s := s.bumpBy Od.dma_BYTES ch 0 count
  if 1 ≤ status ∧ status ≤ 7 then s.bump Od.dma_ERRORS ch else if status = 8 then s.bump Od.dma_TRUNCATIONS ch else s

/-- The data of a descriptor has been written: the last address is read back (R428). -/
def State.startReadback (s : State) (ch moved status : Nat) (eop : Bool) : State :=
  let x := s.dma ch
  let s := s.setDma ch { x with moved := moved, status := status, eop := eop, readback := true, state := dmaRunning }
  match x.desc with
  | some d =>
    if s.get Od.dma_MODE ch = 2 ∨ d.control.testBit 16 ∨ moved = 0 then s
    else s.emit (.hostRead ((d.dst + moved - 1) / 4 * 4) 4)
  | none => s

/-- Parts of a run of bytes that cross no multiple of 4 KiB, first address and bytes: no request on the link does (R426).
At most n parts. -/
def pageCuts : Nat → Nat → List Byte → List (Nat × List Byte)
  | 0, _, _ => []
  | n + 1, a, bs =>
    if bs = [] then [] else (a, bs.take (4096 - a % 4096)) :: pageCuts n (a + (4096 - a % 4096)) (bs.drop (4096 - a % 4096))

/-- A descriptor's data requests carry No Snoop (R424, R432). -/
def noSnoop (d : Descriptor) : Bool := d.control.testBit 29

/-- Writes data to a descriptor's destination, from offset `at_` on. -/
def State.dmaWrite (s : State) (d : Descriptor) (at_ : Nat) (data : List Byte) (m : MemMeet) : State :=
  if data = [] then s
  else if d.control.testBit 16 then (s.hbmWrite 155 (d.dst + at_) data m).1
  else (pageCuts (data.length / 4096 + 2) (d.dst + at_) data).foldl (fun t e => t.emit (.hostWrite e.1 e.2 (noSnoop d))) s

/-- Takes the next packet of a TO_HOST channel's queue. -/
def State.takeHostPacket (s : State) (ch : Nat) : State :=
  match s.readQueue (1536 + ch) with
  | none => s
  | some (t, k) => t.setDma ch { t.dma ch with packet := some (k, t.entryBytes k.entries) }

/-- The layer that a FROM_HOST channel feeds: stream, layer and input queue. -/
def State.hostLayer (s : State) (ch : Nat) : Option (Nat × Nat × Nat) :=
  (s.queues.inputOwner.findSome? fun e => match e.2 with
    | some (sid, n) => if (s.inputs sid).any fun i => i.kind == 3 && i.selector == ch && i.layer % 16 == n then some (sid, n, e.1) else none
    | none => none)

/-- The pool of the host (R310). -/
def State.hostPool (s : State) : Option Nat := s.poolFor 3

/-- Back-pressure stops a channel at a descriptor boundary (R318). -/
def State.hostPaused (s : State) (ch : Nat) : Bool :=
  match s.hostPool, s.hostLayer ch with
  | some p, some (sid, _, _) => levelAffects (s.get Od.pool_WARN_STATE p) (s.streamClass sid)
  | _, _ => false

/-- Bytes of a FROM_HOST descriptor reach batts, or wait for one; `last` says that they end the descriptor.
[DESIGN CHOICE, unsafe: log entry 55.] -/
def State.fromHost (s : State) (ch : Nat) (d : Descriptor) (data : List Byte) (last : Bool) : State × Bool :=
  let x := s.dma ch
  let need := battsFor (x.gather.length + data.length) - x.gatherBatts.length
  let wait := ((s.runDma ch { x with state := dmaWaiting }).bump Od.dma_WAITS ch, false)
  match s.hostPool with
  | none => wait
  | some p =>
    match s.allocate p ownHost 0 need 1 with
    | none => wait
    | some (t, bs) =>
      let bytes := x.gather ++ data
      let all := x.gatherBatts ++ bs
      if last && d.control.testBit 28 then
        let r := t.fillBatts all bytes
        let t := match r.1.hostLayer ch with
          | some (sid, _, q) => r.1.append q { pri := r.1.streamPri sid, entries := r.2 }
          | none => r.1.decrementAll r.2
        (t.setDma ch { t.dma ch with gather := [], gatherBatts := [] }, true)
      else (t.setDma ch { t.dma ch with gather := bytes, gatherBatts := all }, true)

/-- Most bytes of a chunk (R434). -/
def chunkSize : Nat := 4096

/-- A chunk has been moved: at its descriptor's end the read-back follows. -/
def State.moved (s : State) (ch n : Nat) (ends eop : Bool) : State :=
  let x := s.dma ch
  if ends then s.startReadback ch (x.moved + n) x.status eop else s.setDma ch { x with moved := x.moved + n }

/-- A device source reads poisoned: for the host the data goes out marked and the descriptor goes on, for device memory it is not written
and the descriptor ends (R433). -/
def State.dmaPoison (s : State) (ch : Nat) (d : Descriptor) (n : Nat) : State :=
  let x := s.dma ch
  if s.get Od.dma_MODE ch = 0 ∧ ¬ d.control.testBit 16 then
    let s := (s.report Unit.pcie 0x48 1 155 (d.src + x.moved)).emit (.poisoned (d.dst + x.moved) n (noSnoop d))
    (s.setDma ch { s.dma ch with status := 7 }).moved ch n (decide (d.count ≤ x.moved + n)) false
  else (s.dropDmaPackets ch).startReadback ch x.moved 7 false

/-- Bytes of a channel's source are written to its destination; false where they wait. -/
def State.land (s : State) (ch : Nat) (d : Descriptor) (data : List Byte) : State × Bool :=
  let x := s.dma ch
  if s.get Od.dma_MODE ch = 2 then s.fromHost ch d data (decide (d.count ≤ x.moved + data.length))
  else ((s.dmaWrite d x.moved data x.meet).setDma ch { x with meet := ⟨[], 0, 0, []⟩ }, true)

/-- A channel has work: a descriptor in progress with bytes that can be moved (R434). -/
def State.dmaWork (s : State) (ch : Nat) : Bool :=
  let x := s.dma ch
  decide (x.state = dmaRunning) && !x.readback && (match x.desc with
    | none => false
    | some d =>
      if s.get Od.dma_MODE ch = 1 then (match x.packet with
        | some (_, rest) => rest != []
        | none => false)
      else d.control.testBit 17 || x.source != [])

/-- A chunk of a channel: at most 4 KiB, or the rest of its descriptor or its packet. -/
def State.moveChunk (s : State) (ch : Nat) : State :=
  let x := s.dma ch
  match x.desc with
  | none => s
  | some d =>
    let left := min chunkSize (d.count - x.moved)
    if s.get Od.dma_MODE ch = 1 then
      match x.packet with
      | none => s
      | some (k, rest) =>
        let part := rest.take left
        let t := s.dmaWrite d x.moved part x.meet
        let t := t.setDma ch { t.dma ch with packet := some (k, rest.drop left), meet := ⟨[], 0, 0, []⟩ }
        t.moved ch part.length (decide (rest.length ≤ left) || decide (d.count ≤ x.moved + part.length)) (decide (rest.length ≤ left))
    else if d.control.testBit 17 then
      match s.hbmRead 155 (d.src + x.moved) left x.meet with
      | (t, .data bs) =>
        let t := t.setDma ch { t.dma ch with meet := ⟨[], 0, 0, []⟩ }
        let q := t.land ch d bs
        if q.2 then q.1.moved ch left (decide (d.count ≤ x.moved + left)) false else q.1
      | (t, _) => (t.setDma ch { t.dma ch with meet := ⟨[], 0, 0, []⟩ }).dmaPoison ch d left
    else
      let part := x.source.take left
      let q := s.land ch d part
      if q.2 then
        (q.1.setDma ch { q.1.dma ch with source := x.source.drop left }).moved ch part.length (decide (d.count ≤ x.moved + part.length)) false
      else q.1

/-- The channel that the engine serves next: the highest PRIORITY among channels with work, in rotation among equals (R434). -/
def State.nextDma (s : State) : Option Nat :=
  let works := ((List.range 32).map fun k => (s.host.dmaTurn + 1 + k) % 32).filter fun ch => s.dmaWork ch
  works.foldl (fun (best : Option Nat) ch => match best with
    | none => some ch
    | some b => if s.get Od.dma_PRIORITY b < s.get Od.dma_PRIORITY ch then some ch else best) none

/-- Cycles of the 1.2 GHz clock that n bytes take at 14 GB/s (R434). -/
def chunkCycles (n : Nat) : Nat := ceilDiv (n * 3) 35

/-- The DMA engine moves a chunk when it can (R434). [DESIGN CHOICE, unsafe: log entry 55.] -/
def State.serveDma (s : State) : State :=
  if s.cycle < s.host.dmaFreeAt then s
  else match s.nextDma with
    | none => s
    | some ch =>
      let n := match (s.dma ch).desc with
        | some d => min chunkSize (d.count - (s.dma ch).moved)
        | none => 0
      ({ s with host := { s.host with dmaTurn := ch, dmaFreeAt := s.cycle + chunkCycles n } }).moveChunk ch

/-- A checked descriptor begins to move its data: a TO_HOST channel takes a packet, or waits for one; a FROM_HOST channel that
back-pressure stops waits (R318, R431). The engine asks for a source in host memory. -/
def State.moveData (s : State) (ch : Nat) (d : Descriptor) (hostData : List Byte) (m : MemMeet) : State :=
  let mode := s.get Od.dma_MODE ch
  let s := s.setDma ch { s.dma ch with source := hostData.take d.count, meet := m, status := 0 }
  if mode = 1 then
    let s := if (s.dma ch).packet.isSome then s else s.takeHostPacket ch
    if (s.dma ch).packet.isSome then s else s.runDma ch { s.dma ch with state := dmaWaiting }
  else
    let s := if d.control.testBit 17 then s else s.emit (.hostRead d.src d.count (noSnoop d))
    if mode = 2 ∧ s.hostPaused ch then (s.runDma ch { s.dma ch with state := dmaWaiting }).bump Od.dma_WAITS ch else s

/-- The channel asks for the descriptor at CUR_DESC (R425, R429). -/
def State.askDescriptor (s : State) (ch : Nat) : State :=
  if (s.dma ch).state = dmaRunning then s.emit (.hostRead (s.dma ch).curDesc 32) else s

/-- A channel may take a fetched descriptor: it runs, and none is in progress. -/
def DmaChannel.fetching (x : DmaChannel) : Bool := decide (x.state = dmaRunning) && x.desc.isNone

/-- The rest of a packet is discarded at a stop (R430): batts of its entries that are not yet released. -/
def State.truncatePacket (s : State) (ch : Nat) : State :=
  let s := s.dropDmaPackets ch
  match (s.dma ch).lastBack with
  | some (addr, control, count) =>
    let s := s.setDma ch { s.dma ch with lastStatus := 8 }
    (s.emit (.hostWrite addr (leBytes 4 (backControl control 8 true) ++ leBytes 4 count))).bump Od.dma_TRUNCATIONS ch
  | none => s

/-- The channel stops at a boundary. [DESIGN CHOICE, unsafe: log entry 55.] -/
def State.dmaStops (s : State) (ch : Nat) : State :=
  let s := if (s.dma ch).packet.isSome then s.truncatePacket ch else s
  s.setDma ch { s.dma ch with state := dmaStopped, desc := none, readback := false, stopping := false, frozen := none }

/-- Batts of a packet whose bytes the last n bytes written have completed. -/
def finishedBatts (k : Packet) (before n : Nat) : List QEntry :=
  ((List.range k.entries.length).filter fun i =>
    let e := ((k.entries.take (i + 1)).map QEntry.len).sum
    decide (before < e ∧ e ≤ before + n)).filterMap fun i => k.entries[i]?

/-- Confirmed batts of a TO_HOST packet are released, and the packet with its last byte. -/
def State.confirmHost (s : State) (ch moved : Nat) : State :=
  match (s.dma ch).packet with
  | none => s
  | some (k, rest) =>
    let s := s.decrementAll (finishedBatts k (k.length - rest.length - moved) moved)
    if rest = [] then s.setDma ch { s.dma ch with packet := none } else s

/-- After a write-back: the next descriptor, a stop, or an error. -/
def State.afterBack (s : State) (ch : Nat) (d : Descriptor) (status : Nat) : State :=
  let x := s.dma ch
  if 1 ≤ status ∧ status ≤ 7 then s.dmaFails ch
  else if x.stopping ∨ d.next = 0 then
    s.setDma ch { x with state := dmaStopped, desc := none, readback := false, stopping := false }
  else (s.runDma ch { x with state := dmaRunning, desc := none, readback := false, curDesc := d.next, moved := 0 }).askDescriptor ch

end Sys2Proof.Machine
end

