-- ==== Sys2Proof/Machine/Frames.lean ====
section
/-! DEFINITION. IOP frames and items as bytes (R48, R49), and the dictionary's lookup of an index and subindex (R36). -/

namespace Sys2Proof.Machine

/-- Zero bytes up to a 4-byte boundary. -/
def pad4 (bs : List Byte) : List Byte := bs ++ List.replicate ((4 - bs.length % 4) % 4) 0#8

/-- An item (R49). -/
def itemBytes (op status index sub ty : Nat) (v : List Byte) : List Byte :=
  pad4 (leBytes 1 op ++ leBytes 1 status ++ leBytes 2 index ++ leBytes 1 sub ++ leBytes 1 ty ++ leBytes 2 v.length ++ v)

/-- The 16-byte header of a frame (R48). -/
def headerBytes (ty flags len session seq : Nat) : List Byte :=
  [0x49#8, 0x4F#8, 0x01#8] ++ leBytes 1 ty ++ leBytes 2 flags ++ leBytes 2 len ++ leBytes 4 session ++ leBytes 4 seq

/-- A frame with its HMAC trailer when it has a key (R48, R56). -/
def frameBytes (ty session seq : Nat) (body : List Byte) (key : Option (List Byte)) : List Byte :=
  match key with
  | none => headerBytes ty 0 (16 + body.length) session seq ++ body
  | some k =>
    let hb := headerBytes ty 1 (80 + body.length) session seq ++ body
    hb ++ Config.hmac k hb

/-- The key of the engine's frames, for an authenticated session. -/
def Session.outKey (x : Session) : Option (List Byte) := if x.auth then some x.e2c else none

/-- Bytes of a frame's header and trailer in a session. -/
def Session.overhead (x : Session) : Nat := if x.auth then 80 else 16

/-! ### Lookup (R36) -/

/-- A row holds the index. -/
def Row.hasIndex (r : Row) (index : Nat) : Bool := decide (r.base ≤ index ∧ index < r.base + r.count)

/-- A row holds the subindex. -/
def Row.hasSub (r : Row) (sub : Nat) : Bool :=
  if r.step = 0 then decide (sub = r.sub)
  else decide (r.sub ≤ sub ∧ (sub - r.sub) % r.step = 0 ∧ (sub - r.sub) / r.step < r.subs)

/-- Command codes of R68. -/
def commandCodes : List Nat :=
  [0x01, 0x02, 0x10, 0x11, 0x12, 0x13, 0x20, 0x21, 0x22, 0x24, 0x30, 0x31, 0x32, 0x33, 0x40, 0x41, 0x42, 0x44, 0x50, 0x51,
    0x52, 0x70]

/-- An index that the manual lists: of the command objects, those of the codes of R68 (R64). -/
def indexListed (index : Nat) : Bool :=
  if 0x2400 ≤ index ∧ index < 0x2500 then decide (index - 0x2400 ∈ commandCodes)
  else Od.all.any fun r => r.hasIndex index

/-- The object at an index and subindex: its row, instance and subindex number. -/
def findObject (index sub : Nat) : Option (Row × Nat × Nat) :=
  match Od.all.find? (fun r => r.hasIndex index && r.hasSub sub) with
  | none => none
  | some r => some (r, index - r.base, if r.step = 0 then 0 else (sub - r.sub) / r.step)

end Sys2Proof.Machine
end

