-- ==== Sys2Proof/Machine/GateOps.lean ====
section
/-! DEFINITION. The shared operations of egress beyond `EgressOps`: what a free port sends (R400), and the changes of gate
lists (R410–R412). -/

namespace Sys2Proof.Machine

/-- The oldest short GLOBAL packet that waits for a band (R392). -/
def State.shortFor (s : State) (p : Nat) : Option Packet :=
  (s.queue 1568).packets.find? fun k => k.short && decide (k.port = p) && !s.halted

/-- What a port does next: a short GLOBAL packet goes ahead of every other and interrupts a packet in progress (R392);
a free port takes control traffic, or the highest queue that may send (R400). -/
def State.startNext (s : State) (p : Nat) : State :=
  let x := s.egPort p
  match x.sending, s.shortFor p with
  | some cur, some k =>
    if cur.packet.short || x.interrupted.isSome then s
    else (s.setEgPort p { x with sending := none, interrupted := some cur }).startControl p 1568 k
  | some _, none => s
  | none, some k => s.startControl p 1568 k
  | none, none =>
    if x.interrupted.isSome then s
    else match s.controlFor p with
      | some (q, k) => s.startControl p q k
      | none =>
        let s := s.countGated p
        match s.sendable p with
        | some q => s.startFrom p q
        | none => s

/-- A row whose last packet has left after D(r) (R168). -/
def State.countLate (s : State) (k : Packet) : State :=
  match k.sid, k.due with
  | some sid, some d =>
    if s.later (s.streamDomain sid) (s.now (s.streamDomain sid)) d then s.bump Od.enc_EGRESS_LATE sid else s
  | _, _ => s

/-- The last byte of the packet in progress leaves: its batts take their decrements (R313), an interrupted packet goes on
(R392), and the next head of its queue gets its E (R403). -/
def State.endPacket (s : State) (p : Nat) : State :=
  let x := s.egPort p
  match x.sending with
  | none => s
  | some cur =>
    let s := ((s.setEgPort p { x with sending := x.interrupted, interrupted := none }).countLate cur.packet).decrementAll
      cur.packet.entries
    if cur.queue < 1024 then s.newHead cur.queue else s

/-- OPER_STATE of a port: 1 with a list in force, plus 2 with a pending change (R413). -/
def State.setOper (s : State) (p : Nat) : State :=
  let x := s.egPort p
  s.set Od.egr_OPER_STATE p (b2n x.gates.isSome + 2 * b2n x.change.isSome)

/-- The heads of a port's queues under a changed gate list: the guard's test is made again (R409). A head that stays keeps
its E. -/
def State.retestGuard (s : State) (p : Nat) : State :=
  (List.range 8).foldl (fun t k =>
    let q := 8 * p + k
    match (t.queue q).head with
    | none => t
    | some h => if t.guardDiscards q (t.cost q h) ∧ ¬ t.sendingFrom q then t.newHead q else t) s

/-- The admin objects of a port are a list that may be installed (R410). -/
def State.gateAdminOk (s : State) (p : Nat) : Bool :=
  let bs := s.blob Od.egr_ADMIN_LIST p
  let cyc := s.get Od.egr_ADMIN_CYCLE p
  decide (bs.length % 8 = 0 ∧ bs ≠ [] ∧ bs.length ≤ 2048) &&
    (gateEntries bs).all (fun e => decide (1024 ≤ e.2)) &&
    (decide (cyc = 0) || decide (65536 ≤ cyc)) &&
    s.validTime (s.portDomain p) (RTime.ofWord (s.get Od.egr_ADMIN_BASE p))

/-- The first instant of a base and cycle at least 2 lines from now, and whether an earlier one was passed over (R411). -/
def State.gateStartAt (s : State) (p base cyc : Nat) : Nat × Bool :=
  let first := s.ticksAdd p (s.ticksNow p) (2 * 65536)
  let d := s.ticksDiff p first base
  if d ≤ 0 then (base, false) else (s.ticksAdd p base (ceilDivI d (cyc : Int) * (cyc : Int)), true)

/-- Schedules a change of a port's gate list; an earlier pending change is discarded (R411, R412). -/
def State.scheduleGate (s : State) (p : Nat) (install : Option (RTime × Nat × List (Nat × Nat))) (base cyc : Nat) : State :=
  let st := s.gateStartAt p base cyc
  let s := (s.setEgPort p { s.egPort p with change := some ⟨install, st.1⟩ }).setOper p
  let s := s.set Od.egr_PENDING_AT p (RTime.word (ofLinear (s.portLpf p) st.1))
  (if st.2 then s.set Od.egr_LATE_START p 1 else s).retestGuard p

/-- GATE_APPLY := 1 commits (R411). -/
def State.installGates (s : State) (p : Nat) : State :=
  let base := RTime.ofWord (s.get Od.egr_ADMIN_BASE p)
  let cyc := s.get Od.egr_ADMIN_CYCLE p
  s.scheduleGate p (some (base, cyc, gateEntries (s.blob Od.egr_ADMIN_LIST p))) (linear (s.portLpf p) base) (s.gateCycle p cyc)

/-- GATE_APPLY := 2 commits: at the list's next boundary, or at once where none runs (R411). -/
def State.removeGates (s : State) (p : Nat) : State :=
  if (s.egPort p).gates.isSome then s.scheduleGate p none (s.gateBase p) (s.gateCycle p (s.get Od.egr_OPER_CYCLE p))
  else (((s.setEgPort p { s.egPort p with change := none }).set Od.egr_PENDING_AT p 0).setOper p).retestGuard p

/-- A pending change comes into force (R411). Its start is a cycle boundary. -/
def State.startGates (s : State) (p : Nat) : State :=
  match (s.egPort p).change with
  | none => s
  | some c =>
    let s := s.set Od.egr_PENDING_AT p 0
    match c.install with
    | none =>
      let s := s.setEgPort p { s.egPort p with gates := none, change := none }
      (((s.set Od.egr_OPER_BASE p 0).set Od.egr_OPER_CYCLE p 0).set Od.egr_GATE_STATE p 0xFF).setOper p |>.retestGuard p
    | some (base, cyc, es) =>
      let s := s.setEgPort p { s.egPort p with gates := some es, change := none, cycleNo := 0 }
      let s := (s.set Od.egr_OPER_BASE p (RTime.word base)).set Od.egr_OPER_CYCLE p cyc
      let s := s.set Od.egr_GATE_STATE p (maskAt (gateSegments (s.gateCycle p cyc) es) 0)
      let s := s.setEgPort p { s.egPort p with cycleNo := s.gateCycleNo p }
      ((s.bump Od.egr_GATE_CYCLES p).setOper p).retestGuard p

/-- The start instant of a port's pending gate change has come (R411). -/
def State.gateChangeDue (s : State) (p : Nat) : Bool := match (s.egPort p).change with
  | none => false
  | some c => decide (0 ≤ s.ticksDiff p (s.ticksNow p) c.startAt)

/-- Gate cycles passed since the last boundary: none in a part that a jump repeats (R22). -/
def cyclesPassed (old new : Nat) : Nat := (signedMod (2 ^ 64) ((new : Int) - old)).toNat

/-- The position in the list in force passes an entry boundary: its mask, and the cycle boundaries passed (R408).
[DESIGN CHOICE, unsafe: log entry 26.] -/
def State.passGate (s : State) (p : Nat) : State :=
  match s.gateSegs p with
  | none => s
  | some g =>
    let n := s.gateCycleNo p
    let passed := cyclesPassed (s.egPort p).cycleNo n
    let s := s.set Od.egr_GATE_STATE p (maskAt g (s.gatePos p))
    if passed = 0 then s else (s.setEgPort p { s.egPort p with cycleNo := n }).bumpBy Od.egr_GATE_CYCLES p 0 passed

/-- A slot boundary of a port's calendar: queues whose slot has come are eligible, parked ones are placed again (R404). -/
def State.passSlot (s : State) (p : Nat) : State :=
  (List.range 8).foldl (fun t k =>
    let q := 8 * p + k
    match (t.shaper q).slot with
    | none => t
    | some i => if 0 ≤ t.ticksDiff p (t.ticksNow p) (i * 4096) then t.place q else t) s

/-- Ticks ahead, below a limit, at which the list of a port passes an entry boundary. -/
def boundariesIn (segs : List (Nat × Nat)) (pos limit : Nat) : List Nat :=
  let cyc := (segs.map fun e => e.2).sum
  let ends := (List.range segs.length).map fun k => ((segs.take (k + 1)).map fun e => e.2).sum
  if cyc = 0 then []
  else (List.range (limit / cyc + 2)).flatMap fun n =>
    ends.filterMap fun e => if pos < n * cyc + e ∧ n * cyc + e - pos < limit then some (n * cyc + e - pos) else none

end Sys2Proof.Machine
end

