-- ==== Sys2Proof/Machine/ThermalOps.lean ====
section
/-! DEFINITION. Neighbouring power domains and their temperature differences (R503, R504, R506). -/

namespace Sys2Proof.Machine

/-- The pairs of neighbouring crowns, lower number first (R503). -/
def crownPairs : List (Nat × Nat) :=
  (List.range 16).flatMap fun n => ((List.range 16).filter fun m => decide (n < m) && crownNeighbours n m).map fun m => (n, m)

/-- The pairs of NEIGHBOUR_MAP. [DESIGN CHOICE, safe: log entry 63.] -/
def neighbourPairs : List (Nat × Nat) := crownPairs ++ Config.otherNeighbours

/-- A domain with a junction sensor (R504). [DESIGN CHOICE, safe: log entry 63.] -/
def sensed (d : Nat) : Bool := decide (d < 72 ∧ ¬ (48 ≤ d ∧ d ≤ 55))

/-- Neighbouring pairs whose temperatures can be compared. -/
def sensedPairs : List (Nat × Nat) := neighbourPairs.filter fun p => sensed p.1 && sensed p.2

/-- Last reading of a domain's sensor in 0.1 °C. [DESIGN CHOICE, safe: log entry 63.] -/
def State.domainTemp (s : State) (d : Nat) : Int := s.power.temps.getD d 0

/-- Difference of a pair by the last readings. -/
def State.pairDiff (s : State) (p : Nat × Nat) : Nat := (s.domainTemp p.1 - s.domainTemp p.2).natAbs

/-- Largest difference of a neighbouring pair by the last readings, in whole °C. -/
def State.gradientNow (s : State) : Nat := (sensedPairs.map fun p => s.pairDiff p).foldl max 0 / 10

end Sys2Proof.Machine
end

