-- ==== Sys2Proof/Machine/Views.lean ====
section
/-! DEFINITION. What a read of an object returns (R29, R37): the stored value, or the bytes that the state's records give.
The layouts are those of the object tables (R67, R71, R72, R99, R122, R123, R149, R206, R245, R270, R271, R304–R306, R328,
R329, R398, R399, R413, R443, R450, R466, R492, R511). -/

namespace Sys2Proof.Machine

/-! ### Commands and sessions (R67, R72) -/

/-- A completion record (20 bytes). -/
def CmdRecord.bytes (r : CmdRecord) : List Byte :=
  leBytes 4 r.ticket ++ leBytes 4 r.session ++ leBytes 2 r.result ++ leBytes 1 0 ++ leBytes 9 (RTime.word r.doneAt)

def State.viewCommand (s : State) (sub c : Nat) (j : Nat) : Option (List Byte) :=
  let q := s.cmdQueue c
  match sub with
  | 0x02 => some (leBytes 4 ((q.records.head?.map fun r => r.ticket).getD 0))
  | 0x03 => some (leBytes 2 ((q.records.head?.map fun r => r.result).getD 0))
  | 0x04 => some q.lastReturn
  | 0x05 => some (leBytes 1 (b2n q.running.isSome + q.waiting.length))
  | 0x10 => some ((q.records[j]?.map fun r => r.bytes).getD (leBytes 20 0))
  | _ => none

/-- Authenticated sessions. -/
def State.authSessions (s : State) : List Session := s.iop.sessions.filter fun x => x.auth

/-- TRANSPORT and SRC_DEV of a session's origin. -/
def originCodes : Origin → Nat × Nat
  | .udp .. => (0, 0xFFFF)
  | .fabric d => (1, d)
  | .mailbox => (2, 0xFFFF)

/-- An entry of SESSION_TABLE (32 bytes); IDLE_LEFT in seconds, as IDLE_TIMEOUT is. [DESIGN CHOICE, unsafe: log entry 65.] -/
def State.sessionEntry (s : State) (x : Session) : List Byte :=
  let o := originCodes x.origin
  leBytes 4 x.id ++ leBytes 1 x.role ++ leBytes 1 o.1 ++ leBytes 2 x.frameMax ++ (x.keyId ++ leBytes 8 0).take 8 ++
    leBytes 2 o.2 ++ leBytes 2 0 ++ leBytes 4 (x.idleTimeout - (s.cycle - x.lastValid) / 1200000000) ++ leBytes 8 0

/-! ### Patches and control stores (R71, R149) -/

/-- PATCH_TABLE: the slots that are active or superseded; a patch that waits for its swap point is not in it yet (R148).
[DESIGN CHOICE, unsafe: log entry 65.] -/
def State.patchTable (s : State) : List Byte :=
  (s.code.patches.zip (List.range s.code.patches.length)).flatMap fun e =>
    if e.1.state = 0 then []
    else leBytes 2 e.2 ++ leBytes 2 0 ++ leBytes 4 e.1.imageId ++ leBytes 4 e.1.version ++ leBytes 4 e.1.state

/-- PATCH_LEVEL: the highest version among patches that have become active. -/
def State.patchLevel (s : State) : Nat :=
  ((s.code.patches.filter fun p => p.state ≠ 0).map fun p => p.version).foldl max 0

/-- BANK_INFO of bank number i. -/
def State.bankInfo (s : State) (i : Nat) : List Byte :=
  let b := s.bank i
  if b.state = 0 then leBytes 16 0
  else leBytes 4 b.imageId ++ leBytes 4 b.version ++ leBytes 2 b.rollback ++ leBytes 1 b.state ++
    leBytes 1 (min 255 (s.bankUsers (i / 2) (i % 2))) ++ leBytes 4 b.digest

/-! ### Streams, cells, conditioners (R99, R122, R206, R245, R270, R271) -/

/-- PLAYLIST: the entries as in PLAYLIST_SET. [DESIGN CHOICE, unsafe: log entry 65.] -/
def playlistBytes (es : List PlaylistEntry) : List Byte :=
  es.flatMap fun e => leBytes 2 e.clip ++ leBytes 9 (RTime.word e.start)

/-- CELL_SET: STAGE is the stage's number in the stream, 0–15 a decode and 16 + r the encode of rung r.
[DESIGN CHOICE, unsafe: log entry 65.] -/
def cellSetBytes (gs : List StageSet) : List Byte :=
  gs.flatMap fun g => leBytes 1 g.stage ++ leBytes 1 g.cells.length ++ g.cells.flatMap fun c => leBytes 1 c

/-- A share of SHARES: STAGE 0 decode, 1 encode (R116). [DESIGN CHOICE, unsafe: log entry 65.] -/
def Share.bytes (h : Share) : List Byte :=
  leBytes 2 h.sid ++ leBytes 1 (b2n (decide (16 ≤ h.stage))) ++ leBytes 1 (h.stage % 16) ++ leBytes 1 h.pos ++ leBytes 1 h.n ++
    leBytes 2 h.cost

def State.passEntry (p : Pass) : List Byte :=
  leBytes 1 p.pass ++ leBytes 1 p.ic ++ leBytes 2 (ceilDiv (p.rate * 1000) 2000000000) ++ leBytes 4 (ceilDiv p.rate 1000)

/-- PASSES of a conditioner. -/
def State.icPasses (s : State) (ic : Nat) : List Byte :=
  s.streams.streams.flatMap fun e => (e.2.passes.filter fun p => p.ic = ic).flatMap fun p =>
    leBytes 2 e.1 ++ leBytes 1 p.pass ++ leBytes 1 0 ++ leBytes 4 (ceilDiv p.rate 1000)

/-- LAYER_STATUS_n (84 bytes). -/
def LayerState.bytes (l : LayerState) (slots : Nat) : List Byte :=
  leBytes 1 (b2n l.tainted + 2 * b2n l.waitingRap + 4 * b2n l.inputLost) ++ leBytes 1 l.format ++ leBytes 1 l.profile ++
    leBytes 1 l.level ++ leBytes 2 l.width ++ leBytes 2 l.height ++ leBytes 2 l.arrivalLine ++ leBytes 2 slots ++
    [l.picturesLost, l.packetsLost, l.packetsRecovered, l.packetsReordered, l.duplicates, l.latePackets, l.parseErrors,
      l.substitutions, l.greySubstitutions, l.taintedPictures, l.rowsTc, l.rowsMx, l.rowsSf, l.rowsLate, l.drops, l.repeats,
      l.discontinuities, l.raslSkipped].flatMap (leBytes 4)

/-- Slots of the picture buffer in use (R239): buffered pictures, those being decoded, and the held last picture. -/
def LayerState.slotsInUse (l : LayerState) : Nat :=
  l.buffer.length + l.pics.length + (match l.last with
    | some p => b2n (!(l.buffer.any fun q => q.pic == p.pic && !q.substitute))
    | none => 0)

def State.viewStream (s : State) (base sub sid j : Nat) : Option (List Byte) :=
  match base, sub with
  | 0x3000, 0x0E => some (playlistBytes (s.stream sid).playlist)
  | 0x3000, 0x12 => some (cellSetBytes (s.stream sid).stages)
  | 0x3400, 0x01 =>
    let v := (tget (s.stream sid).rungs {} j).status
    some (if v = [] then leBytes 44 0 else v)
  | 0x3600, 0x20 =>
    let l := tget (s.stream sid).layers {} j
    some (l.bytes l.slotsInUse)
  | 0x3800, 0x30 => some ((s.stream sid).passes.flatMap State.passEntry)
  | _, _ => none

def State.viewCell (s : State) (base sub i : Nat) : Option (List Byte) :=
  match base, sub with
  | 0x4000, 0x04 => some (leBytes 2 (s.cellLoad i))
  | 0x4000, 0x05 => some ((s.sharesOn i).flatMap Share.bytes)
  | 0x4080, 0x05 => some (leBytes 2 (s.crownLoad i))
  | 0x4080, 0x0D => some (leBytes 1 (((List.range 8).map fun k => b2n (s.cellState (8 * i + k) == cellRetired) * 2 ^ k).sum))
  | 0x4200, 0x03 => some (leBytes 2 (s.icLoad i))
  | 0x4200, 0x04 => some (s.icPasses i)
  | _, _ => none

def State.viewMilliner (s : State) (sub : Nat) : Option (List Byte) :=
  match sub with
  | 0x0A => some (leBytes 4 s.cellsUsed)
  | 0x0B => some (leBytes 4 s.cellCap)
  | 0x0C => some (leBytes 4 (ceilDiv s.memBwUsed 1000000))
  | 0x0D => some (leBytes 1 s.cellsRetired)
  | 0x0F => some (leBytes 1 s.spares.length)
  | _ => none

/-! ### Memory, pools, queues (R304–R306, R328, R329) -/

/-- PC_STATUS: its 64 entries. -/
def State.pcStatus (s : State) : List Byte :=
  (List.range 64).flatMap fun p =>
    let x := s.pc p
    leBytes 1 p ++ leBytes 1 x.state ++ leBytes 1 (min 255 x.fails) ++ leBytes 1 x.pprUsed ++ leBytes 9 (RTime.word x.last) ++
      leBytes 3 0

/-- FUSE_TABLE: its used entries. -/
def State.fuseTable (s : State) : List Byte :=
  (s.mem.fuses.zip (List.range s.mem.fuses.length)).flatMap fun e =>
    leBytes 1 e.2 ++ leBytes 1 e.1.target ++ leBytes 1 e.1.state ++ leBytes 5 0 ++ leBytes 8 e.1.addr

/-- STORE_CORRECTED: an entry for each STORE code 0–8. [DESIGN CHOICE, unsafe: log entry 65.] -/
def State.storeCounts (s : State) : List Byte :=
  (List.range 9).flatMap fun c =>
    leBytes 4 c ++ leBytes 4 (tget s.mem.storeCorrected 0 c) ++ leBytes 4 (tget s.mem.storeUncorrectable 0 c)

def State.viewMemory (s : State) (base sub i : Nat) : Option (List Byte) :=
  match base, sub with
  | 0x5000, 0x06 => some (leBytes 2 (if s.regionExists i then s.regionUsers i else 0))
  | 0x5000, 0x0B => some ((tget s.mem.bad [] i).flatMap (leBytes 8))
  | 0x5100, 0x12 => some s.pcStatus
  | 0x5180, 0x0A => some (s.mem.scrubBad.flatMap (leBytes 8))
  | 0x5180, 0x0C => some s.fuseTable
  | 0x5180, 0x0D => some s.storeCounts
  | _, _ => none

/-- Owners of a pool: those with a minimum or with batts in use. -/
def State.poolOwners (s : State) (p : Nat) : List (Nat × Nat) :=
  let minPorts := ((List.range 128).filter fun i => s.get Od.qg_INGEST_POOL i = p ∧ 0 < s.ownerMin p ownPort i).map fun i => (ownPort, i)
  let minStreams := (s.queues.streamMin.filter fun e => e.2.1 = p).map fun e => (ownStream, e.1)
  let minHost := if 0 < s.ownerMin p ownHost 0 then [(ownHost, 0)] else []
  (minPorts ++ minStreams ++ minHost ++ s.ownersIn p).eraseDups

def State.viewPool (s : State) (sub p : Nat) : Option (List Byte) :=
  match sub with
  | 0x0E => some (leBytes 4 (s.reserved p))
  | 0x0F => some (leBytes 4 (s.shared p))
  | 0x10 => some (leBytes 4 (s.sharedInUse p))
  | 0x11 => some (leBytes 4 (s.pinnedIn p))
  | 0x12 => some (leBytes 4 ((tget s.queues.lowFree none p).getD (s.sharedFree p)))
  | 0x19 => some ((s.poolOwners p).flatMap fun o =>
      leBytes 1 o.1 ++ leBytes 1 0 ++ leBytes 2 o.2 ++ leBytes 4 (s.ownerMin p o.1 o.2) ++ leBytes 4 (s.ownerUse p o.1 o.2))
  | _ => none

/-- An entry of QUEUE_STATUS (32 bytes). -/
def Queue.statusBytes (x : Queue) : List Byte :=
  leBytes 4 x.packets.length ++ leBytes 4 x.entries ++ leBytes 8 x.bytes ++ leBytes 8 x.enqueued ++ leBytes 4 x.dropped ++
    leBytes 4 x.flushed

def State.viewGroup (s : State) (sub g : Nat) : Option (List Byte) :=
  match sub with
  | 0x00 => if g = 128 then some (leBytes 1 0x13) else none
  | 0x05 => some ((List.range 8).flatMap fun k => (s.queue (8 * g + k)).statusBytes)
  | 0x06 => some (leBytes 2 (match tget s.queues.inputOwner none (8 * g) with
      | some o => o.1
      | none => 0xFFFF))
  | 0x10 => some (leBytes 4 s.entriesFree)
  | _ => none

/-! ### Lanes, fabric, egress (R356, R398, R399, R413) -/

/-- ROLE of a band in NEIGHBOURS: 0 PARENT, 1 CHILD, 2 ALTERNATE, 3 LOOPBACK, 4 FOREIGN. -/
def State.bandRole (s : State) (p : Nat) : Nat :=
  if (s.link p).loopback then 3
  else if s.foreignBand p then 4
  else if s.get Od.card_PARENT_PORT = p then 0
  else if s.card.children.any fun c => c.port = p then 1
  else 2

/-- An entry of NEIGHBOURS (24 bytes): the address that the neighbour's last OFFER carried.
[DESIGN CHOICE, unsafe: log entry 50.] -/
def State.neighbourEntry (s : State) (p : Nat) : List Byte :=
  let addr := match s.card.neighbours.find? fun n => n.port = p with
    | some n => n.offer.addr
    | none => 0xFFFF
  leBytes 1 p ++ leBytes 1 (s.bandRole p) ++ leBytes 2 addr ++ leBytes 4 0 ++
    leBytes 16 (((s.link p).peer.map fun c => c.serial).getD 0)

/-- GLOBAL_LOG, oldest first. -/
def State.globalLog (s : State) : List Byte :=
  s.fabric.log.reverse.flatMap fun e =>
    leBytes 4 e.1 ++ leBytes 1 e.2.1 ++ leBytes 1 e.2.2.1 ++ leBytes 2 e.2.2.2.1 ++ leBytes 3 0 ++ leBytes 9 (RTime.word e.2.2.2.2)

def State.viewFabric (s : State) (base sub : Nat) : Option (List Byte) :=
  match base, sub with
  | 0x6100, 0x14 => some (((List.range 128).filter fun p => s.isBand p && s.portActive p).flatMap s.neighbourEntry)
  | 0x6100, 0x15 => some s.globalLog
  | 0x6100, 0x16 => some s.fabric.snapshot
  | 0x6200, 0x07 => some (leBytes 4 s.fabric.shadow.em.length)
  | 0x6200, 0x08 => some (leBytes 2 s.fabric.shadow.lpm.length)
  | _, _ => none

/-- An entry of QUEUE_EGRESS (32 bytes). -/
def ShaperQueue.bytesOut (x : ShaperQueue) : List Byte :=
  leBytes 8 x.packets ++ leBytes 8 x.bytes ++ leBytes 4 x.shaped ++ leBytes 4 x.gatedCount ++ leBytes 4 x.parked ++
    leBytes 4 x.guardDrops

def State.viewEgress (s : State) (sub p : Nat) : Option (List Byte) :=
  match sub with
  | 0x09 => some (gateBytes ((s.egPort p).gates.getD []))
  | 0x0E => some ((List.range 8).flatMap fun k => (s.shaper (8 * p + k)).bytesOut)
  | 0x0F => some ((List.range 8).flatMap fun k =>
      leBytes 9 (RTime.word (ofLinear (s.portLpf p) (s.shaper (8 * p + k)).tPrev)))
  | _ => none

/-! ### Host interface and faults (R443, R450, R466) -/

def State.viewHost (s : State) (base sub i : Nat) : Option (List Byte) :=
  match base, sub with
  | 0x7000, 0x03 => some (leBytes 1 (if s.host.d3hot then 3 else 0))
  | 0x7000, 0x07 => some (leBytes 4 s.host.bar2Refused)
  | 0x7000, 0x08 => some (leBytes 4 s.host.bar0Misuse)
  | 0x7010, 0x03 => some (leBytes 1 (s.dma i).state)
  | 0x7010, 0x09 => some (leBytes 1 (s.dma i).lastStatus)
  | 0x7100, 0x01 => some (leBytes 8 s.host.messages)
  | 0x7100, 0x02 => some (leBytes 4 s.host.heldCount)
  | 0x7100, 0x03 => some (leBytes 4 s.host.pmeSent)
  | 0x7100, 0x06 => some ((List.range 512).flatMap fun k => leBytes 4 (s.irq k).raised)
  | _, _ => none

/-- A log entry (40 bytes). -/
def LogEntry.bytes (e : LogEntry) : List Byte :=
  leBytes 4 e.seq ++ leBytes 9 (FaultMsg.word e.msg) ++ leBytes 1 e.action ++ leBytes 2 e.repeats ++ leBytes 9 (RTime.word e.at_) ++
    leBytes 7 0 ++ leBytes 8 e.uptime

/-- A unit has a fault bit set (R455). -/
def State.unitFault (s : State) (u : Nat) : Bool := bits (s.get Od.unit_STICKY u) 2 3 != 0

/-- FAULT_N is driven low (R456). -/
def State.faultN (s : State) : Bool :=
  !s.faults.released || s.halted || (List.range 1024).any fun u => s.unitFault u

def State.viewFaults (s : State) (sub : Nat) : Option (List Byte) :=
  match sub with
  | 0x01 => some (s.faults.log.reverse.flatMap LogEntry.bytes)
  | 0x02 => some (leBytes 4 s.faults.seq)
  | 0x06 => some (leBytes 1 (b2n s.faultN))
  | 0x07 => some ((List.range 128).flatMap fun b =>
      leBytes 1 (((List.range 8).map fun k => b2n (s.unitFault (8 * b + k)) * 2 ^ k).sum))
  | 0x09 => some (leBytes 1 (b2n s.halted))
  | _ => none

/-! ### Security and power (R491, R492, R511) -/

/-- EVALUATED (R491). -/
def State.evaluated (s : State) : Bool :=
  decide (s.get Od.id_STEPPING = 0xB0 ∧ s.get Od.img_ROM_VERSION = 0x00030002) &&
    (decide (s.get Od.sec_DEBUG_STATE = 0) || decide (s.get Od.sec_DEBUG_STATE = 3)) &&
    decide (s.get Od.sec_OWNER_KEY_HASH ≠ 0) &&
    s.code.patches.all fun p => decide (p.state ≠ 1) || !p.imageId.testBit 31

def BootRecord.bytes (r : BootRecord) : List Byte :=
  leBytes 1 r.slot ++ leBytes 1 r.entry ++ leBytes 1 r.kind ++ leBytes 1 0 ++ leBytes 4 r.imageId ++ leBytes 4 r.version ++
    leBytes 2 r.result ++ leBytes 2 r.record

def State.viewSecurity (s : State) (sub : Nat) : Option (List Byte) :=
  match sub with
  | 0x02 => some (leBytes 1 (b2n s.evaluated))
  | 0x06 => some (s.sec.clientKeys.flatMap fun k => (k.keyId ++ leBytes 8 0).take 8 ++ leBytes 3 k.role ++ (k.pubkey ++ leBytes 133 0).take 133)
  | 0x08 => some (s.sec.sealPeers.flatMap (leBytes 16))
  | 0x0F => some (s.sec.bootLog.flatMap BootRecord.bytes)
  | _ => none

/-- STATE of a power domain in DOMAINS: 0 off, 1 on, 2 changing (R497). -/
def State.domainState (s : State) (d : Nat) : Nat :=
  if d < 16 then
    match s.get Od.crown_POWER_STATE d with
    | 0 => 0
    | 1 => 2
    | _ => 1
  else if d < 48 then b2n (s.quadOn (d - 16))
  else if d = 66 ∨ d = 67 then s.half (d - 66)
  else if d = 68 ∨ d = 69 then b2n (s.get Od.sys_BOOT_MODE != 1)
  else 1

/-- VOLTAGE of a power domain: a crown's set point, else the nominal voltage of the first rail of its row in R497.
[DESIGN CHOICE, unsafe: log entry 64.] -/
def State.domainMv (s : State) (d : Nat) : Nat :=
  if d < 16 then tget s.power.crownMv (s.setPoint d) d
  else if d < 48 then 900
  else if d < 56 then 1800
  else 800

/-- CLOCK of a power domain: a crown's clock, the security island's 0.4 GHz (R499); the others' are not given.
[DESIGN CHOICE, unsafe: log entry 64.] -/
def State.domainMhz (s : State) (d : Nat) : Nat :=
  if d < 16 then s.get Od.crown_CLOCK_MHZ d
  else if d = 61 then 400
  else Config.domainClock d

def State.domainEntry (s : State) (d : Nat) : List Byte :=
  leBytes 1 d ++ leBytes 1 (s.domainState d) ++ leBytes 2 (s.domainMv d) ++ leBytes 2 (s.domainMhz d) ++
    leBytes 2 (ofInt 16 (s.domainTemp d))

def State.viewSystem (s : State) (sub : Nat) : Option (List Byte) :=
  match sub with
  | 0x04 => some (s.power.startTimes.flatMap (leBytes 4))
  | 0x09 => some (s.power.railEvents.flatMap fun e => leBytes 4 e.1 ++ leBytes 8 e.2 ++ leBytes 4 0)
  | 0x0A => some ((List.range 72).flatMap s.domainEntry)
  | 0x0B => some (neighbourPairs.flatMap fun p => leBytes 1 p.1 ++ leBytes 1 p.2)
  | _ => none

/-! ### The read of an object -/

/-- The value of an object whose home is a record of the state. [DESIGN CHOICE, unsafe: log entry 12.] -/
def State.computed (s : State) (r : Row) (i j : Nat) : Option (List Byte) :=
  match r.base with
  | 0x2200 => if r.sub = 0x15 then some (leBytes 9 (RTime.word (s.now i))) else none
  | 0x2400 => s.viewCommand r.sub i j
  | 0x1F10 => match r.sub with
    | 0x03 => some (leBytes 2 s.code.patches.length)
    | 0x04 => some (leBytes 4 s.patchLevel)
    | 0x08 => some s.patchTable
    | _ => none
  | 0x2010 => match r.sub with
    | 0x06 => some (leBytes 1 s.authSessions.length)
    | 0x0C => some (s.authSessions.flatMap s.sessionEntry)
    | _ => none
  | 0x2100 => s.viewMilliner r.sub
  | 0x3000 => s.viewStream 0x3000 r.sub i j
  | 0x3400 => s.viewStream 0x3400 r.sub i j
  | 0x3600 => s.viewStream 0x3600 r.sub i j
  | 0x3800 => s.viewStream 0x3800 r.sub i j
  | 0x4000 => s.viewCell 0x4000 r.sub i
  | 0x4080 => s.viewCell 0x4080 r.sub i
  | 0x4200 => s.viewCell 0x4200 r.sub i
  | 0x4100 => if r.sub = 0x10 then some (s.bankInfo j) else none
  | 0x5000 => s.viewMemory 0x5000 r.sub i
  | 0x5100 => s.viewMemory 0x5100 r.sub i
  | 0x5180 => s.viewMemory 0x5180 r.sub i
  | 0x5200 => s.viewPool r.sub i
  | 0x5300 => s.viewGroup r.sub i
  | 0x5380 => s.viewGroup r.sub (128 + i)
  | 0x6080 => if r.sub = 0x01 ∧ s.isMember i then some (leBytes 1 3) else none
  | 0x6100 => s.viewFabric 0x6100 r.sub
  | 0x6200 => s.viewFabric 0x6200 r.sub
  | 0x6300 => s.viewEgress r.sub i
  | 0x7000 => s.viewHost 0x7000 r.sub i
  | 0x7010 => s.viewHost 0x7010 r.sub i
  | 0x7100 => s.viewHost 0x7100 r.sub i
  | 0x8000 => s.viewFaults r.sub
  | 0x9000 => s.viewSecurity r.sub
  | 0x2000 => s.viewSystem r.sub
  | _ => none

/-- Bytes of an object's active value, or of its shadow; a STRING has its padded width (R37).
[DESIGN CHOICE, unsafe: log entry 74.] -/
def State.value (s : State) (r : Row) (i j : Nat) (shadow : Bool) : List Byte :=
  match s.computed r i j with
  | some v => v
  | none =>
    match r.ty with
    | .domain => if shadow then s.blobShadow r i else s.blob r i
    | _ => leBytes r.ty.size (if shadow then s.getShadow r i j else s.get r i j)

/-- Active value of the object with a key. -/
def State.valueAt (s : State) (key : Nat) : List Byte :=
  match findObject (key / 256) (key % 256) with
  | some (r, i, j) => s.value r i j false
  | none => []

end Sys2Proof.Machine
end

