-- ==== Sys2Proof/Machine/WireOps.lean ====
section
/-! DEFINITION. The engine's network interfaces, and IOP frames on the wire: UDP datagrams over IPv4 and IPv6, fragmented above
the path MTU, and Chaec Link packets of KIND MGMT (R46, R347, R350, R354, R359). -/

namespace Sys2Proof.Machine

/-- Where a frame came from: a 10GBASE-R port, the management port, or a FRAME packet of a device on a band. -/
inductive Ingress where
  | port (p : Nat)
  | mgmt
  | fabric (band dev : Nat)
  deriving DecidableEq, Repr

/-- Addresses of a network interface: MAC, VLAN, IPv4 and IPv6 (0 none). -/
structure Iface where
  mac  : List Byte
  vlan : Nat
  ip4  : Nat
  ip6  : List Nat
  deriving DecidableEq, Repr

/-- The modified EUI-64 identifier of a MAC, 8 bytes. [PRESUMED, unsafe: log entry 54.] -/
def eui64 (mac : List Byte) : List Byte :=
  [BitVec.ofNat 8 (leAt mac 0 1 ^^^ 2)] ++ (mac.drop 1).take 2 ++ [0xFF#8, 0xFE#8] ++ mac.drop 3

/-- The interface of a port (R350, R356), or of the management port with its link-local address (R354). -/
def State.iface (s : State) (p : Option Nat) : Iface :=
  match p with
  | some p => ⟨leBytes 6 (s.get Od.port_MAC_ADDR p), s.get Od.port_VLAN_ID p, s.get Od.port_IPV4_ADDR p, [s.get Od.port_IPV6_ADDR p]⟩
  | none =>
    let mac := leBytes 6 (s.get Od.mgmt_MGMT_MAC)
    ⟨mac, s.get Od.mgmt_MGMT_VLAN, s.get Od.mgmt_MGMT_IPV4_NOW, [leNat ([0xFE#8, 0x80#8] ++ leBytes 6 0 ++ eui64 mac)]⟩

/-- The port that a frame came in at. -/
def Ingress.at? : Ingress → Option Nat
  | .port p => some p
  | .fabric b _ => some b
  | .mgmt => none

/-- The device that a frame came from over the fabric. -/
def Ingress.dev? : Ingress → Option Nat
  | .fabric _ dev => some dev
  | _ => none

/-- A frame of an interface, padded to 60 bytes, with the VLAN tag of the interface and the priority as its PCP (R350). -/
def Iface.frame (i : Iface) (dst : List Byte) (pri etype : Nat) (body : List Byte) : List Byte :=
  let bs := dst ++ i.mac ++ (if i.vlan = 0 then [] else beBytes 2 0x8100 ++ beBytes 2 (pri * 8192 + i.vlan)) ++ beBytes 2 etype ++ body
  bs ++ List.replicate (60 - bs.length) 0#8

/-- Priority of the engine's own network control frames. -/
def netPri : Nat := 7

/-- Egress queue entries of an Ethernet frame in a FRAME packet to a device (R347, R373). -/
def State.framePacket (s : State) (dev pri : Nat) (raw : List Byte) : List Byte :=
  ({ dest := dev * 65536 + 0xFFFF, srcDev := s.ownAddr, kind := 6, prio := pri } : ChHeader).packet raw

/-- The port of the route to a device. -/
def State.portTo (s : State) (p : Option Nat) (dev : Nat) : Option Nat :=
  match (s.copyFor p).route 0 (dev * 2 ^ 112) with
  | some e => if e.port < 128 then some e.port else none
  | none => none


/-! ### IOP frames on the wire (R46) -/

/-- A UDP datagram with its checksum. -/
def udpBytes (src dst : List Byte) (sport dport : Nat) (data : List Byte) : List Byte :=
  let len := 8 + data.length
  let head : Nat → List Byte := fun sum => beBytes 2 sport ++ beBytes 2 dport ++ beBytes 2 len ++ beBytes 2 sum
  let pseudo := src ++ dst ++ (if src.length = 4 then [0#8, 17#8] ++ beBytes 2 len else beBytes 4 len ++ [0#8, 0#8, 0#8, 17#8])
  let sum := inetChecksum (pseudo ++ head 0 ++ data)
  head (if sum = 0 then 0xFFFF else sum) ++ data

/-- An IPv4 packet that carries a piece of a UDP datagram: identification, byte offset, and whether more follows. -/
def ipv4Packet (src dst : List Byte) (ident off : Nat) (more : Bool) (data : List Byte) : List Byte :=
  let head : Nat → List Byte := fun sum =>
    [0x45#8, 0#8] ++ beBytes 2 (20 + data.length) ++ beBytes 2 ident ++ beBytes 2 (off / 8 + 8192 * b2n more) ++
      [64#8, 17#8] ++ beBytes 2 sum ++ src ++ dst
  head (inetChecksum (head 0)) ++ data

/-- An IPv6 packet that carries a UDP datagram whole, or, with an identification, a piece of one. -/
def ipv6Packet (src dst : List Byte) (frag : Option (Nat × Nat × Bool)) (data : List Byte) : List Byte :=
  let ext : List Byte := match frag with
    | none => []
    | some (ident, off, more) => [17#8, 0#8] ++ beBytes 2 (off / 8 * 8 + b2n more) ++ beBytes 4 ident
  [0x60#8, 0#8, 0#8, 0#8] ++ beBytes 2 (ext.length + data.length) ++ [if frag.isNone then 17#8 else 44#8, 64#8] ++ src ++ dst ++
    ext ++ data

/-- The IP packets of one UDP datagram at an MTU: one, or the fragments of one (R46).
[DESIGN CHOICE, unsafe: log entry 83.] -/
def ipPackets (src dst : List Byte) (ident mtu : Nat) (data : List Byte) : List (List Byte) :=
  if src.length = 4 then
    if 20 + data.length ≤ mtu then [ipv4Packet src dst ident 0 false data]
    else
      let n := (mtu - 20) / 8 * 8
      let ps := chunks n data
      (List.range ps.length).map fun k => ipv4Packet src dst ident (n * k) (decide (k + 1 < ps.length)) ((ps[k]?).getD [])
  else if 40 + data.length ≤ mtu then [ipv6Packet src dst none data]
  else
    let n := (mtu - 48) / 8 * 8
    let ps := chunks n data
    (List.range ps.length).map fun k =>
      ipv6Packet src dst (some (ident, n * k, decide (k + 1 < ps.length))) ((ps[k]?).getD [])

/-- The path MTU to a client: at most the interface's own. [DESIGN CHOICE, unsafe: log entry 83.] -/
def State.pathMtu (s : State) (port : Option Nat) (client : Nat) : Nat :=
  max 1280 (min (Config.pathMtu client) (match port with
    | some p => s.get Od.port_MAX_FRAME p - 22
    | none => 1500))

/-- The Ethernet frames of an IOP frame to a UDP client. -/
def State.udpFrames (s : State) (client : Nat) (w : UdpPath) (frame : List Byte) : List (List Byte) :=
  let n := client / 65536 % 256
  let dst := leBytes n (client / 2 ^ 24)
  let i := s.iface w.port
  (ipPackets w.own dst s.iop.ipIdent (s.pathMtu w.port client)
    (udpBytes w.own dst (s.get Od.iop_UDP_PORT) (client % 65536) frame)).map fun b =>
      i.frame w.mac netPri (if n = 4 then 0x0800 else 0x86DD) b

/-- What leaves for an IOP frame: on a port or the management port (255) the Ethernet frames of its datagram, each with its FCS;
on a band a packet of KIND MGMT. A client whose datagram has not been seen has no way back.
[DESIGN CHOICE, unsafe: log entry 83.] -/
def State.wire (s : State) (o : Origin) (frame : List Byte) : List Output :=
  match o with
  | .mailbox => []
  | .fabric dev =>
    match s.portTo none dev with
    | some q => [.datagram q (({ dest := dev * 65536, srcDev := s.ownAddr, kind := 2, prio := netPri } : ChHeader).packet frame)]
    | none => []
  | .udp client =>
    match tfind s.iop.paths client with
    | none => []
    | some w => (s.udpFrames client w frame).filterMap fun b =>
        match w.dev with
        | none => some (.datagram (w.port.getD 255) (b ++ leBytes 4 (crc32 b)))
        | some dev => (s.portTo none dev).map fun q => .datagram q (s.framePacket dev netPri b)

/-- Sends an IOP frame over UDP or the fabric. -/
def State.sendWire (s : State) (o : Origin) (frame : List Byte) : State :=
  let s := { s with iop := { s.iop with ipIdent := (s.iop.ipIdent + 1) % 65536 } }
  (s.wire o frame).foldl State.emit (s.emit (.iop o frame))

end Sys2Proof.Machine
end

