-- ==== Sys2Proof/Machine/Settle.lean ====
section
/-! DEFINITION. What follows every meaning in its own cycle: changes of subscribed values are notified (R61), frames for the
mailbox take their place in the response buffer (R421, R422), and due interrupt messages are sent (R438). It changes the IOP
service, the host interface and the record of what is driven out, and nothing else. -/

namespace Sys2Proof.Machine

/-- What settling changes. -/
structure Outside where
  iop  : IopState
  host : HostState
  out  : List Output
  deriving DecidableEq, Repr

def State.outside (s : State) : Outside := ⟨s.iop, s.host, s.out⟩

def State.withOutside (s : State) (o : Outside) : State := { s with iop := o.iop, host := o.host, out := o.out }

/-- A request of the mailbox is outstanding (R47). -/
def HostState.outstanding (h : HostState) : Bool :=
  h.reqBusy || h.executing || (h.respReady && h.respType != 0x20) || h.respWaiting.isSome

/-- Places a frame in the response buffer and raises its source: 65 for an answer, 66 for a notification (R421). -/
def State.placeResponse (s : State) (frame : List Byte) : State :=
  let ty := leAt frame 3 1
  let h := { s.host with respReady := true, respType := ty, respLen := frame.length, respBuf := frame }
  if ty = 0x20 then ({ s with host := h }).raise 66
  else ({ s with host := { h with executing := false } }).raise 65

/-- An answer for the mailbox: it waits while a notification occupies the buffer. -/
def State.answerMailbox (s : State) (frame : List Byte) : State :=
  if s.host.respReady then { s with host := { s.host with respWaiting := some frame } } else s.placeResponse frame

/-- Starts the 100 ms of a placed NOTIFY (R62). -/
def IopState.markPlaced (x : IopState) (frame : List Byte) (cycle : Nat) : IopState :=
  { x with inFlight := x.inFlight.map fun f =>
      if f.session = 0 ∧ f.frame = frame then { f with placed := some cycle } else f }

/-- A NOTIFY for the mailbox: placed in a free buffer, or it waits (R62, R422). -/
def State.notifyMailbox (s : State) (frame : List Byte) : State :=
  if s.host.respReady || s.host.respWaiting.isSome || s.host.notifyWaiting != [] then
    { s with host := { s.host with notifyWaiting := s.host.notifyWaiting ++ [frame] } }
  else ({ s with iop := s.iop.markPlaced frame s.cycle }).placeResponse frame

/-- Sends an answer, or any frame that is no NOTIFY, to where a frame came from. -/
def State.sendTo (s : State) (o : Origin) (frame : List Byte) : State :=
  match o with
  | .mailbox => s.answerMailbox frame
  | _ => s.sendWire o frame

def State.session (s : State) (id : Nat) : Option Session := s.iop.sessions.find? fun x => x.id = id

def State.setSession (s : State) (x : Session) : State :=
  { s with iop := { s.iop with sessions := mapIf (fun y => decide (y.id = x.id)) (fun _ => x) s.iop.sessions } }

/-- Sends a NOTIFY frame with the given items to a session; it stays in flight until its NOTIFY_ACK (R62). -/
def State.sendNotify (s : State) (id : Nat) (items : List Byte) : State :=
  match s.session id with
  | none => s
  | some x =>
    let seq := x.engineSeq + 1
    let frame := frameBytes 0x20 id seq items x.outKey
    let s := s.setSession { x with engineSeq := seq }
    match x.origin with
    | .mailbox =>
      ({ s with iop := { s.iop with inFlight := s.iop.inFlight ++ [({ session := id, seq := seq, frame := frame } : InFlight)] } }).notifyMailbox frame
    | o =>
      ({ s with iop := { s.iop with inFlight := s.iop.inFlight ++ [({ session := id, seq := seq, frame := frame, placed := some s.cycle } : InFlight)] } }).sendWire o frame

/-- The item that reports a subscribed value (R61); its value is cut to what a frame of FRAME_MAX holds.
[DEDUCED, unsafe: log entry 29.] -/
def State.reportItem (s : State) (x : Session) (key : Nat) : List Byte :=
  let ty := match findObject (key / 256) (key % 256) with
    | some (r, _, _) => r.ty.code
    | none => 0
  itemBytes 0x01 0 (key / 256) (key % 256) ty ((s.valueAt key).take ((x.frameMax - x.overhead - 8) / 4 * 4))

/-- Groups items into frames of at most `room` bytes. -/
def packItems (room : Nat) : List (List Byte) → List Byte → List (List Byte)
  | [], cur => if cur = [] then [] else [cur]
  | it :: rest, cur =>
    if cur ≠ [] ∧ room < cur.length + it.length then cur :: packItems room rest it else packItems room rest (cur ++ it)

/-- Sends items to a session in as many NOTIFY frames as FRAME_MAX asks for. -/
def State.sendItems (s : State) (x : Session) (items : List (List Byte)) : State :=
  (packItems (x.frameMax - x.overhead) items []).foldl (fun t b => t.sendNotify x.id b) s

/-- A MODE 0 subscription after a look at its value: the new record, and whether an item goes now. -/
def Subscription.look (u : Subscription) (v : List Byte) : Subscription × Bool :=
  if u.mode = 0 ∧ u.seen ≠ v then
    if u.notified then ({ u with seen := v, dirty := true }, false)
    else ({ u with seen := v, notified := true }, true)
  else (u, false)

/-- A subscription at an RD_0 frame start: gathered changes go, and every PERIOD-th start of MODE 1. -/
def Subscription.frameStart (u : Subscription) (v : List Byte) : Subscription × Bool :=
  if u.mode = 0 then
    if u.dirty then ({ u with seen := v, dirty := false, notified := true }, true)
    else if u.seen ≠ v then ({ u with seen := v, notified := true }, true)
    else ({ u with notified := false }, false)
  else if u.due ≤ 1 then ({ u with due := u.period }, true)
  else ({ u with due := u.due - 1 }, false)

/-- Looks at every subscription of a session and sends the items that go now. -/
def State.notifySession (s : State) (f : Subscription → List Byte → Subscription × Bool) (x : Session) : State :=
  if x.subs = [] then s
  else
    let looked := x.subs.map fun u => f u (s.valueAt u.key)
    (s.setSession { x with subs := looked.map (·.1) }).sendItems { x with subs := looked.map (·.1) }
      ((looked.filter (·.2)).map fun p => s.reportItem x p.1.key)

def State.notifyAll (s : State) (f : Subscription → List Byte → Subscription × Bool) : State :=
  s.iop.sessions.foldl (fun t x => t.notifySession f x) s

/-- Notifications and interrupt messages of the cycle. [DESIGN CHOICE, unsafe: log entry 5.] -/
def State.settle (s : State) : State :=
  s.withOutside ((s.notifyAll Subscription.look).sendMessages).outside

/-- The end of a meaning. [DESIGN CHOICE, unsafe: log entry 5.] -/
def done (s : State) : Host.Outcome State Fault Refusal := .next s.settle

end Sys2Proof.Machine
end

