-- ==== Sys2Proof/Machine/Batts.lean ====
section
/-! DEFINITION. The meanings of batts, pools and queues (R307–R329), but for the writes of their objects. -/

namespace Sys2Proof.Machine

/-- What the writer of a packet gets for its bytes: the state and the entries, or none when its allocation is refused; the
refusal is dealt with as R312 says. -/
def State.writerBatts (s : State) (w : Writer) (pri : Nat) (data : List Byte) : State × Option (List QEntry) :=
  match w with
  | .port p => s.ingest p pri data
  | .control => s.ingestEngine data
  | .dma =>
    match s.hostPool with
    | none => (s, none)
    | some p =>
      match s.allocate p ownHost 0 (battsFor data.length) 1 with
      | none => (s, none)
      | some (t, bs) => let r := t.fillBatts bs data; (r.1, some r.2)
  | .cell _ sid =>
    match s.poolFor (s.streamClass sid) with
    | none => (s, none)
    | some p =>
      match s.allocate p ownStream sid (battsFor data.length) 1 with
      | none => (s, none)
      | some (t, bs) => let r := t.fillBatts bs data; (r.1, some r.2)
  | .replication sid =>
    match s.poolFor (s.streamClass sid) with
    | none => (s, none)
    | some p =>
      match s.allocate p ownStream sid (battsFor data.length) 1 with
      | none => (s.bump Od.pool_REPLICATION_DROPS p, none)
      | some (t, bs) => let r := t.fillBatts bs data; (r.1, some r.2)

/-- The stream that a writer writes for. -/
def writerStream : Writer → Option Nat
  | .cell _ sid => some sid
  | .replication sid => some sid
  | _ => none

/-- QUEUE_APPEND (R311, R312, R322, R324): entries of an egress queue carry its number as PRI (R320). -/
def execQueueAppend (q : Fin 2048) (w : Writer) (pri : Fin 8) (data : List Byte) (s : State) :
    Host.Outcome State Fault Refusal :=
  if data = [] then done s
  else
    let pr := if q.val < 1024 then q.val % 8 else pri.val
    match s.writerBatts w pr data with
    | (t, none) => done t
    | (t, some es) => done (t.append q { pri := pr, entries := es, sid := writerStream w })

/-- BATT_DECREMENT (R313, R316). -/
def execBattDecrement (batt : Nat) (s : State) : Host.Outcome State Fault Refusal := done (s.decrement (batt % 2 ^ 32))

/-- CACHE_REFILL_DONE (R309). -/
def execCacheRefillDone (pool : Fin 16) (s : State) : Host.Outcome State Fault Refusal :=
  let f := s.freeBatts pool
  if f.refill then
    done (s.setFree pool { f.fill 32 (s.get Od.pool_BATTS pool) with refill := false })
  else done s

/-- CACHE_SPILL_DONE (R309). [DESIGN CHOICE, unsafe: log entry 47.] -/
def execCacheSpillDone (pool : Fin 16) (s : State) : Host.Outcome State Fault Refusal :=
  let f := s.freeBatts pool
  if f.spill then
    done (s.setFree pool f.spilled)
  else done s

/-- REPLICATION_COPY_DONE (R315). -/
def execReplicationCopyDone (s : State) : Host.Outcome State Fault Refusal := done s.copyNext

/-- Entries that point to batts: of every queue, of packets that ports send, and of host packets under way. -/
def State.allEntries (s : State) : List QEntry :=
  (s.queues.queues.flatMap fun e => e.2.packets.flatMap fun k => k.entries) ++
    (s.egress.ports.flatMap fun e => (e.2.sending.toList ++ e.2.interrupted.toList).flatMap fun x => x.packet.entries) ++
    (s.host.dma.flatMap fun e => e.2.packet.toList.flatMap fun k => k.1.entries)

/-- A writer holds the batt in a packet not yet appended. -/
def State.writerHolds (s : State) (b : Nat) : Bool := s.host.dma.any fun e => decide (b ∈ e.2.gatherBatts)

/-- One unpinned batt after the sweep: its REFCOUNT from the entries that point to it; freed when nothing holds it. -/
def State.sweepBatt (s : State) (es : List QEntry) (b : Nat) : State :=
  match s.batt b with
  | none => s
  | some x =>
    let n := (es.filter fun e => e.batt = b).length
    if x.refs = 255 ∨ b ∈ s.queues.returning then s
    else if n = 0 ∧ ¬ s.writerHolds b then (s.freeBatt b).bump Od.qg_LEAKS_RECLAIMED 128
    else if n = 0 then s
    else s.setBatt b { x with refs := n }

/-- QUEUE_SWEEP_DONE (R327). -/
def execQueueSweepDone (s : State) : Host.Outcome State Fault Refusal :=
  match s.queues.sweep with
  | none => done s
  | some bs =>
    let s := { s with queues := { s.queues with sweep := none, entriesCut := 0 } }
    done (bs.foldl (fun t b => t.sweepBatt s.allEntries b) s)

end Sys2Proof.Machine
end

