-- ==== Sys2Proof/Machine/NumOps.lean ====
section
/-! DEFINITION. The fixed-point logarithms and powers of rate control (R195, R196). The spec gives the formulae over the reals
and no arithmetic: 16 fractional bits are the model's choice. -/

namespace Sys2Proof.Machine

/-- 1 in fixed point. -/
def one16 : Nat := 65536

/-- k more bits of log2 of a mantissa m / 2^31 from 1 to 2, by squaring. -/
def logBits : Nat → Nat → Nat → Nat
  | 0, _, acc => acc
  | k + 1, m, acc =>
    let q := m * m / 2 ^ 31
    if 2 ^ 32 ≤ q then logBits k (q / 2) (2 * acc + 1) else logBits k q (2 * acc)

/-- log2 of a positive number, with 16 fractional bits; 0 for 0. [PRESUMED, unsafe: log entry 14.] -/
def log2Fx (n : Nat) : Nat :=
  let e := n.log2
  if n = 0 then 0
  else e * one16 + logBits 16 (if e ≤ 31 then n * 2 ^ (31 - e) else n / 2 ^ (e - 31)) 0

/-- 2^(i / 6) for i = 0–5. -/
def sixths : List Nat := [65536, 73562, 82570, 92682, 104032, 116772]

/-- 2^(2^-i) × 2^32 for i = 1–7. -/
def halves : List Nat := [6074001000, 5107605667, 4683695048, 4485121744, 4389014833, 4341736423, 4318288544]

/-- n × 2^((q − 4) / 6) for a QP q. [PRESUMED, unsafe: log entry 14.] -/
def scaleQp (n : Nat) (q : Int) : Nat :=
  let d := (q - 4) / 6
  let m := n * sixths.getD ((q - 4) % 6).toNat one16 / one16
  if 0 ≤ d then m * 2 ^ d.toNat else m / 2 ^ (-d).toNat

/-- n × 2^(−(q − 4) / 6). [PRESUMED, unsafe: log entry 14.] -/
def unscaleQp (n : Nat) (q : Int) : Nat := scaleQp n (8 - q)

/-- 2^(k / 128), 16 fractional bits. [PRESUMED, unsafe: log entry 14.] -/
def exp128 (k : Int) : Nat :=
  let j := (k % 128).toNat
  let m := (List.range 7).foldl (fun a i => if j.testBit (6 - i) then a * halves.getD i (2 ^ 32) / 2 ^ 32 else a) (one16 * 2 ^ 16)
  let d := k / 128
  if 0 ≤ d then m * 2 ^ d.toNat / 2 ^ 16 else m / 2 ^ (16 + (-d).toNat)

/-- Nearest integer of a / b for positive b, halves away from zero (R195). -/
def roundDiv (a : Int) (b : Nat) : Int :=
  if 0 ≤ a then (2 * a + b) / (2 * b) else -((2 * (-a) + b) / (2 * b))

end Sys2Proof.Machine
end

