-- ==== Sys2Proof/Machine/CodingOps.lean ====
section
/-! DEFINITION. The coding of a row (R151–R165, R172, R185, R193, R195) and a picture's preamble (R158, R165, R177, R202, R203, R258).
The decisions and the syntax of the formats are `Config.codeBlock`, `Config.codeUnit` and their like; what the spec requires of them
is imposed here. -/

namespace Sys2Proof.Machine

/-! ### Brim forms and sizes (R185–R188) -/

/-- Columns that a picture of a sweep refreshes: first and end (R162). -/
def EncPic.refreshed (p : EncPic) : Option (Nat × Nat) :=
  p.sweep.map fun k => let w := ceilDiv p.cfg.cols p.cfg.refreshPeriod; (k * w, min ((k + 1) * w) p.cfg.cols)

/-- Blocks of a row in intra form. -/
def EncPic.intraBlocks (p : EncPic) : Nat :=
  let c := p.cfg.cols
  if p.cls = 0 then c
  else match p.sweep with
    | none => 0
    | some k =>
      let w := ceilDiv c p.cfg.refreshPeriod
      (min ((k + 1) * w) c - k * w) + if 1 ≤ k ∧ k * w ≤ c then 1 else 0

/-- Block b of a brim row takes the intra form: no references, the refresh columns, or the column left of them. After a poisoned
reference the rows are in skip form (R463). -/
def EncPic.brimIntra (p : EncPic) (b : Nat) : Bool :=
  !p.poisoned && (decide (p.cls = 0) || match p.refreshed with
    | none => false
    | some (a, e) => (decide (0 < a) && decide (b + 1 = a)) || (decide (a ≤ b) && decide (b < e)))

/-- Bits of a brim block at its worst (R186). -/
def EncPic.brimBits (p : EncPic) (b : Nat) : Nat := if p.brimIntra b then intraBits p.cfg.format else skipBits p.cfg.format

/-- brim(r): every row of a picture has the same. -/
def EncPic.brimSize (p : EncPic) : Nat :=
  rowOverhead p.cfg.format + (p.cfg.cols - p.intraBlocks) * skipBits p.cfg.format + p.intraBlocks * intraBits p.cfg.format

/-- RES(r). -/
def EncPic.reserveFrom (p : EncPic) (r : Nat) : Nat := (p.cfg.rows - r) * p.brimSize

/-- QP_max. -/
def qpMax : Int := 51

/-- Largest luma transforms of a 64 × 64 block: 32 × 32, 8 × 8 or 4 × 4, 64 × 64. [DESIGN CHOICE, unsafe: log entry 85.] -/
def dcCount (format profile : Nat) : Nat := match format with | 0 => 4 | 1 => if profile = 100 then 64 else 256 | _ => 1

/-- Zero vectors of a block's 8 × 8 blocks. -/
def zeroMotion : List Motion := List.replicate 64 {}

/-- Block b in its brim form: a zero-motion copy of the first reference without residual, or DC intra with the DC coefficients alone,
both at QP_max (R185). It leaves zero vectors in the motion field (R173). -/
def EncPic.brimBlock (p : EncPic) (b : Nat) (dc : List Int) : BlockCode :=
  if p.brimIntra b then { intra := true, brim := true, qp := qpMax, residue := dc.take (dcCount p.cfg.format p.cfg.profile), field := zeroMotion }
  else { brim := true, merge := true, qp := qpMax, motion := zeroMotion, field := zeroMotion }

/-! ### What a preset asks (R152, R155) -/

/-- Units of a vector component in a sample: quarters, eighths for AV1. -/
def vectorUnit (format : Nat) : Nat := if format = 2 then 8 else 4

/-- Tools left to preset and profile (the tool table). -/
def toolsOf (format profile preset : Nat) : List Tool :=
  match format with
  | 0 => (if 1 ≤ preset then [.amp] else []) ++ if 2 ≤ preset then [.transformSkip] else []
  | 1 => if profile = 100 then [.transform8, .cabac, .bPictures] else []
  | _ => (if 1 ≤ preset then [.wiener] else []) ++ if 2 ≤ preset then [.selfGuided, .obmc, .palette, .shapes41] else []

/-- The preset table (R155). -/
def effortOf (format profile preset : Nat) : Effort :=
  let u := vectorUnit format
  let tools := toolsOf format profile preset
  match preset with
  | 0 => ⟨256, 128, 1, 1, u / 2, 1, 16, .satd, tools⟩
  | 1 => ⟨1024, 512, 1, 1, 1, 2, 8, .rateDistortion 2, tools⟩
  | _ => ⟨1024, 512, 3, 2, 1, 4, if format = 0 then 8 else 4, .fullRdoq, tools⟩

/-- Largest vector components of a level, in the format's units (R152). [DESIGN CHOICE, unsafe: log entry 85.] -/
def vectorRange (format level : Nat) : Int × Int :=
  match format with
  | 0 => (2 ^ 15 - 1, 2 ^ 15 - 1)
  | 1 => (8191, if level ≤ 10 then 255 else if level ≤ 20 then 511 else if level ≤ 30 then 1023 else 2047)
  | _ => (2 ^ 14 - 1, 2 ^ 14 - 1)

/-- Level and tier that a rung signals: those set, or the lowest level that it meets, in the lower tier that it meets (R152). -/
def RungCfg.signalled (c : RungCfg) : Nat × Nat :=
  if c.level ≠ 0 then (c.level, if c.format = 1 then 0 else c.tier)
  else match (levelsOf c.format).find? fun l => c.meets l false || (c.format != 1 && c.meets l true) with
    | some l => (l.level, b2n !(c.meets l false))
    | none => (0, 0)

/-! ### Limits of a block (R152, R155, R162, R163, R172, R195) -/

/-- Limits of a vector of the 8 × 8 block at column x0: where its search starts and how far it reaches, the level's range, its steps,
and the end of the refreshed area less 16 samples, when the block must stay in it. -/
structure VectorLimit where
  atX    : Int
  atY    : Int
  reachX : Int
  reachY : Int
  range  : Int × Int
  unit   : Nat
  step   : Nat
  x0     : Nat
  edge   : Option Nat
  deriving DecidableEq, Repr

/-- Interpolation taps right of a fractional position, in luma samples, those of chroma included.
[DESIGN CHOICE, unsafe: log entry 85.] -/
def tapReach : Nat := 4

/-- The horizontal component kept within the refreshed area, every interpolation tap counted (R163). -/
def VectorLimit.inside (l : VectorLimit) (x : Int) : Int :=
  match l.edge with
  | none => x
  | some e =>
    let last := (l.x0 : Int) + 7 + ceilDivI x l.unit + if x % (2 * l.unit : Nat) = 0 then 0 else tapReach
    if last < e then x else ((e : Int) - 8 - l.x0) * l.unit

/-- A component within a reach of its start and within ± a range, in whole steps. -/
def limitPart (at_ reach range : Int) (step : Nat) (v : Int) : Int :=
  let w := clampI (-range) range (clampI (at_ - reach) (at_ + reach) v)
  w - w % (max 1 step : Nat)

/-- A vector within its limits. -/
def VectorLimit.apply (l : VectorLimit) (refs : Nat) (m : Motion) : Motion :=
  { m with ref := min m.ref (refs - 1), x := l.inside (limitPart l.atX l.reachX l.range.1 l.step m.x),
           y := limitPart l.atY l.reachY l.range.2 l.step m.y }

/-- Limits of the i-th 8 × 8 block of block b: rung 0 searches the preset's window, a lower rung ±8 samples around its starting vector,
with its format's fractions (R155, R172). -/
def EncPic.vectorLimit (p : EncPic) (b i : Nat) (start : Option Motion) : VectorLimit :=
  let c := p.cfg
  let u := vectorUnit c.format
  let e := effortOf c.format c.profile c.preset
  let edge := match p.refreshed with
    | some (a, _) => if b < a then some (64 * a - 16) else none
    | none => none
  let near : Int := 8 * u + u - e.step
  match start with
  | some m => ⟨m.x, m.y, near, near, vectorRange c.format c.signalled.1, u, e.step, 64 * b + 8 * (i % 8), edge⟩
  | none => ⟨0, 0, e.windowX * u, e.windowY * u, vectorRange c.format c.signalled.1, u, e.step, 64 * b + 8 * (i % 8), edge⟩

/-- A coded block as the spec allows it: intra where the picture has no references and in the refresh columns (R162), no prediction from
outside the refreshed area (R163), vectors and partitions of the preset and level (R152, R155), a QP within AQ_STRENGTH of the
row's, or QP_TARGET (R195, R197). -/
def EncPic.limitBlock (p : EncPic) (b refs : Nat) (q : Int) (start : List Motion) (c : BlockCode) : BlockCode :=
  let fresh := match p.refreshed with
    | some (a, e) => decide (a ≤ b) && decide (b < e)
    | none => false
  let crosses := match p.refreshed with
    | some (_, e) => decide (b + 1 = e)
    | none => false
  let intra := c.intra || decide (p.cls = 0) || decide (refs = 0) || fresh
  let limit : Motion × Nat → Motion := fun e =>
    (p.vectorLimit b e.2 (if start = [] then none else some (start.getD (min e.1.ref (refs - 1) * 64 + e.2) {}))).apply refs e.1
  let motion := if intra then [] else ((List.range 64).map fun i => (c.motion.getD i {}, i)).map limit
  { c with
    intra := intra, brim := false, motion := motion, merge := c.merge && decide (motion = c.motion), right := c.right && !crosses,
    small := min 64 (max c.small (effortOf p.cfg.format p.cfg.profile p.cfg.preset).smallest), field := c.field.take (64 * refs),
    qp := if p.cfg.mode = 3 then (p.cfg.qpTarget : Int) else clampI 0 qpMax (clampI (q - (p.cfg.aq : Int)) (q + p.cfg.aq) c.qp) }

/-! ### Starting vectors of a lower rung (R172, R173) -/

/-- The motion field of rung 0 for the picture of a frame: of the picture under way, else as it was left. -/
def State.fieldOf (s : State) (sid frame : Nat) : Option MotionField :=
  match (s.rungPics sid 0).find? fun q => decide (q.frame = frame) with
  | some q => some ⟨frame, q.cfg.format, q.cfg.width, q.cfg.height, q.rows.map fun w => w.blocks⟩
  | none => (s.rung sid 0).fields.find? fun f => decide (f.frame = frame)

/-- The starting vectors of block b of row r: for each reference, those of rung 0's 8 × 8 blocks at the scaled places, scaled by the
ratio of the sizes. -/
def MotionField.start (f : MotionField) (c : RungCfg) (refs r b : Nat) : List Motion :=
  (List.range refs).flatMap fun k => (List.range 64).map fun i =>
    let x := (64 * b + 8 * (i % 8)) * f.width / max 1 c.width
    let y := (64 * r + 8 * (i / 8)) * f.height / max 1 c.height
    let m := (((f.rows.getD (y / 64) []).getD (x / 64) {}).field).getD (k * 64 + y % 64 / 8 * 8 + x % 64 / 8) {}
    let u : Int := vectorUnit c.format
    let u0 : Int := vectorUnit f.format
    { m with ref := k, x := m.x * c.width * u / ((max 1 f.width : Nat) * u0), y := m.y * c.height * u / ((max 1 f.height : Nat) * u0) }

/-! ### The unit of a row (R153, R193) -/

/-- A QP as the format signals it: base_q_idx 5q for AV1, QP′ of 10-bit HEVC and AVC (R195). -/
def signalQp (format depth : Nat) (q : Int) : Int := if format = 2 then 5 * q else if depth = 10 then q + 12 else q

/-- The entropy state at the start of a row (R153). -/
def EncPic.entropyAt (p : EncPic) : Nat → EntropyStart
  | 0 => if p.cfg.format = 2 then .perTile else .perSlice
  | r + 1 => if p.cfg.format = 0 then .wavefront (Config.entropyAfter (p.entropyAt r) ((p.row r).blocks.take 2))
    else if p.cfg.format = 1 then .perSlice else .perTile

/-- The header of a row's unit (R153). -/
def EncPic.unitHead (p : EncPic) (r : Nat) : UnitHead :=
  let kind := match p.cfg.format with
    | 0 => if r = 0 then UnitKind.independentSegment else .dependentSegment
    | 1 => .slice
    | _ => .tileGroup
  { kind := kind, format := p.cfg.format, first := r * p.cfg.cols, cols := p.cfg.cols, qp := signalQp p.cfg.format p.cfg.depth (p.row r).q,
    entropy := p.entropyAt r, rap := p.rap, depth := p.cfg.depth }

/-- The unit of blocks of a row, of at most some bits: the worst-case sizes of R186 bound it.
[DESIGN CHOICE, unsafe: log entry 85.] -/
def EncPic.unitOf (p : EncPic) (r most : Nat) (bs : List BlockCode) : List Byte := (Config.codeUnit (p.unitHead r) bs).take (most / 8)

/-- The brim row of row r: its blocks. -/
def EncPic.brimBlocks (p : EncPic) (dc : Nat → List Int) : List BlockCode := (List.range p.cfg.cols).map fun b => p.brimBlock b (dc b)

/-- Codes the blocks of a row one after another: a block after which the row's bits and the brim sizes of the blocks left would pass the
cap is discarded, and it and all later ones take their brim forms (R193). -/
def EncPic.codeBlocks (p : EncPic) (r cap : Nat) (code : Nat → List BlockCode → BlockCode) : List Nat → List BlockCode → List BlockCode × Nat
  | [], done => (done, 0)
  | b :: bs, done =>
    let c := code b done
    if 8 * (Config.codeUnit (p.unitHead r) (done ++ [c])).length + (bs.map p.brimBits).sum ≤ cap then p.codeBlocks r cap code bs (done ++ [c])
    else (done ++ (b :: bs).map fun k => p.brimBlock k c.residue, bs.length + 1)

/-- The reference images of a picture, as far as they are reconstructed. -/
def State.refImages (s : State) (sid : Nat) (p : EncPic) : List Image :=
  p.refPics.map fun n => match (s.rung sid p.rung).refs.find? fun k => decide (k.pic = n) with
    | some k => k.image
    | none => {}

/-- The source of a picture at its coded size, the last column and line replicated (R151). -/
def EncPic.padded (p : EncPic) : Image := p.source.padTo (codedSize p.cfg.format p.cfg.width) (codedSize p.cfg.format p.cfg.height)

/-- What block b of a row is coded from. -/
def State.blockTask (s : State) (sid : Nat) (p : EncPic) (settings : ParamSettings) (words : List (Nat × Nat)) (r b : Nat) (start : List Motion)
    (before : List BlockCode) : BlockTask :=
  { words := words, settings := settings, effort := effortOf p.cfg.format p.cfg.profile p.cfg.preset, cls := p.cls, row := r, block := b,
    qp := (p.row r).q, source := p.padded.strip (64 * r) 64, refs := s.refImages sid p, above := if r = 0 then [] else (p.row (r - 1)).blocks,
    before := before, start := start }

/-! ### Parameter sets and preambles (R151, R152, R158, R165, R177, R202, R203, R258) -/

/-- Depth of the hierarchy of GOP_B pictures (R159). -/
def gopDepth (m : Nat) : Nat := if m = 0 then 0 else (m : Nat).log2 + 1

/-- The colour code of a stream's source: of layer 0's picture. -/
def State.sourceCode (s : State) (sid : Nat) : Nat := colourCode (s.get Od.cond_COLOUR_IN_DEFAULT sid) (s.layer sid 0).colour

/-- The colour code and range that an output is set to: of its pass, or of the canvas; 0 is FOLLOW (R254). -/
def State.outColour (s : State) (sid r : Nat) : Nat × Bool :=
  if s.streamType sid = 3 then (s.get Od.cond_CANVAS_COLOUR sid, decide (s.get Od.cond_CANVAS_RANGE sid = 1))
  else ((s.rungCond sid r).colour, decide ((s.rungCond sid r).range = 1))

/-- The reference decoder of a rung at a fullness in bits (R202, R203). -/
def RungCfg.hrdSettings (c : RungCfg) : Option HrdSettings :=
  if c.hrd then some { bitRate := c.peak, buffer := c.cpb, cbr := decide (c.mode = 0 ∨ c.mode = 4), subPic := decide (c.format = 0 ∧ c.mode = 4),
                       rateNum := c.rateNum, rateDen := c.rateDen, delay := c.firstFullness * 90000 / max 1 c.peak }
  else none

/-- The parameter sets, or sequence header, of a rung. -/
def State.paramSettings (s : State) (sid r : Nat) (c : RungCfg) : ParamSettings :=
  let o := s.outColour sid r
  let l := c.signalled
  { format := c.format, profile := c.profile, level := l.1, tier := l.2, codedW := codedSize c.format c.width, codedH := codedSize c.format c.height,
    width := c.width, height := c.height, depth := c.depth, refs := c.refs, gopB := c.gopB, preset := c.preset, wpp := decide (c.format = 0),
    colour := colourOf (if o.1 = 0 then s.sourceCode sid else o.1) o.2, hrd := c.hrdSettings }

/-- Mastering-display and content-light metadata that a stream's outputs carry (R258). -/
def State.hdrMeta (s : State) (sid : Nat) : Option (List Byte) :=
  match s.get Od.cond_HDR_META_SRC sid with
  | 0 => (s.layer sid 0).hdr
  | 1 => some (leBytes 28 (s.get Od.cond_HDR_META sid))
  | _ => none

/-- An access unit delimiter, with a picture type of I, P or B slices, or a temporal delimiter. [PRESUMED, unsafe: log entry 18.] -/
def delimiter (format cls : Nat) : List Byte :=
  let t : Byte := if cls = 0 then 0x10#8 else if cls = 1 then 0x30#8 else 0x50#8
  match format with
  | 0 => [0#8, 0#8, 0#8, 1#8, 0x46#8, 0x01#8, t]
  | 1 => [0#8, 0#8, 0#8, 1#8, 0x09#8, t]
  | _ => [0x12#8, 0#8]

/-- The messages of a picture's preamble (R165, R177, R202, R258): what SEI_MASK enables. `full` is F_k in bits.
[DESIGN CHOICE, unsafe: log entry 85.] -/
def State.seiOf (s : State) (sid : Nat) (p : EncPic) (full : Int) : List Sei :=
  let mask := s.get Od.enc_SEI_MASK sid
  let c := p.cfg
  let x := s.rung sid p.rung
  let point := if mask.testBit 0 ∧ c.format ≤ 1 ∧ p.sweep = some 0 then [Sei.recoveryPoint (c.refreshPeriod - 1) true] else []
  let hdr := match s.hdrMeta sid with
    | some m => if mask.testBit 1 then [Sei.mastering m] else []
    | none => []
  let period := if mask.testBit 2 ∧ c.hrd ∧ c.format ≤ 1 then
      (if p.rap then [Sei.bufferingPeriod (full.toNat * 90000 / max 1 c.peak)] else []) ++
        [Sei.pictureTiming x.sinceStart (p.pic + gopDepth c.gopB - x.startCount)] else []
  period ++ point ++ hdr

/-- A picture carries the parameter sets: a random-access point, and every PARAM_REPEAT-th picture after one (R158). -/
def State.sendsParams (s : State) (sid : Nat) (p : EncPic) : Bool :=
  let n := s.get Od.enc_PARAM_REPEAT sid
  p.rap || (decide (n ≠ 0) && decide ((s.rung sid p.rung).sinceStart % n = 0))

/-- The preamble of a picture (R177), which never passes PRE_MAX (R186). -/
def State.preambleOf (s : State) (sid : Nat) (p : EncPic) (settings : ParamSettings) (full base : Int) : List Byte :=
  let c := p.cfg
  let sets := if s.sendsParams sid p then Config.paramSyntax settings else []
  let seis := (s.seiOf sid p full).flatMap (Config.seiSyntax c.format)
  let head := if c.format = 2 then Config.frameSyntax settings
      { pic := p.pic, cls := p.cls, rap := p.rap, qpIndex := (signalQp c.format c.depth base).toNat, deltaQ := decide (c.aq ≠ 0), refs := p.refPics }
    else []
  (delimiter c.format p.cls ++ sets ++ seis ++ head).take (preMax / 8)

/-! ### Reconstruction in the picture store (R109, R174) -/

/-- Slot of a picture in its stage's part of the picture store. [DESIGN CHOICE, unsafe: log entry 84.] -/
def storeSlot (pic slots : Nat) : Nat := pic % max 1 slots

/-- The tiles of a row of a reconstructed picture go to their slots, compressed where that saves words; the crown counts what it moves
(R109, R123, R174). [DESIGN CHOICE, unsafe: log entry 37.] -/
def State.storeRow (s : State) (cc sid stage slot row cols : Nat) (i : Image) : State :=
  (List.range cols).foldl (fun t b =>
    let a := Config.storeAddress sid stage slot + slotBytes * (row * cols + b)
    let d := tileStored (wordBytes (blockSix12 i b row))
    let t := (t.hbmPut a d.1).hbmPut (a + tileBytes) d.2
    if cc < 128 then t.bumpBy Od.crown_PORT_BYTES_OUT (cc / 8) 0 d.1.length else t) s

end Sys2Proof.Machine
end

