-- ==== Sys2Proof/Machine/PackOps.lean ====
section
/-! DEFINITION. Packets of engine outputs as bytes (R178–R183): RTP payloads per format, transport-stream packets, FEC, the
Chaec Link and host forms of a row, raw video. A row's units are NAL units without start code (HEVC, AVC) or OBUs with
size field (AV1); a preamble is Annex B bytes or OBUs with size fields. -/

namespace Sys2Proof.Machine

/-- Pairs each element with whether it is the first and the last. -/
def marked (l : List (List Byte)) : List (List Byte × Bool × Bool) :=
  (l.zip (List.range l.length)).map fun e => (e.1, e.2 == 0, e.2 + 1 == l.length)

/-! ### Units in byte streams -/

/-- The NAL units of Annex B bytes: `zeros` zero bytes were read last, `cur` is the present unit in reverse. -/
def nalScan : List Byte → Nat → List Byte → List (List Byte)
  | [], _, cur => if cur = [] then [] else [cur.reverse]
  | b :: bs, z, cur =>
    if b = 1#8 ∧ 2 ≤ z then (if cur = [] then [] else [cur.reverse]) ++ nalScan bs 0 []
    else if b = 0#8 then nalScan bs (z + 1) cur
    else nalScan bs 0 (b :: (List.replicate z 0#8 ++ cur))

def nalUnits (bs : List Byte) : List (List Byte) := nalScan bs 0 []

/-- Value and size of a LEB128 number of at most n bytes. -/
def leb128 : Nat → List Byte → Nat × Nat
  | 0, _ => (0, 0)
  | _, [] => (0, 0)
  | n + 1, b :: bs =>
    if b.toNat < 128 then (b.toNat, 1) else (b.toNat - 128 + 128 * (leb128 n bs).1, 1 + (leb128 n bs).2)

/-- The OBUs of low-overhead bytes, of at most n. -/
def obuScan : Nat → List Byte → List (List Byte)
  | 0, _ => []
  | _, [] => []
  | n + 1, b :: bs =>
    let ext := if b.toNat.testBit 2 then 1 else 0
    let z := leb128 8 (bs.drop ext)
    let len := if b.toNat.testBit 1 then 1 + ext + z.2 + z.1 else bs.length + 1
    (b :: bs).take len :: obuScan n ((b :: bs).drop len)

/-- OBU type. -/
def obuType (u : List Byte) : Nat := bits (leAt u 0 1) 3 4

/-- The OBUs that an RTP packet carries: no temporal delimiters, no tile lists (R179). -/
def rtpObus (bs : List Byte) : List (List Byte) := (obuScan bs.length bs).filter fun u => decide (obuType u ≠ 2 ∧ obuType u ≠ 8)

/-- A row in the form of R182: Annex B with start codes, or OBUs with size fields. -/
def rowForm (format : Nat) (preamble : List Byte) (units : List (List Byte)) : List Byte :=
  preamble ++ (units.filter fun u => u != []).flatMap fun u => if format = 2 then u else [0#8, 0#8, 0#8, 1#8] ++ u

/-! ### RTP (R178, R179) -/

def rtpHeader (marker : Bool) (pt seq ts ssrc : Nat) : List Byte :=
  beBytes 1 0x80 ++ beBytes 1 (b2n marker * 128 + pt) ++ beBytes 2 seq ++ beBytes 4 ts ++ beBytes 4 ssrc

/-- A NAL unit larger than a packet in FU-A packets (RFC 6184). -/
def fuA (mtu : Nat) (nal : List Byte) : List (List Byte) :=
  let h := leAt nal 0 1
  (marked (chunks (mtu - 2) (nal.drop 1))).map fun e =>
    beBytes 1 (h / 32 * 32 + 28) ++ beBytes 1 (b2n e.2.1 * 128 + b2n e.2.2 * 64 + h % 32) ++ e.1

/-- A NAL unit larger than a packet in fragmentation units (RFC 7798). -/
def fuHevc (mtu : Nat) (nal : List Byte) : List (List Byte) :=
  let h := leAt nal 0 1
  (marked (chunks (mtu - 3) (nal.drop 2))).map fun e =>
    beBytes 1 (h / 128 * 128 + 49 * 2 + h % 2) ++ (nal.drop 1).take 1 ++
      beBytes 1 (b2n e.2.1 * 128 + b2n e.2.2 * 64 + bits h 1 6) ++ e.1

/-- An aggregation packet: STAP-A (AVC) or AP (HEVC). -/
def aggregate (format : Nat) (nals : List (List Byte)) : List Byte :=
  let hs := nals.map fun n => leAt n 0 1
  (if format = 1 then beBytes 1 ((hs.map fun h => bits h 5 2).foldl max 0 * 32 + 24)
   else beBytes 1 (48 * 2) ++ beBytes 1 1) ++ nals.flatMap fun n => beBytes 2 n.length ++ n

/-- One NAL unit: a packet of its own, or fragments. -/
def oneNal (format mtu : Nat) (nal : List Byte) : List (List Byte) :=
  if nal.length ≤ mtu then [nal] else if format = 1 then fuA mtu nal else fuHevc mtu nal

/-- One OBU in packets of the AV1 payload format: W = 1, Z and Y mark fragments, N the first packet of a sequence. -/
def oneObu (mtu : Nat) (obu : List Byte) (n : Bool) : List (List Byte) :=
  (marked (chunks (mtu - 1) obu)).map fun e =>
    beBytes 1 (b2n (!e.2.1) * 128 + b2n (!e.2.2) * 64 + 16 + b2n (n && e.2.1) * 8) ++ e.1

/-- RTP payloads of a row (R179): parameter sets and SEI with row 0's first unit, where they fit into one packet; filler is a unit of its
own. [PRESUMED, unsafe: log entry 18.] -/
def rtpPayloads (format mtu : Nat) (rap : Bool) (preamble : List Byte) (units : List (List Byte)) : List (List Byte) :=
  let units := units.filter fun u => u != []
  if format = 2 then
    let us := rtpObus preamble ++ units
    (us.zip (List.range us.length)).flatMap fun e => oneObu mtu e.1 (rap && preamble != [] && e.2 == 0)
  else
    let ps := nalUnits preamble
    if ps = [] then units.flatMap (oneNal format mtu)
    else
      let all := aggregate format (ps ++ units.take 1)
      if all.length ≤ mtu then all :: (units.drop 1).flatMap (oneNal format mtu)
      else
        let head := aggregate format ps
        (if ps.length = 1 ∨ mtu < head.length then ps.flatMap (oneNal format mtu) else [head]) ++ units.flatMap (oneNal format mtu)

/-! ### Transport streams (R180) -/

/-- One transport packet: its payload is padded by adaptation-field stuffing; a PCR is left zero for the port to stamp. -/
def tsPacket (pid cc : Nat) (start pcr : Bool) (data : List Byte) : List Byte :=
  let af := 184 - data.length
  let field : List Byte :=
    if af = 0 then []
    else if af = 1 then [0#8]
    else beBytes 1 (af - 1) ++ beBytes 1 (b2n pcr * 16) ++ List.replicate (if pcr then 6 else 0) 0#8 ++
      List.replicate (af - 2 - if pcr then 6 else 0) 0xFF#8
  [0x47#8] ++ beBytes 2 (b2n start * 2 ^ 14 + pid) ++
    beBytes 1 ((if af = 0 then 1 else if data = [] then 2 else 3) * 16 + cc % 16) ++ field ++ data

/-- The transport packets of PES bytes; the first carries a PCR. [PRESUMED, unsafe: log entry 18.] -/
def tsPackets (pid cc : Nat) (start : Bool) (data : List Byte) : List (List Byte) :=
  let rest := chunks 184 (data.drop 176)
  tsPacket pid cc start true (data.take 176) ::
    (rest.zip (List.range rest.length)).map fun e => tsPacket pid (cc + 1 + e.2) false false e.1

/-- A null packet. -/
def tsNull : List Byte := [0x47#8] ++ beBytes 2 0x1FFF ++ [0x10#8] ++ List.replicate 184 0xFF#8

/-- A 33-bit time stamp with its prefix. -/
def pesTime (pre t : Nat) : List Byte :=
  beBytes 1 (pre * 16 + t / 2 ^ 30 % 8 * 2 + 1) ++ beBytes 2 (t / 2 ^ 15 % 2 ^ 15 * 2 + 1) ++ beBytes 2 (t % 2 ^ 15 * 2 + 1)

/-- The header of a picture's PES packet: PTS, and DTS when it differs. [PRESUMED, unsafe: log entry 18.] -/
def pesHeader (pts dts : Nat) : List Byte :=
  [0#8, 0#8, 1#8, 0xE0#8, 0#8, 0#8, 0x80#8] ++
    if pts = dts then [0x80#8, 5#8] ++ pesTime 2 pts else [0xC0#8, 10#8] ++ pesTime 3 pts ++ pesTime 1 dts

/-- CRC-32 of ISO/IEC 13818-1. -/
def crc32Mpeg (bs : List Byte) : Nat := bs.foldl (fun c b => crcByte 32 0x04C11DB7 c b.toNat) 0xFFFFFFFF

/-- A PSI section in one packet. -/
def psiPacket (pid cc : Nat) (body : List Byte) : List Byte :=
  let sec := body ++ beBytes 4 (crc32Mpeg body)
  [0x47#8] ++ beBytes 2 (2 ^ 14 + pid) ++ beBytes 1 (16 + cc % 16) ++ [0#8] ++ sec ++ List.replicate (183 - sec.length) 0xFF#8

/-- PAT and PMT of the single programme. [PRESUMED, unsafe: log entry 18.] -/
def psiPackets (format pid cc : Nat) : List (List Byte) :=
  let pat := [0#8, 0xB0#8, 13#8] ++ beBytes 2 Config.transportStreamId ++ [0xC1#8, 0#8, 0#8, 0#8, 1#8] ++ beBytes 2 (0xE000 + 0x1000)
  let ty : List Byte := if format = 0 then [0x24#8] else if format = 1 then [0x1B#8] else [0x06#8]
  let desc : List Byte := if format = 2 then [0x05#8, 4#8, 0x41#8, 0x56#8, 0x30#8, 0x31#8] else []
  let es := ty ++ beBytes 2 (0xE000 + pid) ++ beBytes 2 (0xF000 + desc.length) ++ desc
  let pmt := [2#8] ++ beBytes 2 (0xB000 + 13 + es.length) ++ [0#8, 1#8, 0xC1#8, 0#8, 0#8] ++ beBytes 2 (0xE000 + pid) ++
    [0xF0#8, 0#8] ++ es
  [psiPacket 0 cc pat, psiPacket 0x1000 cc pmt]

/-! ### FEC (R181; SMPTE ST 2022-1) -/

/-- XOR of byte strings, the shorter one padded with zeros. -/
def xorBytes : List Byte → List Byte → List Byte
  | [], bs => bs
  | as, [] => as
  | a :: as, b :: bs => (a ^^^ b) :: xorBytes as bs

/-- The FEC packet over RTP packets at distance `offset`: `row` says that it protects a matrix row.
[PRESUMED, unsafe: log entry 18.] -/
def fecPacket (seq offset : Nat) (row : Bool) (ms : List (List Byte)) : List Byte :=
  let len := (ms.map fun m => m.length - 12).foldl (fun a n => a ^^^ n) 0
  let pt := (ms.map fun m => leAt m 1 1 % 128).foldl (fun a n => a ^^^ n) 0
  let ts := (ms.map fun m => beAt m 4 4).foldl (fun a n => a ^^^ n) 0
  let first := beAt (ms.headD []) 2 2
  rtpHeader false 96 seq 0 0 ++ beBytes 2 first ++ beBytes 2 len ++ beBytes 1 (128 + pt) ++ beBytes 3 0 ++ beBytes 4 ts ++
    beBytes 1 (b2n row * 64) ++ beBytes 1 offset ++ beBytes 1 ms.length ++ [0#8] ++
    (ms.map fun m => m.drop 12).foldl xorBytes []

/-- The FEC packets due after the media packet that completes `ms`: column ones (`true`) and row ones, with their offset
and the packets they protect. -/
def fecDue (mode l d : Nat) (ms : List (List Byte)) : List (Bool × Nat × List (List Byte)) :=
  let n := ms.length
  let column := if l * (d - 1) < n then
    [(true, l, (List.range d).filterMap fun k => ms[(n - 1) % l + l * k]?)] else []
  let row := if mode = 2 ∧ n % l = 0 then [(false, 1, (ms.drop (n - l)).take l)] else []
  row ++ column

end Sys2Proof.Machine
end

