-- ==== Sys2Proof/Machine/EncodeOps.lean ====
section
/-! DEFINITION. Encoding: the pictures of a rung, their rows and their readiness (R153–R173), the sizing ledger, the QP model
and the CPB model (R185–R207, R531), and the queuing of a row's packets (R177–R183). -/

namespace Sys2Proof.Machine

/-! ### New pictures (R157, R159, R161, R195) -/

/-- Depth of position p of a hierarchy of B pictures between anchors at lo and hi. -/
def bDepth : Nat → Nat → Nat → Nat → Nat
  | 0, _, _, _ => 0
  | n + 1, lo, hi, p =>
    let m := (lo + hi) / 2
    if p = m then 0 else 1 + if p < m then bDepth n lo m p else bDepth n m hi p

/-- Class of the j-th picture after a random-access point: 1 P, 2 + d B at depth d. -/
def gopClass (m j : Nat) : Nat := if j % (m + 1) = 0 then 1 else 2 + bDepth 8 0 (m + 1) (j % (m + 1))

/-- Every group of pictures is closed (R157): the last picture before a random-access point is an anchor.
[DESIGN CHOICE, unsafe: log entry 16.] -/
def State.closeGop (s : State) (sid r : Nat) : State :=
  match (s.rungPics sid r).getLast? with
  | some p => if 2 ≤ p.cls ∧ ¬ p.started then s.setEncPic sid { p with cls := 1 } else s
  | none => s

/-- The colour code that an output shows, a picture that the source's colour changed before counting as mismatched (R255): the one set, or
with FOLLOW that of the source from a random-access point on. -/
def State.shownCode (s : State) (sid r : Nat) (rap : Bool) : Nat :=
  match (s.outColour sid r).1 with
  | 0 => if rap ∨ ¬ s.encodes sid ∨ (s.rung sid r).code = 0 then s.sourceCode sid else (s.rung sid r).code
  | c => c

/-- The picture of a rung from source frame F. One fed by an identity whose colour is not its output's is counted (R255).
[DESIGN CHOICE, unsafe: log entry 16.] -/
def State.newPic (s : State) (sid frame : Nat) (tainted : Bool) (r : Nat) : State :=
  let x := s.rung sid r
  let c := s.rungCfg sid r
  let gap := s.get Od.enc_RAP_INTERVAL sid
  let rap := !x.coded || (s.stream sid).rapDue.testBit r || (gap != 0 && decide (gap ≤ x.sinceRap))
  let s := if rap then s.closeGop sid r else s
  let s := if s.passIdentity sid r ∧ s.streamType sid ≠ 3 ∧ s.shownCode sid r rap ≠ s.sourceCode sid then s.bump Od.cond_COLOUR_MISMATCH sid else s
  let p : EncPic := { rung := r, pic := x.picCount, frame := frame, cfg := c, cells := s.stageCells sid (16 + r), rap := rap,
                      tainted := tainted, cls := if rap then 0 else gopClass c.gopB x.sinceRap,
                      rows := List.replicate c.rows {} }
  let s := s.setRung sid r { x with picCount := x.picCount + 1, coded := true, sinceRap := if rap then 1 else x.sinceRap + 1 }
  s.setStream sid { s.stream sid with
    rapDue := clearBit (s.stream sid).rapDue r, pics := (s.stream sid).pics ++ [p] }

/-- The pictures of a rung that follow a random-access point not yet started, classed anew: the first of them is the point. -/
def classFrom (gopB : Nat) : Nat → List EncPic → List EncPic
  | _, [] => []
  | j, p :: ps => { p with rap := decide (j = 0), cls := if j = 0 then 0 else gopClass gopB j } :: classFrom gopB (j + 1) ps

/-- A random-access point that falls due at a swap point is the first picture of the rung that starts at or after it (R157): of the
pictures that wait already, the first after all started ones; with none waiting, the next that comes. [DESIGN CHOICE, unsafe: log entry 16.] -/
def State.rapNow (s : State) (sid r : Nat) : State :=
  let ps := s.rungPics sid r
  let after := ((ps.filter fun p => p.started).map fun p => p.pic + 1).foldl max 0
  let wait := sortBy (fun a b : EncPic => decide (a.pic < b.pic)) (ps.filter fun p => !p.started && decide (after ≤ p.pic))
  match wait with
  | [] => s
  | p :: _ =>
    let new := classFrom (s.get Od.enc_GOP_B sid) 0 wait
    let early := mapIf (fun q : EncPic => decide (q.rung = r ∧ q.pic + 1 = p.pic) && !q.started && decide (2 ≤ q.cls)) (fun q => { q with cls := 1 })
      (s.stream sid).pics
    let pics := early.map fun q => (new.find? fun n => decide (q.rung = r ∧ n.pic = q.pic)).getD q
    let s := s.setRung sid r { s.rung sid r with sinceRap := new.length }
    s.setStream sid { s.stream sid with pics := pics, rapDue := clearBit (s.stream sid).rapDue r }

/-- A random-access point falls due on every rung of a stream. -/
def State.rapAll (s : State) (sid : Nat) : State :=
  (List.range 8).foldl (fun t r => t.rapNow sid r) (s.setStream sid { s.stream sid with rapDue := 255 })

/-- Every rung gets a picture from source frame F, once. -/
def State.newPics (s : State) (sid frame : Nat) (tainted : Bool) : State :=
  if s.takesPictures sid ∧ s.encodes sid then
    (s.rungs sid).foldl (fun t r =>
      if (t.rungPics sid r).any fun p => decide (p.frame = frame) then t else t.newPic sid frame tainted r) s
  else s

/-- The source of frame F has come down to `lines` of `h` lines: the rungs fed by an identity read it directly, shifted to their depth
(R247); of the others it is what their passes read. TAINTED and CONCEALED go with it. -/
def State.feedLines (s : State) (sid frame lines h : Nat) (image : Image) (tainted : Bool) : State :=
  s.mapPics sid (fun p => decide (p.frame = frame)) fun p =>
    if s.passIdentity sid p.rung then
      { p with inputRows := max p.inputRows (if h ≤ lines then p.cfg.rows else lines / 64), source := image.deepen p.cfg.depth,
               tainted := p.tainted || tainted }
    else { p with input := image, tainted := p.tainted || tainted }

/-! ### The QP model (R195, R196) -/

/-- X(k) of the rows for a class, in 1/65,536: from the costs of pre-analysis, scaled by K; from the co-located rows of the
last picture of the class; the mean of that picture's qualifying rows; or 1. -/
def rowWeights (n : Nat) (costs : List Nat) (logK : Int) (lookahead : Bool) (hist : List Nat) : List Nat :=
  if lookahead then (List.range n).map fun k => exp128 logK * costs.getD k 0
  else
    let good := hist.filter fun v => v ≠ 0
    let mean := if good = [] then one16 else good.sum / good.length
    (List.range n).map fun k => if hist.getD k 0 = 0 then mean else hist.getD k 0

/-- The QP that spends `share` bits on complexity x. [PRESUMED, unsafe: log entry 14.] -/
def qpFor (logK : Int) (x share : Nat) : Int :=
  roundDiv (4 * one16 + 6 * (logK * 512 + (log2Fx x : Int) - 16 * one16 - log2Fx (max share 1))) one16

/-- bits_pred in 1/65,536. -/
def bitsPred (logK : Int) (x : Nat) (q : Int) : Nat := unscaleQp (exp128 logK * x / one16) q

/-- log2 K after a row of `bits` above its brim size, rounded to 1/128 and clamped (R196).
[PRESUMED, unsafe: log entry 14.] [DESIGN CHOICE, unsafe: log entry 16.] -/
def updateK (logK : Int) (above x : Nat) (q : Int) : Int :=
  let d : Int := (log2Fx (above + 1) : Int) - ((log2Fx (bitsPred logK x q + one16) : Int) - 16 * one16)
  clampI (-512) 512 (roundDiv (logK * 2048 + d) 2048)

/-! ### The CPB model (R197–R200, R531), in units of 1 / RATE_NUM bit -/

/-- Fullness, debt and filler after a picture of a size and target. [DESIGN CHOICE, safe: log entry 15.] -/
def RungCfg.afterPicture (c : RungCfg) (full debt : Int) (size target : Nat) : Int × Int × Nat :=
  let n : Int := c.rateNum
  let cpb : Int := (c.cpb : Int) * n
  let rate := if c.mode = 0 ∨ c.mode = 4 then c.bitrate else c.maxRate
  let f : Int := full - (size : Int) * n + (rate * c.rateDen : Nat)
  if c.mode = 0 ∨ c.mode = 4 then
    let filler := if cpb < f then 8 * (ceilDivI (f - cpb) (8 * n)).toNat else 0
    let f := f - (filler : Int) * n
    (f, (c.firstFullness : Int) * n - f, filler)
  else
    let f := min cpb f
    (f, if c.mode = 1 then clampI (-cpb) cpb (debt + ((size : Int) - target) * n) else 0, 0)

/-- F_k and D_k of the next picture: the incomplete ones before it count at their budgets. -/
def State.modelAhead (s : State) (sid r : Nat) : Int × Int :=
  ((s.rungPics sid r).filter fun p => p.started).foldl (fun (m : Int × Int) p =>
    let a := p.cfg.afterPicture m.1 m.2 p.budget p.target
    (a.1, a.2.1)) ((s.rung sid r).full, (s.rung sid r).debt)

/-- T_k in bits. -/
def RungCfg.targetBits (c : RungCfg) (xk : Nat) (hist : List Nat) (floor : Nat) (full : Int) (logK : Int) (ws : List Nat) : Nat :=
  let t := c.bitrate * c.rateDen / c.rateNum
  match c.mode with
  | 4 => t
  | 2 => floor + (ws.map fun x => bitsPred logK x c.qpTarget).sum / one16
  | 3 => (full / (c.rateNum : Int)).toNat
  | _ =>
    let h := hist.take (c.rateNum / c.rateDen)
    if h = [] ∨ h.sum = 0 then t else max (t / 4) (min (4 * t) (t * xk * h.length / h.sum))

/-- A rung's model under another frame rate. [DESIGN CHOICE, safe: log entry 15.] -/
def RungState.scaleTo (x : RungState) (n : Nat) : RungState :=
  if x.scale = n then x
  else { x with full := x.full * n / (x.scale : Int), debt := x.debt * n / (x.scale : Int), scale := n }

/-- The first of some slots that no reference holds. -/
def freeSlot (refs : List RefPic) (n pic : Nat) : Nat :=
  ((List.range n).find? fun k => !refs.any fun e => decide (e.slot = k)).getD (pic % max 1 n)

/-- A picture's place among the references of its rung: a random-access point refers to none, any other to the REFS newest; every
picture but one of the deepest B level becomes a reference itself. [DESIGN CHOICE, unsafe: log entry 85.] -/
def RungState.refer (x : RungState) (c : RungCfg) (p : EncPic) : RungState × EncPic :=
  let old := if p.cls = 0 then [] else x.refs.take c.refs
  let slot := freeSlot old (c.refs + 1) p.pic
  let keeps := decide (p.cls ≤ 1) || decide (p.cls < 1 + gopDepth c.gopB)
  ({ x with refs := if keeps then ⟨p.pic, slot, {}⟩ :: old else old }, { p with refPics := old.map fun k => k.pic, slot := slot })

/-- Search costs of the rows of a picture in its pre-analysis (R159, R195). -/
def State.costsOf (s : State) (sid : Nat) (p : EncPic) : List Nat :=
  (List.range p.cfg.rows).map (Config.searchCost p.padded (s.refImages sid p))

/-- A picture starts (R157–R164, R188, R195, R197, R199, R531): it takes the settings now active, its banks, its references, its
preamble, its target, budget and base QP. A BULK picture has no cell set; `on` holds the cell that starts it.
[DESIGN CHOICE, unsafe: log entry 16.] -/
def State.startPic (s : State) (sid : Nat) (p0 : EncPic) (on : List Nat) : State × EncPic :=
  let r := p0.rung
  let c := s.rungCfg sid r
  let x := (s.rung sid r).scaleTo c.rateNum
  let x := { x with sinceStart := if p0.rap then 0 else x.sinceStart + 1, params := if p0.rap then some (s.paramSettings sid r c) else x.params,
                    code := if p0.rap then s.sourceCode sid else x.code }
  let cells := s.stageCells sid (16 + r)
  let cws := ((cells ++ on).map fun k => k / 8).eraseDups
  let sweep := if c.refreshMode = 1 ∧ p0.cls ≠ 0 then some x.sweepPos else none
  let pos := if p0.cls = 0 then 0 else (x.sweepPos + 1) % max 1 c.refreshPeriod
  let p := { p0 with cfg := c, cells := cells, started := true, sweep := sweep, rows := List.replicate c.rows {},
                     banks := cws.map (fun cw => (cw, s.activeBank cw)), image := (cws.head?).map s.imageOn, inputRows := min p0.inputRows c.rows }
  let q := x.refer c p
  let x := q.1
  let p := q.2
  let s := s.setRung sid r x
  let logK := tget x.log2K 0 p.cls
  let ws := rowWeights c.rows (s.costsOf sid p) logK (decide (0 < c.lookahead)) (tget x.xRows [] p.cls)
  let m := s.modelAhead sid r
  let n : Int := c.rateNum
  let settings := x.params.getD (s.paramSettings sid r c)
  let floorOf : Int → Nat := fun base => 8 * (s.preambleOf sid p settings (m.1 / n) base).length + p.reserveFrom 0
  let targetOf : Nat → Nat := fun floor => c.targetBits ws.sum x.xHist floor m.1 logK ws
  let budgetOf : Nat → Nat := fun floor =>
    max floor (min ((targetOf floor : Int) - ceilDivI m.2 (n * (max 1 c.debtSpread : Nat))) (m.1 / n)).toNat
  let base := if c.mode = 3 then (c.qpTarget : Int)
    else clampI c.qpLow c.qpHigh (qpFor logK ws.sum (budgetOf (floorOf 0) - floorOf 0))
  let floor := floorOf base
  let p := { p with preamble := s.preambleOf sid p settings (m.1 / n) base, budget := budgetOf floor, floor := floor, target := targetOf floor,
                    full := m.1 / n, debt := m.2 / n, baseQp := base, rows := ws.map fun w => ({ weight := w } : EncRow) }
  let s := s.setRung sid r { x with
    sweepPos := pos, startCount := x.startCount + 1, xHist := (ws.sum :: x.xHist).take (max 1 (c.rateNum / c.rateDen)) }
  let pics := (s.stream sid).pics
  let same : EncPic → Bool := fun q => decide (q.rung = r ∧ q.pic = p.pic)
  let rest := pics.filter fun q => !same q
  (s.setStream sid { s.stream sid with pics := (rest.filter fun q => q.started) ++ [p] ++ rest.filter fun q => !q.started }, p)

/-! ### Allocation of a row (R189–R192) -/

/-- CHARGED(r). -/
def EncPic.chargedAt (p : EncPic) (r : Nat) : Nat :=
  8 * p.preamble.length + ((List.range r).map fun j => if j + p.width ≤ r then (p.row j).bits else (p.row j).cap).sum

/-- Weights as LIVE_ROW flattens them. -/
def EncPic.flatWeight (p : EncPic) (r : Nat) : Nat :=
  if p.cfg.mode = 4 then (p.row r).weight * p.rows.length + (p.rows.map fun w => w.weight).sum else (p.row r).weight

/-- LCAP (R192): 300 per cent of N_row and the like, rounded up to 512 bits. -/
def RungCfg.lcap (c : RungCfg) : Nat :=
  ceilDiv (c.rowCap * c.bitrate * c.rateDen) (100 * 512 * c.rateNum * max 1 c.rows) * 512

def rowMax : Nat := 16252928

/-- The model learns from row j, whose size becomes known to the allocation of a later row (R196). -/
def State.learnRow (s : State) (sid : Nat) (p : EncPic) (j : Nat) : State :=
  let w := p.row j
  if w.brimMode ∨ w.fallback ≠ 0 ∨ w.state ≠ 2 then s
  else
    let x := s.rung sid p.rung
    let k := tget x.log2K 0 p.cls
    s.setRung sid p.rung { x with log2K := tput x.log2K 0 p.cls (updateK k (w.bits - p.brimSize) w.weight w.q) }

/-- The rows whose sizes the allocation of row r is the first to know, in their order (R189, R196). -/
def State.learnRows (s : State) (sid : Nat) (p : EncPic) (r : Nat) : State :=
  ((List.range (r + 1 - p.width)).filter fun j => decide (p.learned ≤ j)).foldl (fun t j => t.learnRow sid p j) s

/-- Row r is allocated as it starts; brim mode counts its rows and pictures (R191, R207). -/
def State.allocRow (s : State) (sid : Nat) (p : EncPic) (r : Nat) : State × EncPic :=
  let s := s.learnRows sid p r
  let p := { p with learned := max p.learned (r + 1 - p.width) }
  let c := p.cfg
  let x := s.rung sid p.rung
  let logK := tget x.log2K 0 p.cls
  let brim := p.brimSize
  let charged := p.chargedAt r
  let res := p.reserveFrom r
  let avail := p.budget - charged - res
  let left := (c.rows - r) * c.cols
  let entry : EncRow := { p.row r with state := 1, brim := brim, charged := charged, reserve := res }
  if p.brimFrom.isSome ∨ p.poisoned ∨ avail < c.brimEntry * left then
    let first := p.brimFrom.isNone && !p.poisoned
    let p := { p with brimFrom := if p.poisoned then p.brimFrom else some (p.brimFrom.getD r) }
    let s := if p.poisoned then s else s.bump Od.rc_BRIM_ROWS sid p.rung
    let s := if first then (s.setRung sid p.rung { s.rung sid p.rung with brimPics := (s.rung sid p.rung).brimPics + 1 }).streamEvent sid 4
      else s
    let p := p.withRow r fun _ => { entry with cap := brim, q := qpMax, brimMode := true, pred := 0 }
    (s.setEncPic sid p, p)
  else
    let ws := (List.range (c.rows - r)).map fun k => p.flatWeight (r + k)
    let share := avail * p.flatWeight r / max 1 ws.sum
    let lim := if c.mode = 4 then c.lcap else brim + ceilDiv (c.rowCap * share) 100
    let cap := min (brim + avail) (min (max brim lim) rowMax)
    let prev := if r = 0 then p.baseQp else (p.row (r - 1)).q
    let q := if c.mode = 3 then (c.qpTarget : Int)
      else clampI c.qpLow c.qpHigh (clampI (prev - c.qpStep) (prev + c.qpStep) (qpFor logK (p.row r).weight share))
    let p := p.withRow r fun _ => { entry with share := share, cap := cap, q := q, pred := bitsPred logK (p.row r).weight q }
    (s.setEncPic sid p, p)

/-! ### Queuing a row (R177–R183) -/

/-- A picture leaves on the destinations of a stream that closes behind its leader: any before its swap point, then those of its
list; no picture named, while any is left. -/
def Stream.wants (x : Stream) (stage : Nat) (pic : Option Nat) : Bool :=
  x.closeAtSwap || (match pic with
    | none => x.lastPics != []
    | some p => x.lastPics.contains (stage, p))

/-- Output entries of a kind for a rung: of the stream, of the aliases whose destinations have joined, and of streams that close
behind it, for a picture that is still theirs. -/
def State.outputsOf (s : State) (sid r : Nat) (kind : Nat) (pic : Option Nat := none) : List (Nat × Nat × OutEntry) :=
  let owners := sid :: (s.aliasesOf sid).filter fun a => (s.stream a).joined
  let left := (s.streams.streams.filter fun e => e.2.leaving = some sid).map fun e => e.1
  let closing := (s.streams.streams.filter fun e => e.2.follows = some sid ∧ e.2.wants (16 + r) pic).map fun e => e.1
  (owners ++ left ++ closing).flatMap fun o =>
    (((s.outputs o).zip (List.range (s.outputs o).length)).filter fun e => e.1.kind = kind ∧ e.1.rung = r).map fun e => (o, e.2, e.1)

/-- The destinations of output entries on ports. -/
def State.portDests (s : State) (sid r kind : Nat) (pic : Option Nat := none) : List PacketDest :=
  (s.outputsOf sid r kind pic).map fun e =>
    let t := ((s.stream e.1).templates.find? fun t => t.1 = e.2.1).map fun t => (⟨t.2.1, t.2.2⟩ : QEntry)
    { queue := 8 * (e.2.2.port % 128) + s.streamPri e.1, pri := s.streamPri e.1, template := t }

/-- Writes one coded packet once and releases it to its destinations (R93, R311, R315). Without batts it is lost. -/
def State.sendOut (s : State) (sid : Nat) (bytes : List Byte) (ds : List PacketDest) : State :=
  if ds = [] ∨ bytes = [] then s
  else
    let s := s.bumpBy Od.ss_BYTES_OUT sid 0 bytes.length
    match s.poolFor (s.streamClass sid) with
    | none => s
    | some p =>
      match s.allocate p ownStream sid (battsFor bytes.length) 1 with
      | none => s
      | some (t, bs) => let w := t.fillBatts bs bytes; w.1.release w.2 ds p ownStream sid (some sid) false

/-- Puts the deadline on the destinations of a row's last packet. -/
def withDue (due : Option RTime) (ds : List PacketDest) : List PacketDest := ds.map fun d => { d with due := due }

/-- RTP packets of a row of a picture (R178). -/
def State.sendRtp (s : State) (sid r pts : Nat) (pic : Option Nat) (payloads : List (List Byte)) (last : Bool) (due : Option RTime) : State :=
  (marked payloads).foldl (fun t e =>
    let x := t.rung sid r
    let h := rtpHeader (last && e.2.2) (t.get Od.enc_RTP_PT sid r) x.seq pts x.ssrc
    (t.setRung sid r { x with seq := (x.seq + 1) % 65536 }).sendOut sid (h ++ e.1)
      (withDue (if e.2.2 then due else none) (t.portDests sid r 0 pic))) s

/-- Destination ports of FEC packets: those of the template, moved by `by_` (R181). The packet carries the header itself. -/
def State.sendFec (s : State) (sid r by_ : Nat) (pic : Option Nat) (bytes : List Byte) : State :=
  (s.portDests sid r 2 pic).foldl (fun t d =>
    match d.template with
    | none => t
    | some e =>
      let head := t.entryBytes [e]
      let n := head.length - 6
      let head := patch head n (beBytes 2 (beAt head n 2 + by_))
      match t.poolFor (t.streamClass sid) with
      | none => t
      | some p => match t.allocate p ownStream sid (battsFor (head.length + bytes.length)) 1 with
        | none => t
        | some (u, bs) =>
          let w := u.fillBatts bs (head ++ bytes)
          w.1.append d.queue { pri := d.pri, entries := w.2, templated := 1, sid := some sid }) s

/-- A media packet of a KIND 2 output enters the FEC matrix, and the FEC packets due after it leave (R181). -/
def State.addFec (s : State) (sid r : Nat) (pic : Option Nat) (m : List Byte) : State :=
  let mode := s.get Od.enc_FEC_MODE sid r
  let l := s.get Od.enc_FEC_L sid r
  let d := s.get Od.enc_FEC_D sid r
  if mode = 0 then s
  else
    let x := s.rung sid r
    let ms := x.fecPackets ++ [m]
    let s := s.setRung sid r { x with fecPackets := if l * d ≤ ms.length then [] else ms }
    (fecDue mode l d ms).foldl (fun t f =>
      let x := t.rung sid r
      if f.1 then (t.setRung sid r { x with fecColSeq := (x.fecColSeq + 1) % 65536 }).sendFec sid r 2 pic (fecPacket x.fecColSeq f.2.1 false f.2.2)
      else (t.setRung sid r { x with fecRowSeq := (x.fecRowSeq + 1) % 65536 }).sendFec sid r 4 pic (fecPacket x.fecRowSeq f.2.1 true f.2.2)) s

/-- Transport packets leave in datagrams of 7, or fewer at a row's end: in UDP (KIND 1) and in RTP (KIND 2). `pcr` says
that the first packet carries a PCR, behind `lead` header bytes and the 6 before the field. -/
def State.sendTs (s : State) (sid r pts : Nat) (pic : Option Nat) (pkts : List (List Byte)) (pcr : Bool) (due : Option RTime) : State :=
  let s := if pcr then s.setRung sid r { s.rung sid r with pcrAt := s.cycle } else s
  (marked (chunks 1316 pkts.flatten)).foldl (fun t e =>
    let due := if e.2.2 then due else none
    let dests : Nat → Nat → List PacketDest := fun kind off => (t.portDests sid r kind pic).map fun d =>
      { d with due := due, pcrAt := if pcr && e.2.1 then some ((d.template.map fun q => q.len).getD 0 + off + 6) else none }
    let t1 := t.sendOut sid e.1 (dests 1 0)
    if t1.outputsOf sid r 2 pic = [] then t1
    else
      let x := t1.rung sid r
      let m := rtpHeader false 33 x.tsSeq pts x.ssrc ++ e.1
      ((t1.setRung sid r { x with tsSeq := (x.tsSeq + 1) % 65536 }).sendOut sid m (dests 2 12)).addFec sid r pic m) s

/-- A rung has transport-stream outputs, for a picture or at all. -/
def State.hasTs (s : State) (sid r : Nat) (pic : Option Nat := none) : Bool := s.outputsOf sid r 1 pic != [] || s.outputsOf sid r 2 pic != []

/-- Packets that TS_MUX_RATE owes for a picture, and what is left over for the next (R180): the rate over the picture's time. -/
def muxOwed (rate num den carry : Nat) : Nat × Nat :=
  let n := rate * den + carry
  (n / (1504 * num), n % (1504 * num))

/-- The transport packets of a row (R180); with TS_MUX_RATE, null packets fill the picture's time after its last row. -/
def State.sendTsRow (s : State) (sid : Nat) (p : EncPic) (r : Nat) (form : List Byte) (pts dts : Nat) (due : Option RTime) : State :=
  if s.hasTs sid p.rung (some p.pic) then
    let x := s.rung sid p.rung
    let pid := s.get Od.enc_TS_PID sid p.rung
    let pkts := tsPackets pid x.ccVideo (r == 0) ((if r = 0 then pesHeader pts dts else []) ++ form)
    let rate := s.get Od.enc_TS_MUX_RATE sid p.rung
    let owed := muxOwed rate p.cfg.rateNum p.cfg.rateDen x.tsCarry
    let sent := x.tsCount + pkts.length
    let last := decide (r + 1 = p.rows.length)
    let nulls := if last && rate != 0 then List.replicate (owed.1 - sent) tsNull else []
    let s := s.setRung sid p.rung { x with
      ccVideo := (x.ccVideo + pkts.length) % 16, tsCount := if last then (if rate = 0 then 0 else sent - owed.1) else sent,
      tsCarry := if last then (if rate = 0 then 0 else owed.2) else x.tsCarry }
    s.sendTs sid p.rung pts (some p.pic) (pkts ++ nulls) true due
  else s

/-- A transport packet that carries a PCR alone. -/
def State.pcrPacket (s : State) (sid r : Nat) : List Byte :=
  tsPacket (s.get Od.enc_TS_PID sid r) ((s.rung sid r).ccVideo + 15) false true []

/-- PTS of the present frame of a stream's domain. -/
def State.ptsNow (s : State) (sid : Nat) : Nat := s.pts sid (s.now (s.streamDomain sid)).frame

/-- PAT and PMT of a rung's transport streams (R180). -/
def State.sendPsi (s : State) (sid r : Nat) : State :=
  if s.hasTs sid r then
    let x := s.rung sid r
    let pkts := psiPackets (s.get Od.enc_FORMAT sid r) (s.get Od.enc_TS_PID sid r) x.ccPsi
    (s.setRung sid r { x with ccPsi := (x.ccPsi + 1) % 16, psiAt := some s.cycle, tsCount := x.tsCount + 3 }).sendTs sid r (s.ptsNow sid) none (s.pcrPacket sid r :: pkts) true none
  else s

/-- Cycles of 20 ms: no PCR may be later than that after the last (R180). -/
def pcrGap : Nat := 24000000

/-- A PCR of a rung is due, as none has left for 20 ms: it leaves in a packet of its own (R180). -/
def State.sendPcr (s : State) (sid r : Nat) : State :=
  if s.hasTs sid r ∧ (s.rung sid r).pcrAt + pcrGap ≤ s.cycle then
    (s.setRung sid r { s.rung sid r with tsCount := (s.rung sid r).tsCount + 1 }).sendTs sid r (s.ptsNow sid) none [s.pcrPacket sid r] true none
  else s

/-- Cycles of 100 ms, after which PAT and PMT leave again (R180). -/
def psiGap : Nat := 120000000

/-- The transport-stream timer of a rung: PAT and PMT where they are due, else a PCR where it is (R180). -/
def State.tsTimer (s : State) (sid r : Nat) : State :=
  let due := match (s.rung sid r).psiAt with
    | some t => decide (t + psiGap ≤ s.cycle)
    | none => true
  if due then s.sendPsi sid r else s.sendPcr sid r

/-- FLAGS of a row's Chaec Link packet. -/
def rowFlags (last rap brim tainted : Bool) : Nat := b2n last * 2 + b2n rap * 4 + b2n brim * 8 + b2n tainted * 16

/-- Carding has cleared this device's state and has not ended: row packets for fabric outputs are discarded at their source (R367). -/
def State.cardingGap (s : State) : Bool := decide (s.get Od.card_CARD_STATE ≠ 0 ∧ s.get Od.card_CARD_STATE ≠ 2)

/-- Chaec Link packets of a row (R182), and its packet to the host (R183). -/
def State.sendRow (s : State) (sid : Nat) (p : EncPic) (r : Nat) (form : List Byte) (brim : Bool) (due : Option RTime) : State :=
  let rt := match s.encDeadline sid p r with
    | some t => RTime.word t
    | none => 0
  let segs := chunks 9216 form
  let s : State := ((marked segs).zip (List.range segs.length)).foldl (fun (t : State) e =>
    let x := t.rung sid p.rung
    let info : RowInfo := ⟨rowFlags e.1.2.2 p.rap brim p.tainted, x.outSeq, e.2, rt, r, p.pic⟩
    let ds := (t.portDests sid p.rung 3 (some p.pic)).map fun d => { d with rowInfo := some info, due := if e.1.2.2 then due else none }
    if ds = [] then t
    else (t.setRung sid p.rung { x with outSeq := (x.outSeq + 1) % 2 ^ 32 }).sendOut sid e.1.1 (if t.cardingGap then [] else ds)) s
  (s.outputsOf sid p.rung 4 (some p.pic)).foldl (fun t e =>
    let x := t.rung sid p.rung
    let h : ChHeader := { dest := 0, srcDev := t.ownAddr, kind := 1, prio := t.streamPri sid, stream := t.ownAddr * 2 ^ 16 + sid * 2 ^ 6 + p.rung * 8,
                          flags := rowFlags true p.rap brim p.tainted, seq := x.outSeq, rtime := rt, row := r, pic := p.pic }
    let pad := (9 - form.length % 9) % 9
    (t.setRung sid p.rung { x with outSeq := (x.outSeq + 1) % 2 ^ 32 }).sendOut sid
      (h.bytes form.length ++ form ++ List.replicate pad 0#8)
      [{ queue := 1536 + e.2.2.target % 32, pri := t.streamPri sid }]) s

/-- A row's units are released to every output of its rung (R117, R177). -/
def State.emitRow (s : State) (sid : Nat) (p : EncPic) (r : Nat) (units : List (List Byte)) (brim : Bool) : State :=
  let pre := if r = 0 then p.preamble else []
  let form := rowForm p.cfg.format pre units
  let pts := s.pts sid p.frame
  let dts := s.pts sid (p.frame - gopDepth p.cfg.gopB)
  let due := if s.streamClass sid = 0 then some (s.rowDeadline sid p.frame p.cfg.height r) else none
  let last := decide (r + 1 = p.rows.length)
  let s := if s.outputsOf sid p.rung 0 (some p.pic) = [] then s
    else s.sendRtp sid p.rung pts (some p.pic) (rtpPayloads p.cfg.format (s.get Od.enc_MTU_PAYLOAD sid p.rung) p.rap pre units) last due
  (s.sendTsRow sid p r form pts dts due).sendRow sid p r form brim due

/-- Batts that a row's packets take at most: of each kind of output, and one more for each packet. -/
def State.rowBatts (s : State) (sid : Nat) (p : EncPic) (unit : List Byte) : Nat :=
  let kinds := (List.range 5).filter fun k => s.outputsOf sid p.rung k (some p.pic) != []
  kinds.length * (battsFor (p.preamble.length + unit.length) + ceilDiv (p.preamble.length + unit.length) 150 + 2)

/-! ### The end of a picture (R199, R200, R207) -/

/-- STATUS_r. -/
def statusBytes (p : EncPic) (size : Nat) (full debt : Int) (brimPics : Nat) : List Byte :=
  let blocks := max 1 (p.rows.length * p.cfg.cols)
  let n : Int := p.cfg.rateNum
  leBytes 4 (p.pic % 2 ^ 24) ++ leBytes 4 size ++ leBytes 4 p.budget ++ leBytes 4 p.floor ++ leBytes 4 p.cfg.reserve ++
    leBytes 2 (p.brimFrom.getD 0xFFFF) ++ leBytes 2 (p.qpSum * 256 / blocks) ++ leBytes 8 (ofInt 64 (debt / n)) ++
    leBytes 8 (ofInt 64 (full / n)) ++ leBytes 4 brimPics

/-- Filler of a number of bits, as the format carries it (R199): at least the bytes of an empty one.
[DESIGN CHOICE, unsafe: log entry 16.] -/
def fillerUnit (format bits : Nat) : List Byte :=
  if bits = 0 then []
  else
    let n := bits / 8
    if format = 0 then [0x4C#8, 0x01#8] ++ List.replicate (n - 7) 0xFF#8 ++ [0x80#8]
    else if format = 1 then [0x0C#8] ++ List.replicate (n - 6) 0xFF#8 ++ [0x80#8]
    else [0x7A#8] ++ leBytes 1 (n - 3) ++ List.replicate (n - 3) 0#8 ++ [0x80#8]

/-- After a picture has ended: the store of the settings before a change is released with the last picture that uses it (R85),
and a CLOSING stream that has finished its pictures closes (R76). -/
def State.afterPicture (s : State) (sid : Nat) : State :=
  let x := s.stream sid
  let idle := (x.pics.all fun p => !p.started) && x.layers.all fun l => l.2.pics == []
  let stores := (x.oldStores.map fun e => (e.1, e.2.filter fun p => x.underWay.contains p)).filter fun e => e.2 != []
  let s := if x.oldStores = [] then s else s.setStream sid { x with oldStores := stores }
  let s := s.endFollowers sid
  if s.streamState sid = stClosing ∧ ¬ x.closeAtSwap ∧ idle ∧ x.pics = [] then s.closeStream sid else s

/-- Motion fields that a lower rung's picture of the same frame still reads, after rung 0's picture ended (R172). -/
def State.keepField (s : State) (sid : Nat) (p : EncPic) : State :=
  let x := s.rung sid 0
  let fields := if p.rung = 0 then x.fields ++ [⟨p.frame, p.cfg.format, p.cfg.width, p.cfg.height, p.rows.map fun w => w.blocks⟩] else x.fields
  let used : MotionField → Bool := fun f => (s.stream sid).pics.any fun q => decide (q.rung ≠ 0 ∧ q.frame = f.frame)
  if fields = [] then s else s.setRung sid 0 { x with fields := fields.filter used }

/-- A picture whose rows are all complete or substituted: size, filler, CPB model, debt, history, STATUS_r and counters. -/
def State.finishPic (s : State) (sid : Nat) (p : EncPic) : State :=
  let r := p.rung
  let x := s.rung sid r
  let size := 8 * p.preamble.length + (p.rows.map fun w => w.bits).sum
  let a := p.cfg.afterPicture x.full x.debt size p.target
  let size := size + a.2.2
  let hist := p.rows.map fun w => if w.state = 2 ∧ ¬ w.brimMode then max 1 (scaleQp (w.bits * one16) w.q) else 0
  let x := { x with full := a.1, debt := a.2.1, xRows := tput x.xRows [] p.cls hist, status := statusBytes p size a.1 a.2.1 x.brimPics }
  let s := s.setRung sid r x
  let s := s.setStream sid { s.stream sid with pics := (s.stream sid).pics.filter fun q => ¬ (q.rung = r ∧ q.pic = p.pic) }
  let s := s.keepField sid p
  let s := (s.bump Od.ss_PICTURES_OUT sid).set Od.ss_LAST_PICTURE_AT sid (RTime.word (s.now (s.streamDomain sid)))
  s.endDrains.afterPicture sid

/-- SLIPS of a PACED picture that completes after its deadline (R82). -/
def State.countSlip (s : State) (sid : Nat) (p : EncPic) : State :=
  if s.streamClass sid = 1 ∧ ¬ p.slipped ∧
      s.later (s.streamDomain sid) (s.now (s.streamDomain sid)) (State.frameDeadline p.frame (1 + p.cfg.gopB + p.cfg.lookahead)) then
    (s.bump Od.ss_SLIPS sid).streamEvent sid 5
  else s

/-- The microwords of a picture's image (R140). -/
def State.picWords (s : State) (p : EncPic) : List (Nat × Nat) :=
  match p.banks with
  | (cw, b) :: _ => (s.bank (2 * cw + b)).words
  | [] => []

/-- The parameter sets in force for a picture. -/
def State.settingsOf (s : State) (sid : Nat) (p : EncPic) : ParamSettings :=
  (s.rung sid p.rung).params.getD (s.paramSettings sid p.rung p.cfg)

/-- What the microcode makes of block b of a row of a picture. -/
def State.codedBlock (s : State) (sid : Nat) (p : EncPic) (r b : Nat) (start : List Motion) (before : List BlockCode) : BlockCode :=
  Config.codeBlock (s.blockTask sid p (s.settingsOf sid p) (s.picWords p) r b start before)

/-- The brim row of a row of a picture: its blocks, and its unit (R185). -/
def State.brimOf (s : State) (sid : Nat) (p : EncPic) (r : Nat) : List BlockCode × List Byte :=
  let bs := p.brimBlocks fun b => (s.codedBlock sid p r b [] []).residue
  (bs, p.unitOf r p.brimSize bs)

/-- A row of a picture as its cell codes it (R112): its blocks, how many fell back (R193), its unit. A row in brim mode is its brim row. -/
def State.codeRow (s : State) (sid : Nat) (p : EncPic) (r : Nat) : List BlockCode × Nat × List Byte :=
  let w := p.row r
  if w.brimMode then ((s.brimOf sid p r).1, 0, (s.brimOf sid p r).2)
  else
    let refs := p.refPics.length
    let field := if p.rung = 0 then none else s.fieldOf sid p.frame
    let start : Nat → List Motion := fun b => match field with
      | none => []
      | some f => f.start p.cfg refs r b
    let q := p.codeBlocks r w.cap (fun b before => p.limitBlock b refs w.q (start b) (s.codedBlock sid p r b (start b) before)) (List.range p.cfg.cols) []
    (q.1, q.2, p.unitOf r w.cap q.1)

/-- The reconstruction of a picture after a row of it: kept where the picture is a reference, and its tiles stored (R109, R174). -/
def State.rebuild (s : State) (sid : Nat) (p : EncPic) (r : Nat) : State :=
  let x := s.rung sid p.rung
  if x.refs.any fun k => decide (k.pic = p.pic) then
    let i := Config.reconstruct (s.settingsOf sid p) (p.rows.map fun w => w.blocks) (s.refImages sid p)
    (s.setRung sid p.rung { x with refs := mapIf (fun k : RefPic => decide (k.pic = p.pic)) (fun k => { k with image := i }) x.refs }).storeRow
      (p.row r).cell sid (16 + p.rung) p.slot r p.cfg.cols i
  else s

/-- A row is complete with the given blocks and unit: its size enters the ledger, its bytes are released; a LIVE_ROW or CBR picture's
filler, a unit of its own, goes with its last row (R117, R177, R190, R199). -/
def State.settleRow (s : State) (sid : Nat) (p : EncPic) (r : Nat) (blocks : List BlockCode) (unit : List Byte) (st : Nat) (fallback : Nat) : State :=
  let p := { p.withRow r fun w => { w with state := st, bits := 8 * unit.length, fallback := fallback, blocks := blocks } with
    qpSum := p.qpSum + (blocks.map fun b => b.qp.toNat).sum }
  let s := (s.setEncPic sid p).rebuild sid p r
  let brim := (p.row r).brimMode || st == 3
  let whole := p.rows.all fun w => decide (2 ≤ w.state)
  let size := 8 * p.preamble.length + (p.rows.map fun w => w.bits).sum
  let x := s.rung sid p.rung
  let filler := if whole then (p.cfg.afterPicture x.full x.debt size p.target).2.2 else 0
  let s := s.emitRow sid p r [unit, fillerUnit p.cfg.format filler] brim
  if whole then ((s.countSlip sid p).finishPic sid p) else s

/-- A row is replaced by its brim row (R167, R82, R194): one that had not started takes QP_max as its QP.
[DESIGN CHOICE, unsafe: log entry 16.] -/
def State.brimRow (s : State) (sid : Nat) (p : EncPic) (r : Nat) : State :=
  let q := if p.started then (s, p) else s.startPic sid p []
  let p := q.2
  let p := p.withRow r fun w =>
    { w with brim := p.brimSize, cap := if w.state = 0 then p.brimSize else w.cap, q := if w.state = 0 then qpMax else w.q }
  let b := q.1.brimOf sid p r
  q.1.settleRow sid p r b.1 b.2 3 0

end Sys2Proof.Machine
end

