-- ==== Sys2Proof/Machine/ServiceOps.lean ====
section
/-! DEFINITION. What depends on PICTURE_REGION being usable (R280), and laps of the fulled stores (R299). -/

namespace Sys2Proof.Machine

/-- STATE of a cell without a row, by its crown: IDLE, PARKED or WAKING. -/
def State.cellRest (s : State) (cc : Nat) : State :=
  s.set Od.cell_STATE cc
    (match s.get Od.crown_POWER_STATE (cc / 8) with
      | 0 => cellParked
      | 2 => cellIdle
      | _ => cellWaking)

/-- A cell goes out of service as by a write (R120): it is RETIRED, and no spare any more. -/
def State.cellOut (s : State) (cc : Nat) : State :=
  (((s.setCell cc { s.cell cc with byWrite := true }).set Od.cell_OUT_OF_SERVICE cc 1).set Od.cell_SPARE cc 0).set Od.cell_STATE cc cellRetired

/-- Every cell not retired by a fault goes out of service. -/
def State.cellsOut (s : State) : State :=
  (List.range 128).foldl (fun t cc => if t.flag Od.cell_RETIRED_BY_FAULT cc then t else t.cellOut cc) s

/-- Every cell not retired by a fault returns to service. -/
def State.cellsBack (s : State) : State :=
  (List.range 128).foldl (fun t cc =>
    if t.flag Od.cell_RETIRED_BY_FAULT cc then t
    else ((t.setCell cc { t.cell cc with byWrite := false }).set Od.cell_OUT_OF_SERVICE cc 0).cellRest cc) s

/-- Pools whose region is no usable OPEN region are disabled. -/
def State.disablePools (s : State) : State :=
  (List.range 16).foldl (fun t p =>
    if t.poolOn p ∧ ¬ t.poolRegionOk p then (t.set Od.pool_ENABLE p 0).set Od.pool_BASE p 0 else t) s

/-- Shelf copies of every image that a bank holds. -/
def State.shelveAll (s : State) : State :=
  s.code.banks.foldl (fun t b => if b.2.holds then t.shelve b.2.imageId b.2.version b.2.words else t) s

/-- The firmware's test of PICTURE_REGION, and what follows when its outcome changed. -/
def State.testPicture (s : State) : State :=
  if s.pictureUsable then
    if s.mem.noPictureReported then
      let s := { s with mem := { s.mem with noPictureReported := false } }
      let s := s.shelveAll.hbmZero (s.ringAddr 0 0) 589824
      let s := if s.poolOn 0 then s else s.enablePool0
      s.cellsBack.balanceSpares
    else s
  else if s.mem.noPictureReported then s
  else
    let s := { s with mem := { s.mem with noPictureReported := true } }
    ((s.reportInfo Unit.control 0x62 (s.get Od.mil_PICTURE_REGION)).cellsOut).disablePools

/-! ### Fulling (R299) -/

/-- Number of a fulled store's lap. -/
def fulledLap : Fulled → Nat
  | .control cw => cw
  | .tables e => 16 + e
  | .security => 18
  | .dictionary => 19

/-- STORE code and instance. -/
def fulledStore : Fulled → Nat
  | .control _ => 2
  | .tables _ => 4
  | .security => 6
  | .dictionary => 7

def fulledInst : Fulled → Nat
  | .control cw => cw
  | .tables e => e
  | _ => 0

/-- Words of a store, and bytes of a word. -/
def fulledWords : Fulled → Nat
  | .control _ => 8192
  | .tables _ => 145408
  | .security => 116509
  | .dictionary => 932068

def fulledBytes : Fulled → Nat
  | .control _ => 18
  | _ => 9

def State.lap (s : State) (n : Nat) : Lap := tget s.mem.laps {} n

def State.setLap (s : State) (n : Nat) (x : Lap) : State :=
  { s with mem := { s.mem with laps := tput s.mem.laps {} n x } }

/-- The scrubber reads and decodes word w; an uncorrectable control-store word is fenced (R126). -/
def State.fullWord (s : State) (f : Fulled) (w : Nat) : State :=
  let q := (List.range (fulledBytes f)).foldl (fun (q : State × Bool) k =>
    let r := q.1.readSram (sramLoc (fulledStore f) (fulledInst f) (w * (fulledBytes f) + k)) 4 0xFF
    (r.1, q.2 || decide (r.2 = .uncorrectable))) (s, false)
  match f with
  | .control cw => if q.2 then q.1.fence (2 * cw + w / 4096) (w % 4096) else q.1
  | _ => q.1

/-- The scrubber of a control-store bank pauses while the loader writes that bank (R299). -/
def State.fullingPaused (s : State) (f : Fulled) (w : Nat) : Bool :=
  match f with
  | .control cw => (s.bank (2 * cw + w / 4096)).state == 1
  | _ => false

/-- Longest last lap among some laps, in ns. -/
def State.longestLap (s : State) (ns : List Nat) : Nat := (ns.map fun n => (s.lap n).last).foldl max 0

/-- The objects of R306 that show laps. -/
def State.showLaps (s : State) : State :=
  (((s.set Od.sto_LAP_CONTROL 0 (s.longestLap (List.range 16))).set Od.sto_LAP_TABLES 0 (s.longestLap [16, 17] / 1000)).set
    Od.sto_LAP_SECURITY 0 (s.longestLap [18] / 1000)).set Od.sto_LAP_DICTIONARY 0 (s.longestLap [19] / 1000)

/-- A lap ends. -/
def State.endLap (s : State) (f : Fulled) : State :=
  let x := s.lap (fulledLap f)
  let ns := (s.cycle - x.startAt) * 5 / 6
  let s := (s.setLap (fulledLap f) { word := 0, startAt := s.cycle, last := ns }).showLaps
  if s.get Od.sto_LAP_LIMIT_MS * 1000000 < ns then
    (s.bump Od.sto_LAP_OVERRUNS).reportInfo (storeUnit (fulledStore f) (fulledInst f)) 0x17 (fulledStore f)
  else s

end Sys2Proof.Machine
end

