-- ==== Sys2Proof/Machine/RowOps.lean ====
section
/-! DEFINITION. Rows on cells: the cell of a row, block-row boundaries, and rows that leave their cell (R76, R80, R120). -/

namespace Sys2Proof.Machine

/-- A checkpoint record names a row. -/
def Checkpoint.names (p : Checkpoint) (sid stage pic row : Nat) : Bool :=
  decide (p.sid = sid ∧ p.stage = stage ∧ p.pic = pic ∧ p.row = row)

/-- The cell on which a row runs. -/
def State.cellWith (s : State) (sid stage pic row : Nat) : Option Nat :=
  (List.range 128).find? fun cc => match (s.cell cc).row with
    | some r => r.point.names sid stage pic row
    | none => false

/-- A DRAINING cell without a row is RETIRED, and its shares move (R120). -/
def State.atBoundary (s : State) (cc : Nat) : State :=
  if s.cellState cc = cellDraining ∧ (s.cell cc).row = none then (s.cellOut cc).moveShares cc else s.refreshCell cc

/-- A cell's row leaves it, and the cell is at a block-row boundary. -/
def State.freeCell (s : State) (cc : Nat) : State := let s := s.leaveRow cc
  (s.setCell cc { s.cell cc with row := none }).atBoundary cc

/-- A row leaves its cell, and the records of its re-runs go. -/
def State.dropRow (s : State) (sid stage pic row : Nat) : State :=
  let s := s.countWaiting sid stage pic row
  let cells := s.cells.cells.map fun e =>
    (e.1, { e.2 with reruns := e.2.reruns.filter fun k => !k.1.names sid stage pic row })
  let s := { s with cells := { s.cells with cells := cells } }
  match s.cellWith sid stage pic row with
  | some cc => s.freeCell cc
  | none => s

/-- Every DRAINING cell that has no row is RETIRED. -/
def State.endDraining (s : State) : State :=
  (List.range 128).foldl (fun t cc =>
    if t.cellState cc = cellDraining ∧ (t.cell cc).row = none then t.atBoundary cc else t) s

/-- Bytes of an entropy context that CTX_CRC covers. [DESIGN CHOICE, unsafe: log entry 84.] -/
def contextSize : Nat := 64

/-- The entropy context that a row on a cell starts from: what its upper row left at XCHG_ADDR, in bank 13 or in HBM3 (R110, R116). -/
def State.context (s : State) (cw : Nat) (p : Checkpoint) : List Byte :=
  if p.row = 0 then []
  else if p.xchgAddr < crownSize then (s.crown cw).bytesAt p.xchgAddr contextSize
  else s.hbmBytes p.xchgAddr contextSize

/-- The words of a record, and its bytes (R116). -/
def Checkpoint.word0 (p : Checkpoint) : Nat :=
  p.sid % 512 * 2 ^ 63 + (if 16 ≤ p.stage then 1 else 0) * 2 ^ 60 + p.index % 16 * 2 ^ 56 + p.pic % 2 ^ 24 * 2 ^ 32 + p.row % 2 ^ 16 * 2 ^ 16 +
    p.format % 4 * 2 ^ 14 + p.preset % 4 * 2 ^ 12 + p.cls % 4 * 2 ^ 10 + b2n p.rap * 2 ^ 9 + p.cell % 256

def Checkpoint.words (p : Checkpoint) : List Nat :=
  [p.word0, p.deadline,
    p.outSeq % 2 ^ 32 * 2 ^ 40 + p.qpPrev % 256 * 2 ^ 32 + p.refreshCol % 2 ^ 16 * 2 ^ 16 + b2n p.brim + 2 * b2n p.tainted + 4 * b2n p.aboveConcealed,
    p.budget % 2 ^ 64, p.spent % 2 ^ 64, p.reserve % 2 ^ 64, p.rowsLeft % 2 ^ 16 * 2 ^ 56 + ofInt 56 p.debt, p.qpModel % 2 ^ 72,
    p.inBatt % 2 ^ 32 * 2 ^ 40 + p.inAddr % 2 ^ 40,
    p.refSlots.length % 2 ^ 8 * 2 ^ 64 + ((p.refSlots.zip (List.range 8)).map fun e => e.1 % 256 * 2 ^ (8 * e.2)).sum,
    p.xchgAddr % 2 ^ 40 * 2 ^ 32 + p.ctxCrc % 2 ^ 32, p.reconAddr % 2 ^ 40 * 2 ^ 32] ++
  (List.range 20).map fun k => p.formatState.getD k 0 % 2 ^ 72

def Checkpoint.bytes (p : Checkpoint) : List Byte := p.words.flatMap fun w => leBytes 9 w

/-- A cell commits its row's record to bank 13 (R116). -/
def State.commitRecord (s : State) (cc : Nat) (p : Checkpoint) : State := s.crownPut (cc / 8) (recordOf cc) p.bytes

/-- Blocks of the row above that a row needs after n of its own (R154, R218): two more, or all of them where it takes over that row's entropy
state. -/
def State.needsAbove (s : State) (p : Checkpoint) (n : Nat) : Nat :=
  let cols := (s.rowFacts p).cols
  if p.row = 0 then 0
  else if p.stage < 16 ∧ ((s.decPic p.sid p.index p.pic).map fun q => q.entry p.row) = some 2 then cols
  else min cols (n + 2)

/-- The row above a cell's row has ended. -/
def State.aboveEnded (s : State) (p : Checkpoint) : Bool :=
  if 16 ≤ p.stage then match s.encPic p.sid p.index p.pic with
    | some q => decide (2 ≤ (q.row (p.row - 1)).state)
    | none => true
  else match s.decPic p.sid p.index p.pic with
    | some q => decide (3 ≤ (q.row (p.row - 1)).state)
    | none => true

/-- The row above a cell's row has completed n blocks: the row continues once that is two ahead, and its record takes the CRC of the
context it starts from (R110, R116, R154). -/
def State.releaseTo (s : State) (cc n : Nat) : State :=
  match (s.cell cc).row with
  | none => s
  | some r =>
    let cols := (s.rowFacts r.point).cols
    let above := max r.above (min n cols)
    let wait := decide (above < s.needsAbove r.point r.done)
    let first := !r.depReady && !wait
    let point := if first then { r.point with ctxCrc := crc32c (s.context (cc / 8) r.point) } else r.point
    let s := s.setCell cc { s.cell cc with row := some { r with point := point, above := above, waitDep := wait, depReady := r.depReady || !wait } }
    (if first then s.commitRecord cc point else s).refreshCell cc

/-- DEP_READY of a row that waits: blocks that the row above has completed by its progress marks, all of them once it is complete. -/
def State.releaseDep (s : State) (cc blocks : Nat) : State :=
  match (s.cell cc).row with
  | none => s
  | some r => match s.cellWith r.point.sid r.point.stage r.point.pic (r.point.row - 1) with
    | some d => match (s.cell d).row with
      | some u => if r.point.row = 0 then s else s.releaseTo cc (min blocks u.done)
      | none => s
    | none => if s.aboveEnded r.point then s.releaseTo cc blocks else s

/-- The row below a row that has ended, on whatever cell, waits no longer. -/
def State.releaseBelow (s : State) (sid stage pic row : Nat) : State :=
  match s.cellWith sid stage pic (row + 1) with
  | some cc => match (s.cell cc).row with
    | some r => s.releaseTo cc (s.rowFacts r.point).cols
    | none => s
  | none => s

end Sys2Proof.Machine
end

