-- ==== Sys2Proof/Machine/DecodeOps.lean ====
section
/-! DEFINITION. Decoding: the order of an input's packets (R211–R217), pictures and their rows (R218–R220), substitution
and taint (R231–R236), concealment (R225–R230), output (R237–R243), and raw pictures (R267–R269). -/

namespace Sys2Proof.Machine

/-! ### Records -/

/-- Writes a layer; INPUT_LOST set and cleared and TAINTED set raise their stream events (R436). -/
def State.setLayer (s : State) (sid n : Nat) (l : LayerState) : State :=
  let old := s.layer sid n
  let s := s.setStream sid { s.stream sid with layers := tset (s.stream sid).layers n l }
  let s := if l.inputLost && !old.inputLost then s.streamEvent sid 1 else s
  let s := if old.inputLost && !l.inputLost then s.streamEvent sid 2 else s
  if l.tainted && !old.tainted then s.streamEvent sid 3 else s

/-- Changes a picture under way. -/
def State.mapDec (s : State) (sid n pic : Nat) (f : DecPic → DecPic) : State :=
  s.setLayer sid n { s.layer sid n with pics := mapIf (fun p : DecPic => decide (p.pic = pic)) f (s.layer sid n).pics }

/-- A row needs no more work. -/
def DecRow.finished (w : DecRow) : Bool := decide (w.state = 4) || (decide (w.state = 3) && decide (w.damage = []))

def DecPic.finished (p : DecPic) : Bool := p.rows.all DecRow.finished

/-- Finished rows from the top of the picture. -/
def DecPic.fromTop (p : DecPic) : Nat := (p.rows.takeWhile DecRow.finished).length

/-- Block rows of a decoded picture (R218). -/
def decRows (format height : Nat) : Nat := blocks64 (codedSize format height)

/-- Records what a layer gives its consumers for a frame. -/
def LayerState.give (l : LayerState) (frame : Nat) (p : HeldPic) : LayerState :=
  { l with given := ((frame, p) :: l.given.filter fun e => e.1 ≠ frame).take 2 }

/-- What a layer gave for a frame; with none, what it gave last, again. -/
def LayerState.gave (l : LayerState) (frame : Nat) : Option HeldPic :=
  match l.given.find? fun e => e.1 == frame with
  | some e => some e.2
  | none => (l.given.head?).map fun e => { e.2 with again := true }

/-- The raw picture that a layer receives. -/
def LayerState.rawHeld (l : LayerState) (image : Image) (tainted : Bool) : HeldPic :=
  { position := l.picCount, pic := l.picCount, frame := l.rawFrame, tainted := tainted, concealedRows := 0, rap := false, pts := 0,
    width := image.width, height := image.height, depth := image.depth, shown := true, holes := l.rawHoles, image := image }

/-- A composition layer's source is bound to the stream's domain: a decode of the stream, or a stream of that domain (R261).
[DEDUCED, unsafe: log entry 44.] -/
def State.layerBound (s : State) (sid n : Nat) : Bool :=
  decide (n ∈ s.decodeLayers sid) || (match (s.inputs sid).find? fun e => e.layer % 16 = n with
    | some e => e.kind == 4 && s.streamClass (e.selector % 512) != 2 && s.streamDomain (e.selector % 512) == s.streamDomain sid
    | none => false)

/-! ### Raw pictures (R243, R267–R269) -/

/-- What an output picture's descriptor says of it (R243), and its samples. -/
structure PicOut where
  layer  : Nat
  pic    : Nat
  flags  : Nat
  concealed : Nat
  at_    : Nat
  pts    : Nat
  width  : Nat
  height : Nat
  depth  : Nat
  image  : Image := {}
  deriving DecidableEq, Repr

/-- The decoded picture descriptor. -/
def descriptor (sid layout : Nat) (o : PicOut) : List Byte :=
  leBytes 9 (sid % 512 * 2 ^ 63 + o.layer % 16 * 2 ^ 59 + o.pic % 2 ^ 24 * 2 ^ 32 + o.flags % 2 ^ 16 * 2 ^ 16 + min 255 o.concealed * 2 ^ 8) ++
    leBytes 9 o.at_ ++ leBytes 9 (o.pts % 2 ^ 32 * 2 ^ 40) ++
    leBytes 9 (o.width % 2 ^ 16 * 2 ^ 56 + o.height % 2 ^ 16 * 2 ^ 40 + o.depth % 16 * 2 ^ 36 + layout % 64 * 2 ^ 28)

/-- One RFC 4175 packet (R269): the pgroups `pay` of line `line` from pixel `off`. -/
def State.sendRawPacket (s : State) (sid pts line off : Nat) (pay : List Byte) (last : Bool) : State :=
  let x := s.rung sid 0
  let h := rtpHeader last (s.get Od.enc_RTP_PT sid 0) x.seq pts x.ssrc
  let pay := beBytes 2 x.outSeq ++ beBytes 2 pay.length ++ beBytes 2 line ++ beBytes 2 off ++ pay
  let s := s.setRung sid 0 { x with seq := (x.seq + 1) % 65536, outSeq := (x.outSeq + if x.seq = 65535 then 1 else 0) % 65536 }
  s.sendOut sid (h ++ pay) (s.portDests sid 0 0)

/-- A picture in the form of RAW_LAYOUT: its chroma, its depth, an alpha that is opaque where the source has none. -/
def Image.asLayout (i : Image) (layout : Nat) : Image :=
  let i := if layoutAlpha layout ∧ i.planes.length = 3 then
      { i with planes := i.planes ++ [planeOf i.width i.height fun _ _ => 2 ^ alphaBits (layoutDepth layout) - 1] }
    else i
  { i with planes := i.planes.take (layoutParts layout) }

/-- An output picture of a stream without encode goes to its raw outputs, in the layout of RAW_LAYOUT: RFC 4175 on ports and host DMA
(R175, R267–R269); it is counted. [DESIGN CHOICE, unsafe: log entry 40.] -/
def State.rawPictureOut (s : State) (sid : Nat) (o : PicOut) : State :=
  let layout := s.get Od.cond_RAW_LAYOUT sid
  let i := Image.asLayout o.image layout
  let s := if s.outputsOf sid 0 0 = [] then s
    else
      let g := pgroup layout i.depth
      let groups := ceilDiv o.width g.2.1
      let piece := max 1 ((s.get Od.enc_MTU_PAYLOAD sid 0 - 8) / g.1)
      let lines := o.height / g.2.2
      let cuts := ceilDiv groups piece
      (List.range lines).foldl (fun t k => (List.range cuts).foldl (fun t c =>
        let n := min piece (groups - c * piece)
        let pay := (List.range n).flatMap fun j => pgroupBytes layout i ((c * piece + j) * g.2.1) (k * g.2.2)
        t.sendRawPacket sid o.pts (k * g.2.2) (c * piece * g.2.1) pay (k + 1 == lines && c + 1 == cuts)) t) s
  let s := (s.outputsOf sid 0 4).foldl (fun t e =>
    t.sendOut sid (descriptor sid layout o ++ rawBytes layout (t.get Od.cond_RAW_PITCH sid) i)
      [{ queue := 1536 + e.2.2.target % 32, pri := t.streamPri sid }]) s
  (s.bump Od.ss_PICTURES_OUT sid).set Od.ss_LAST_PICTURE_AT sid (RTime.word (s.now (s.streamDomain sid)))

/-- Raw input of a layer: the first `lines` of `h` lines of a picture have come (R166, R242). The first of them begins a
picture of every rung; the last completes it. -/
def State.rawIn (s : State) (sid n lines : Nat) (image : Image) (hdr : Option (List Byte)) (tainted : Bool) : State :=
  if s.takesPictures sid then
    let l := s.layer sid n
    let h := image.height
    let first := decide (l.rawLines = 0)
    let l := if first then { l with rawFrame := (s.now (s.streamDomain sid)).frame, picCount := l.picCount + 1 } else l
    let whole := decide (h ≤ lines)
    let held := l.rawHeld image tainted
    let l := { l with rawLines := if whole then 0 else lines, last := if whole then some held else l.last, rawImage := image,
                      rawHoles := if whole then false else l.rawHoles, colour := image.colour, hdr := if hdr.isSome then hdr else l.hdr }
    let s := s.setLayer sid n (if whole ∧ (s.streamType sid ≠ 3 ∨ s.layerBound sid n) then l.give l.rawFrame held else l)
    if s.streamType sid = 3 then if first then s.bump Od.ss_PICTURES_IN sid else s
    else
      let s := if first then (s.bump Od.ss_PICTURES_IN sid).newPics sid l.rawFrame tainted else s
      s.feedLines sid l.rawFrame lines h image (tainted || held.holes)
  else s

/-- Raw pictures of a stream reach the streams that take them (KIND 5 outputs, KIND 4 inputs). -/
def State.toStreams (s : State) (sid lines : Nat) (image : Image) (tainted : Bool) : State :=
  let hdr := s.hdrMeta sid
  let layout := s.get Od.cond_RAW_LAYOUT sid
  let image := Image.asLayout (image.deepen (layoutDepth layout)) layout
  (s.outputsOf sid 0 5).foldl (fun t e =>
    let d := e.2.2.target % 512
    (t.inputs d).foldl (fun u i => if i.kind = 4 ∧ i.selector = sid then u.rawIn d (i.layer % 16) lines image hdr tainted else u) t) s

/-! ### Output of a layer (R237–R242) -/

/-- The picture that a layer outputs reaches the consumers of its stream: at frame F, down to `lines` of its lines. -/
def State.feedOut (s : State) (sid frame lines : Nat) (image : Image) (tainted : Bool) : State :=
  if s.streamType sid = 3 then
    s.mapPics sid (fun p => decide (p.frame = frame)) fun p => { p with tainted := p.tainted || tainted }
  else
    let s := s.feedLines sid frame lines image.height image tainted
    if s.encodes sid ∨ ¬ s.passIdentity sid 0 then s else s.toStreams sid lines image tainted

/-- FLAGS of a descriptor. [DESIGN CHOICE, unsafe: log entry 39.] -/
def picFlags (tainted concealed repeated fill rap grain : Bool) : Nat :=
  b2n tainted + 2 * b2n concealed + 4 * b2n repeated + 8 * b2n fill + 16 * b2n rap + 32 * b2n grain

/-- A picture carries CONCEALED (R230, R269). -/
def HeldPic.concealed (p : HeldPic) : Bool := p.concealedRows != 0 || p.holes

/-- PRESENT_AT of a picture of frame F. -/
def State.presentAt (s : State) (sid n frame : Nat) : Nat :=
  match s.streamClass sid with
  | 0 => RTime.word ⟨frame % 2 ^ 40, 0, 0⟩
  | 1 => RTime.word (State.frameDeadline frame (1 + (s.layer sid n).reorder))
  | _ => 0

/-- Film grain is applied to a picture that carries it, with FILM_GRAIN at 1; never to the stored reference (R210). -/
def State.outImage (s : State) (sid : Nat) (p : HeldPic) : Image :=
  match p.grain with
  | some data => if s.flag Od.dec_FILM_GRAIN sid then Config.filmGrain data p.image else p.image
  | none => p.image

/-- What a picture's descriptor says, and its samples as a raw output takes them. -/
def State.picOut (s : State) (sid n : Nat) (p : HeldPic) : PicOut :=
  { layer := n, pic := p.number, flags := picFlags p.tainted p.concealed p.again p.fill p.rap (p.grain.isSome && s.flag Od.dec_FILM_GRAIN sid),
    concealed := p.concealedRows, at_ := s.presentAt sid n p.frame, pts := p.pts, width := p.width, height := p.height, depth := p.depth,
    image := p.image }

/-- A layer outputs a picture: it becomes the held last picture and the layer's part of a composition, and leaves on the raw outputs
of a stream that has no encode and no conditioning pass. [DESIGN CHOICE, unsafe: log entry 39.] -/
def State.outputPic (s : State) (sid n : Nat) (p : HeldPic) (repeated fill : Bool) : State :=
  let l := s.layer sid n
  let out := { p with image := s.outImage sid p, again := repeated, fill := fill, number := l.outCount, shown := true }
  let s := s.setLayer sid n ({ l with
    outCount := (l.outCount + 1) % 2 ^ 24, last := if fill then l.last else some { p with shown := true },
    taintedPictures := l.taintedPictures + b2n p.tainted }.give p.frame out)
  let o := s.picOut sid n out
  if s.streamType sid = 3 ∨ s.encodes sid ∨ ¬ s.passIdentity sid 0 then s
  else s.rawPictureOut sid { o with image := o.image.deepen (layoutDepth (s.get Od.cond_RAW_LAYOUT sid)) }

/-- A layer's output picture reaches all that takes it. -/
def State.presentPic (s : State) (sid n : Nat) (p : HeldPic) (repeated fill : Bool) : State :=
  let s := s.newPics sid p.frame p.tainted
  (s.feedOut sid p.frame p.height (s.outImage sid p) p.tainted).outputPic sid n p repeated fill

/-- A picture that no input gave: of LAYER_CFG's maximum size (R237), grey or black. -/
def State.flatPic (s : State) (sid n frame pts : Nat) (black tainted : Bool) : HeldPic :=
  let c := s.layerCfg sid n
  { position := 0, pic := 0, frame := frame, tainted := tainted, concealedRows := 0, rap := false, pts := pts, width := c.width, height := c.height,
    depth := c.depth, image := if black then blackImage c.width c.height c.depth else greyImage c.width c.height c.depth }

/-- The picture that stands in a frame without a picture of its own (R237, R241): the last one again, or a fill picture. -/
def State.fillPic (s : State) (sid n frame : Nat) : State :=
  let l := s.layer sid n
  let action := if l.inputLost then s.get Od.dec_LOSS_ACTION sid else 0
  let q : HeldPic × Bool := match l.last with
    | some p =>
      if action = 0 then ({ p with frame := frame }, false)
      else ({ p with frame := frame, tainted := true, grain := none,
                     image := if action = 1 then blackImage p.width p.height p.depth else greyImage p.width p.height p.depth }, true)
    | none => (s.flatPic sid n frame 0 (decide (action = 1)) true, true)
  let s := if q.2 then s else s.setLayer sid n { l with repeats := l.repeats + 1 }
  s.presentPic sid n q.1 (!q.2) q.2

/-! ### The buffer (R231–R234, R239, R240) -/

/-- Frees what is needed neither for reference nor for output; at most `most` pictures stay, the newest first.
[DESIGN CHOICE, unsafe: log entry 39.] -/
def trimBuffer (refs : List Int) (most : Nat) (b : List HeldPic) : List HeldPic :=
  (b.filter fun p => decide (p.position ∈ refs) || !p.shown).take most

def absDiff (a b : Int) : Nat := (a - b).natAbs

/-- The decoded picture nearest to a position, the earlier of two equally near. -/
def nearestPic (b : List HeldPic) (pos : Int) : Option HeldPic :=
  b.foldl (fun (best : Option HeldPic) p => match best with
    | none => some p
    | some q =>
      if absDiff p.position pos < absDiff q.position pos ∨ (absDiff p.position pos = absDiff q.position pos ∧ p.position < q.position) then some p
      else best) none

/-- Substitutes a missing reference (R232, R233): the pictures held are those of the buffer and the held last picture.
[DEDUCED, unsafe: log entry 69.] -/
def LayerState.substitute (l : LayerState) (p : DecPic) (pos : Int) : LayerState :=
  let held := (l.buffer.filter fun q => !q.substitute) ++ l.last.toList
  let base : HeldPic := match nearestPic held pos with
    | some q => q
    | none => { position := pos, pic := 0, frame := 0, tainted := true, concealedRows := 0, rap := false, pts := 0,
                width := p.start.width, height := p.start.height, depth := p.start.depth,
                image := greyImage p.start.width p.start.height p.start.depth }
  let grey := decide (held = [])
  { l with buffer := { base with position := pos, substitute := true, shown := true, tainted := true } :: l.buffer,
           substitutions := l.substitutions + 1, greySubstitutions := l.greySubstitutions + b2n grey, tainted := true, recovery := none }

/-- A position is held, or being decoded. -/
def LayerState.holds (l : LayerState) (pos : Int) : Bool :=
  (l.buffer.any fun q => q.position == pos) || (l.pics.any fun q => q.start.position == pos) || (match l.last with
    | some q => q.position == pos
    | none => false)

/-- A picture's decoding begins (R231–R235): a random-access point ends the taint, and missing references are substituted. -/
def State.beginDec (s : State) (sid n pic : Nat) (needs : List Int) : State :=
  match s.decPic sid n pic with
  | none => s
  | some p =>
    let l := s.layer sid n
    let missing := needs.eraseDups.filter fun x => !l.holds x
    let whole := decide (missing = []) && decide (p.start.blind = 0)
    let l := if p.start.rap ∧ whole then { l with tainted := false, recovery := none } else l
    let l := match p.start.recovery with
      | some k => if whole then { l with recovery := some k } else l
      | none => match l.recovery with
        | some k => if whole then { l with recovery := some (k - 1) } else l
        | none => l
    let l : LayerState := missing.foldl (fun (l : LayerState) x => l.substitute p x) l
    let l : LayerState := (List.range p.start.blind).foldl (fun (l : LayerState) _ => l.substitute p p.start.position) l
    let l := if l.recovery = some 0 then { l with tainted := false, recovery := none } else l
    (s.setLayer sid n l).mapDec sid n pic fun q => { q with tainted := l.tainted }

/-! ### Concealment (R225–R228) -/

/-- Lower or upper middle of some values, in order; `up` chooses for an even count. [DESIGN CHOICE, unsafe: log entry 39.] -/
def median (up : Bool) (vs : List Int) : Int :=
  let o := sortBy (fun a b : Int => decide (a < b)) vs
  o.getD (if up then o.length / 2 else (o.length - 1) / 2) 0

/-- Boundary rows of the counted neighbours of row r: vectors of inter blocks, and the positions of their references. -/
def DecPic.boundaries (p : DecPic) (r : Nat) : List (List (Option (Int × Int)) × List Int) :=
  let ok : Nat → Bool := fun k => decide (3 ≤ (p.row k).state) && decide ((p.row k).damage = []) && decide ((p.row k).state ≠ 4)
  let half : List (Option (Int × Int)) × List Int → Bool := fun b =>
    decide (b.1 ≠ []) && decide (b.1.length ≤ 2 * (b.1.filter fun v => v.isSome).length)
  ((if 0 < r ∧ ok (r - 1) then [((p.row (r - 1)).bottom, (p.row (r - 1)).bottomRef)] else []) ++
    (if r + 1 < p.rows.length ∧ ok (r + 1) then [((p.row (r + 1)).top, (p.row (r + 1)).topRef)] else [])).filter half

def DecPic.neighbours (p : DecPic) (r : Nat) : List (List (Option (Int × Int))) := (p.boundaries r).map fun b => b.1

/-- Neighbour motion: 0 STILL, 1 COHERENT, 2 INCOHERENT. With an even count of blocks, which of the two middle vectors is the
median is not stated: `up` is free. -/
def motionOf (still coherent : Nat) (up : Bool) (vs : List (Int × Int)) : Nat :=
  let mx := median up (vs.map fun v => v.1)
  let my := median up (vs.map fun v => v.2)
  let spread := (vs.map fun v => max (absDiff v.1 mx) (absDiff v.2 my)).sum
  if max mx.natAbs my.natAbs ≤ still then 0 else if spread ≤ coherent * vs.length then 1 else 2

/-- The copy source of a picture (R226): the latest before it in output order that is decoded or concealed and held. -/
def LayerState.copySource (l : LayerState) (p : DecPic) : Option HeldPic :=
  let earlier := l.buffer.filter fun q => decide (q.position < p.start.position) && !q.substitute
  match earlier.foldl (fun (best : Option HeldPic) q => match best with
      | none => some q
      | some b => if b.position < q.position then some q else best) none with
  | some q => some q
  | none => l.last

/-- The method of R227 for a row: 1 TEMPORAL_COPY, 2 MOTION_EXTRAPOLATION, 3 SPATIAL_FILL. -/
def State.method (s : State) (sid : Nat) (l : LayerState) (p : DecPic) (r : Nat) (late : Bool) : Nat :=
  let blocks := (p.rows.map fun w => w.blocks).sum
  let intra := (p.rows.map fun w => w.intra).sum
  let cut := decide (16 ≤ blocks) && decide (s.get Od.dec_SCENE_CUT sid * blocks ≤ 1000 * intra)
  if p.start.refs = [] ∨ cut ∨ (l.copySource p).isNone then 3
  else if late then 1
  else
    let ns := p.neighbours r
    if ns = [] then 1
    else
      let m := motionOf (s.get Od.dec_STILL_LIMIT sid) (s.get Od.dec_COHERENCE_LIMIT sid) ((s.freeValue).testBit 0)
        ((ns.flatMap fun b => b).filterMap id)
      if m = 1 then 2 else 1

/-- The vectors of MOTION_EXTRAPOLATION by columns of 8 × 8 blocks (R228): the component-wise median of the inter blocks' vectors in
columns c − 1 to c + 1 of the counted neighbours' boundary rows, and the reference of the first of them; zero where there are none. -/
def DecPic.vectors (p : DecPic) (r : Nat) (up : Bool) : List (Int × Int × Option Int) :=
  (List.range (ceilDiv p.start.width 8)).map fun c =>
    let near := (p.boundaries r).flatMap fun b => ((List.range 3).filterMap fun k =>
      if c + k = 0 then none else match b.1.getD (c + k - 1) none with
        | some v => some (v, b.2[c + k - 1]?)
        | none => none)
    if near = [] then (0, 0, none)
    else (median up (near.map fun e => e.1.1), median up (near.map fun e => e.1.2), (near.head?).bind fun e => e.2)

/-! ### Samples (R218, R228) -/

/-- Luma lines of row r of a picture. -/
def DecPic.rowLines (p : DecPic) (r : Nat) : Nat := min 64 (p.start.height - 64 * r)

/-- A row's samples as far as the picture store has them. -/
def DecPic.strip (p : DecPic) (r : Nat) : Image := (tfind p.samples r).getD (greyImage p.start.width (p.rowLines r) p.start.depth)

/-- The picture as far as it is decoded or concealed; what has not come is mid-level. -/
def DecPic.picture (p : DecPic) : Image :=
  joinStrips p.start.width p.start.height p.start.depth p.start.colour ((List.range p.rows.length).map p.strip)

/-- Samples brought to the size and depth of a picture's rows; monochrome pictures have mid-level chroma (R210). -/
def DecPic.fit (p : DecPic) (r : Nat) (i : Image) : Image :=
  let j : Image := { width := p.start.width, height := p.rowLines r, depth := p.start.depth, colour := p.start.colour }
  let sample : Nat → Nat → Nat → Nat := fun k x y =>
    if p.start.mono ∧ k ≠ 0 then midLevel p.start.depth else min (2 ^ p.start.depth - 1) (sampleAt (i.plane k) x y)
  { j with planes := (List.range 3).map fun k => planeOf (j.planeSize k).1 (j.planeSize k).2 (sample k) }

/-- The image that a layer holds at a display position: in its buffer, under way, or its last one. -/
def LayerState.imageAt (l : LayerState) (pos : Int) : Option Image :=
  match l.buffer.find? fun q => q.position == pos with
  | some q => some q.image
  | none => match l.pics.find? fun q => q.start.position == pos with
    | some q => some q.picture
    | none => match l.last with
      | some q => if q.position == pos then some q.image else none
      | none => none

/-- A sample of TEMPORAL_COPY: the co-located one of the copy source. -/
def copySample (copy : Image) (k x y : Nat) : Nat := sampleAt (copy.plane k) x y

/-- A sample of MOTION_EXTRAPOLATION: predicted from the reference of its 8 × 8 block's vector, or from the copy source where that is not
held. -/
def LayerState.movedSample (l : LayerState) (copy : Image) (format : Nat) (vs : List (Int × Int × Option Int)) (k x y : Nat) : Nat :=
  let v := vs.getD (if k = 0 then x / 8 else x / 4) (0, 0, none)
  let i := match v.2.2 with
    | some pos => (l.imageAt pos).getD copy
    | none => copy
  Config.interpolate format (decide (k = 0)) (i.plane k) x y v.1 v.2.1

/-- A sample of SPATIAL_FILL on line y of n: linear between the line above and the line below, whichever of them exists, or mid-level.
[DESIGN CHOICE, unsafe: log entry 39.] -/
def spatialSample (depth n y : Nat) (above below : Option Nat) : Nat :=
  match above, below with
  | some a, some b => (nearestUp ((a : Int) * ((n : Int) + 1) + ((b : Int) - a) * ((y : Int) + 1)) (n + 1)).toNat
  | some a, none => a
  | none, some b => b
  | none, none => midLevel depth

/-- Block b of a row is damaged; of a LATE row every block. -/
def DecRow.damagedAt (w : DecRow) (b : Nat) : Bool := w.late || w.damage.any fun d => decide (d.1 ≤ b) && decide (b ≤ d.2)

/-- The samples of a row with its damaged blocks filled by its method (R228); the others keep theirs. -/
def LayerState.fill (l : LayerState) (p : DecPic) (r : Nat) : Image :=
  let w := p.row r
  let own := p.strip r
  let copy := match l.copySource p with
    | some q => q.image
    | none => {}
  let above : Nat → Nat → Option Nat := fun k x =>
    if 0 < r ∧ 3 ≤ (p.row (r - 1)).state then some (sampleAt ((p.strip (r - 1)).plane k) x 63) else none
  let below : Nat → Nat → Option Nat := fun k x =>
    if r + 1 < p.rows.length ∧ 3 ≤ (p.row (r + 1)).state then some (sampleAt ((p.strip (r + 1)).plane k) x 0) else none
  let sample : Nat → Nat → Nat → Nat := fun k x y =>
    if ¬ w.damagedAt (if k = 0 then x / 64 else x / 32) then sampleAt (own.plane k) x y
    else match w.method with
      | 1 => copySample copy k x ((if k = 0 then 64 * r else 32 * r) + y)
      | 2 => l.movedSample copy p.start.format w.vectors k x ((if k = 0 then 64 * r else 32 * r) + y)
      | _ => spatialSample p.start.depth (own.planeSize k).2 y (above k x) (below k x)
  { own with planes := (List.range 3).map fun k => planeOf (own.planeSize k).1 (own.planeSize k).2 (sample k) }

/-- The tiles of a decoded row go to the picture store (R174, R239). -/
def State.storeDec (s : State) (sid n : Nat) (p : DecPic) (r : Nat) : State :=
  s.storeRow (p.row r).cell sid n (storeSlot p.pic (p.start.dpb + 2)) r (blocks64 p.start.width) p.picture

/-- A row that is decided and decoded takes its filled samples (R228, R229). -/
def State.fillRow (s : State) (sid n pic r : Nat) : State :=
  match s.decPic sid n pic with
  | none => s
  | some p =>
    if (p.row r).state ≠ 4 then s
    else
      let s := s.mapDec sid n pic fun q => { q with samples := tset q.samples r ((s.layer sid n).fill p r) }
      match s.decPic sid n pic with
      | some q => s.storeDec sid n q r
      | none => s

/-- Counts a concealed row. -/
def LayerState.countConcealed (l : LayerState) (m : Nat) (late : Bool) : LayerState :=
  { l with rowsTc := l.rowsTc + b2n (m == 1), rowsMx := l.rowsMx + b2n (m == 2), rowsSf := l.rowsSf + b2n (m == 3),
           rowsLate := l.rowsLate + b2n late }

/-- The words of FORMAT_STATE that keep a method, and as many of its vectors as they hold, two to a word (R230).
[DESIGN CHOICE, unsafe: log entry 84.] -/
def methodWords (m : Nat) (vs : List (Int × Int × Option Int)) : List Nat :=
  let one : Int × Int × Option Int → Nat := fun v => ofInt 16 v.1 + ofInt 16 v.2.1 * 2 ^ 16 + (match v.2.2 with
    | some k => ofInt 4 k
    | none => 0) * 2 ^ 32
  m :: (List.range 19).map fun k => ((vs.drop (2 * k)).take 2).foldr (fun v w => one v + w * 2 ^ 36) 0

/-- The record of a row on a cell takes the method chosen for it, before concealment starts (R230). -/
def State.noteMethod (s : State) (sid n pic r m : Nat) (vs : List (Int × Int × Option Int)) : State :=
  match s.cellWith sid n pic r with
  | none => s
  | some cc => match (s.cell cc).row with
    | none => s
    | some w =>
      let point := { w.point with formatState := methodWords m vs }
      (s.setCell cc { s.cell cc with row := some { w with point := point } }).commitRecord cc point

/-- A row is concealed, DAMAGED or LATE; a late one leaves its cell and is finished. Its method, and the vectors of
MOTION_EXTRAPOLATION, are kept for a re-run (R225–R230). -/
def State.concealRow (s : State) (sid n pic r : Nat) (late : Bool) : State :=
  match s.decPic sid n pic with
  | none => s
  | some p =>
    let s := if late then s.countWaiting sid n pic r else s
    let m := s.method sid (s.layer sid n) p r late
    let vs := if m = 2 then p.vectors r ((s.freeValue).testBit 0) else []
    let s := (s.setLayer sid n ((s.layer sid n).countConcealed m late)).useFree
    let s := if late then s else s.noteMethod sid n pic r m vs
    let s := s.mapDec sid n pic fun q => q.withRow r fun w =>
      { w with method := m, vectors := vs, late := late, state := if late ∨ w.state = 3 then 4 else w.state }
    let s := s.fillRow sid n pic r
    if late then (s.dropRow sid n pic r).releaseBelow sid n pic r else s

/-- The decision point of a damaged row has come (R225). -/
def State.decisionDue (s : State) (sid : Nat) (p : DecPic) (r : Nat) : Bool :=
  let w := p.row r
  decide (w.damage ≠ []) && decide (w.method = 0) &&
    (if s.streamClass sid = 0 then decide (r = 0) || decide (3 ≤ (p.row (r - 1)).state)
     else decide (p.rows.length ≤ r + 1) || decide (3 ≤ (p.row (r + 1)).state) || decide ((p.row (r + 1)).damage ≠ []))

/-- Makes the decisions that are due in a picture; a LIVE row past M(r) is LATE. -/
def State.decideRows (s : State) (sid n pic : Nat) : State :=
  match s.decPic sid n pic with
  | none => s
  | some p0 => (List.range p0.rows.length).foldl (fun t r => match t.decPic sid n pic with
      | none => t
      | some p => if t.decisionDue sid p r then t.concealRow sid n pic r (p.row r).late else t) s

/-! ### Completion (R220, R237, R241) -/

/-- Batts of packets of an input layer return: the `k` oldest of its queue. -/
def State.freeInput (s : State) (sid n : Nat) : Nat → State
  | 0 => s
  | k + 1 =>
    let t := State.freeInput s sid n k
    match (t.queues.inputOwner.find? fun e => e.2 = some (sid, n)) with
    | none => t
    | some e => match t.readQueue e.1 with
      | some (u, pkt) => u.decrementAll pkt.entries
      | none => t

/-- Outputs pictures of a layer that wait, in output order. -/
def State.outputWaiting (s : State) (sid n : Nat) (due : List HeldPic) : State :=
  (sortBy (fun a b : HeldPic => decide (a.position < b.position)) due).foldl (fun t p =>
    let l := t.layer sid n
    let buf := mapIf (fun q : HeldPic => decide (q.pic = p.pic) && !q.substitute) (fun q => { q with shown := true }) l.buffer
    (t.setLayer sid n { l with buffer := buf, shown := some p.frame }).presentPic sid n p false false) s

/-- Pictures decoded and not yet output. -/
def LayerState.waiting (l : LayerState) : List HeldPic := l.buffer.filter fun p => !p.shown

/-- A picture as it is held, as far as it is decoded or concealed. -/
def DecPic.held (p : DecPic) : HeldPic :=
  { position := p.start.position, pic := p.pic, frame := p.frame, tainted := p.tainted,
    concealedRows := (p.rows.filter fun w => w.state = 4).length, rap := p.start.rap, pts := p.start.pts, width := p.start.width,
    height := p.start.height, depth := p.start.depth, image := p.picture, grain := if p.start.grain then some p.data else none }

/-- The picture of frame F that a layer gives, as far as it has come: of a LIVE decode or a bound raw source the one under way, else what it
gave (R241, R261). -/
def State.layerPic (s : State) (sid n frame : Nat) : Option HeldPic :=
  let l := s.layer sid n
  let under : Option HeldPic :=
    if n ∈ s.decodeLayers sid then
      if s.streamClass sid = 0 then (l.pics.find? fun p => decide (p.frame = frame) && !p.dropped).map fun p =>
        let h := p.held
        { h with image := s.outImage sid h, number := l.outCount }
      else none
    else if 0 < l.rawLines ∧ l.rawFrame = frame ∧ (s.streamType sid ≠ 3 ∨ s.layerBound sid n) then some (l.rawHeld l.rawImage false)
    else none
  match under with
  | some p => some p
  | none => l.gave frame

/-- A picture all of whose rows are finished enters the buffer, and is output as its class says. -/
def State.endDec (s : State) (sid n : Nat) (p : DecPic) : State :=
  let l := s.layer sid n
  let live := decide (s.streamClass sid = 0)
  let held := { p.held with shown := live || p.dropped }
  let s := s.setLayer sid n { l with
    pics := l.pics.filter fun q => q.pic ≠ p.pic, buffer := (held :: l.buffer).take (max 1 p.start.dpb), inputLost := false }
  let s := s.freeInput sid n p.packets
  if live then if p.dropped then s else s.outputPic sid n held false false
  else if s.streamClass sid = 1 then
    if ¬ p.slipped ∧ s.later (s.streamDomain sid) (s.now (s.streamDomain sid)) (State.frameDeadline p.frame (1 + p.start.reorder)) then
      (s.bump Od.ss_SLIPS sid).streamEvent sid 5
    else s
  else
    let w := (s.layer sid n).waiting
    let extra := w.length - p.start.reorder
    s.outputWaiting sid n ((sortBy (fun a b : HeldPic => decide (a.position < b.position)) w).take extra)

/-- The end of a decoded picture. -/
def State.finishDec (s : State) (sid n : Nat) (p : DecPic) : State := ((s.endDec sid n p).endDrains).afterPicture sid

/-- After a change of a picture's rows: decisions, lines for the consumers of a LIVE layer, and the end of the picture; a
CLOSING stream that has finished its pictures closes. -/
def State.progress (s : State) (sid n pic : Nat) : State :=
  let s := s.decideRows sid n pic
  match s.decPic sid n pic with
  | none => s
  | some p =>
    let lines := if p.finished then p.start.height else min p.start.height (64 * p.fromTop)
    let image := s.outImage sid p.held
    let s := if s.streamClass sid = 0 ∧ ¬ p.dropped ∧ 0 < lines then s.feedOut sid p.frame lines image p.tainted else s
    if p.finished then s.finishDec sid n p else s

/-! ### Packets (R211–R217) -/

/-- Modulus of a layer's sequence numbers. [DESIGN CHOICE, unsafe: log entry 40.] -/
def seqModulus (kind fec : Nat) : Nat := if kind = 2 then 2 ^ 32 else if kind = 1 ∧ fec = 0 then 16 else 2 ^ 16

/-- Signed difference of two sequence numbers. -/
def seqDiff (m a b : Nat) : Int := signedMod m ((a : Int) - b)

/-- Modulus of the sequence numbers of a layer's input. -/
def State.layerModulus (s : State) (sid n : Nat) : Nat :=
  match (s.inputs sid).find? fun e => e.layer % 16 = n with
  | some e => seqModulus e.kind (s.layerCfg sid n).fec
  | none => 2 ^ 16

/-- Declares gaps lost (R212). -/
def LayerState.declare (l : LayerState) (gs : List Nat) : LayerState :=
  { l with rawHoles := l.rawHoles || gs != [], gaps := l.gaps.filter fun g => !gs.contains g.1, declared := (gs ++ l.declared).take 65536,
           packetsLost := l.packetsLost + gs.length }

/-- Open gaps of a picture: from its first packet to that of the next. -/
def LayerState.gapsOf (l : LayerState) (m : Nat) (p : DecPic) : List Nat :=
  (l.gaps.filter fun g => decide (0 ≤ seqDiff m g.1 p.seq) &&
    l.pics.all fun q => decide (q.pic ≤ p.pic) || decide (seqDiff m g.1 q.seq < 0)).map fun g => g.1

/-- A picture closes (R220): its gaps are declared lost (R212), and rows whose data has not come are damaged whole.
[DESIGN CHOICE, unsafe: log entry 39.] -/
def State.closePic (s : State) (sid n pic : Nat) : State :=
  let s := match s.decPic sid n pic with
    | some p => if s.streamType sid = 4 then s
      else s.setLayer sid n ((s.layer sid n).declare ((s.layer sid n).gapsOf (s.layerModulus sid n) p))
    | none => s
  let s := s.mapDec sid n pic fun p =>
    { p with closed := true, rows := p.rows.map fun w => if w.state = 0 then { w with state := 1, damage := [(0, blocks64 p.start.width - 1)] } else w }
  s.progress sid n pic

/-- Pictures older than the newest close when every gap before the newest's first packet has been declared; a picture
received whole closes with its last packet. -/
def State.closeDue (s : State) (sid n m : Nat) : State :=
  let l := s.layer sid n
  let due := l.pics.filter fun p => !p.closed &&
    ((p.ended && l.gaps == []) || (l.pics.any fun q => decide (p.pic < q.pic) && l.gaps.all fun g => decide (0 ≤ seqDiff m g.1 q.seq)))
  due.foldl (fun t p => t.closePic sid n p.pic) s

/-- Marks blocks of a picture damaged, in rows that are not finished (R212, R219). -/
def State.damage (s : State) (sid n pic : Nat) (ds : List Damage) : State :=
  if ds = [] then s
  else (s.mapDec sid n pic fun p => ds.foldl (fun q d => q.withRow d.row fun w =>
    if w.finished then w else { w with damage := w.damage ++ [(d.first, d.last)], state := max 1 w.state }) p).progress sid n pic

/-- A discontinuity (R238): the open pictures close, and the decoder waits for a start. -/
def State.discontinue (s : State) (sid n : Nat) : State :=
  let s := ((s.layer sid n).pics.filter fun p => !p.closed).foldl (fun t p => t.closePic sid n p.pic) s
  let l := s.layer sid n
  s.setLayer sid n { l with discontinuities := l.discontinuities + 1, gaps := [], declared := [], highest := none, current := none,
                            waitingRap := true, recovery := none }

/-- What the sequence number of a packet makes of it: keep it or not, and whether it breaks the sequence. -/
inductive Arrival where
  | keep | discard | jump
  deriving DecidableEq, Repr

/-- Orders a packet (R211, R213, R214): the layer after it, and its fate. `m` is the modulus, `at_` the line of the domain;
a transport stream's gaps are declared at once. -/
def LayerState.order (l : LayerState) (m window seq at_ : Nat) (ts recovered errored : Bool) : LayerState × Arrival :=
  match l.highest with
  | none => ({ l with highest := some seq }, .keep)
  | some h =>
    let d := seqDiff m seq h
    if ts then
      if errored then ({ l with highest := some seq, packetsLost := l.packetsLost + 1 }, .discard)
      else if d = 0 then ({ l with duplicates := l.duplicates + 1 }, .discard)
      else ({ l with highest := some seq, packetsLost := l.packetsLost + b2n (d ≠ 1) }, .keep)
    else if 3000 < d ∨ d < -3000 then (l, .jump)
    else if 0 < d then
      let skipped := (List.range (d.toNat - 1)).map fun k => ((h + 1 + k) % m, at_)
      let l := { l with highest := some seq, gaps := l.gaps ++ skipped }
      let old := (l.gaps.filter fun g => decide ((window : Int) ≤ seqDiff m seq g.1)).map fun g => g.1
      (l.declare old, .keep)
    else if l.gaps.any fun g => g.1 == seq then
      let l := { l with gaps := l.gaps.filter fun g => g.1 ≠ seq }
      (if recovered then { l with packetsRecovered := l.packetsRecovered + 1 } else { l with packetsReordered := l.packetsReordered + 1 }, .keep)
    else if seq ∈ l.declared then ({ l with latePackets := l.latePackets + 1 }, .discard)
    else ({ l with duplicates := l.duplicates + 1 }, .discard)

/-- A sequence that its layer decodes (R208, R209). -/
def fitsLayer (p : PicStart) (c : LayerCfg) : Bool :=
  let lv := if c.level = 0 then topLevel c.format else c.level
  decide (p.format = c.format ∧ p.width ≤ c.width ∧ p.height ≤ c.height ∧ p.level ≤ lv ∧ p.depth ≤ c.depth ∧ p.dpb ≤ c.dpb) &&
    decide (p.depth = 8 ∨ p.depth = 10) && decide (p.profile ∈ decProfiles p.format) &&
    (if p.format = 1 then decide (p.depth = 8 ∧ p.width ≤ 4096 ∧ p.height ≤ 2304) else decide (p.width ≤ 8192 ∧ p.height ≤ 4352))

/-- A picture may be the first after a wait (R236). -/
def startsHere (mode : Nat) (p : PicStart) : Bool :=
  match mode with
  | 0 => p.rap
  | 1 => true
  | _ => p.rap || (p.recovery.isSome && decide (p.format ≤ 1))

/-- A coded picture begins with the packet `seq` (R166, R209, R220, R235, R236, R241). -/
def State.startDec (s : State) (sid n seq : Nat) (p : PicStart) : State :=
  let l := s.layer sid n
  let now := s.now (s.streamDomain sid)
  let frame := match p.at_ with
    | some t => t.frame
    | none => now.frame
  let l := { l with format := p.format, profile := p.profile, level := p.level, width := p.width, height := p.height,
                    picturesLost := l.picturesLost + p.lost, arrivalLine := now.line, reorder := p.reorder, colour := p.colour,
                    hdr := if p.hdr.isSome then p.hdr else l.hdr }
  let l := { l with current := none }
  if ¬ fitsLayer p (s.layerCfg sid n) then
    s.setLayer sid n { l with parseErrors := l.parseErrors + 1, waitingRap := true, unsupported := true }
  else if l.unsupported ∧ ¬ p.rap then s.setLayer sid n { l with parseErrors := l.parseErrors + 1 }
  else if l.waitingRap ∧ ¬ startsHere (s.get Od.dec_START_MODE sid) p then s.setLayer sid n l
  else if p.rasl ∧ l.skipRasl then s.setLayer sid n { l with raslSkipped := l.raslSkipped + 1 }
  else
    let live := decide (s.streamClass sid = 0)
    let twice := live && (l.shown == some frame)
    let l := { l with
      skipRasl := if p.rap then p.cra && (l.waitingRap || l.tainted) else l.skipRasl,
      tainted := l.tainted || (l.waitingRap && !p.rap),
      waitingRap := false,
      unsupported := false,
      current := some l.picCount,
      parseErrors := l.parseErrors + b2n (p.field && p.format == 1),
      drops := l.drops + b2n twice,
      shown := if live then some frame else l.shown,
      buffer := trimBuffer p.refs (max 1 p.dpb) l.buffer,
      picCount := l.picCount + 1,
      pics := mapIf (fun q : DecPic => twice && decide (q.frame = frame)) (fun q => { q with dropped := true }) l.pics ++
        [({ pic := l.picCount, start := p, frame := frame, line := now.line, rows := List.replicate (decRows p.format p.height) (if p.field ∧ p.format = 1 then { state := 1, damage := [(0, blocks64 p.width - 1)] } else {}), seq := seq, cells := s.stageCells sid n } : DecPic)] }
    let s := (s.setLayer sid n l).bump Od.ss_PICTURES_IN sid
    if live then s.newPics sid frame (l.tainted && !p.rap) else s

/-- What a packet says of the picture under way. -/
def State.applyPacket (s : State) (sid n m : Nat) (p : InputPacket) : State :=
  let s := match p.start with
    | some q => s.startDec sid n p.seq q
    | none => s
  let s := if p.parseError then s.setLayer sid n { s.layer sid n with parseErrors := (s.layer sid n).parseErrors + 1 } else s
  match ((s.layer sid n).current).bind fun k => s.decPic sid n k with
  | none => s.freeInput sid n 1
  | some q =>
    let s := s.mapDec sid n q.pic fun x => { x with
      packets := x.packets + 1, ended := x.ended || p.ends, data := x.data ++ [p.bytes],
      rows := p.rows.foldl (fun rs r => setNth rs r fun w => { w with state := max 1 w.state }) x.rows }
    ((s.damage sid n q.pic p.damage).progress sid n q.pic).closeDue sid n m

end Sys2Proof.Machine
end

