-- ==== Sys2Proof/Machine/ChoiceOps.lean ====
section
/-! DEFINITION. The row that a cell takes next (R80, R89, R90), its checkpoint record (R116), and its start. -/

namespace Sys2Proof.Machine

/-- A cell takes work: its crown runs, it is in service, and it holds no row. -/
def State.takesRow (s : State) (cc : Nat) : Bool :=
  decide (s.get Od.crown_POWER_STATE (cc / 8) = 2) && !(s.crown (cc / 8)).banned && !s.halted &&
    decide (s.cellState cc ≤ 2) && (s.cell cc).row.isNone

/-- Blocks of the row above that are complete when a row starts: all of them once it has ended. -/
def State.aboveAtStart (s : State) (p : Checkpoint) : Nat :=
  match if p.row = 0 then none else s.cellWith p.sid p.stage p.pic (p.row - 1) with
  | some d => match (s.cell d).row with
    | some u => u.done
    | none => 0
  | none => if p.row = 0 ∨ s.aboveEnded p then (s.rowFacts p).cols else 0

/-- A cell starts the row of a committed record at its entry (R116, R133, R135); it waits until the row above is two blocks ahead. -/
def State.enterRow (s : State) (cc : Nat) (p : Checkpoint) (bank : Nat) (rerun : Bool) : State :=
  let above := s.aboveAtStart p
  let wait := decide (above < s.needsAbove p 0)
  let x := s.cell cc
  let entry := (s.bank (2 * (cc / 8) + bank)).entry (rowEntry p.format p.preset)
  let p := { p with number := x.records }
  let row : CellRow := { point := p, startAt := s.cycle, rerun := rerun, waitDep := wait, depReady := !wait, above := above }
  let x := { x with row := some row, bank := bank, addr := bits entry 0 12, stack := [], lc0 := 0, lc1 := 0, waited := 0, records := x.records + 1 }
  (((s.setCell cc x).commitRecord cc p).set Od.cell_CURRENT_ROW cc p.word0).refreshCell cc

/-- The cell that started a row. -/
def State.cellOfRow (s : State) (p : Checkpoint) (row : Nat) : Nat :=
  if 16 ≤ p.stage then match s.encPic p.sid p.index p.pic with
    | some q => (q.row row).cell
    | none => 128
  else match s.decPic p.sid p.index p.pic with
    | some q => (q.row row).cell
    | none => 128

/-- Where a row on a cell finds the exchange data of the row above: in bank 13 of its own crown, else in HBM3 (R110, R116).
[DESIGN CHOICE, unsafe: log entry 84.] -/
def State.exchangeFor (s : State) (cc : Nat) (p : Checkpoint) : Nat :=
  if p.row = 0 then 0
  else
    let u := s.cellOfRow p (p.row - 1)
    let at_ := s.exchangeOf u p (p.row - 1)
    if u / 8 = cc / 8 then exchangeFrom + at_ else s.exchangeAddr (u / 8) + at_

/-- The first batt of a layer's input queue (R116, R313). -/
def State.inputBatt (s : State) (sid n : Nat) : Nat :=
  match s.queues.inputOwner.find? fun e => e.2 = some (sid, n) with
  | some (q, _) => match (s.queue q).packets with
    | k :: _ => ((k.entries.head?).map fun e => e.batt).getD 0
    | [] => 0
  | none => 0

/-- Addresses and references of a row's record, and its format's own words, which the microcode sets (R116).
[DESIGN CHOICE, safe: log entry 36.] [DESIGN CHOICE, unsafe: log entry 84.] -/
def State.openPoint (s : State) (cc : Nat) (p : Checkpoint) : State × Checkpoint :=
  let store := Config.storeAddress p.sid p.stage
  let q : Checkpoint := if 16 ≤ p.stage then match s.encPic p.sid p.index p.pic with
      | none => p
      | some e =>
        { p with
          inAddr := store (128 + e.frame % 4) + p.row * e.cfg.cols * tileBytes
          refSlots := e.refPics.map fun n => match (s.rung p.sid p.index).refs.find? fun k => decide (k.pic = n) with
            | some k => k.slot
            | none => 0
          reconAddr := store e.slot + p.row * e.cfg.cols * slotBytes }
    else match s.decPic p.sid p.index p.pic with
      | none => p
      | some e =>
        let slots := e.start.dpb + 2
        { p with
          inBatt := s.inputBatt p.sid p.index
          refSlots := (e.start.refs.filterMap fun pos => (s.layer p.sid p.index).buffer.find? fun b => b.position == pos).map fun b => storeSlot b.pic slots
          reconAddr := store (storeSlot e.pic slots) + p.row * ceilDiv e.start.width 64 * slotBytes }
  let q := { q with xchgAddr := s.exchangeFor cc p, formatState := (List.range 20).map fun k => Config.free (s.freeUsed + k) % 2 ^ 72 }
  (s.useFrees 20, { q with ctxCrc := crc32c (s.context (cc / 8) q) })

/-- The QP_MODEL word of a row (R187, R196): bounds, base QP, and log2 K of the B, P and I pictures; of the depths of B that of the
picture, where it is one. [DESIGN CHOICE, unsafe: log entry 16.] -/
def State.qpModelWord (s : State) (sid : Nat) (p : EncPic) : Nat :=
  let k : Nat → Nat := fun c => ofInt 12 (tget (s.rung sid p.rung).log2K 0 c)
  p.cfg.qpHigh % 4096 * 2 ^ 60 + p.cfg.qpLow % 4096 * 2 ^ 48 + ofInt 12 p.baseQp * 2 ^ 36 + k (max 2 p.cls) * 2 ^ 24 + k 1 * 2 ^ 12 + k 0

/-- A cell starts an encode row (R157, R158, R187–R192, R195). -/
def State.startEnc (s : State) (cc : Nat) (c : Choice) : State :=
  let r := c.stage - 16
  match s.encPic c.sid r c.pic with
  | none => s
  | some p0 =>
    let q := if p0.started then (s, p0) else s.startPic c.sid p0 (if p0.cells = [] ∧ c.cls = 2 then [cc] else [])
    let a := q.1.allocRow c.sid q.2 c.row
    let t := a.1
    let p := a.2
    let w := p.row c.row
    let sweep := match p.sweep with
      | some k => k * ceilDiv p.cfg.cols (max 1 p.cfg.refreshPeriod)
      | none => 0
    let point : Checkpoint := {
      sid := c.sid, stage := c.stage, index := r, pic := p.pic, row := c.row, format := p.cfg.format, preset := p.cfg.preset, cls := c.cls,
      rap := p.rap, cell := cc, deadline := match t.encDeadline c.sid p c.row with
        | some d => RTime.word d
        | none => 0,
      outSeq := (t.rung c.sid r).outSeq, qpPrev := ofInt 8 (if c.row = 0 then p.baseQp else (p.row (c.row - 1)).q), refreshCol := sweep,
      brim := w.brimMode, tainted := p.tainted, budget := p.budget, spent := w.charged, reserve := w.reserve, rowsLeft := p.rows.length - c.row,
      debt := p.debt, qpModel := t.qpModelWord c.sid p }
    let o := t.openPoint cc point
    match o.1.bankLike (cc / 8) (p.banks, p.image) with
    | some b => (o.1.mapPics c.sid (fun q => decide (q.rung = r ∧ q.pic = c.pic)) fun q => q.withRow c.row fun w => { w with cell := cc }).enterRow
        cc o.2 b false
    | none => s

/-- A cell starts a decode row (R218, R229, R231). -/
def State.startDecRow (s : State) (cc : Nat) (c : Choice) : State :=
  match s.decPic c.sid c.stage c.pic with
  | none => s
  | some p0 =>
    let first := p0.rows.all fun w => decide (w.state ≤ 1)
    let cws := ((if p0.cells = [] then [cc] else p0.cells).map fun k => k / 8).eraseDups
    let t := if first then (s.beginDec c.sid c.stage c.pic p0.start.refs).mapDec c.sid c.stage c.pic fun q =>
      { q with banks := cws.map (fun cw => (cw, s.activeBank cw)), image := (cws.head?).map s.imageOn } else s
    let t := t.mapDec c.sid c.stage c.pic fun q => q.withRow c.row fun w => { w with state := 2, cell := cc }
    match t.decPic c.sid c.stage c.pic with
    | none => s
    | some p =>
      let above := p.row (c.row - 1)
      let point : Checkpoint := {
        sid := c.sid, stage := c.stage, index := c.stage, pic := p.pic, row := c.row, format := p.start.format, preset := 3, cls := c.cls,
        rap := p.start.rap, cell := cc, deadline := match t.decDeadline c.sid p c.row with
          | some d => RTime.word d
          | none => 0,
        tainted := p.tainted, aboveConcealed := decide (c.row ≠ 0) && decide (above.method ≠ 0), rowsLeft := p.rows.length - c.row }
      let o := t.openPoint cc point
      match o.1.bankLike (cc / 8) (p.banks, p.image) with
      | some b => o.1.enterRow cc o.2 b false
      | none => s

/-- The row of a record is to be replaced by its brim row (R460, R461). -/
def State.recovers (s : State) (p : Checkpoint) : Bool :=
  decide (16 ≤ p.stage) && match s.encPic p.sid p.index p.pic with
    | some q => (q.row p.row).recover
    | none => false

/-- The exchange data of the row above a row that is re-run in another crown goes to HBM3 (R110, R118). -/
def State.carryExchange (s : State) (cc : Nat) (p : Checkpoint) : State × Checkpoint :=
  if p.row = 0 ∨ p.cell / 8 = cc / 8 ∨ crownSize ≤ p.xchgAddr then (s, p)
  else
    let to_ := s.exchangeAddr (p.cell / 8) + (p.xchgAddr - exchangeFrom)
    (s.hbmPut to_ ((s.crown (p.cell / 8)).bytesAt p.xchgAddr exchangePart), { p with xchgAddr := to_ })

/-- A cell re-runs a row from its record (R118), or codes the brim row that takes its place (R460). The record is read from bank 13
in its own crown, else from the mirror; where the entropy context differs from CTX_CRC, the cell reports it instead of coding. -/
def State.startRerun (s : State) (cc : Nat) (c : Choice) : State :=
  match (s.cell cc).reruns.find? fun k => k.1.names c.sid c.stage c.pic c.row with
  | none => s
  | some k => match s.bankLike (cc / 8) (s.pointBanks k.1) with
    | none => s
    | some b =>
      let x := s.cell cc
      let s := s.setCell cc { x with reruns := x.reruns.filter fun y => y ≠ k }
      let s := if k.1.cell / 8 = cc / 8 then s.crownRead (cc / 8) (recordOf k.1.cell) 288 cc else s
      let q := s.carryExchange cc k.1
      let t := q.1.enterRow cc { q.2 with cell := cc } b (!s.recovers k.1 && decide (k.1.cell ≠ cc))
      if crc32c (t.context (cc / 8) q.2) = q.2.ctxCrc then t
      else t.report (Unit.crown (cc / 8)) 0x09 3 cc (c.sid % 512 + c.row % 2 ^ 16 * 2 ^ 16)

/-- ROW_START's effect. -/
def State.startRow (s : State) (cc : Nat) : State :=
  if s.takesRow cc then
    match s.choice cc with
    | none => s
    | some c => if c.rerun then s.startRerun cc c else if 16 ≤ c.stage then s.startEnc cc c else s.startDecRow cc c
  else s

/-- A cell has handed over its row: the counters of R99, R122 and R123, and its boundary. -/
def State.rowDone (s : State) (cc : Nat) (r : CellRow) : State :=
  let s := (s.bump Od.cell_ROWS_DONE cc).bump Od.ss_ROWS_DONE r.point.sid
  let s := if r.rerun then s.bump Od.cell_ROWS_RERUN cc else s
  s.freeCell cc

/-- The pool of a stream's class holds n more batts for it (R311). -/
def State.battsHeld (s : State) (sid n : Nat) : Bool :=
  match s.poolFor (s.streamClass sid) with
  | none => true
  | some p => decide (s.sharedNeed p ownStream sid n ≤ s.sharedFree p)

/-- Replaces an encode row that is not complete by its brim row, off its cell. -/
def State.lateRow (s : State) (sid rung pic row : Nat) : State :=
  match s.encPic sid rung pic with
  | none => s
  | some p => ((s.dropRow sid (16 + rung) pic row).brimRow sid p row).releaseBelow sid (16 + rung) pic row

/-- CD(r) of a LIVE row has come and the row is not complete: it leaves as its brim row; one under recovery counts in the
fault records (R82, R167, R194, R460). -/
def State.rowDeadlineDue (s : State) (sid rung pic row : Nat) : State :=
  match s.encPic sid rung pic with
  | none => s
  | some p =>
    if s.streamClass sid = 0 ∧ row < p.rows.length ∧ (p.row row).state < 2 then
      if (p.row row).recover then s.lateRow sid rung pic row
      else ((s.lateRow sid rung pic row).bump Od.ss_LATE_ROWS sid).streamEvent sid 5
    else s

/-- CD(r) of a row of a LIVE rung lies in the past, or is now (R167). -/
def State.pastCd (s : State) (sid : Nat) (p : EncPic) (r : Nat) : Bool :=
  let rd := s.streamDomain sid
  decide (s.streamClass sid = 0) && s.later rd (s.now rd) (s.completionDeadline sid p.frame p.cfg.height r)

def State.atCd (s : State) (sid : Nat) (p : EncPic) (r : Nat) : Bool :=
  let rd := s.streamDomain sid
  decide (s.streamClass sid = 0) && !s.later rd (s.completionDeadline sid p.frame p.cfg.height r) (s.now rd)

/-- An encode row is handed over (R117) as its cell coded it: no error of it is pending, the row above is complete, and the pool serves its
packets. A row under recovery hands over its brim row (R460). After CD(r) the row is not accepted: its brim row leaves in its place
(R167). -/
def State.completeEnc (s : State) (cc : Nat) (r : CellRow) : State :=
  match s.encPic r.point.sid r.point.index r.point.pic with
  | none => s.freeCell cc
  | some p =>
    let w := p.row r.point.row
    if w.state ≠ 1 then s
    else if s.pastCd r.point.sid p r.point.row then s.rowDeadlineDue r.point.sid r.point.index r.point.pic r.point.row
    else if w.recover then
      if s.battsHeld r.point.sid (s.rowBatts r.point.sid p (s.brimOf r.point.sid p r.point.row).2) then
        ((s.brimRow r.point.sid p r.point.row).rowDone cc r).releaseBelow r.point.sid r.point.stage r.point.pic r.point.row
      else s
    else
      let q := s.codeRow r.point.sid p r.point.row
      if (r.point.row = 0 ∨ 2 ≤ (p.row (r.point.row - 1)).state) ∧ s.battsHeld r.point.sid (s.rowBatts r.point.sid p q.2.2) then
        let s := s.bumpBy Od.rc_BRIM_BLOCKS r.point.sid p.rung q.2.1
        let s := s.settleRow r.point.sid p r.point.row q.1 q.2.2 2 q.2.1
        (s.rowDone cc r).releaseBelow r.point.sid r.point.stage r.point.pic r.point.row
      else s

/-- What a decode row is decoded from. -/
def State.decodeTask (s : State) (sid n : Nat) (p : DecPic) (r : Nat) : DecodeTask :=
  let l := s.layer sid n
  { words := (match p.banks with
      | (cw, b) :: _ => (s.bank (2 * cw + b)).words
      | [] => []),
    format := p.start.format, width := p.start.width, height := p.start.height, depth := p.start.depth, number := p.start.position.toNat, row := r,
    data := p.data, refs := p.start.refs.map fun q => (l.imageAt q).getD {}, above := if r = 0 then {} else p.strip (r - 1) }

/-- A decoded row enters its picture: its blocks and vectors, and its samples (R218, R226); one whose concealment is decided is filled. -/
def State.takeDecoded (s : State) (sid n : Nat) (p : DecPic) (r : Nat) : State :=
  let d := Config.decodeRow (s.decodeTask sid n p r)
  let cols := blocks64 p.start.width
  let whole := decide ((p.row r).damage = [])
  let blocks := if whole then cols else min d.blocks (cols - ((List.range cols).filter (p.row r).damagedAt).length)
  let s := s.mapDec sid n p.pic fun q =>
    { (q.withRow r fun w =>
        { w with state := if w.method = 0 then 3 else 4, blocks := blocks, intra := min d.intra blocks, top := d.top.take (ceilDiv p.start.width 8),
                 bottom := d.bottom.take (ceilDiv p.start.width 8), topRef := d.topRef, bottomRef := d.bottomRef }) with
      samples := tset q.samples r (p.fit r d.samples) }
  match s.decPic sid n p.pic with
  | none => s
  | some q => if (q.row r).state = 4 then s.fillRow sid n p.pic r else s.storeDec sid n q r

/-- G(r) of a LIVE decode row has come: a row that is not complete is concealed as LATE; the last row's closes the picture
(R222). -/
def State.giveUpDue (s : State) (sid layer pic row : Nat) : State :=
  match s.decPic sid layer pic with
  | none => s
  | some p =>
    if s.streamClass sid = 0 ∧ row < p.rows.length then
      let s := if (p.row row).finished then s else s.concealRow sid layer pic row true
      if row + 1 = p.rows.length then s.closePic sid layer pic else s.progress sid layer pic
    else s

/-- G(r) of a LIVE decode row lies in the past, or is now (R222). -/
def State.pastG (s : State) (sid : Nat) (p : DecPic) (r : Nat) : Bool :=
  let rd := s.streamDomain sid
  decide (s.streamClass sid = 0) && (match s.decDeadline sid p r with
    | some g => s.later rd (s.now rd) g
    | none => false)

def State.atG (s : State) (sid : Nat) (p : DecPic) (r : Nat) : Bool :=
  let rd := s.streamDomain sid
  decide (s.streamClass sid = 0) && (match s.decDeadline sid p r with
    | some g => !s.later rd g (s.now rd)
    | none => false)

/-- A decode row is handed over; after G(r) it is not accepted, and is concealed as LATE (R222). -/
def State.completeDec (s : State) (cc : Nat) (r : CellRow) : State :=
  match s.decPic r.point.sid r.point.stage r.point.pic with
  | none => s.freeCell cc
  | some p =>
    if (p.row r.point.row).state = 2 ∧ (r.point.row = 0 ∨ 3 ≤ (p.row (r.point.row - 1)).state) then
      if s.pastG r.point.sid p r.point.row then s.giveUpDue r.point.sid r.point.stage r.point.pic r.point.row
      else
        let s := s.takeDecoded r.point.sid r.point.stage p r.point.row
        let s := (s.rowDone cc r).releaseBelow r.point.sid r.point.stage r.point.pic r.point.row
        s.progress r.point.sid r.point.stage r.point.pic
    else s

/-- ROW_COMPLETE's effect. -/
def State.completeRow (s : State) (cc : Nat) : State :=
  match (s.cell cc).row with
  | none => s
  | some r =>
    if s.rowError cc ∨ r.waitDep ∨ r.waitMem ∨ ¬ r.ended then s
    else if 16 ≤ r.point.stage then s.completeEnc cc r else s.completeDec cc r

end Sys2Proof.Machine
end

