-- ==== Sys2Proof/Machine/Cells.lean ====
section
/-! DEFINITION. The meanings of crowns and coding cells (R92, R100–R123), but for writes. -/

namespace Sys2Proof.Machine

/-- The first re-run record that a cell wrote and whose mirror is still under way: the cell that holds it, and its index. -/
def State.unmirrored (s : State) (cc : Nat) : Option (Nat × Nat) :=
  ((List.range 128).flatMap fun d =>
    let rs := (s.cell d).reruns
    ((List.range rs.length).filter fun k => match rs[k]? with
      | some (p, m) => decide (p.cell = cc) && !m
      | none => false).map fun k => (d, k)).head?

/-- A record reaches the ring in PICTURE_REGION. -/
def State.mirror (s : State) (p : Checkpoint) : State := s.hbmPut (s.ringAddr p.cell p.number) p.bytes

/-- MIRROR_WRITE_DONE (R116, R118): the mirrors of a cell's records complete in the order of their commits. -/
def execMirrorWriteDone (cc : Fin 128) (s : State) : Host.Outcome State Fault Refusal :=
  done (match s.unmirrored cc with
    | some (d, k) =>
      let x := s.cell d
      let s := s.setCell d { x with reruns := x.reruns.modify k fun e => (e.1, true) }
      match x.reruns[k]? with
      | some e => s.mirror e.1
      | none => s
    | none => match (s.cell cc).row with
      | some r => if r.mirrored then s else (s.setCell cc { s.cell cc with row := some { r with mirrored := true } }).mirror r.point
      | none => s)

/-- Tiles of the reference cache, and bands of the search pyramid, of a 2160p reference (R108). -/
def cacheLines (band : Bool) : Nat := if band then 4 else 426

/-- Lines of a partition that are a stage's share: in proportion to its load on the crown (R109). -/
def State.cacheShare (s : State) (cw sid stage : Nat) (band : Bool) : Nat :=
  let hs := (cellsOf cw).flatMap fun cc => s.sharesOn cc
  let all := (hs.map fun h => h.cost).sum
  let mine := ((hs.filter fun h => h.sid = sid ∧ h.stage = stage).map fun h => h.cost).sum
  max 1 (cacheLines band * mine / max 1 all)

/-- The tile or band that a new one replaces: the oldest of its stage once that has its share, none while a line is free, else the
oldest of a stage that has more than its share, else the oldest. [DESIGN CHOICE, unsafe: log entry 84.] -/
def State.cacheVictim (s : State) (cw sid stage : Nat) (band : Bool) : Option CacheTile :=
  let all := (s.crown cw).cache.filter fun t => t.band == band
  let of : Nat → Nat → List CacheTile := fun a b => all.filter fun t => decide (t.sid = a ∧ t.stage = b)
  if s.cacheShare cw sid stage band ≤ (of sid stage).length then (of sid stage).getLast?
  else if all.length < cacheLines band then none
  else match all.reverse.find? fun t => decide (s.cacheShare cw t.sid t.stage band < (of t.sid t.stage).length) with
    | some t => some t
    | none => all.getLast?

/-- Header of a tile's slot: the bytes stored, and whether they are compressed (R174).
[DESIGN CHOICE, unsafe: log entry 84.] -/
def tileHeader : Nat := 9216

/-- The bytes of a tile that its slot holds, and the tile itself. -/
def State.slotTile (s : State) (a : Nat) : List Byte × List Byte :=
  let n := leNat (s.hbmBytes (a + tileHeader) 2)
  let raw := s.hbmBytes a n
  (raw, if leNat (s.hbmBytes (a + tileHeader + 2) 1) = 1 then (Config.expand raw).take 9216 else raw)

/-- Address of a tile of a reference picture. -/
def State.tileAddr (s : State) (p : Checkpoint) (pic index : Nat) : Nat :=
  let slots := if 16 ≤ p.stage then (s.rungCfg p.sid p.index).refs + 1 else (s.layerCfg p.sid p.index).dpb + 2
  Config.storeAddress p.sid p.stage (storeSlot pic slots) + 9288 * index

/-- A tile or band of a reference comes into a crown's store for a row, decompressed, on a free line or in the place of the one it
replaces; the bytes that its slot holds count (R109).
[DESIGN CHOICE, unsafe: log entry 35.] [DESIGN CHOICE, unsafe: log entry 37.] [DESIGN CHOICE, unsafe: log entry 84.] -/
def State.fillCache (s : State) (cw : Nat) (p : Checkpoint) (pic : Nat) (band : Bool) (index : Nat) : State :=
  let old := s.cacheVictim cw p.sid p.stage band
  let x := s.crown cw
  let used := (x.cache.filter fun t => t.band == band).map fun t => t.line
  let line := match old with
    | some t => t.line
    | none => ((List.range (cacheLines band)).find? fun k => !used.contains k).getD 0
  let t : CacheTile := { sid := p.sid, stage := p.stage, pic := pic, band := band, index := index, line := line }
  let s := s.setCrown cw { x with cache := t :: x.cache.filter fun u => some u ≠ old }
  let q := s.slotTile (s.tileAddr p pic index)
  let s := s.bumpBy Od.crown_PORT_BYTES_IN cw 0 (roundUp 9 q.1.length)
  if band then s else s.crownPut cw (9216 * line) q.2

/-- MEMORY_PORT_FILL_DONE (R109): the tile or band that the cell waits for has come, and its row goes on.
[DESIGN CHOICE, unsafe: log entry 35.] -/
def execMemoryPortFillDone (cc : Fin 128) (s : State) : Host.Outcome State Fault Refusal :=
  done (match (s.cell cc).row with
    | some r =>
      if r.waitMem then
        let cw := cc.val / 8
        let s := ((s.setCell cc { s.cell cc with row := some { r with waitMem := false, want := none } }).refreshCell cc).bump Od.crown_REF_MISSES cw
        match r.want with
        | none => s
        | some (pic, band, index) => s.fillCache cw r.point pic band index
      else s
    | none => s)

/-- VDD_CORE as it reads back: within 10 mV of its target (R495). -/
def State.readBack (s : State) : State :=
  (s.set Od.sys_VDD_CORE_NOW 0 (s.get Od.sys_VDD_CORE_TARGET - 10 + s.freeValue % 21)).useFree

/-- Voltages after a crown needs less: VDD_CORE is lowered once no crown needs it (R501). -/
def State.lowerVoltages (s : State) : State :=
  let t := s.setVoltages
  if s.get Od.sys_VDD_CORE_TARGET = t.get Od.sys_VDD_CORE_TARGET then t else t.readBack

/-- A crown that the Milliner may park (R114). -/
def State.mayPark (s : State) (cw : Nat) : Bool :=
  decide (s.get Od.crown_POWER_STATE cw = 2) && s.flag Od.crown_PARK_ALLOWED cw &&
    (cellsOf cw).all fun cc => s.sharesOn cc == [] && !s.flag Od.cell_SPARE cc && (s.cell cc).row.isNone

/-- Changes the cells of a crown. -/
def State.mapCells (s : State) (cw : Nat) (f : Cell → Cell) : State :=
  (cellsOf cw).foldl (fun t cc => t.setCell cc (f (t.cell cc))) s

/-- Shows the rest state of a crown's cells that are not retired; one that was DRAINING has no row left, and is RETIRED (R120). A
RETIRED cell stays so while its crown is parked, waking or under reset. [DESIGN CHOICE, unsafe: log entry 81.] -/
def State.restCells (s : State) (cw : Nat) : State :=
  (cellsOf cw).foldl (fun t cc =>
    if t.isRetired cc then t else if t.cellState cc = cellDraining then t.cellOut cc else t.cellRest cc) s

/-- CROWN_PARK (R114): cells and cell stores lose their power. -/
def execCrownPark (cw : Fin 16) (s : State) : Host.Outcome State Fault Refusal :=
  done (if s.mayPark cw then
    let s := ((s.set Od.crown_POWER_STATE cw 0).bump Od.crown_STEPS_DOWN cw).setCrown cw
      { s.crown cw with step := none, downDue := false }
    ((s.mapCells cw fun x => { byWrite := x.byWrite, reruns := x.reruns }).restCells cw).lowerVoltages
  else s)

/-- CROWN_WAKE_DONE (R114, R296): every byte of the cell stores has been written; any higher clock is reached by a step. -/
def execCrownWakeDone (cw : Fin 16) (s : State) : Host.Outcome State Fault Refusal :=
  done (if s.get Od.crown_POWER_STATE cw = 1 then
    let s := (cellsOf cw).foldl (fun t cc => t.initStore 0 cc) s
    let s := ((s.set Od.crown_POWER_STATE cw 2).set Od.crown_CLOCK_MHZ cw 600).bump Od.crown_STEPS_UP cw
    ((s.mapCells cw fun x => { x with store := [] }).restCells cw).followForce cw
  else s)

/-- Duration of cycles in ns. -/
def cyclesNs (n : Nat) : Nat := n * 5 / 6

/-- CROWN_STEP_DONE (R92, R495, R501). -/
def execCrownStepDone (cw : Fin 16) (s : State) : Host.Outcome State Fault Refusal :=
  done (match (s.crown cw).step with
    | none => s
    | some mhz =>
      let up := decide (s.get Od.crown_CLOCK_MHZ cw < mhz)
      let took := cyclesNs (s.cycle - (s.crown cw).stepAt)
      let s := (s.set Od.crown_CLOCK_MHZ cw mhz).setCrown cw { s.crown cw with step := none }
      if up then
        let s := (s.bump Od.crown_STEPS_UP cw).set Od.sys_STEP_TIME_MAX 0 (max (s.get Od.sys_STEP_TIME_MAX) took)
        let s := if s.power.avsPending then { s with power := { s.power with avsPending := false } }.readBack else s
        s.followForce cw
      else (s.bump Od.crown_STEPS_DOWN cw).lowerVoltages.followForce cw)

/-- CROWN_DOWN_HOLD_EXPIRY: the load has allowed a lower clock for DOWN_HOLD seconds (R92). -/
def execCrownDownHoldExpiry (cw : Fin 16) (s : State) : Host.Outcome State Fault Refusal :=
  done (if s.get Od.crown_CLOCK_FORCE cw = 0 ∧ (s.crown cw).step = none ∧ s.loadLow cw ∧ s.heldLow (s.crown cw).lowAt then
    s.setCrown cw { s.crown cw with downDue := true } else s)

/-- A row that a reset of its crown ends: it is taken back, and starts again elsewhere.
[DESIGN CHOICE, unsafe: log entry 42.] -/
def State.takeBack (s : State) (cc : Nat) : State :=
  match (s.cell cc).row with
  | none => s
  | some r =>
    let s := s.leaveRow cc
    let s := s.setCell cc { s.cell cc with row := none }
    if 16 ≤ r.point.stage then
      s.mapPics r.point.sid (fun p => decide (p.rung = r.point.index ∧ p.pic = r.point.pic)) fun p =>
        { p.withRow r.point.row (fun w => { w with state := 0 }) with banks := p.banks.filter fun e => e.1 ≠ cc / 8 }
    else
      let x := s.stream r.point.sid
      let l := tget x.layers {} r.point.index
      let pics := mapIf (fun p : DecPic => decide (p.pic = r.point.pic))
        (fun p => { p with rows := setNth p.rows r.point.row (fun w => { w with state := 1 }), banks := p.banks.filter fun e => e.1 ≠ cc / 8 }) l.pics
      s.setStream r.point.sid { x with layers := tset x.layers r.point.index { l with pics := pics } }

/-- The built-in test of a crown's cells that were retired by a fault (R115). -/
def State.retest (s : State) (cw pass : Nat) : State :=
  (cellsOf cw).foldl (fun t cc =>
    if t.flag Od.cell_RETIRED_BY_FAULT cc then
      if pass.testBit (cc % 8) then (t.set Od.cell_RETIRED_BY_FAULT cc 0).setCell cc { t.cell cc with byWrite := false }
      else t.reportInfo cc 0x0B 0
    else t) s

/-- Rotating passes on a crown under reset change to the other crown of their conditioner, unless it is under reset too
(R252). -/
def State.turnPasses (s : State) (cw : Nat) : State :=
  let other := if cw % 2 = 0 then cw + 1 else cw - 1
  if s.get Od.crown_POWER_STATE other = 3 then s
  else
    let f : Pass → Pass := fun p => if p.rotates ∧ p.crown = cw ∧ p.ic = cw / 2 then { p with crown := other } else p
    let streams := s.streams.streams.map fun e => (e.1, { e.2 with passes := e.2.passes.map f })
    { s with streams := { s.streams with streams := streams } }.set Od.ic_TILE_CROWN (cw / 2) other

/-- A draining bank of the crown becomes LOADED: the reset ends all of its pictures (R142). -/
def State.endDrain (s : State) (cw : Nat) : State :=
  [2 * cw, 2 * cw + 1].foldl (fun t i =>
    if (t.bank i).state = 4 then
      (t.setBank i { t.bank i with state := 2 }).set Od.cs_DRAIN_MASK 0 (clearBit (t.get Od.cs_DRAIN_MASK) cw)
    else t) s

/-- CW_MASK of the MICROCODE_LOAD that runs (R146). -/
def State.loadMask (s : State) : Nat :=
  match (tget s.cmds.queues {} 0x30).running with
  | some e => leAt e.args 0 2
  | none => 0

/-- The reset ends the crown's pictures: none stands on a bank of it any more (R142). -/
def State.endPictures (s : State) (cw : Nat) : State :=
  let off : List (Nat × Nat) → List (Nat × Nat) := fun bs => bs.filter fun e => e.1 ≠ cw
  let streams := s.streams.streams.map fun e => (e.1, { e.2 with
    pics := e.2.pics.map fun p => { p with banks := off p.banks },
    layers := e.2.layers.map fun l => (l.1, { l.2 with pics := l.2.pics.map fun p => { p with banks := off p.banks } }) })
  { s with streams := { s.streams with streams := streams } }

/-- CROWN_RESET (R115, R142, R146, R252, R296, R302): the crown shows RESETTING until the command completes. -/
def execCrownReset (cw bistPass : Nat) (s : State) : Host.Outcome State Fault Refusal :=
  done (s.runCommand 0x24 (leBytes 1 cw) fun s =>
    if 15 < cw then answer s Result.noSuchTarget
    else if ((cellsOf cw).any fun cc => s.sharesOn cc != []) ∨ s.loadMask.testBit cw then answer s Result.inUse
    else if s.get Od.crown_POWER_STATE cw = 1 then (s, none)
    else
      let s := if s.get Od.crown_POWER_STATE cw = 0 then s.set Od.crown_CLOCK_MHZ cw 600 else s
      let s := (s.set Od.crown_POWER_STATE cw 3).setCrown cw { store := [] }
      let s := (cellsOf cw).foldl (fun t cc => (t.takeBack cc).initStore 0 cc) s
      let s := (s.initStore 1 cw).repairsApply fun store inst =>
        decide ((store = 0 ∧ inst / 8 = cw) ∨ (store = 1 ∧ inst = cw))
      let s := s.mapCells cw fun x => { byWrite := x.byWrite, reruns := x.reruns }
      let s := (((s.retest cw bistPass).endPictures cw).restCells cw).endDrain cw
      answer (s.turnPasses cw).setVoltages Result.ok)

end Sys2Proof.Machine
end

