-- ==== Sys2Proof/Machine/CondOps.lean ====
section
/-! DEFINITION. Conditioning and composition: strips of passes, composed pictures (R246–R266), and what the start of a frame
asks of a stream (R98, R99, R237, R241, R261). -/

namespace Sys2Proof.Machine

/-- Number of the composition pass. [DEDUCED, unsafe: log entry 44.] -/
def composePass : Nat := 0x10

/-! ### Strips (R252, R265) -/

/-- Rungs that take a pass's output: its own; of a composition every rung that no pass of its own feeds. -/
def State.fedBy (s : State) (sid pass : Nat) : List Nat :=
  if pass = composePass then (s.rungs sid).filter fun r => !((s.stream sid).passes.any fun p => p.pass == r) else [pass]

/-- A strip is late for a LIVE encode row: its row should have started (R265). [DEDUCED, unsafe: log entry 44.] -/
def State.stripLate (s : State) (sid : Nat) (p : EncPic) (strip : Nat) : Bool :=
  let rd := s.streamDomain sid
  let at_ := rshift (s.lpf rd) (s.completionDeadline sid p.frame p.cfg.height strip) (-(65536 * s.streamLines sid (rowCycles p.cfg) : Nat))
  decide (s.streamClass sid = 0) && s.later rd (s.now rd) at_

/-! ### The picture of a pass (R246–R258) -/

/-- Size of what a pass writes. -/
def State.passSize (s : State) (sid pass : Nat) : Nat × Nat :=
  if pass = composePass then s.sourceSize sid else s.passOut sid pass

/-- Chroma, depth and form (R'G'B' or not) of what a stream's passes write: of a rung, or of the raw outputs. -/
def State.outForm (s : State) (sid r : Nat) : Nat × Nat × Bool :=
  let l := s.get Od.cond_RAW_LAYOUT sid
  if s.encodes sid then (0, (s.rungCfg sid r).depth, false) else (layoutChroma l, layoutDepth l, layoutRgb l)

/-- The settings of the pass of rung r, or of the raw output, for a source of a colour code (R246–R256). -/
def State.passSet (s : State) (sid r code : Nat) : PassSet :=
  let c := s.rungCond sid r
  let o := s.passOut sid r
  { x := c.x, y := c.y, w := c.w, h := c.h, outW := if turned c.orient then o.2 else o.1, outH := if turned c.orient then o.1 else o.2,
    orient := c.orient, kernel := c.kernel, colour := if c.colour = 0 then code else c.colour, full := decide (c.range = 1),
    rgb := (s.outForm sid r).2.2 }

/-- The colour code of a source picture (R254). -/
def State.codeOf (s : State) (sid : Nat) (i : Image) : Nat := colourCode (s.get Od.cond_COLOUR_IN_DEFAULT sid) i.colour

/-- A source picture as the pass of rung r, or of the raw output, turns it out. -/
def State.passImage (s : State) (sid r : Nat) (i : Image) : Image :=
  let f := s.outForm sid r
  (i.shape (s.codeOf sid i) (s.passSet sid r (s.codeOf sid i))).finish f.1 f.2.1

/-! ### Composition (R259–R263) -/

/-- A layer without input (R262): it never had a picture, or its upstream stream is closed or dropped. -/
def State.layerEmpty (s : State) (sid n frame : Nat) : Bool :=
  (s.layerPic sid n frame).isNone || (match (s.inputs sid).find? fun e => e.layer % 16 = n with
    | some e => e.kind == 4 && s.streamShut (e.selector % 512)
    | none => true)

/-- What a layer shows in frame F (R262): its picture; without input nothing, its last picture, or FILL (`none`). -/
inductive Shows where
  | nothing
  | picture (p : HeldPic)
  | fill
  deriving DecidableEq, Repr

def State.layerShows (s : State) (sid n frame : Nat) : Shows :=
  let last := match s.layerPic sid n frame with
    | some p => Shows.picture p
    | none => .nothing
  if s.layerEmpty sid n frame then
    match (s.layerPlace sid n).empty with
    | 1 => last
    | 2 => .fill
    | _ => .nothing
  else last

/-- Colour code and range of the canvas in frame F (R254, R255): with FOLLOW the code of layer 0, from a random-access point on. -/
def State.canvasCode (s : State) (sid frame : Nat) : Nat × Bool :=
  (s.shownCode sid 0 ((s.rungPics sid 0).any fun p => decide (p.frame = frame) && p.rap), (s.outColour sid 0).2)

/-- A 4:4:4 picture of one colour, given as BACKGROUND gives it: Y, Cb and Cr at 10 bits, limited range. -/
def flatColour (w h v code : Nat) (full : Bool) : Image :=
  let i := { flatImage w h 12 2 [4 * bits v 20 10, 4 * bits v 10 10, 4 * bits v 0 10] with colour := some (colourOf code false) }
  i.toRange full

/-- A layer conditioned and placed by its own settings, to a range (R259). -/
def State.drawnLayer (s : State) (sid n frame : Nat) (full : Bool) : Option Drawn :=
  let q := s.layerPlace sid n
  let code := (s.canvasCode sid frame).1
  match s.layerShows sid n frame with
  | .nothing => none
  | .fill => some ⟨flatColour q.dw q.dh q.fill code full, q.dx, q.dy, q.dw, q.dh⟩
  | .picture p =>
    let set : PassSet := { x := q.x, y := q.y, w := q.w, h := q.h, outW := if turned q.orient then q.dh else q.dw,
                           outH := if turned q.orient then q.dw else q.dh, orient := q.orient, kernel := q.kernel, colour := code, full := full }
    some ⟨p.image.shape (s.codeOf sid p.image) set, q.dx, q.dy, q.dw, q.dh⟩

/-- Alpha of a layer at a canvas position (R260). A source without alpha is opaque under mode 2.
[DESIGN CHOICE, unsafe: log entry 86.] -/
def State.alphaAt (s : State) (sid n frame : Nat) (d : Drawn) : Nat → Nat → Nat :=
  let q := s.layerPlace sid n
  let g := globalAlpha q.global
  match q.alpha with
  | 0 => fun _ _ => 4095
  | 1 => fun _ _ => g
  | 2 => if d.image.planes.length = 4 then fun x y => timesAlpha (d.part 3 x y) g else fun _ _ => 4095
  | _ => match s.drawnLayer sid (q.matteOf % 16) frame true with
    | none => fun _ _ => 0
    | some m => fun x y => if m.covers x y then timesAlpha (m.part 0 x y) g else 0

/-- The layers drawn, bottom first: a matte is not (R260). -/
def State.drawn (s : State) (sid frame : Nat) : List Nat :=
  (s.composed sid).filter fun n => !(s.layerPlace sid n).matte && decide (s.layerShows sid n frame ≠ .nothing)

/-- The composed picture of frame F, before chroma and depth (R246, R259, R260). -/
def State.composedImage (s : State) (sid frame : Nat) : Image :=
  let o := s.sourceSize sid
  let c := s.canvasCode sid frame
  let canvas := flatColour o.1 o.2 (s.get Od.cond_BACKGROUND sid) c.1 c.2
  (s.drawn sid frame).foldl (fun i n => match s.drawnLayer sid n frame c.2 with
    | none => i
    | some d => drawOver i d (s.alphaAt sid n frame d)) canvas

/-- The composed picture as the rung, or the raw output, takes it. -/
def State.canvasImage (s : State) (sid frame : Nat) : Image :=
  let f := s.outForm sid 0
  let c := s.canvasCode sid frame
  ((s.composedImage sid frame).recolour c.1 c.1 c.2 f.2.2).finish f.1 f.2.1

/-- TAINTED, CONCEALED and REPEAT of a composed picture (R263). -/
def State.composedFlags (s : State) (sid frame : Nat) : Bool × Bool × Bool :=
  let ps := (s.drawn sid frame).filterMap fun n => match s.layerShows sid n frame with
    | .picture p => some p
    | _ => none
  (ps.any fun p => p.tainted, ps.any fun p => p.concealed, ps != [] && ps.all fun p => p.again)

/-! ### Strips written (R265) -/

/-- A strip of a pass reaches the picture store, and the rows that wait on it (R265). -/
def State.feedStrip (s : State) (sid pass pic strip ic : Nat) : State :=
  (s.fedBy sid pass).foldl (fun t r => match t.encPic sid r pic with
    | none => t
    | some p =>
      let t := if t.stripLate sid p strip then t.bump Od.ic_STRIPS_LATE ic else t
      let image := if pass = composePass then t.canvasImage sid p.frame else t.passImage sid r p.input
      let tainted := pass == composePass && (t.composedFlags sid p.frame).1
      t.setEncPic sid { p with inputRows := max p.inputRows (strip + 1), source := p.source.withStrip image strip, tainted := p.tainted || tainted }) s

/-- What a conditioned raw output of frame F says and holds. -/
def State.conditionedOut (s : State) (sid frame : Nat) : PicOut :=
  let o := s.passSize sid (if s.streamType sid = 3 then composePass else 0)
  if s.streamType sid = 3 then
    let f := s.composedFlags sid frame
    { layer := 0, pic := (s.layer sid 0).outCount, flags := picFlags f.1 f.2.1 f.2.2 false false false, concealed := 0,
      at_ := s.presentAt sid 0 frame, pts := s.pts sid frame, width := o.1, height := o.2, depth := (s.outForm sid 0).2.1,
      image := s.canvasImage sid frame }
  else
    let p := (s.layerPic sid 0 frame).getD (s.flatPic sid 0 frame 0 false true)
    { s.picOut sid 0 p with width := o.1, height := o.2, depth := (s.outForm sid 0).2.1, image := s.passImage sid 0 p.image }

/-- A strip of a stream without encode, of its picture of frame F, goes to its raw outputs; the last strip completes the picture. -/
def State.rawStrip (s : State) (sid frame strip : Nat) : State :=
  let o := s.conditionedOut sid frame
  let lines := 64 * (strip + 1)
  let s := s.toStreams sid (min lines o.height) o.image (o.flags.testBit 0)
  if o.height ≤ lines then
    let s := s.rawPictureOut sid o
    if s.streamType sid = 3 then s.setLayer sid 0 { s.layer sid 0 with outCount := ((s.layer sid 0).outCount + 1) % 2 ^ 24 } else s
  else s

/-- The frame of a strip's picture. -/
def State.stripFrame (s : State) (sid pass pic : Nat) : Nat :=
  match (s.fedBy sid pass).findSome? fun r => s.encPic sid r pic with
  | some p => p.frame
  | none => pic

/-- A source of a strip's picture, its crop (R248), and whether FOLLOW follows it (R255). -/
structure StripSource where
  image : Image
  x : Nat
  y : Nat
  w : Nat
  h : Nat
  leads : Bool
  deriving DecidableEq, Repr

def State.stripSources (s : State) (sid pass pic : Nat) : List StripSource :=
  let frame := s.stripFrame sid pass pic
  if pass = composePass then (s.composed sid).filterMap fun n => match s.layerShows sid n frame with
    | .picture p => let q := s.layerPlace sid n; some ⟨p.image, q.x, q.y, q.w, q.h, n == 0⟩
    | _ => none
  else
    let c := s.rungCond sid pass
    match s.encPic sid pass pic with
    | some p => [⟨p.input, c.x, c.y, c.w, c.h, true⟩]
    | none => ((s.layerPic sid 0 frame).map fun p => ⟨p.image, c.x, c.y, c.w, c.h, true⟩).toList

/-- The colour code of what a pass turns out (R255). -/
def State.stripCode (s : State) (sid pass pic : Nat) : Nat :=
  if pass = composePass then (s.canvasCode sid (s.stripFrame sid pass pic)).1
  else s.shownCode sid pass (match s.encPic sid pass pic with
    | some p => p.rap
    | none => true)

/-- Counts of a strip (R248, R255, R271): its pixels, the tiles that were turned, the bytes corrected, and with the first strip each source
whose colour passes unconverted and each that its crop exceeds. -/
def State.countStrip (s : State) (ic sid pass pic strip : Nat) (turns : Bool) (corrected : Nat) : State :=
  let o := s.passSize sid pass
  let src := s.stripSources sid pass pic
  let code := s.stripCode sid pass pic
  let follows := decide ((s.outColour sid (if pass = composePass then 0 else pass)).1 = 0)
  let odd := (src.filter fun e => mismatched (s.codeOf sid e.image) code || (follows && e.leads && s.codeOf sid e.image != code)).length
  let clipped := (src.filter fun e => cropClips e.x e.y e.w e.h e.image.width e.image.height).length
  let s := s.bumpBy Od.ic_PIXELS_OUT ic 0 (o.1 * min 64 (o.2 - 64 * strip))
  let s := if turns then s.bumpBy Od.ic_TILES_TURNED ic 0 (blocks64 o.1) else s
  let s := s.bumpBy Od.ic_CORRECTED ic 0 corrected
  if strip = 0 then (s.bumpBy Od.cond_COLOUR_MISMATCH sid 0 odd).bumpBy Od.cond_CROP_CLIPPED sid 0 clipped else s

/-- The pass of a stream on a conditioner. [DEDUCED, unsafe: log entry 44.] -/
def State.passOn (s : State) (ic sid pass : Nat) : Option Pass :=
  (s.stream sid).passes.find? fun p => decide (p.pass = pass ∧ p.ic = ic)

/-- Changes a pass. -/
def State.mapPass (s : State) (sid pass : Nat) (f : Pass → Pass) : State :=
  s.setStream sid { s.stream sid with passes := mapIf (fun p : Pass => decide (p.pass = pass)) f (s.stream sid).passes }

/-! ### The start of a frame -/

/-- The composition of frame F begins: a picture of every rung, whose strips follow. A layer that is not bound to the domain gives its most
recent complete picture; one whose new picture is absent repeats the previous one (R261). -/
def State.composeFrame (s : State) (sid frame : Nat) : State :=
  let before := (frame + 2 ^ 40 - 1) % 2 ^ 40
  let s := (s.composed sid).foldl (fun t n =>
    let l := t.layer sid n
    let gave := l.given.head?
    if n ∈ t.decodeLayers sid then t
    else if t.layerBound sid n then
      match gave with
      | none => t
      | some e =>
        if e.1 = before ∨ (0 < l.rawLines ∧ l.rawFrame = before) then t
        else (t.setLayer sid n (l.give before { e.2 with again := true })).bump Od.cond_LAYER_REPEATS sid
    else match l.last with
      | none => t
      | some p =>
        let same := match gave with
          | some e => e.2.pic == p.pic
          | none => false
        let t := t.setLayer sid n (l.give frame { p with again := same })
        if same then t.bump Od.cond_LAYER_REPEATS sid else t) s
  s.newPics sid frame (s.composedFlags sid frame).1

/-- A decode layer at the start of frame F + 1 (R237, R241): a LIVE layer without a picture of frame F repeats or fills; a
PACED layer outputs what is due. A composition counts the repeat. -/
def State.layerFrame (s : State) (sid n next : Nat) : State :=
  let l := s.layer sid n
  match s.streamClass sid with
  | 0 =>
    let frame := (next + 2 ^ 40 - 1) % 2 ^ 40
    if l.shown = some frame then s
    else
      let s := s.fillPic sid n frame
      if s.streamType sid = 3 then s.bump Od.cond_LAYER_REPEATS sid else s
  | 1 =>
    let frame := (next + 2 ^ 40 - (1 + l.reorder)) % 2 ^ 40
    let due := l.waiting.filter fun p => !s.later (s.streamDomain sid) ⟨p.frame, 0, 0⟩ ⟨frame, 0, 0⟩
    if due ≠ [] then s.outputWaiting sid n due
    else
      let s := s.fillPic sid n frame
      if s.streamType sid = 3 then s.bump Od.cond_LAYER_REPEATS sid else s
  | _ => s

/-! ### PLAYOUT (R98, R99) -/

/-- The entry that falls due at a frame start: the latest whose START has come and which has not fallen due before. -/
def State.dueEntry (s : State) (sid : Nat) (t : RTime) : Option (Nat × PlaylistEntry) :=
  let x := s.stream sid
  let es := (x.playlist.zip (List.range x.playlist.length)).map fun e => (e.2, e.1)
  ((es.drop x.passed).filter fun e => !s.later (s.streamDomain sid) e.2.start t).getLast?

/-- What plays at the frame start t: the entry that falls due, the next picture, or what END_ACTION says. The second part
tells that an entry fell due. [DESIGN CHOICE, unsafe: log entry 41.] -/
def State.playNext (s : State) (sid : Nat) (t : RTime) : Option Playing × Bool :=
  match s.dueEntry sid t with
  | some (k, e) => (some { entry := k, clip := e.clip, next := 0, cut := true }, true)
  | none => match (s.stream sid).playing with
    | none => (none, false)
    | some p =>
      let n := match tfind s.streams.clips p.clip with
        | some c => c.meet.pictures
        | none => 0
      if p.next + 1 < n then (some { p with next := p.next + 1 }, false)
      else if s.get Od.st_END_ACTION sid = 1 then (some { p with next := 0 }, false)
      else (some { p with next := n }, false)

/-- Decoding of a clip's picture begins, one frame before it is shown: all its data is there (R98). -/
def State.startClipPic (s : State) (sid frame : Nat) (p : Playing) (cut : Bool) : State :=
  match tfind s.streams.clips p.clip with
  | none => s
  | some c =>
    if c.meet.pictures ≤ p.next then s
    else
      let l := s.layer sid 0
      let m := c.meet
      let start : PicStart := {
        format := m.format, profile := m.profile, level := m.level, depth := m.depth, width := m.width, height := m.height,
        dpb := (s.layerCfg sid 0).dpb, reorder := 0, position := p.next, lost := 0,
        refs := if p.next ∈ m.raps then [] else [(p.next : Int) - 1], rap := decide (p.next ∈ m.raps), cra := false, rasl := false,
        recovery := none, pts := s.pts sid frame, at_ := none }
      let pic : DecPic := { pic := l.picCount, start := start, frame := frame, rows := List.replicate (decRows m.format m.height) { state := 1 },
                            closed := true, ended := true, cells := s.stageCells sid 0, data := [s.hbmBytes c.addr c.size] }
      let paced := decide (s.streamClass sid = 1)
      let buffer := if cut then [] else trimBuffer start.refs 16 l.buffer
      let old := if cut && paced then l.pics.map fun (q : DecPic) => { q with dropped := true } else l.pics
      let l := { l with format := m.format, profile := m.profile, level := m.level, width := m.width, height := m.height,
                        picCount := l.picCount + 1, pics := old ++ [pic], buffer := buffer, shown := if paced then l.shown else some frame,
                        reorder := 0, tainted := l.tainted && !start.rap }
      let s := (s.setLayer sid 0 l).bump Od.ss_PICTURES_IN sid
      if paced then s else s.newPics sid frame false

/-- The entry whose first picture the frame that starts now shows has fallen due (R98).
[DESIGN CHOICE, unsafe: log entry 41.] -/
def State.countSplice (s : State) (sid : Nat) : State :=
  match (s.stream sid).playing with
  | some p =>
    if p.cut then
      (((s.setStream sid { s.stream sid with playing := some { p with cut := false } }).bump Od.ss_SPLICES sid).streamEvent sid 6).set
        Od.ss_PLAYLIST_POS sid p.entry
    else s
  | none => s

/-- A frame of a PLAYOUT stream without a picture of a clip: the last picture again, or black after the end of a clip (R98). -/
def State.playNothing (s : State) (sid label : Nat) (ended : Bool) : State :=
  if ended ∧ s.get Od.st_END_ACTION sid = 2 then
    let s := s.setLayer sid 0 { s.layer sid 0 with shown := some label }
    s.presentPic sid 0 (s.flatPic sid 0 label (s.pts sid label) true false) false true
  else s.fillPic sid 0 label

/-- A PACED PLAYOUT stream at the start of a frame outputs the clip's pictures that fall due with it; with none due, or one still
under way, whose SLIPS count when it completes, the frame has no picture of its own (R82, R98, R241). -/
def State.playPaced (s : State) (sid frame : Nat) : State :=
  let l := s.layer sid 0
  let due := fun (f : Nat) => s.later (s.streamDomain sid) ⟨frame, 0, 0⟩ ⟨f, 0, 0⟩
  let ready := l.waiting.filter fun p => due p.frame
  if ready ≠ [] then s.outputWaiting sid 0 ready
  else s.playNothing sid ((frame + 2 ^ 40 - 1) % 2 ^ 40) ((s.stream sid).playing.isSome && !l.pics.any fun p => due p.frame)

/-- A PLAYOUT stream at the start of frame F: the pictures that a PACED one owes leave, the picture of frame F + 1 begins to be
decoded, and a splice that falls due now is counted. A PACED picture's source frame is F, so that its deadline is frame F + 1. -/
def State.playFrame (s : State) (sid frame : Nat) : State :=
  let next := (frame + 1) % 2 ^ 40
  let paced := decide (s.streamClass sid = 1)
  let s := s.countSplice sid
  let s := if paced then s.playPaced sid frame else s
  let q := s.playNext sid ⟨next, 0, 0⟩
  let s := match q.1 with
    | none => s
    | some p =>
      let x := s.stream sid
      let s := s.setStream sid { x with playing := some p, passed := if q.2 then p.entry + 1 else x.passed }
      s.startClipPic sid (if paced then frame else next) p q.2
  if s.streamClass sid = 0 ∧ (s.layer sid 0).shown ≠ some next then s.playNothing sid next q.1.isSome else s

/-- A stream at the start of frame F of its domain. -/
def State.streamFrame (s : State) (sid frame : Nat) : State :=
  if ¬ s.takesPictures sid then s
  else
    let s := match s.streamType sid with
      | 4 => s.playFrame sid frame
      | _ => (s.decodeLayers sid).foldl (fun t n => t.layerFrame sid n frame) s
    if s.streamType sid = 3 then s.composeFrame sid frame else s

end Sys2Proof.Machine
end

