-- ==== Sys2Proof/Machine/Condition.lean ====
section
/-! DEFINITION. The meanings of conditioning passes (R252, R265), but for writes. -/

namespace Sys2Proof.Machine

/-- ROTATION_PASS_START (R252): the pass takes the tile banks of its conditioner's even crown, or of the odd one while that is
under reset; with both under reset it waits. -/
def execRotationPassStart (ic : Fin 8) (sid : Fin 512) (pass : Nat) (s : State) : Host.Outcome State Fault Refusal :=
  let free : Nat → Bool := fun cw => s.get Od.crown_POWER_STATE cw != 3
  done (match s.passOn ic sid pass with
    | none => s
    | some p =>
      if ¬ p.rotates ∨ p.started ∨ ¬ (free (2 * ic) ∨ free (2 * ic + 1)) then s
      else
        let cw := if free (2 * ic) then 2 * ic.val else 2 * ic.val + 1
        (s.mapPass sid pass fun q => { q with started := true, crown := cw, stripAt := s.cycle }).set Od.ic_TILE_CROWN ic cw)

/-- STRIP_WRITTEN (R265): a strip of a rotating pass counts once the pass has started; its last strip ends the pass. Of a
stream without encode, `pic` is the source frame. -/
def execStripWritten (ic : Fin 8) (sid : Fin 512) (pass pic strip corrected : Nat) (s : State) :
    Host.Outcome State Fault Refusal :=
  done (match s.passOn ic sid pass with
    | none => s
    | some p =>
      if p.rotates ∧ ¬ p.started then s
      else
        let s := (s.countStrip ic sid pass pic strip p.rotates corrected).mapPass sid pass fun q => { q with stripAt := s.cycle }
        let h := (s.passSize sid pass).2
        let s := if p.rotates ∧ h ≤ 64 * (strip + 1) then s.mapPass sid pass fun q => { q with started := false } else s
        if s.encodes sid then s.feedStrip sid pass pic strip ic else s.rawStrip sid pic strip)

end Sys2Proof.Machine
end

