-- ==== Sys2Proof/Machine/Decode.lean ====
section
/-! DEFINITION. The meanings of decode inputs and decode deadlines (R208–R245, R269). -/

namespace Sys2Proof.Machine

/-- The queue of an input layer. -/
def State.layerQueue (s : State) (sid n : Nat) : Option Nat := (s.queues.inputOwner.find? fun e => e.2 = some (sid, n)).map fun e => e.1

/-- A packet of a network input reaches batts; a Chaec Link or host packet stands in its queue already (R311, R374, R423).
The answer is none where back-pressure, or the want of batts, discarded it (R217). -/
def State.takePacket (s : State) (sid n kind : Nat) (port : Option Nat) (bytes : List Byte) : State × Bool :=
  match port with
  | none => (s, true)
  | some f =>
    if kind = 2 then (s, true)
    else match s.ingest f (s.streamPri sid) bytes with
      | (t, none) => (t, false)
      | (t, some es) => match t.layerQueue sid n with
        | none => (t.decrementAll es, true)
        | some q => (t.append q { pri := s.streamPri sid, entries := es }, true)

/-- The synchronization source of an RTP input (R211): locked to, or changed after INPUT_TIMEOUT frames of silence. -/
def State.lockSsrc (s : State) (sid n ssrc : Nat) : State × Bool :=
  let l := s.layer sid n
  let frame := (s.now (s.streamDomain sid)).frame
  let quiet := match l.lastPacket with
    | some f => decide (s.get Od.dec_INPUT_TIMEOUT sid ≤ (frame + 2 ^ 40 - f) % 2 ^ 40)
    | none => true
  match l.ssrc with
  | none => (s.setLayer sid n { l with ssrc := some ssrc, lastPacket := some frame }, true)
  | some x =>
    if x = ssrc then (s.setLayer sid n { l with lastPacket := some frame }, true)
    else if quiet then ((s.setLayer sid n { l with ssrc := some ssrc, lastPacket := some frame }).discontinue sid n, true)
    else (s, false)

/-- What a raw picture that begins says of itself: layout, depth, width, height. A host picture is preceded by the descriptor of R243, of
which SID and PIC are not read (R268); an RTP one comes in the sampling of its session (R269). -/
def rawStart (kind : Nat) (bytes : List Byte) (q : PicStart) : Nat × Nat × Nat × Nat :=
  if kind = 3 then
    let w := leAt bytes 27 9
    (bits w 28 6, bits w 36 4, bits w 56 16, bits w 40 16)
  else (q.format, q.depth, q.width, q.height)

/-- A raw picture that a layer does not take: from the host of another layout or too large a size (R268); from a port of a sampling that R269
does not list, by the layout that has it. -/
def State.rawRefused (s : State) (sid n kind : Nat) (q : Nat × Nat × Nat × Nat) : Bool :=
  let c := s.layerCfg sid n
  if kind = 3 then decide (q.1 ≠ s.get Od.cond_RAW_LAYOUT_IN sid ∨ c.width < q.2.2.1 ∨ c.height < q.2.2.2)
  else !decide (q.1 ∈ [5, 6, 9, 10, 12, 13]) || !decide (q.2.1 = 8 ∨ (q.1 ≠ 12 ∧ (q.2.1 = 10 ∨ q.2.1 = 12)))

/-- A raw picture begins (R268, R269): what stood in its layer before shows where samples are lost, or mid-level. A picture under way ends.
[DESIGN CHOICE, unsafe: log entry 40.] -/
def State.rawBegin (s : State) (sid n kind : Nat) (p : InputPacket) (q : PicStart) : State :=
  let l := s.layer sid n
  let s := if 0 < l.rawLines then s.rawIn sid n l.rawImage.height l.rawImage none l.tainted else s
  let l := s.layer sid n
  let r := rawStart kind p.bytes q
  let bad := s.rawRefused sid n kind r
  let colour := if kind = 3 ∨ layoutRgb r.1 then none else q.colour
  let blank := rawBlank r.1 r.2.1 r.2.2.1 r.2.2.2 colour
  let image := match l.last with
    | some h => if h.image.width = blank.width ∧ h.image.height = blank.height ∧ h.image.depth = blank.depth ∧ h.image.chroma = blank.chroma ∧
        h.image.rgb = blank.rgb ∧ h.image.planes.length = blank.planes.length then h.image else blank
    | none => blank
  let s := s.setLayer sid n { l with width := r.2.2.1, height := r.2.2.2, format := r.1, waitingRap := bad, rawHoles := false,
                                     rawImage := { image with colour := colour }, rawBytes := [] }
  if bad ∧ kind = 3 then s.bump Od.cond_RAW_REJECTED sid else s

/-- The samples of a raw packet enter its layer's picture: each pgroup by its line and offset (R269), the bytes of a host picture in its
layout (R267). -/
def LayerState.rawTake (l : LayerState) (kind : Nat) (p : InputPacket) : LayerState :=
  if kind = 3 then
    let bs := l.rawBytes ++ if p.start.isSome then p.bytes.drop 36 else p.bytes
    { l with rawBytes := bs, rawImage := Sys2Proof.rawImage l.format l.rawImage.depth 0 l.width l.height l.rawImage.colour bs }
  else { l with rawImage := l.rawImage.putPayload l.format (rtpPayload p.bytes) }

/-- Raw video of a packet (R268, R269). A host picture of another layout or too large a size is rejected whole. Samples of lost packets keep
older values, so their lines count as come. [DESIGN CHOICE, unsafe: log entry 40.] -/
def State.rawPacket (s : State) (sid n kind : Nat) (p : InputPacket) : State :=
  let s := match p.start with
    | none => s
    | some q => s.rawBegin sid n kind p q
  let l := (s.layer sid n).rawTake kind p
  if l.waitingRap ∨ l.rawImage.planes = [] then s
  else
    let s := s.setLayer sid n l
    let lines := if p.ends then l.rawImage.height else min l.rawImage.height (l.rawLines + p.lines)
    if lines = 0 then s else s.rawIn sid n lines l.rawImage none l.tainted

/-- A packet that is kept says what it says. [DESIGN CHOICE, unsafe: log entry 40.] -/
def State.usePacket (s : State) (sid n m : Nat) (e : InEntry) (p : InputPacket) : State :=
  if e.compressed (s.streamType sid) then s.applyPacket sid n m p
  else (s.rawPacket sid n e.kind p).freeInput sid n 1

/-- stream_type of a format in a programme (R213). -/
def streamTypeOf (format : Nat) : Nat := match format with | 0 => 0x24 | 1 => 0x1B | _ => 0x06

/-- The PID of the elementary stream that a layer takes from its transport stream (R213): PID of LAYER_CFG, or that of the first elementary
stream of FORMAT in the programme PROGRAM, or in the first one. -/
def State.videoPid (s : State) (sid n : Nat) : Option Nat :=
  let c := s.layerCfg sid n
  if c.pid ≠ 0 then some c.pid
  else match (s.layer sid n).programmes.find? fun g => decide (c.program = 0) || g.number == c.program with
    | none => none
    | some g => (g.streams.find? fun e => e.1 == streamTypeOf c.format && (decide (c.format ≤ 1) || e.2.2)).map fun e => e.2.1

/-- A packet of a transport stream that is not the layer's: another PID, or programme information, which is kept (R213). -/
def State.aside (s : State) (sid n kind : Nat) (p : InputPacket) : Option State :=
  if kind ≠ 1 then none
  else match p.programmes with
    | some gs => some (s.setLayer sid n { s.layer sid n with programmes := gs })
    | none => if s.videoPid sid n = some p.pid then none else some s

/-- INPUT_PACKET_ARRIVAL (R211–R217, R238). -/
def execInputPacketArrival (port : Option (Fin 128)) (sid : Fin 512) (layer : Fin 16) (p : InputPacket) (s : State) :
    Host.Outcome State Fault Refusal :=
  done (match (s.inputs sid).find? fun e => e.layer % 16 = layer.val with
    | none => s
    | some e =>
      if ¬ s.takesPictures sid ∨ e.kind = 4 then s
      else
        let c := s.layerCfg sid layer
        let m := seqModulus e.kind c.fec
        let ts := decide (e.kind = 1 ∧ c.fec = 0)
        match s.takePacket sid layer e.kind (port.map fun f => f.val) p.bytes with
        | (t, false) => t
        | (t, true) =>
          match t.lockSsrc sid layer p.ssrc with
          | (u, false) => u.freeInput sid layer 1
          | (u, true) =>
            match u.aside sid layer e.kind p with
            | some v => v.freeInput sid layer 1
            | none =>
            let u := if p.discont then u.discontinue sid layer else u
            if e.kind = 3 then u.usePacket sid layer m e p
            else
              let win := u.get Od.dec_REORDER_WINDOW sid
              let r := (u.layer sid layer).order m (if c.fec = 0 then win else max win p.fecWindow) p.seq
                (linear (u.lpf (u.streamDomain sid)) (u.now (u.streamDomain sid))) ts (p.recovered && c.fec != 0) p.errored
              match r.2 with
              | .discard => (u.setLayer sid layer r.1).freeInput sid layer 1
              | .keep => (u.setLayer sid layer r.1).usePacket sid layer m e p
              | .jump =>
                let v := (u.setLayer sid layer r.1).discontinue sid layer
                (v.setLayer sid layer { v.layer sid layer with highest := some p.seq }).usePacket sid layer m e p)

/-- A gap of a layer has been seen for REORDER_LINES lines of the stream's domain (R212). -/
def State.gapDue (s : State) (sid n seq : Nat) : Bool :=
  let rd := s.streamDomain sid
  let now := linear (s.lpf rd) (s.now rd)
  (s.layer sid n).gaps.any fun g => g.1 == seq &&
    decide (65536 * s.get Od.dec_REORDER_LINES sid ≤ (now + countCycle (s.lpf rd) - g.2) % countCycle (s.lpf rd))

/-- GAP_DECLARE_TIMEOUT (R212): not before REORDER_LINES lines have passed. -/
def execGapDeclareTimeout (sid : Fin 512) (layer : Fin 16) (seq : Nat) (damage : List Damage) (s : State) :
    Host.Outcome State Fault Refusal :=
  let l := s.layer sid layer
  done (match (s.inputs sid).find? fun e => e.layer % 16 = layer.val with
    | none => s
    | some e =>
      let m := seqModulus e.kind (s.layerCfg sid layer).fec
      if s.streamClass sid ≠ 2 ∧ s.gapDue sid layer seq then
        let t := s.setLayer sid layer (l.declare [seq])
        let mine := (l.pics.filter fun q => decide (0 ≤ seqDiff m seq q.seq)).getLast?
        let t := match mine with
          | some q => t.damage sid layer q.pic damage
          | none => t
        t.closeDue sid layer m
      else s)

/-- DECODE_GIVEUP (R222): not before G(r). -/
def execDecodeGiveup (sid : Fin 512) (layer : Fin 16) (pic row : Nat) (s : State) : Host.Outcome State Fault Refusal :=
  done (match s.decPic sid layer pic with
    | some p => if s.atG sid p row then s.giveUpDue sid layer pic row else s
    | none => s)

/-- M(r) of a LIVE decode row lies in the past, or is now (R221). -/
def State.atM (s : State) (sid : Nat) (p : DecPic) (r : Nat) : Bool :=
  let rd := s.streamDomain sid
  let w := p.start.width
  let h := p.start.height
  let m := s.lineOf sid p.frame ((s.displayLine sid h r + s.ddOffset sid w h : Nat) - (s.mxLines sid w : Int))
  decide (s.streamClass sid = 0) && !s.later rd m (s.now rd)

/-- MOTION_DECISION_DEADLINE (R225): a LIVE row whose decision has not come by M(r) is LATE if it is damaged, now or later. -/
def execMotionDecisionDeadline (sid : Fin 512) (layer : Fin 16) (pic row : Nat) (s : State) : Host.Outcome State Fault Refusal :=
  done (match s.decPic sid layer pic with
    | none => s
    | some p =>
      let w := p.row row
      if s.atM sid p row ∧ row < p.rows.length ∧ ¬ w.finished ∧ w.method = 0 then
        if w.damage = [] then s.mapDec sid layer pic fun q => q.withRow row fun w => { w with late := true }
        else (s.concealRow sid layer pic row true).progress sid layer pic
      else s)

/-- No packet of a layer's input has arrived for INPUT_TIMEOUT frames (R237). -/
def State.inputSilent (s : State) (sid n : Nat) : Bool :=
  match (s.layer sid n).lastPacket with
  | some f => decide (s.get Od.dec_INPUT_TIMEOUT sid ≤ ((s.now (s.streamDomain sid)).frame + 2 ^ 40 - f) % 2 ^ 40)
  | none => true

/-- INPUT_TIMEOUT (R237): not before INPUT_TIMEOUT frames of silence. -/
def execInputTimeout (sid : Fin 512) (layer : Fin 16) (s : State) : Host.Outcome State Fault Refusal :=
  done (if s.streamState sid = stRunning ∧ layer.val ∈ s.decodeLayers sid ∧ s.inputSilent sid layer then
    s.setLayer sid layer { s.layer sid layer with inputLost := true } else s)

end Sys2Proof.Machine
end

