-- ==== Sys2Proof/Machine/Egress.lean ====
section
/-! DEFINITION. The meanings of egress scheduling (R400–R413), but for the writes of GATE_APPLY. -/

namespace Sys2Proof.Machine

/-- EGRESS_START (R392, R400). -/
def execEgressStart (p : Fin 128) (s : State) : Host.Outcome State Fault Refusal :=
  if s.portActive p then done (s.startNext p) else done s

/-- EGRESS_PACKET_END (R168, R313, R403). -/
def execEgressPacketEnd (p : Fin 128) (s : State) : Host.Outcome State Fault Refusal := done (s.endPacket p)

/-- CALENDAR_SLOT (R404). -/
def execCalendarSlot (p : Fin 128) (s : State) : Host.Outcome State Fault Refusal := done (s.passSlot p)

/-- GATE_ENTRY_BOUNDARY (R408). -/
def execGateEntryBoundary (p : Fin 128) (s : State) : Host.Outcome State Fault Refusal := done (s.passGate p)

/-- GATE_CHANGE_START: not before the pending change's start (R411). -/
def execGateChangeStart (p : Fin 128) (s : State) : Host.Outcome State Fault Refusal :=
  done (if s.gateChangeDue p then s.startGates p else s)

end Sys2Proof.Machine
end

