-- ==== Sys2Proof/Machine/Encode.lean ====
section
/-! DEFINITION. The meanings of encoding deadlines and timers (R82, R160, R167, R180), but for writes. -/

namespace Sys2Proof.Machine

/-- ROW_COMPLETION_DEADLINE (R82, R167) at the raster time word `cd`, which must be the row's CD(r): a LIVE row not complete by CD(r)
leaves as its brim row, and not before CD(r). -/
def execRowCompletionDeadline (sid : Fin 512) (rung : Fin 8) (pic row cd : Nat) (s : State) : Host.Outcome State Fault Refusal :=
  done (match s.encPic sid rung pic with
    | some p => if cd = RTime.word (s.completionDeadline sid p.frame p.cfg.height row) ∧ s.atCd sid p row then s.rowDeadlineDue sid rung pic row else s
    | none => s)

/-- A PACED picture of frame F is one frame past its deadline, which lies n frames after F (R82). -/
def State.slipOver (s : State) (sid frame n : Nat) : Bool :=
  let rd := s.streamDomain sid
  !s.later rd (State.frameDeadline frame (n + 1)) (s.now rd)

/-- PACED_SLIP_EXPIRY (R82, R194, R220, R224): one frame after its deadline the rows of a picture that are still incomplete are
brim-coded, and count in LATE_ROWS or the fault records, or are concealed as LATE. The picture is one of an encode rung, or of a
decode stage. -/
def execPacedSlipExpiry (sid : Fin 512) (encode : Bool) (stage pic : Nat) (s : State) : Host.Outcome State Fault Refusal :=
  done (if s.streamClass sid ≠ 1 then s
  else if encode then
    match s.encPic sid stage pic with
    | none => s
    | some p =>
      if ¬ s.slipOver sid p.frame (1 + p.cfg.gopB + p.cfg.lookahead) then s
      else
        let open_ := (List.range p.rows.length).filter fun r => decide ((p.row r).state < 2)
        let late := (open_.filter fun r => !(p.row r).recover).length
        let s := ((s.setEncPic sid { p with slipped := true }).bump Od.ss_SLIPS sid).bumpBy Od.ss_LATE_ROWS sid 0 late
        open_.foldl (fun t r => t.lateRow sid stage pic r) (s.streamEvent sid 5)
  else
    match s.decPic sid stage pic with
    | none => s
    | some p =>
      if ¬ s.slipOver sid p.frame (1 + p.start.reorder) then s
      else
        let open_ := (List.range p.rows.length).filter fun r => !(p.row r).finished
        let s := (s.mapDec sid stage pic fun q => { q with slipped := true, closed := true }).bump Od.ss_SLIPS sid
        (open_.foldl (fun t r => t.concealRow sid stage pic r true) (s.streamEvent sid 5)).progress sid stage pic)

/-- PAT_PMT_REPEAT_TIMER (R180): PAT and PMT every 100 ms, and a PCR within 20 ms of the last one. -/
def execPatPmtRepeatTimer (sid : Fin 512) (rung : Fin 8) (s : State) : Host.Outcome State Fault Refusal :=
  done (if s.takesPictures sid then s.tsTimer sid rung else s)

end Sys2Proof.Machine
end

