-- ==== Sys2Proof/Machine/TableOps.lean ====
section
/-! DEFINITION. TABLE_SYNC's staged sets (R390, R391) and the shadow compare (R388). -/

namespace Sys2Proof.Machine

/-! ### Records -/

/-- Bytes of a record of a table. -/
def recordSize (table : Nat) : Nat := if table = 0 then 18 else if table = 1 then 27 else 512

/-- A replication list's record: number, members, and whether its members are in order. -/
def listRecord (bs : List Byte) : Nat × List Nat :=
  (leAt bs 0 2, (List.range (leAt bs 2 1)).map fun k => leAt bs (4 + 2 * k) 2)

/-- A member names a port or an internal queue. -/
def memberOk (m : Nat) : Bool := decide (m < 0x80 ∨ (0x8000 + 1024 ≤ m ∧ m ≤ 0x8000 + 2047))

/-- A record that TABLE_SYNC may write. -/
def recordOk (table : Nat) (bs : List Byte) : Bool :=
  if table = 1 then decide (bits (leAt bs 0 9) 67 2 ≠ 1 ∧ bits (leAt bs 0 9) 67 2 ≠ 2)
  else if table = 2 then
    decide (1 ≤ leAt bs 2 1 ∧ leAt bs 2 1 ≤ 254 ∧ leAt bs 0 2 < 4096) && (listRecord bs).2.all memberOk
  else true

/-- The change that a record stages: an insertion, or (MODE 1) a deletion. Entries written by TABLE_SYNC are VALID and of its
ORIGIN. [DESIGN CHOICE, unsafe: log entry 50.] -/
def stagedOf (table : Nat) (delete : Bool) (bs : List Byte) : Staged :=
  let w0 := leAt bs 0 9
  if table = 0 then
    if delete then .emDel (keyOf w0) else .emPut (setBits (setBit w0 71) 66 2 1) (leAt bs 9 9)
  else if table = 1 then
    if delete then .lpmDel w0 (leAt bs 9 9) (leAt bs 18 9)
    else .lpmPut (setBits (setBit w0 71) 67 2 0) (leAt bs 9 9) (leAt bs 18 9)
  else if delete then .listDel (leAt bs 0 2)
  else .listPut (listRecord bs).1 (listRecord bs).2

/-- The change that empties a table of its TABLE_SYNC entries (MODE 2). -/
def stagedClear (table : Nat) : Staged := if table = 0 then .emClear else if table = 1 then .lpmClear else .listClear

/-! ### Applying staged changes -/

/-- One staged change; none where an insertion cannot be placed. -/
def State.applyStaged (s : State) (c : Staged) : Option State :=
  match c with
  | .emPut w0 w1 => s.insertEntry w0 w1
  | .emDel key =>
    match s.fabric.copy0.lookup key with
    | some (i, _) => some (s.clearSlot i)
    | none => some s
  | .emClear => some (s.writeTables fun t => { t with em := t.em.filter fun e => decide (emOrigin e.2 ≠ 1) })
  | .lpmPut w0 w1 w2 =>
    let l := lpmInsert ⟨w0, w1, w2⟩ s.fabric.copy0.routes
    if 4096 < l.length then none else some (s.setRoutes l)
  | .lpmDel w0 w1 w2 =>
    let e : LpmEntry := ⟨w0, w1, w2⟩
    some (s.setRoutes (s.fabric.copy0.routes.filter fun d => !(d.sameKey e && decide (d.origin ≠ 1 ∧ d.origin ≠ 2))))
  | .lpmClear => some (s.setRoutes (s.fabric.copy0.routes.filter fun d => decide (d.origin ≠ 0)))
  | .listPut n ms => some { s with fabric := { s.fabric with lists := tset s.fabric.lists n ms } }
  | .listDel n => some { s with fabric := { s.fabric with lists := tdel s.fabric.lists n } }
  | .listClear => some { s with fabric := { s.fabric with lists := [] } }

/-- A whole set, in order; none where one insertion cannot be placed. -/
def State.applyAll : State → List Staged → Option State
  | s, [] => some s
  | s, c :: cs => match s.applyStaged c with
    | none => none
    | some t => State.applyAll t cs

/-- The staged set takes effect (R391). -/
def State.commitStaged (s : State) : State :=
  match s.applyAll s.fabric.staged with
  | some t => { t with fabric := { t.fabric with staged := [] } }
  | none => { s with fabric := { s.fabric with staged := [] } }

/-- The bytes of COUNT records at BASE, or the failing result. -/
def State.syncSource (s : State) (base n : Nat) : State × (Nat ⊕ List Byte) :=
  if base % 4096 ≠ 0 then (s, .inl Result.alignment)
  else if (s.regionAt base n).isNone ∨ s.touchesPicture base n then (s, .inl Result.noSuchTarget)
  else match s.hbmRead 157 base n ⟨[], 0, 0, []⟩ with
    | (t, .data bs) => (t, .inr bs)
    | (t, _) => (t, .inl Result.uncorrectable)

/-- Modes 0 to 2: the set is staged whole, or nothing is. -/
def State.stageSync (s : State) (table base count : Nat) (clear delete : Bool) : State × Option (Nat × List Byte) :=
  match s.syncSource base (count * recordSize table) with
  | (t, .inl r) => answer t r
  | (t, .inr bs) =>
    let recs := pieces (recordSize table) bs
    if ¬ recs.all (fun b => delete || recordOk table b) then answer t Result.outOfRange
    else
      let set := t.fabric.staged ++ (if clear then [stagedClear table] else []) ++ recs.map (stagedOf table delete)
      if (t.applyAll set).isNone then answer t Result.tableFull
      else answer { t with fabric := { t.fabric with staged := set } } Result.ok (leBytes 4 count)

/-- Records of a table's present entries, in slot order (MODE 3). -/
def State.tableRecords (s : State) (table : Nat) : List (List Byte) :=
  if table = 0 then (s.fabric.copy0.em.filter fun e => emValid e.2).map fun e => leBytes 9 e.2.1 ++ leBytes 9 e.2.2
  else if table = 1 then s.fabric.copy0.routes.map fun e => leBytes 9 e.w0 ++ leBytes 9 e.w1 ++ leBytes 9 e.w2
  else s.fabric.lists.map fun e =>
    leBytes 2 e.1 ++ leBytes 1 e.2.length ++ [0#8] ++ (List.range 254).flatMap fun k => leBytes 2 (e.2.getD k 0)

/-- Zero bytes up to a page boundary. -/
def padPage (bs : List Byte) : List Byte := bs ++ List.replicate (roundUp 4096 bs.length - bs.length) 0#8

/-- Mode 3: the table is written to memory in whole pages. -/
def State.dumpTable (s : State) (table base count : Nat) : State × Option (Nat × List Byte) :=
  let span := roundUp 4096 (count * recordSize table)
  if base % 4096 ≠ 0 then answer s Result.alignment
  else if (s.regionAt base span).isNone ∨ s.touchesPicture base span then answer s Result.noSuchTarget
  else
    let recs := (s.tableRecords table).take count
    let data := padPage recs.flatten
    let s := if data = [] then s else (s.hbmWrite 157 base data ⟨[], 0, 0, []⟩).1
    answer s Result.ok (leBytes 4 recs.length)

/-! ### The shadow compare (R388) -/

/-- What a step of the compare does to a slot. -/
inductive Judged where
  | same | restore | invalidate | reshadow
  deriving DecidableEq, Repr

/-- The judgement of one slot: `learned` is the entry's kind by the shadow; whether each copy differs. -/
def judge (learned d0 d1 : Bool) (m : CompareMeet) : Judged :=
  if m.badShadow then (if m.bad0 then .invalidate else .reshadow)
  else if d0 || d1 || m.bad0 || m.bad1 then (if learned then .invalidate else .restore)
  else .same

/-- Counts and reports a repair of slot i in the engine whose copy failed. -/
def State.noteCompare (s : State) (j : Judged) (e slot : Nat) : State :=
  match j with
  | .restore => (s.bump Od.tab_RESTORED).report (Unit.forwarding e) 0x28 4 0xFF slot
  | .invalidate => (s.bump Od.tab_INVALIDATED).report (Unit.forwarding e) 0x29 4 0xFF slot
  | _ => s

/-- The whole word of an exact-match entry, key above data. -/
def emRaw (e : Nat × Nat) : Nat := e.1 * 2 ^ 72 + e.2

/-- The repair of one exact-match slot; d0 and d1 say whether a copy's word differs from the shadow's. -/
def State.repairEm (s : State) (slot : Nat) (d0 d1 : Bool) (m : CompareMeet) : State :=
  let a := tget s.fabric.shadow.em (0, 0) slot
  let j := judge (emLearned a) d0 d1 m
  let t := s.noteCompare j (if d0 || m.bad0 then 0 else 1) slot
  let put : TableCopy → Nat × Nat → TableCopy := fun c e => { c with em := if e = (0, 0) then tdel c.em slot else tset c.em slot e }
  match j with
  | .same => s
  | .restore => t.writeTables fun c => put c a
  | .invalidate => t.clearSlot slot
  | .reshadow => t.writeTables fun c => put c (tget s.fabric.copy0.em (0, 0) slot)

/-- The word of an exact-match slot as the read of a copy gives it: with the bits that fail on the way turned over. -/
def emSeen (c : TableCopy) (slot flip : Nat) : Nat := emRaw (tget c.em (0, 0) slot) ^^^ flip

/-- One exact-match slot. -/
def State.compareEm (s : State) (slot : Nat) (m : CompareMeet) : State :=
  let a := emRaw (tget s.fabric.shadow.em (0, 0) slot)
  s.repairEm slot (emSeen s.fabric.copy0 slot m.flip0 != a) (emSeen s.fabric.copy1 slot m.flip1 != a) m

/-- One longest-prefix slot: its entries are restored, or, with nothing clean left, invalidated. -/
def State.compareLpm (s : State) (slot : Nat) (m : CompareMeet) : State :=
  let z : LpmEntry := ⟨0, 0, 0⟩
  let a := tget s.fabric.shadow.lpm z slot
  let word : LpmEntry → Nat := fun e => (e.w0 * 2 ^ 72 + e.w1) * 2 ^ 72 + e.w2
  let d0 := decide ((word (tget s.fabric.copy0.lpm z slot) ^^^ m.flip0) ≠ word a)
  let d1 := decide ((word (tget s.fabric.copy1.lpm z slot) ^^^ m.flip1) ≠ word a)
  let j := judge false d0 d1 m
  let t := s.noteCompare j (if d0 || m.bad0 then 0 else 1) slot
  let put : TableCopy → LpmEntry → TableCopy := fun c e => { c with lpm := if e = z then tdel c.lpm slot else tset c.lpm slot e }
  match j with
  | .same => s
  | .restore => t.writeTables fun c => put c a
  | .invalidate => t.writeTables fun c => { c with lpm := tdel c.lpm slot }
  | .reshadow => t.writeTables fun c => put c (tget s.fabric.copy0.lpm z slot)

/-- The compare's lap: number 20 among the laps. It ends with the last longest-prefix slot. -/
def State.compareLap (s : State) (exact : Bool) (slot : Nat) : State :=
  if ¬ exact ∧ slot = 4095 then
    let x := tget s.mem.laps {} 20
    let ms := (s.cycle - x.startAt) / 1200000
    { s with mem := { s.mem with laps := tput s.mem.laps {} 20 { word := 0, startAt := s.cycle, last := ms } } }.set Od.tab_LAP_LAST 0 ms
  else s

end Sys2Proof.Machine
end

