-- ==== Sys2Proof/Machine/Fabric.lean ====
section
/-! DEFINITION. The meanings of fabric, carding and forwarding tables (R358–R399), but for what acts on objects at AT. -/

namespace Sys2Proof.Machine

/-! ### Carding -/

/-- CARD_START (R368). -/
def execCardStart (mode : Nat) (s : State) : Host.Outcome State Fault Refusal :=
  done (s.runCommand 0x41 (leBytes 1 mode) fun s =>
    if mode ≠ 0 then answer s Result.outOfRange
    else ((s.setCard { s.card with starting := true }).startEpoch, none))

/-- CARD_RESTART (R361): a message of a lower or equal epoch changes nothing. -/
def execCardRestart (p : Fin 128) (epoch : Nat) (s : State) : Host.Outcome State Fault Refusal :=
  if s.cardBand p ∧ s.get Od.card_EPOCH < epoch then done (s.takeEpoch epoch (some p)) else done s

/-- CARD_OFFER (R361, R362, R370, R372). -/
def execCardOffer (p : Fin 128) (o : CardOffer) (s : State) : Host.Outcome State Fault Refusal := done (s.takeOffer p o)

/-- The periodic messages are due: every 1 ms while carding, every 10 ms otherwise. -/
def State.offerDue (s : State) : Bool :=
  match s.card.offerAt with
  | none => true
  | some a => decide (a + msCycles (if s.get Od.card_CARD_STATE = 1 then 1 else 10) ≤ s.cycle)

/-- OFFER_SEND_TIMER (R362, R363, R370): a band to another fabric carries no offer. -/
def execOfferSendTimer (s : State) : Host.Outcome State Fault Refusal :=
  if s.get Od.card_CARD_STATE = 0 ∨ ¬ s.offerDue then done s
  else
    let s := s.setCard { s.card with offerAt := some s.cycle }
    let s := s.sendCards (s.cardBands.filter fun p => !s.foreignBand p) s.offerMsg
    match s.card.parent with
    | some n => done (s.sendCard n.port s.childMsg)
    | none => done s

/-- CARD_CHILD (R363). -/
def execCardChild (p : Fin 128) (epoch serial : Nat) (s : State) : Host.Outcome State Fault Refusal :=
  done (s.takeChild p epoch serial)

/-- CARD_COUNT (R363). -/
def execCardCount (p : Fin 128) (c : CardCounts) (s : State) : Host.Outcome State Fault Refusal := done (s.takeCount p c)

/-- CARD_QUIET_EXPIRY (R363–R365). -/
def execCardQuietExpiry (s : State) : Host.Outcome State Fault Refusal := done s.cardQuiet

/-- CARD_ASSIGN (R366). -/
def execCardAssign (p : Fin 128) (a : CardAssign) (s : State) : Host.Outcome State Fault Refusal := done (s.takeAssign p a)

/-- CARD_JOIN (R369). -/
def execCardJoin (p : Fin 128) (serial : Nat) (s : State) : Host.Outcome State Fault Refusal := done (s.takeJoin p serial)

/-- CARD_GRAFT (R369, R371). [DESIGN CHOICE, unsafe: log entry 50.] -/
def execCardGraft (p : Fin 128) (g : CardGraft) (s : State) : Host.Outcome State Fault Refusal := done (s.takeGraft p g)

/-- GRAFT_WAIT_EXPIRY (R371): `bands` are the ALTERNATE bands gathered. -/
def execGraftWaitExpiry (bands : List GraftBand) (s : State) : Host.Outcome State Fault Refusal := done (s.graftEnds bands)

/-- HB_SEQ is due to rise: every 10 ms. -/
def State.beatDue (s : State) : Bool :=
  match s.card.tickAt with
  | none => true
  | some a => decide (a + msCycles 10 ≤ s.cycle)

/-- HEARTBEAT_TICK (R372). -/
def execHeartbeatTick (s : State) : Host.Outcome State Fault Refusal :=
  if s.get Od.card_CARD_STATE = 2 ∧ s.get Od.card_DEPTH = 0 ∧ s.beatDue then
    done (s.setCard { s.card with hbSeq := (s.card.hbSeq + 1) % 2 ^ 32, tickAt := some s.cycle })
  else done s

/-- HEARTBEAT_MISS (R372): HB_SEQ has not advanced for HEARTBEAT_MISS × 10 ms. -/
def execHeartbeatMiss (s : State) : Host.Outcome State Fault Refusal :=
  if s.get Od.card_CARD_STATE = 2 ∧ s.get Od.card_DEPTH ≠ 0 ∧ ¬ s.card.grafting ∧
      s.card.hbAt + msCycles (10 * s.get Od.card_HEARTBEAT_MISS) ≤ s.cycle then done s.startEpoch else done s

/-- CARD_TIMEOUT_EXPIRY (R368, R369): CARD_TIMEOUT after the epoch's start. -/
def execCardTimeoutExpiry (s : State) : Host.Outcome State Fault Refusal :=
  if s.get Od.card_CARD_STATE = 1 ∧ s.card.epochAt + msCycles (s.get Od.card_CARD_TIMEOUT) ≤ s.cycle then
    if s.card.joining then done ((s.setCardState 3).reportInfo Unit.carding 0x39 0)
    else done (s.cardFails 4 Result.timeout)
  else done s

/-! ### Learning and the tables -/

/-- LEARN_APPLY (R383–R387). -/
def execLearnApply (s : State) : Host.Outcome State Fault Refusal :=
  match s.fabric.learnQ with
  | [] => done s
  | l :: ls => done ({ s with fabric := { s.fabric with learnQ := ls } }.applyLearn l)

/-- AGE_PASS (R386). -/
def execAgePass (s : State) : Host.Outcome State Fault Refusal :=
  let limit := s.get Od.tab_AGE_TIME
  if limit = 0 then done s
  else
    let old := s.fabric.copy0.em.filter fun e => emLearned e.2 && decide (limit ≤ s.ageOf e.2)
    done (old.foldl (fun t e => (t.clearSlot e.1).bump Od.tab_AGED_OUT) s)

/-- SHADOW_COMPARE_STEP (R388, R389). -/
def execShadowCompareStep (exact : Bool) (slot : Nat) (meet : CompareMeet) (s : State) : Host.Outcome State Fault Refusal :=
  if exact then
    if slot < 66560 then done ((s.compareEm slot meet).compareLap exact slot) else done s
  else if slot < 4096 then done ((s.compareLpm slot meet).compareLap exact slot)
  else done s

/-- Argument block of TABLE_SYNC (R68). -/
def syncArgs (table mode base count : Nat) : List Byte :=
  leBytes 1 table ++ leBytes 1 mode ++ leBytes 8 base ++ leBytes 4 count

/-- TABLE of a TABLE_SYNC is answered OUT_OF_RANGE at the item when it names no table (R64). -/
def State.runSync (s : State) (table mode base count : Nat) (f : State → State × Option (Nat × List Byte)) : State :=
  if 3 ≤ table then { s with lastStatus := Status.outOfRange } else s.runCommand 0x40 (syncArgs table mode base count) f

/-- TABLE_SYNC_INSERT (R390, R391). -/
def execTableSyncInsert (table base count : Nat) (s : State) : Host.Outcome State Fault Refusal :=
  done (s.runSync table 0 base count fun s => s.stageSync table base (count % 2 ^ 32) false false)

/-- TABLE_SYNC_DELETE (R390, R391). -/
def execTableSyncDelete (table base count : Nat) (s : State) : Host.Outcome State Fault Refusal :=
  done (s.runSync table 1 base count fun s => s.stageSync table base (count % 2 ^ 32) false true)

/-- TABLE_SYNC_REPLACE_ALL (R390, R391). -/
def execTableSyncReplaceAll (table base count : Nat) (s : State) : Host.Outcome State Fault Refusal :=
  done (s.runSync table 2 base count fun s => s.stageSync table base (count % 2 ^ 32) true false)

/-- TABLE_SYNC_DUMP (R390). -/
def execTableSyncDump (table base count : Nat) (s : State) : Host.Outcome State Fault Refusal :=
  done (s.runSync table 3 base count fun s => s.dumpTable table base (count % 2 ^ 32))

/-! ### Global operations -/

/-- AT closer than a lead of ns on this device's RD_0 (R393). -/
def State.leadTooShort (s : State) (at_ : RTime) (ns : Nat) : Bool :=
  decide (rdiff (s.lpf 0) at_ (s.now 0) * (s.get Od.rd_RATE_DEN 0 * 10 ^ 9 : Nat) < (ns * s.ticksPer 0 : Nat))

/-- The AT that a command names: 0 stands for the start of the second RD_0 frame after the present (R393). -/
def State.globalAt (s : State) (at_ : RTime) : RTime :=
  if RTime.word at_ = 0 then ⟨((s.now 0).frame + 2) % 2 ^ 40, 0, 0⟩ else at_

/-- Issues a global operation at AT with a least lead, or the failing result (R11, R393). -/
def State.issueGlobal (s : State) (kind : GlobalKind) (at_ : RTime) (leadNs : Nat) : State × Option (Nat × List Byte) :=
  let a := s.globalAt at_
  if ¬ s.validTime 0 a ∨ ¬ s.notTooFar 0 a then answer s Result.outOfRange
  else if s.leadTooShort a leadNs then answer s Result.tooLate
  else
    let n := (s.fabric.opCount + 1) % 2 ^ 16
    let s := { s with fabric := { s.fabric with opCount := n } }
    (s.learnOp ⟨s.ownAddr * 2 ^ 16 + n, a, kind⟩ none, none)

/-- FABRIC_SWAP (R32, R393). -/
def execFabricSwap (at_ : RTime) (s : State) : Host.Outcome State Fault Refusal :=
  done (s.runCommand 0x11 (leBytes 9 (RTime.word at_)) fun s =>
    if at_.line ≠ 0 ∨ at_.phase ≠ 0 then answer s Result.outOfRange
    else s.issueGlobal .fabricSwap at_ (s.get Od.card_FABRIC_DIAMETER * 800))

/-- SNAPSHOT (R393, R395). -/
def execSnapshot (at_ : RTime) (set : Nat) (s : State) : Host.Outcome State Fault Refusal :=
  if 4 ≤ set then done { s with lastStatus := Status.outOfRange }
  else done (s.runCommand 0x12 (leBytes 9 (RTime.word at_) ++ leBytes 1 set) fun s =>
    s.issueGlobal (.snapshot set) at_ (s.get Od.card_FABRIC_DIAMETER * 800))

/-- GLOBAL_ANNOUNCE (R394): a device without an address discards it unread (R358, R367). -/
def execGlobalAnnounce (p : Fin 128) (a : Announcement) (s : State) : Host.Outcome State Fault Refusal :=
  if s.cardBand p && s.forwards && !s.foreignBand p then done (s.learnOp a (some p)) else done s

/-- GLOBAL_CONFIRM (R396). -/
def execGlobalConfirm (p : Fin 128) (opId applied : Nat) (s : State) : Host.Outcome State Fault Refusal :=
  if s.forwards then done (s.takeConfirm p opId applied) else done s

/-- 1 ms has passed on this device's RD_0 since a time (R396). -/
def State.msSince (s : State) (at_ : RTime) : Bool :=
  decide ((1000000 * s.ticksPer 0 : Nat) ≤ rdiff (s.lpf 0) (s.now 0) at_ * (s.get Od.rd_RATE_DEN 0 * 10 ^ 9 : Nat))

/-- GLOBAL_OP_TIMEOUT (R396): at AT + 1 ms the issuer waits no longer. -/
def execGlobalOpTimeout (opId : Nat) (s : State) : Host.Outcome State Fault Refusal :=
  match s.globalOp opId with
  | some o =>
    if o.from_.isNone ∧ ¬ o.confirmed ∧ s.msSince o.at_ then
      done ((s.setGlobalOp { o with confirmed := true }).finishCommand (globalCode o.kind) Result.unreachable (leBytes 2 o.applied))
    else done s
  | none => done s

end Sys2Proof.Machine
end

