-- ==== Sys2Proof/Machine/SecOps.lean ====
section
/-! DEFINITION. The security island's part of writes and reports (R470, R481, R486–R489). -/

namespace Sys2Proof.Machine

/-- A 64-byte value as a number, byte 0 lowest. -/
def State.bytesOf (s : State) (r : Row) : List Byte := leBytes r.ty.size (s.get r)

/-- The tests of DEBUG_TOKEN (R488). -/
def State.tokenOk (s : State) (t : List Byte) : Bool :=
  decide (s.get Od.sec_DEBUG_STATE = 0) &&
  decide (t.take 4 = [0x42#8, 0x56#8, 0x44#8, 0x54#8]) &&
  decide ((t.drop 4).take 16 = s.bytesOf Od.id_SERIAL) &&
  decide ((t.drop 20).take 64 = s.bytesOf Od.sec_DEBUG_CHALLENGE) &&
  decide (Config.sha512 ((t.drop 88).take 133) = s.bytesOf Od.sec_VENDOR_ROOT_HASH) &&
  Config.ecdsaVerify ((t.drop 88).take 133) (Config.sha512 (t.take 221)) ((t.drop 221).take 132)

/-- DEBUG_CHALLENGE is drawn afresh. -/
def State.drawChallenge (s : State) : State :=
  (s.set Od.sec_DEBUG_CHALLENGE 0 (leNat (s.drawBytes 64))).useDraws 64

/-- An accepted DEBUG_TOKEN. -/
def State.takeToken (s : State) : State := (s.set Od.sec_DEBUG_STATE 0 1).drawChallenge

/-- DEBUG_SEAL := 1: the fuse is blown where VDD_EFUSE is present. [DESIGN CHOICE, unsafe: log entry 33.] -/
def State.sealDebug (s : State) : State :=
  if s.sec.efuse then { s with sec := { s.sec with debugSealFuse := true } }.set Od.sec_DEBUG_STATE 0 3 else s

/-- The sectors that the staged value covers. -/
def State.flashSpan (s : State) : Nat × Nat :=
  (s.get Od.sec_FLASH_ADDR, roundUp 4096 (s.blob Od.sec_FLASH_STAGE).length)

/-- FLASH_ADDR and the range are right. [DESIGN CHOICE, unsafe: log entry 33.] -/
def State.flashRangeOk (s : State) : Bool :=
  decide (s.get Od.sec_FLASH_ADDR % 4096 = 0 ∧
    s.get Od.sec_FLASH_ADDR + (s.blob Od.sec_FLASH_STAGE).length ≤ s.get Od.sec_FLASH_SIZE)

/-- The flash is not busy, and the range touches neither the active directory slot nor a bundle it names. -/
def State.flashFree (s : State) : Bool :=
  let d := s.get Od.sec_ACTIVE_DIR
  let x := s.flashSpan
  decide (s.get Od.sec_FLASH_STATE ≠ 1) &&
    (decide (d = 255) || (!overlaps x.1 x.2 (d * 0x10000) 256 &&
      s.sec.protectedExtents.all fun e => !overlaps x.1 x.2 e.1 e.2))

/-- Programming starts. -/
def State.startFlash (s : State) : State := s.set Od.sec_FLASH_STATE 0 1

/-- Bytes of the flash written, canonical against erased bytes. -/
def putFlash (t : Tab Byte) (a : Nat) (bs : List Byte) : Tab Byte := tputRun t 0xFF#8 a bs

/-- The staged value stands in the flash: its sectors erased, then programmed. -/
def State.programFlash (s : State) : State :=
  let x := s.flashSpan
  let t := s.sec.flash.filter fun e => e.1 < x.1 || x.1 + x.2 ≤ e.1
  { s with sec := { s.sec with flash := putFlash t x.1 (s.blob Od.sec_FLASH_STAGE) } }

end Sys2Proof.Machine
end

