-- ==== Sys2Proof/Machine/SwapOps.lean ====
section
/-! DEFINITION. Swap points (R26–R33): what a scope holds, how its shadows become active, and what the units make of it. -/

namespace Sys2Proof.Machine

/-! ### Scopes (R28) -/

/-- The objects of a scope, by index and subindex. -/
def inScope (sc : SwapScope) (index sub : Nat) : Bool :=
  let dom := decide (0x2200 ≤ index ∧ index < 0x2208)
  let str := decide (0x3000 ≤ index ∧ index < 0x3C00)
  let prt := decide ((0x6080 ≤ index ∧ index < 0x6100) ∨ (0x6300 ≤ index ∧ index < 0x6380))
  let bank := decide (index = 0x4100 ∧ sub = 1)
  match sc with
  | .domain rd => decide (index = 0x2200 + rd.val)
  | .stream sid => str && decide ((index - 0x3000) % 512 = sid.val)
  | .port p => decide (index = 0x6080 + p.val ∨ index = 0x6300 + p.val)
  | .controlStore => bank
  | .deviceGlobal => !dom && !str && !prt && !bank

def keyInScope (sc : SwapScope) (key : Nat) : Bool := inScope sc (key / 256) (key % 256)

/-- A shadow waits in a scope. -/
def State.waits (s : State) (sc : SwapScope) : Bool :=
  (s.shadow.any fun e => keyInScope sc e.1) || s.blobsShadow.any fun e => keyInScope sc e.1

/-- One shadow becomes active. -/
def State.activate (s : State) (e : Nat × Nat) : State :=
  match findObject (e.1 / 256) (e.1 % 256) with
  | some (r, i, j) => s.put r i j e.2
  | none => s

def State.activateBlob (s : State) (e : Nat × List Byte) : State :=
  match findObject (e.1 / 256) (e.1 % 256) with
  | some (r, i, _) => s.setBlob r i e.2
  | none => s

/-- Every shadow of a scope becomes active. -/
def State.commitScope (s : State) (sc : SwapScope) : State :=
  let vs := s.shadow.filter fun e => keyInScope sc e.1
  let bs := s.blobsShadow.filter fun e => keyInScope sc e.1
  let s := { s with shadow := s.shadow.filter fun e => !keyInScope sc e.1,
                    blobsShadow := s.blobsShadow.filter fun e => !keyInScope sc e.1 }
  bs.foldl State.activateBlob (vs.foldl State.activate s)

/-! ### What becomes of it -/

/-- Domain scope (R14, R20): a domain is stopped, turns to another reference, or tries the FALLBACK that waits. -/
def State.domainSwapped (old s : State) (rd : Nat) : State :=
  if s.get Od.rd_ENABLE rd = 0 then s.stopDomain rd
  else if old.get Od.rd_SOURCE rd ≠ s.get Od.rd_SOURCE rd ∨
      (old.get Od.rd_SOURCE_SEL rd ≠ s.get Od.rd_SOURCE_SEL rd ∧ ((s.dom rd).src = 1 ∨ (s.dom rd).src = 3)) then
    s.turnTo rd (s.get Od.rd_SOURCE rd)
  else match (s.dom rd).nextSrc with
    | some src => s.turnTo rd src
    | none => s

/-- The shapers of a port under new settings (R405); a new domain resets every one. -/
def State.shapersSwapped (old s : State) (p : Nat) : State :=
  let moved := decide (old.portDomain p ≠ s.portDomain p)
  (List.range 8).foldl (fun t k =>
    let same : Row → Bool := fun r => decide (old.get r p k = s.get r p k)
    if moved || !(same Od.egr_RATE && same Od.egr_BURST && same Od.egr_OVERHEAD && same Od.egr_RESET_MODE) then t.resetShaper (8 * p + k) else t) s

/-- Lanes of a quad whose port changed mode or width leave their state and start bring-up afresh (R331). -/
def State.linksSwapped (old s : State) (p : Nat) : State :=
  if old.get Od.port_MODE p = s.get Od.port_MODE p ∧ old.get Od.port_WIDTH p = s.get Od.port_WIDTH p then s
  else
    let s := if old.portActive p then s.leaveActive p (s.get Od.port_LAST_DOWN_CAUSE p) else s.startBringUp p
    ((List.range 4).map fun k => p / 4 * 4 + k).foldl (fun t q =>
      if q ≠ p ∧ (old.portMode q ≠ t.portMode q) ∧ t.portMode q ≠ 3 then t.startBringUp q else t) s

/-- Port scope. -/
def State.portSwapped (old s : State) (p : Nat) : State := old.shapersSwapped (old.linksSwapped s p) p

/-- Rows of a stream whose change makes a random-access point (R157, R204), and those of them that reset the models (R204). -/
def codecRows : List Row :=
  [Od.enc_RUNGS, Od.enc_FORMAT, Od.enc_PROFILE, Od.enc_LEVEL, Od.enc_TIER, Od.enc_PRESET, Od.enc_WIDTH, Od.enc_HEIGHT, Od.enc_BIT_DEPTH]

def modelRows : List Row :=
  [Od.rc_MODE, Od.rc_BITRATE, Od.rc_MAX_BITRATE, Od.rc_CPB_BITS, Od.rc_INIT_FULLNESS, Od.rc_HRD_SIGNAL]

/-- A row of a stream changed for a rung. -/
def changedIn (old s : State) (sid r : Nat) (rows : List Row) : Bool :=
  rows.any fun x => decide (old.get x sid (if x.subs = 1 then 0 else r) ≠ s.get x sid (if x.subs = 1 then 0 else r))

/-- A rung under a new SSRC, or added by a change of RUNGS: a rung that had none draws its random values, as at STREAM_OPEN (R178).
[DESIGN CHOICE, unsafe: log entry 18.] -/
def State.ssrcSwapped (old s : State) (sid : Nat) : State :=
  let s := (s.rungs sid).foldl (fun t r =>
    if r ∈ old.rungs sid then
      let v := t.get Od.enc_SSRC sid r
      if v ≠ old.get Od.enc_SSRC sid r ∧ v ≠ 0 then t.setRung sid r { t.rung sid r with ssrc := v } else t
    else t.setRung sid r (t.openRung sid r).2 |>.useDraws 6) s
  s

/-- Coding state of the rungs under new settings (R157, R204): a changed model starts afresh, its history of complexities too. -/
def State.rungsSwapped (old s : State) (sid : Nat) : State :=
  let rs := List.range 8
  let model := rs.filter fun r => changedIn old s sid r modelRows
  let codec := rs.any fun r => changedIn old s sid r codecRows
  let s := model.foldl (fun t r =>
    let c := t.rungCfg sid r
    t.setRung sid r { t.rung sid r with full := (c.firstFullness * c.rateNum : Nat), scale := c.rateNum, debt := 0, log2K := [], xHist := [] }) s
  let s := if s.streamShut sid then s else old.ssrcSwapped s sid
  if codec ∨ model ≠ [] ∨ (s.stream sid).rapRequest then
    (s.setStream sid { s.stream sid with rapRequest := false }).rapAll sid else s

/-- Outputs under new settings: their templates, their pool's minimum, their ports' charges (R85, R310, R314). -/
def State.outputsSwapped (old s : State) (sid : Nat) : State :=
  if old.blob Od.st_OUTPUTS sid = s.blob Od.st_OUTPUTS sid then s
  else
    let s := s.freeTemplates sid
    let s := match s.poolFor (s.streamClass sid) with
      | some p => s.pinTemplates sid p
      | none => s
    s.setStream sid { s.stream sid with portBits := s.portCharges sid }

/-- The minimum of a stream's pool at its present settings. -/
def State.minSwapped (s : State) (sid : Nat) : State :=
  match tfind s.queues.streamMin sid with
  | none => s
  | some (p, n) =>
    let m := s.streamMinBatts sid
    if m = n then s else ({ s with queues := { s.queues with streamMin := tset s.queues.streamMin sid (p, m) } }).poolChanged p

/-- A new cell set and its charges (R85, R86, R89). The present store of a stage whose store changes stays held until the last
picture started on it has ended. [DESIGN CHOICE, unsafe: log entry 77.] -/
def State.placeSwapped (s : State) (sid : Nat) : State :=
  let x := s.stream sid
  match x.nextStages with
  | none => s
  | some gs =>
    let ps := (s.trialPasses sid).getD x.passes
    let gone := x.storeParts.filter fun e => !(s.storeBytes sid).contains e
    let held := (gone.map fun e => (e.2, x.underWay.filter fun p => p.1 = e.1)).filter fun e => e.2 != []
    let s := s.setStream sid { x with nextStages := none, oldStores := x.oldStores ++ held }
    (s.commitPlace sid gs ps).balanceSpares

/-- The playlist that was set last begins (R97, R99). -/
def State.playlistSwapped (s : State) (sid : Nat) : State :=
  match (s.stream sid).nextPlaylist with
  | some es => s.setStream sid { s.stream sid with playlist := es, nextPlaylist := none, passed := 0 }
  | none => s

/-- An alias's destinations join, and those of closed ones leave, at the leader's swap point (R76, R94).
[DESIGN CHOICE, unsafe: log entry 22.] -/
def State.aliasesSwapped (s : State) (sid : Nat) : State :=
  let s := (s.aliasesOf sid).foldl (fun t a => t.setStream a { t.stream a with joined := true }) s
  ((s.streams.streams.filter fun e => e.2.leaving = some sid).map fun e => e.1).foldl (fun t a =>
    (t.freeTemplates a).setStream a { (t.freeTemplates a).stream a with leaving := none }) s

/-- An ARMED stream whose crowns and conditioners are ready begins (R76, R236). -/
def State.beginStream (s : State) (sid : Nat) : State :=
  if s.streamState sid = stArmed ∧ s.placedReady (s.stream sid) then
    let t := s.now (s.streamDomain sid)
    let before := some ((t.frame + 2 ^ 40 - 1) % 2 ^ 40)
    let s := (s.decodeLayers sid).foldl (fun t n =>
      t.setLayer sid n { t.layer sid n with waitingRap := decide (t.streamType sid ≠ 4), shown := before }) s
    (s.set Od.ss_OPENED_AT sid (RTime.word t)).setStreamState sid stRunning
  else s

/-- A CLOSING stream starts no picture from now on (R76, R77); one that closes behind a leader keeps the pictures under way.
[DESIGN CHOICE, unsafe: log entry 22.] -/
def State.endWindow (s : State) (sid : Nat) : State :=
  let x := s.stream sid
  if s.streamState sid = stClosing ∧ x.closeAtSwap then
    match x.follows with
    | some l =>
      (s.setStream sid { x with closeAtSwap := false, lastPics := (s.stream l).underWay }).endFollowers l
    | none => (s.setStream sid { x with closeAtSwap := false, pics := x.pics.filter fun p => p.started }).afterPicture sid
  else s

/-- A stream's swap point may take effect: the crowns that a new cell set needs are ready (R86).
[DESIGN CHOICE, unsafe: log entry 42.] -/
def State.streamReady (s : State) (sid : Nat) : Bool :=
  match (s.stream sid).nextStages with
  | none => true
  | some gs => s.placedReady { s.stream sid with stages := gs }

/-- Stream scope. A CLOSING stream's window ends at its first swap point even where the rest waits for crowns (R77).
[DESIGN CHOICE, unsafe: log entry 42.] -/
def State.swapStream (s : State) (sid : Fin 512) : State :=
  if ¬ s.streamReady sid then s.endWindow sid
  else
    let t := s.commitScope (.stream sid)
    let t := State.outputsSwapped s (State.rungsSwapped s t sid) sid
    let t := ((t.minSwapped sid).placeSwapped sid).playlistSwapped sid
    let t := if t.streamShut sid then t else t.setLags sid
    (((t.aliasesSwapped sid).beginStream sid).endWindow sid)

/-- Crown clocks at a device-global swap point: forced clocks step at once, and steps down that are due fall (R92, R113). -/
def State.clocksSwapped (old s : State) : State :=
  (List.range 16).foldl (fun t cw =>
    let now := t.get Od.crown_CLOCK_MHZ cw
    let need := t.neededClock cw
    let forced := decide (t.get Od.crown_CLOCK_FORCE cw ≠ 0 ∧ old.get Od.crown_CLOCK_FORCE cw ≠ t.get Od.crown_CLOCK_FORCE cw)
    let due := (t.crown cw).downDue
    let t := t.setCrown cw { t.crown cw with downDue := false }
    if t.get Od.crown_POWER_STATE cw = 2 ∧ (t.crown cw).step = none ∧ ((forced ∧ need ≠ now) ∨ (due ∧ need < now)) then t.startStep cw need
    else t.raiseCrown cw) s

/-- Sessions over UDP close when the port changes (R59). -/
def State.sessionsSwapped (old s : State) : State :=
  if old.get Od.iop_UDP_PORT = s.get Od.iop_UDP_PORT then s
  else
    let udp : Origin → Bool := fun o => match o with
      | .udp _ => true
      | _ => false
    let gone := (s.iop.sessions.filter fun x => udp x.origin).map fun x => x.id
    { s with iop := { s.iop with sessions := s.iop.sessions.filter fun x => !udp x.origin,
                                 inFlight := s.iop.inFlight.filter fun f => !gone.contains f.session } }

/-- The PTP instance under new settings (R18): it listens, or is disabled, and its domains lose their reference.
[DESIGN CHOICE, unsafe: log entry 27.] -/
def State.ptpSwapped (old s : State) : State :=
  let same : Row → Bool := fun r => decide (old.get r = s.get r)
  if same Od.ptp_PTP_ENABLE && same Od.ptp_PTP_PORT && same Od.ptp_PTP_DOMAIN && same Od.ptp_DELAY_MECH then s
  else
    let s := s.set Od.ptp_PTP_STATE 0 (s.get Od.ptp_PTP_ENABLE)
    s.eachDomain (fun t rd => t.locksTo rd 2) State.referenceLost

/-- The 10GBASE-R lanes transmit the taps now active (R337). -/
def State.tapsSwapped (s : State) : State :=
  (List.range 128).foldl (fun t p =>
    if t.quadOn (p / 4) && decide (t.portMode p = 2) then t.set Od.lane_TX_FFE p (t.get Od.lane_TX_FFE_10G p) else t) s

/-- Device-global scope. -/
def State.swapGlobal (s : State) : State :=
  let t := s.commitScope .deviceGlobal
  let t := State.ptpSwapped s (State.sessionsSwapped s t)
  let t := if s.get Od.mil_PICTURE_REGION = t.get Od.mil_PICTURE_REGION then t else t.testPicture
  let t := (t.commitStaged.activatePatches).balanceSpares
  let t := (State.clocksSwapped s t).tapsSwapped
  (List.range 16).foldl (fun u p => if u.poolOn p then (u.poolChanged p).pauseBands p else u) t

/-- Control-store scope. -/
def State.swapControl (s : State) : State :=
  let t := s.commitScope .controlStore
  t.swapBanks (t.get Od.cs_BANK_SELECT)

/-- Domain scope. -/
def State.swapDomain (s : State) (rd : Fin 8) : State := State.domainSwapped s (s.commitScope (.domain rd)) rd

/-- Port scope. -/
def State.swapPort (s : State) (p : Fin 128) : State := State.portSwapped s (s.commitScope (.port p)) p

/-- The domain whose frames swap a scope; none for a BULK stream. -/
def State.scopeDomain (s : State) (sc : SwapScope) : Option Nat :=
  match sc with
  | .domain rd => some rd
  | .stream sid => if s.streamClass sid = 2 then none else some (s.streamDomain sid)
  | .port p => some (s.portDomain p)
  | _ => some 0

/-- A scope's swap point takes effect: its domain runs and does not hold its swaps (R28, R30). -/
def State.swaps (s : State) (sc : SwapScope) : Bool :=
  match s.scopeDomain sc with
  | none => true
  | some rd => s.enabled rd && !s.flag Od.rd_SWAP_HOLD rd

/-- The swap of a scope. -/
def State.swap (s : State) (sc : SwapScope) : State :=
  match sc with
  | .domain rd => s.swapDomain rd
  | .stream sid => s.swapStream sid
  | .port p => s.swapPort p
  | .controlStore => s.swapControl
  | .deviceGlobal => s.swapGlobal

/-! ### Scheduled events (R22, R26, R31) -/

/-- The instant at which a scheduled event occurs: one whose LINE lies past the frame occurs at the start of LINE 0 of the
next frame (R26). [DEDUCED, unsafe: log entry 28.] -/
def State.occursAt (s : State) (rd : Nat) (t : RTime) : RTime := if s.lpf rd ≤ t.line then nextFrame t else t

/-- Whether a scheduled event comes before another of its domain. -/
def State.schedBefore (s : State) (a b : Sched) : Bool := s.later b.rd (s.occursAt b.rd b.at_) (s.occursAt a.rd a.at_)

/-- The earliest scheduled event of a domain. [DEDUCED, unsafe: log entry 28.] -/
def State.nextSched (s : State) (rd : Nat) : Option Sched :=
  (s.raster.sched.filter fun e => e.rd = rd).foldl (fun (best : Option Sched) e => match best with
    | none => some e
    | some b => if s.schedBefore e b then some e else best) none

/-- A scheduled event is off the list. -/
def State.unschedule (s : State) (e : Sched) : State :=
  { s with raster := { s.raster with sched := s.raster.sched.erase e } }

/-- The swap that SWAP_NOW scheduled. -/
def State.swapScheduled (s : State) (scope : Nat) : State :=
  if scope = 0xFFFF then s.swapGlobal
  else if h : scope < 128 then s.swapPort ⟨scope, h⟩ else s

end Sys2Proof.Machine
end

