-- ==== Sys2Proof/Machine/WriteOps.lean ====
section
/-! DEFINITION. Writes of the object dictionary: the tests of R50 in their order, the binding rules of the chapters, the
commit, and what follows a commit in its cycle (R13–R15, R33–R44, R79, R85, R86, R94, R113, R120, R139, R266, R278,
R308–R310, R317, R325, R331, R382, R407–R411, R423, R454, R455, R457, R481, R488, R489). -/

namespace Sys2Proof.Machine

/-- A write that names an object, with the whole value it writes. -/
structure Writing where
  row   : Row
  inst  : Nat
  sub   : Nat
  value : List Byte
  deriving DecidableEq, Repr

/-- The value as a number. -/
def Writing.num (w : Writing) : Nat := leNat w.value

/-- The object's index. -/
def Writing.index (w : Writing) : Nat := w.row.base + w.inst

/-- A value lies within a limit. -/
def Limit.holds (l : Limit) (v : Nat) : Bool :=
  match l with
  | .any => true
  | .flag => decide (v ≤ 1)
  | .range lo hi => decide (lo ≤ v ∧ v ≤ hi)
  | .rangeBut lo hi but => decide (lo ≤ v ∧ v ≤ hi ∧ v ≠ but)
  | .zeroOr lo hi => decide (v = 0 ∨ (lo ≤ v ∧ v ≤ hi))
  | .oneOf vs => decide (v ∈ vs)
  | .oneOfOr lo hi other => decide ((lo ≤ v ∧ v ≤ hi) ∨ v = other)
  | .signed bits lo hi => decide (lo ≤ toInt bits v ∧ toInt bits v ≤ hi)

/-! ### Roles (R41, R42) -/

/-- A role's rank: 0 OBSERVER, 1 OPERATOR, 2 ADMIN. -/
def roleRank : Role → Nat
  | .observer => 0
  | .operator => 1
  | .admin => 2

/-- Least role that writes an object. -/
def writeRole (index sub : Nat) : Nat :=
  if index < 0x2200 then 2
  else if index < 0x4000 then 1
  else if index < 0x4200 then 2
  else if index < 0x5000 then 1
  else if index < 0x5200 then 2
  else if 0x6080 ≤ index ∧ index < 0x6100 ∧ (sub = 0x0A ∨ sub = 0x0C) then 2
  else if (index = 0x6100 ∨ index = 0x6200) ∧ sub = 1 then 2
  else if index < 0x9000 then 1
  else 2

/-- Least role that runs a command (R68). -/
def commandRole (code : Nat) : Nat :=
  if code = 0x32 then 0
  else if code ∈ [0x11, 0x13, 0x20, 0x21, 0x24, 0x30, 0x31, 0x33, 0x41, 0x44, 0x70] then 2 else 1

/-! ### Command arguments (R64, R68) -/

/-- The argument block has its length. -/
def commandLength (code : Nat) (args : List Byte) : Bool :=
  let n := args.length
  match code with
  | 0x01 => n == 4 | 0x02 => n == 3 | 0x10 => n == 2 | 0x11 => n == 9 | 0x12 => n == 10
  | 0x13 => decide (9 ≤ n ∧ n ≤ 3081)
  | 0x20 => n == 20 | 0x21 => n == 1 | 0x22 => n == 16 | 0x24 => n == 1 | 0x30 => n == 16 | 0x31 => n == 14
  | 0x32 => n == 64 | 0x33 => n == 10 | 0x40 => n == 14 | 0x41 => n == 1 | 0x42 => n == 1 | 0x44 => n == 2
  | 0x50 => n == 16 | 0x51 => n == 2
  | 0x52 => decide (15 ≤ n ∧ n ≤ 2820 ∧ n = 4 + 11 * leAt args 2 2)
  | _ => n == 0

/-- The fields lie within the values and ranges of the command table (R64). [DESIGN CHOICE, unsafe: log entry 71.] -/
def commandFields (code : Nat) (args : List Byte) : Bool :=
  match code with
  | 0x02 => decide (leAt args 2 1 ≤ 1)
  | 0x10 => decide (leAt args 0 2 ≤ 127 ∨ leAt args 0 2 = 0xFFFF)
  | 0x12 => decide (leAt args 9 1 ≤ 3)
  | 0x40 => decide (leAt args 0 1 ≤ 2 ∧ leAt args 1 1 ≤ 3)
  | 0x44 => decide (leAt args 1 1 ≤ 1)
  | 0x50 => decide (leAt args 2 1 ≤ 1)
  | 0x52 => decide (1 ≤ leAt args 2 2 ∧ leAt args 2 2 ≤ 256)
  | _ => true

/-! ### Where a write goes (R14, R27, R40) -/

/-- An RWS object without a swap point: of a stream that is not open, of a disabled domain, or of a port of one. -/
def State.direct (s : State) (index : Nat) : Bool :=
  if 0x3000 ≤ index ∧ index < 0x3C00 then s.streamShut ((index - 0x3000) % 512)
  else if 0x2200 ≤ index ∧ index < 0x2208 then !s.enabled (index - 0x2200)
  else if 0x6080 ≤ index ∧ index < 0x6100 then !s.enabled (s.portDomain (index - 0x6080))
  else if 0x6300 ≤ index ∧ index < 0x6380 then !s.enabled (s.portDomain (index - 0x6300))
  else false

/-- Objects whose write is an action, done once every write has been stored. -/
def actionRows : List Row := [Od.pool_ENABLE, Od.unit_STICKY, Od.cap_VALID, Od.sec_OWNER_KEY_HASH]

/-- The written value, read as the object's: a STRING is padded with zero bytes (R37). -/
def Writing.stored (w : Writing) : Nat := leNat w.value

/-- Zero bytes in place of those of an entry that the manual marks reserved (R6): positions from `at_`, `n` of them. -/
def zeroBytes (at_ n : Nat) (e : List Byte) : List Byte := e.take at_ ++ leBytes (min n (e.length - at_)) 0 ++ e.drop (at_ + n)

/-- A DOMAIN value without what is written to its reserved bytes (R6): bytes 6–7 and 28–31 of an OUTPUTS entry, bytes 1–3 of
an ADMIN_LIST entry. -/
def unreserved (r : Row) (v : List Byte) : List Byte :=
  if r = Od.st_OUTPUTS then (chunks 32 v).flatMap fun e => zeroBytes 28 4 (zeroBytes 6 2 e)
  else if r = Od.egr_ADMIN_LIST then (chunks 8 v).flatMap (zeroBytes 1 3)
  else v

/-- A number without what is written to its reserved bits (R6): bytes 5–7 of MGMT_IPV4, bytes 13–15 of LAYER_CFG, and bits 7–2
of byte 0, byte 7 and bytes 28–31 of a composition's LAYER. -/
def unreservedNum (r : Row) (v : Nat) : Nat :=
  if r = Od.mgmt_MGMT_IPV4 then v % 2 ^ 40
  else if r = Od.dec_LAYER_CFG then v % 2 ^ 104
  else if r = Od.cond_LAYER then bits v 0 2 + bits v 8 48 * 2 ^ 8 + bits v 64 160 * 2 ^ 64
  else v

/-- Stores a DOMAIN value; `old` is the state before the request, which decides whether the object has a swap point. -/
def State.stageBlob (old t : State) (w : Writing) : State :=
  let key := w.row.key w.inst 0
  let v := unreserved w.row w.value
  if w.row.acc = .rws ∧ ¬ old.direct w.index then { t with blobsShadow := tset t.blobsShadow key v }
  else { t.setBlob w.row w.inst v with blobsShadow := tdel t.blobsShadow key }

/-- Stores one accepted write: an RWS object's in its shadow, or, without a swap point, in both copies; an RW object's at
once. Every write of one request goes where the state before it, `old`, says (R14, R33, R40). -/
def State.stage (old t : State) (w : Writing) : State :=
  if w.row.acc = .wo ∨ w.row.acc = .cmd ∨ w.row.acc = .roClear ∨ w.row ∈ actionRows then t
  else if w.row.ty = .domain then
    if w.row.acc = .ro then t else old.stageBlob t w
  else
    let v := unreservedNum w.row w.num
    if w.row.acc = .rws ∧ ¬ old.direct w.index then t.putShadow w.row w.inst w.sub v
    else { t.put w.row w.inst w.sub v with shadow := tdel t.shadow (w.row.key w.inst w.sub) }

/-! ### Ranges (test 6 of R50) -/

/-- The limits of R13 on a domain's shadow. -/
def State.rasterLimits (t : State) (rd : Nat) : Bool :=
  let g : Row → Nat := fun r => t.getShadow r rd
  decide (24000 * g Od.rd_RATE_DEN ≤ 1001 * g Od.rd_RATE_NUM ∧ g Od.rd_RATE_NUM ≤ 120 * g Od.rd_RATE_DEN ∧
    262 ≤ g Od.rd_LINES_PER_FRAME ∧ g Od.rd_LINES_PER_FRAME ≤ 8192 ∧
    g Od.rd_ACTIVE_FIRST < g Od.rd_ACTIVE_LAST ∧ g Od.rd_ACTIVE_LAST < g Od.rd_LINES_PER_FRAME ∧
    g Od.rd_LINE_MATCH < g Od.rd_LINES_PER_FRAME)

def rasterRows : List Row :=
  [Od.rd_RATE_NUM, Od.rd_RATE_DEN, Od.rd_LINES_PER_FRAME, Od.rd_ACTIVE_FIRST, Od.rd_ACTIVE_LAST, Od.rd_LINE_MATCH]

/-- The watermarks of R309. -/
def State.marksOk (t : State) (p : Nat) : Bool :=
  let r := t.getShadow Od.pool_REFILL_MARK p
  let x := t.getShadow Od.pool_SPILL_MARK p
  decide (4 ≤ r ∧ r < 32 ∧ 32 < x ∧ x ≤ 60)

/-- The thresholds of R317. -/
def State.warnsOk (t : State) (p : Nat) : Bool :=
  let g : Row → Nat := fun r => t.getShadow r p
  decide (1 ≤ g Od.pool_WARN_3 ∧ g Od.pool_WARN_3 < g Od.pool_WARN_2 ∧ g Od.pool_WARN_2 < g Od.pool_WARN_1 ∧
    g Od.pool_WARN_1 + g Od.pool_WARN_HYST ≤ 1000)

/-- The span of a pool that is to be enabled. [DEDUCED, unsafe: log entry 69.] -/
def State.poolSpot (t : State) (p : Nat) : Option Nat :=
  if t.poolRegionOk p ∧ 1024 ≤ t.get Od.pool_BATTS p then t.poolPlace (t.get Od.pool_REGION p) p (poolSpan (t.get Od.pool_BATTS p)) else none

/-- A single value of an encode rung lies within R150. [DEDUCED, unsafe: log entry 69.] -/
def encodeValueOk (w : Writing) : Bool :=
  let v := w.num
  if w.row = Od.enc_WIDTH then decide (128 ≤ v ∧ v ≤ 8192 ∧ v % 2 = 0)
  else if w.row = Od.enc_HEIGHT then decide (64 ≤ v ∧ v ≤ 4352 ∧ v % 2 = 0)
  else if w.row = Od.enc_PROFILE then decide (v ∈ [0, 1, 2, 66, 100])
  else if w.row = Od.enc_LEVEL then decide (v = 0) || [0, 1, 2].any fun f => (levelsOf f).any fun l => decide (l.level = v)
  else true

/-- A raster time that a write names for an event of a domain (R9, R11). -/
def State.eventTimeOk (t : State) (rd : Nat) (at_ : RTime) : Bool := t.validTime rd at_ && t.notTooFar rd at_

/-- Length limit of a writable DOMAIN; the spec gives none for some of them (R54). [DESIGN CHOICE, unsafe: log entry 75.] -/
def domainMost (r : Row) : Nat :=
  if r = Od.st_INPUTS then 16 * 24
  else if r = Od.st_OUTPUTS then 1024 * 32
  else if r = Od.sec_FLASH_STAGE then 2 ^ 20
  else 2 ^ 20

/-- Client keys of a configuration set (R482). -/
def clientKeyOf (e : List Byte) : ClientKey := ⟨e.take 8, leAt e 8 1, (e.drop 11).take 133⟩

def clientKeysOk (v : List Byte) : Bool :=
  let es := pieces 144 v
  decide (v.length % 144 = 0 ∧ es.length ≤ 64) &&
    es.all (fun e => decide (leAt e 8 1 ≤ 2) && decide ((Config.sha512 ((e.drop 11).take 133)).take 8 = e.take 8)) &&
    decide ((es.map fun e => e.take 8).Nodup)

/-- The value is in range, by the object's own limits and by the values that the whole request leaves: `s` is the state
before it, `t` with every write of it stored. [DEDUCED, unsafe: log entry 69.] -/
def State.rangeOk (s t : State) (w : Writing) : Bool :=
  let v := w.num
  let i := w.inst
  let r := w.row
  if r.acc = .roClear then
    (w.value.all fun b => b = 0#8) && (decide (r.ty ≠ .domain) || decide (w.value.length = (s.value r i w.sub false).length))
  else if r = Od.sec_CLIENT_KEYS then clientKeysOk w.value
  else if r = Od.sec_SEAL_PEERS then decide (w.value.length % 16 = 0 ∧ w.value.length ≤ 65536)
  else if r.ty = .domain then decide (w.value.length ≤ domainMost r)
  else
    r.lim.holds v &&
    (if r = Od.rd_ENABLE then decide (i ≠ 0 ∨ v = 1)
     else if r ∈ rasterRows then t.rasterLimits i
     else if r = Od.pool_REFILL_MARK ∨ r = Od.pool_SPILL_MARK then t.marksOk i
     else if r ∈ [Od.pool_WARN_1, Od.pool_WARN_2, Od.pool_WARN_3, Od.pool_WARN_HYST] then t.warnsOk i
     else if r = Od.qg_INGEST_POOL then decide (i < 128) && s.poolOn v
     else if r = Od.qg_INGEST_MIN then decide (i < 128)
     else if r = Od.mil_PICTURE_REGION ∨ r = Od.pool_REGION then s.regionOpen v
     else if r = Od.mil_CLIP_REGION then decide (v = 255) || s.regionProtected v
     else if r = Od.pool_ENABLE then decide (v = 0) || s.poolOn i || (t.poolSpot i).isSome
     else if r = Od.port_WIDTH then decide (i % v = 0)
     else if r = Od.rc_QP_LOW ∨ r = Od.rc_QP_HIGH then decide (t.getShadow Od.rc_QP_LOW i w.sub < t.getShadow Od.rc_QP_HIGH i w.sub)
     else if r = Od.port_FOM_DROP then decide (v ≤ t.getShadow Od.port_FOM_MIN i)
     else if r = Od.lane_TX_FFE_10G then decide (v < 2 ^ 24 ∧ bits v 16 8 + bits v 8 8 + bits v 0 8 = 64 ∧ 32 ≤ bits v 8 8)
     else if r = Od.cs_BANK_SELECT then decide (s.bankSelectTest v ≠ some Status.outOfRange)
     else if r = Od.th_TJ_HIGH then decide (v ≤ (if s.get Od.id_GRADE = 0 then 100 else 105))
     else if r = Od.egr_ADMIN_BASE then s.eventTimeOk (s.portDomain i) (RTime.ofWord v)
     else if r = Od.egr_GATE_APPLY then decide (v ≠ 1) || t.gateAdminOk i
     else if r = Od.sec_DEBUG_TOKEN then s.tokenOk w.value
     else if r = Od.sec_FLASH_PROGRAM then t.flashRangeOk
     else if 0x3200 ≤ r.base ∧ r.base < 0x3400 ∧ ¬ s.streamShut i then encodeValueOk w
     else true)

/-! ### Binding rules (test 7 of R50) -/

/-- A stream, shaper or gate list is bound to a domain (R15). -/
def State.domainBound (s : State) (rd : Nat) : Bool :=
  (s.streams.streams.any fun e => !s.streamShut e.1 && decide (s.streamClass e.1 ≠ 2) && decide (s.streamDomain e.1 = rd)) ||
  (List.range 128).any fun p => decide (s.portDomain p = rd) &&
    (decide (s.get Od.egr_OPER_STATE p ≠ 0) || (List.range 8).any fun k => decide (s.get Od.egr_RATE p k ≠ 0))

/-- What admission charges a stream. -/
structure Charges where
  stages : List (Nat × Nat)
  passes : List (Nat × Nat)
  memBw  : Nat
  ports  : List (Nat × Nat)
  store  : Nat
  batts  : Nat
  rungs  : List (Nat × Nat × Nat)
  deriving DecidableEq, Repr

def State.charges (s : State) (sid : Nat) : Charges :=
  { stages := s.stageCosts sid, passes := (s.passCosts sid).map fun p => (p.pass, s.passRate sid p), memBw := s.memBw sid,
    ports := s.portCharges sid, store := s.pictureStore sid, batts := s.streamMinBatts sid + s.templateCount sid,
    rungs := (s.rungs sid).map fun r => ((s.rungCfg sid r).reserve, (s.rungCfg sid r).budgetRate, (s.rungCfg sid r).cpb) }

/-- A stream's settings as its next swap point will leave them. -/
def State.ahead (t : State) (sid : Nat) : State :=
  if h : sid < 512 then t.commitScope (.stream ⟨sid, h⟩) else t

/-- The tests of R85, R86, R150, R169 and R197 on an open stream's new settings: none when they pass, else the shortfall. A
write of CROWN_MASK makes a trial placement alone. -/
def State.openTest (s t : State) (sid : Nat) (mask : Bool) : Option Nat :=
  let u := t.ahead sid
  if mask then if (u.trialPlace sid).isNone then some (setBit 0 0) else none
  else if !u.supported sid then some (setBit 0 7)
  else if !(u.rungs sid).all (fun r => (u.rungCfg sid r).modeOk) || !u.lagOk sid then some 0
  else if u.charges sid ≠ s.charges sid then
    let a := u.admission sid
    if a.2 = 0 then none else some a.1
  else none

/-- Settings of a stream, and the mask of its crowns. -/
def isSetting (w : Writing) : Bool :=
  decide (0x3000 ≤ w.row.base ∧ w.row.base < 0x3A00) && (w.row.acc == .rws || w.row == Od.st_CROWN_MASK)

/-- A DMA channel that an open stream names. -/
def State.channelNamed (s : State) (ch : Nat) : Bool :=
  s.streams.streams.any fun e => !s.streamShut e.1 &&
    ((s.inputs e.1).any (fun i => i.kind == 3 && i.selector == ch) ||
      (s.outputs e.1).any fun o => o.kind == 4 && o.target == ch)

/-- A forced clock leaves every cell of the crown within LOAD_CEILING (R113). -/
def State.forceFits (s : State) (cw mhz : Nat) : Bool :=
  decide (mhz = 0) || (cellsOf cw).all fun cc => decide (s.cellLoad cc * 1200 ≤ s.ceiling * mhz)

/-- A pool may be disabled (R308). -/
def State.poolFree (s : State) (p : Nat) : Bool :=
  decide (s.poolInUse p = []) &&
    (List.range 128).all (fun g => decide (s.get Od.qg_INGEST_POOL g ≠ p ∧ s.getShadow Od.qg_INGEST_POOL g ≠ p)) &&
    s.queues.streamMin.all fun e => decide (e.2.1 ≠ p)

/-- The binding rules allow a write. -/
def State.bindingOk (s t : State) (w : Writing) : Bool :=
  let v := w.num
  let i := w.inst
  let r := w.row
  if s.halted ∧ ¬ (0x8000 ≤ w.index ∧ w.index ≤ 0x840F) then false
  else if r ∈ [Od.rd_RATE_NUM, Od.rd_RATE_DEN, Od.rd_LINES_PER_FRAME, Od.rd_ENABLE] then
    decide (v = s.getShadow r i) || !s.domainBound i
  else if r = Od.egr_RATE then decide (v = 0) || s.enabled (s.portDomain i)
  else if r = Od.egr_GATE_APPLY then decide (v ≠ 1) || s.enabled (s.portDomain i)
  else if r ∈ [Od.st_TYPE, Od.st_CLASS, Od.st_DOMAIN, Od.st_MERGE_OK, Od.st_INPUTS, Od.dec_LAYER_CFG] then s.streamShut i
  else if 0x3200 ≤ r.base ∧ r.base < 0x3A00 ∧ r.acc ≠ .roClear ∧ s.streamState i = stAlias then false
  else if r = Od.st_OUTPUTS ∧ s.streamState i = stAlias then (t.ahead i).aliasTest i
  else if isSetting w ∧ ¬ s.streamShut i ∧ s.streamState i ≠ stAlias then
    (s.openTest t i (r == Od.st_CROWN_MASK)).isNone
  else if r = Od.crown_CLOCK_FORCE then s.forceFits i v
  else if r = Od.cell_OUT_OF_SERVICE then decide (v ≠ 0) || !s.flag Od.cell_RETIRED_BY_FAULT i
  else if r = Od.cs_BANK_SELECT then decide (s.bankSelectTest v = none)
  else if r = Od.ic_OUT_OF_SERVICE then decide (v = 0) || !(s.streams.streams.any fun e => e.2.passes.any fun p => p.ic = i)
  else if r = Od.mil_PICTURE_REGION then s.streams.streams.all fun e => s.streamShut e.1
  else if r = Od.pool_REGION ∨ r = Od.pool_BATTS then !s.poolOn i
  else if r = Od.pool_ENABLE then decide (v = 1) || !s.poolOn i || s.poolFree i
  else if r = Od.qg_INGEST_MIN then
    let p := s.get Od.qg_INGEST_POOL i
    decide (t.reserved p ≤ s.reserved p + s.sharedFree p)
  else if r = Od.pool_HOST_MIN then decide (t.reserved i ≤ s.reserved i + s.sharedFree i)
  else if r = Od.port_MODE ∨ r = Od.port_WIDTH then !s.isMember i && !s.portBound i
  else if r = Od.port_DOMAIN then
    !s.portBound i && decide (s.get Od.egr_OPER_STATE i = 0) && (List.range 8).all fun k => decide (s.get Od.egr_RATE i k = 0)
  else if r = Od.tab_LEARN_MODE then decide (v ≠ 0 ∨ s.get Od.card_FABRIC_DEVICES ≤ 64)
  else if r = Od.dma_MODE then decide ((s.dma i).state = dmaStopped) && !s.channelNamed i
  else if r = Od.sec_OWNER_KEY_HASH then decide (s.get r = 0) && s.sec.efuse
  else if r = Od.sec_FLASH_PROGRAM then t.flashFree
  else true

/-! ### The tests in order (R36, R38, R50) -/

/-- A write as an item or a row names it; `whole` is false for a segment of a DOMAIN. -/
structure Ask where
  index : Nat
  sub   : Nat
  ty    : Nat
  value : List Byte
  deriving DecidableEq, Repr

/-- The object of an index and subindex, or the status of the first test. -/
def lookUp (index sub : Nat) : Nat ⊕ (Row × Nat × Nat) :=
  if ¬ indexListed index then .inl Status.noObject
  else match findObject index sub with
    | none => .inl Status.noSubindex
    | some x => .inr x

/-- A value has the length of its type. -/
def lengthOk (r : Row) (n : Nat) : Bool :=
  match r.ty with
  | .domain => true
  | .str m => decide (n ≤ m)
  | t => decide (n = t.size)

/-- Objects that only a configuration set writes (R482). -/
def bootRows : List Row := [Od.sec_CLIENT_KEYS, Od.sec_SEAL_PEERS]

/-- Tests 1 to 5 of a write by a role: the status, or the write. `boot` is true for a record of the configuration set.
[DESIGN CHOICE, unsafe: log entry 33.] -/
def plainTest (role : Nat) (boot : Bool) (a : Ask) : Nat ⊕ Writing :=
  match lookUp a.index a.sub with
  | .inl st => .inl st
  | .inr (r, i, j) =>
    if r.acc = .ro ∧ ¬ (boot ∧ r ∈ bootRows) then .inl Status.readOnly
    else if role < (if r.acc = .cmd then commandRole i else writeRole a.index a.sub) then .inl Status.denied
    else if a.ty ≠ r.ty.code then .inl Status.typeMismatch
    else if ¬ (if r.acc = .cmd then commandLength i a.value else lengthOk r a.value.length) then .inl Status.length
    else .inr ⟨r, i, j, a.value⟩

/-- Tests 6 and 7 of a write of an object. [DESIGN CHOICE, unsafe: log entry 33.] -/
def State.lateTest (s t : State) (w : Writing) : Nat :=
  if ¬ s.rangeOk t w then Status.outOfRange
  else if ¬ s.bindingOk t w then Status.inUse
  else Status.ok

/-- Tests 6 and 7 of a command item: its fields, a halted engine, its queue. [DESIGN CHOICE, unsafe: log entry 72.] -/
def State.commandTest (s : State) (w : Writing) : Nat :=
  if ¬ commandFields w.inst w.value then Status.outOfRange
  else if s.halted ∧ w.inst ≠ 0x70 then Status.inUse
  else if (s.cmdQueue w.inst).waiting.length < 8 then Status.ok
  else Status.busy

/-! ### The commit -/

/-- A clearing write: the count becomes 0, or the record restarts from the present value (R44).
[DEDUCED, unsafe: log entry 66.] -/
def State.clearCount (s : State) (w : Writing) : State :=
  let i := w.inst
  if w.row = Od.lane_FOM_LOW then s.set Od.lane_FOM_LOW i (s.get Od.lane_FOM i)
  else if w.row = Od.pool_LOW_SHARED_FREE then
    { s with queues := { s.queues with lowFree := tput s.queues.lowFree none i (some (s.sharedFree i)) } }
  else if w.row = Od.irq_HELD then { s with host := { s.host with heldCount := 0 } }
  else if w.row = Od.irq_PME_SENT then { s with host := { s.host with pmeSent := 0 } }
  else if w.row = Od.egr_QUEUE_EGRESS then
    (List.range 8).foldl (fun t k => t.setShaper (8 * i + k) { t.shaper (8 * i + k) with
      packets := 0, bytes := 0, shaped := 0, gatedCount := 0, parked := 0, guardDrops := 0 }) s
  else if w.row = Od.th_GRADIENT_MAX then s.set w.row i s.gradientNow
  else s.put w.row i w.sub 0

/-- The cell set and charges of an open stream's new settings wait for its swap point; the crowns they need wake. Nothing is
reserved against other admissions in between (R85). [DESIGN CHOICE, unsafe: log entry 77.] -/
def State.planStream (old t : State) (sid : Nat) (mask : Bool) : State :=
  if t.streamShut sid ∨ t.streamState sid = stAlias then t
  else
    let u := t.ahead sid
    if u.charges sid ≠ old.charges sid ∨ mask ∨ (t.stream sid).nextStages.isSome then
      match u.trialPlace sid with
      | some gs =>
        let t := t.setStream sid { t.stream sid with nextStages := some gs }
        t.prepareCrowns { t.stream sid with stages := gs }.crowns
      | none => t
    else t

/-- OUT_OF_SERVICE of a cell (R120). [DESIGN CHOICE, unsafe: log entry 33.] -/
def State.serveCell (s : State) (cc v : Nat) : State :=
  if v = 1 then
    if s.cellState cc = cellRetired then s
    else (s.set Od.cell_STATE cc cellDraining).atBoundary cc
  else if s.cellState cc = cellDraining then (s.cellRest cc).refreshCell cc
  else if (s.cell cc).byWrite ∧ ¬ s.mem.noPictureReported then
    (((s.setCell cc { s.cell cc with byWrite := false }).cellRest cc).balanceSpares)
  else s

/-- OUT_OF_SERVICE of a conditioner (R266): one retired by a fault stays out. [DESIGN CHOICE, unsafe: log entry 33.] -/
def State.serveConditioner (s : State) (ic v : Nat) : State :=
  if v = 1 then s.set Od.ic_STATE ic 2
  else if s.faults.conditioners.contains ic then s
  else (s.set Od.ic_STATE ic 0).refreshConditioners

/-- ENABLE of a pool (R308). -/
def State.servePool (s : State) (p v : Nat) : State :=
  if v = 1 then
    if s.poolOn p then s
    else match s.poolSpot p with
      | some a => s.openPool p a
      | none => s
  else if s.poolOn p then ((s.set Od.pool_ENABLE p 0).set Od.pool_BASE p 0).setFree p {} else s

/-- The capture is emptied (R454). -/
def State.emptyCapture (s : State) : State :=
  [Od.cap_VALID, Od.cap_MESSAGE, Od.cap_AT, Od.cap_UPTIME_NS, Od.cap_LOG_SEQ, Od.cap_MERGE_COUNT, Od.cap_KINDS_SEEN,
    Od.cap_SEV_MAX].foldl (fun t r => t.set r 0 0) s

/-- Bits of a unit's STICKY cleared (R455); reserved units read zero (R445). -/
def State.clearSticky (s : State) (unit v : Nat) : State :=
  let old := s.get Od.unit_STICKY unit
  s.set Od.unit_STICKY unit (old - (old &&& v))

/-- CLEAR_ALL := 1. -/
def State.clearAll (s : State) : State :=
  (List.range 1024).foldl (fun t u => if t.get Od.unit_STICKY u = 0 then t else t.set Od.unit_STICKY u 0) s

/-- What follows one write in its commit cycle: `old` is the state before the request. -/
def State.follow (old s : State) (w : Writing) : State :=
  let v := w.num
  let i := w.inst
  let r := w.row
  if r.acc = .roClear then s.clearCount w
  else if r = Od.rd_ENABLE then if v = 1 ∧ ¬ old.enabled i then s.startDomain i else s
  else if (r.base = 0x6080 ∨ r.base = 0x6300) ∧ r.acc = .rws then if old.direct w.index then State.portSwapped old s i else s
  else if isSetting w then State.planStream old s i (r == Od.st_CROWN_MASK)
  else if r = Od.enc_RAP_REQUEST then
    if v = 1 ∧ ¬ s.streamShut i then s.setStream i { s.stream i with rapRequest := true } else s
  else if r = Od.cell_OUT_OF_SERVICE then s.serveCell i v
  else if r = Od.ic_OUT_OF_SERVICE then s.serveConditioner i v
  else if r = Od.pool_ENABLE then s.servePool i v
  else if r = Od.qg_INGEST_MIN then s.poolChanged (s.get Od.qg_INGEST_POOL i)
  else if r = Od.pool_HOST_MIN then s.poolChanged i
  else if r = Od.qg_FLUSH then s.flushGroup i v
  else if r = Od.egr_GATE_APPLY then if v = 1 then s.installGates i else s.removeGates i
  else if r = Od.cap_VALID then s.emptyCapture
  else if r = Od.unit_STICKY then s.clearSticky i v
  else if r = Od.fc_CLEAR_ALL then if v = 1 then s.clearAll else s
  else if r = Od.sec_OWNER_KEY_HASH then s.set r 0 v
  else if r = Od.sec_DEBUG_TOKEN then s.takeToken
  else if r = Od.sec_DEBUG_SEAL then if v = 1 then s.sealDebug else s
  else if r = Od.sec_FLASH_PROGRAM then s.startFlash
  else if r = Od.sec_CLIENT_KEYS then { s with sec := { s.sec with clientKeys := (pieces 144 w.value).map clientKeyOf } }
  else if r = Od.sec_SEAL_PEERS then { s with sec := { s.sec with sealPeers := (pieces 16 w.value).map leNat } }
  else s

/-- Every write of a request commits in one cycle (R33). -/
def State.commitWrites (s : State) (ws : List Writing) : State :=
  ws.foldl (State.follow s) (ws.foldl s.stage s)

/-- A refused DEBUG_TOKEN draws the challenge afresh (R488); a failed test of an open stream's settings shows its
shortfall (R85, R86). [DESIGN CHOICE, unsafe: log entry 33.] -/
def State.noteRefusal (s t : State) (w : Writing) (status : Nat) : State :=
  if status = Status.ok then s
  else if w.row = Od.sec_DEBUG_TOKEN then s.drawChallenge
  else if status = Status.inUse ∧ isSetting w ∧ ¬ s.halted ∧ ¬ s.streamShut w.inst ∧ s.streamState w.inst ≠ stAlias then
    match s.openTest t w.inst (w.row == Od.st_CROWN_MASK) with
    | some sf => s.set Od.st_ADMIT_SHORTFALL w.inst sf
    | none => s
  else s

/-- One write as a request of its own: its status is left in `lastStatus`. -/
def State.writeObject (s : State) (role : Nat) (a : Ask) : State :=
  if ¬ s.live then { s with lastStatus := Status.notReady }
  else match plainTest role false a with
    | .inl st =>
      let s := if st = Status.denied then s.bump Od.iop_DENIED_COUNT else s
      { s with lastStatus := st }
    | .inr w =>
      if w.row.acc = .cmd then { s with lastStatus := Status.denied }
      else
        let t := s.stage s w
        let st := s.lateTest t w
        if st = Status.ok then { s.commitWrites [w] with lastStatus := st }
        else { s.noteRefusal t w st with lastStatus := st }

/-- A number as the bytes of an object's type; one that does not fit keeps eight bytes. -/
def valueBytes (r : Row) (v : Nat) : List Byte := leBytes (if v < r.modulus then r.ty.size else 8) v

/-- A write of a number to an object. [DESIGN CHOICE, unsafe: log entry 33.] -/
def State.writeRow (s : State) (role : Role) (r : Row) (i v : Nat) : State :=
  s.writeObject (roleRank role) ⟨r.base + i, r.sub, r.ty.code, valueBytes r v⟩

end Sys2Proof.Machine
end

