-- ==== Sys2Proof/Machine/IopOps.lean ====
section
/-! DEFINITION. IOP: items, requests as R50 executes them, answers, the handshake, sessions and commands' responses
(R46–R67). -/

namespace Sys2Proof.Machine

/-! ### Items (R49) -/

/-- An item of a request body. -/
structure Item where
  op    : Nat
  index : Nat
  sub   : Nat
  ty    : Nat
  value : List Byte
  deriving DecidableEq, Repr

/-- The items of a body; none where one overruns it or has no operation code that a request may hold. -/
def parseItems : Nat → List Byte → Option (List Item)
  | 0, bs => if bs = [] then some [] else none
  | n + 1, bs =>
    if bs = [] then some []
    else
      let v := leAt bs 6 2
      let len := 8 + (v + 3) / 4 * 4
      let op := leAt bs 0 1
      if bs.length < len ∨ op = 0 ∨ 8 < op then none
      else match parseItems n (bs.drop len) with
        | none => none
        | some rest => some (⟨op, leAt bs 2 2, leAt bs 4 1, leAt bs 5 1, (bs.drop 8).take v⟩ :: rest)

/-- The items of a body of any length. -/
def itemsOf (bs : List Byte) : Option (List Item) := parseItems (bs.length / 8 + 1) bs

/-- An item that writes a CMD object (R52). -/
def Item.runs (it : Item) : Bool :=
  it.op == 2 && decide (0x2400 ≤ it.index ∧ it.index < 0x2500 ∧ it.sub = 1) && commandCodes.contains (it.index - 0x2400)

/-- At most one item writes a CMD object, and it is the last. -/
def commandLast (its : List Item) : Bool := its.dropLast.all fun it => !it.runs

def Item.ask (it : Item) : Ask := ⟨it.index, it.sub, it.ty, it.value⟩

/-- An item that validation tests, as against a read or a subscription. -/
def Item.validated (it : Item) : Bool := it.op == 2 || it.op == 4 || it.op == 6

/-! ### Validation (R50) -/

/-- What the tests of an item find: its status, and the write it makes. -/
structure Checked where
  item   : Item
  status : Nat
  write  : Option Writing := none
  deriving DecidableEq, Repr

/-- A DOMAIN_WRITE segment: the whole value that it leaves, over what earlier segments of the request stored. -/
def State.segment (t : State) (role : Nat) (boot : Bool) (it : Item) : Nat ⊕ Writing :=
  match plainTest role boot it.ask with
  | .inl st =>
    match lookUp it.index it.sub with
    | .inr x => .inl (if st = Status.length ∧ x.1.ty ≠ .domain then Status.typeMismatch else st)
    | .inl _ => .inl st
  | .inr w =>
    if w.row.ty ≠ .domain then .inl Status.typeMismatch
    else
      let off := leAt it.value 0 4
      let data := it.value.drop 4
      let old := t.blobShadow w.row w.inst
      if it.value.length < 4 ∨ old.length < off then .inl Status.length
      else .inr { w with value := old.take off ++ data ++ old.drop (off + data.length) }

/-- Tests 1 to 5 of a write item, on the state that the request's earlier items leave. -/
def State.writeItem (t : State) (role : Nat) (boot : Bool) (it : Item) : Nat ⊕ Writing :=
  if it.op = 6 then t.segment role boot it else plainTest role boot it.ask

/-- The writes of a request that pass tests 1 to 5, stored one after another on the state `s` before it; each item with what
was found. -/
def State.plainAll (s : State) (role : Nat) (boot : Bool) : State → List Item → State × List Checked
  | t, [] => (t, [])
  | t, it :: rest =>
    let c : State × Checked :=
      if it.op = 2 ∨ it.op = 6 then
        match t.writeItem role boot it with
        | .inl st => (t, ⟨it, st, none⟩)
        | .inr w => (if it.runs then t else s.stage t w, ⟨it, Status.ok, some w⟩)
      else (t, ⟨it, Status.ok, none⟩)
    let r := s.plainAll role boot c.1 rest
    (r.1, c.2 :: r.2)

/-- Bytes of an object for a read, by shadow or active value. -/
def State.readBytes (s : State) (x : Row × Nat × Nat) (shadow : Bool) : List Byte := s.value x.1 x.2.1 x.2.2 shadow

/-- The tests of an item that reads: existence, access, type. Every role may read what the model lists. -/
def readTest (it : Item) : Nat ⊕ (Row × Nat × Nat) :=
  match lookUp it.index it.sub with
  | .inl st => .inl st
  | .inr x =>
    if x.1.acc = .wo ∨ x.1.acc = .cmd then .inl Status.writeOnly
    else if (it.ty ≠ 0 ∨ it.op = 4) ∧ it.ty ≠ x.1.ty.code then .inl Status.typeMismatch
    else .inr x

/-- A TEST's value as the object would hold it: a STRING is padded with zero bytes (R37). -/
def Row.padded (r : Row) (v : List Byte) : List Byte :=
  match r.ty with
  | .str m => v ++ leBytes (m - v.length) 0
  | _ => v

/-- The raster domain of an RTIME object. -/
def State.rtimeDomain (s : State) (r : Row) (i : Nat) : Nat :=
  if r.base = 0x2200 then i else if r.base = 0x6300 then s.portDomain i else 0

/-- Test 6 of a TEST item: the value is one of the object's type and limits (R37, R50). -/
def State.testRange (s : State) (r : Row) (i : Nat) (v : List Byte) : Bool :=
  match r.ty with
  | .bool => decide (leNat v ≤ 1)
  | .rtime => s.validTime (s.rtimeDomain r i) (RTime.ofWord (leNat v))
  | _ => r.lim.holds (leNat v)

/-- A TEST: its tests, then the comparison with the value before the request's writes (R51).
[DEDUCED, unsafe: log entry 29.] [DESIGN CHOICE, unsafe: log entry 74.] -/
def State.testItem (s : State) (it : Item) (shadow : Bool) : Nat :=
  match readTest it with
  | .inl st => st
  | .inr x =>
    if ¬ lengthOk x.1 it.value.length then Status.length
    else if ¬ s.testRange x.1 x.2.1 it.value then Status.outOfRange
    else if s.readBytes x shadow = x.1.padded it.value then Status.ok
    else Status.mismatch

/-- The full status of a validated item. -/
def State.finish (s t : State) (shadow : Bool) (c : Checked) : Checked :=
  if c.item.op = 4 then { c with status := s.testItem c.item shadow }
  else match c.write with
    | none => c
    | some w => { c with status := if c.item.runs then s.commandTest w else s.lateTest t w }

/-- Every item with its status before anything is done. [DEDUCED, unsafe: log entry 29.] -/
def State.validate (s : State) (role : Nat) (boot shadow : Bool) (its : List Item) : State × List Checked :=
  let r := s.plainAll role boot s its
  (r.1, r.2.map fun c => s.finish r.1 shadow c)

/-! ### Reads and subscriptions -/

/-- The answer to a read item: status, type and value. SHADOW_ALL turns a DOMAIN_READ to the shadow as well.
[DESIGN CHOICE, unsafe: log entry 73.] -/
def State.readItem (s : State) (it : Item) (shadowAll : Bool) : Nat × Nat × List Byte :=
  match readTest it with
  | .inl st => (st, it.ty, [])
  | .inr x =>
    let v := s.readBytes x (shadowAll || it.op == 3)
    if it.op = 5 then
      let off := leAt it.value 0 4
      if x.1.ty ≠ .domain then (Status.typeMismatch, it.ty, [])
      else if it.value.length ≠ 8 ∨ v.length < off then (Status.length, it.ty, [])
      else (Status.ok, x.1.ty.code, leBytes 4 off ++ (v.drop off).take (leAt it.value 4 4))
    else (Status.ok, x.1.ty.code, v)

/-- A session without the subscription of an object. -/
def Session.unsubscribe (x : Session) (key : Nat) : Session := { x with subs := x.subs.filter fun u => u.key ≠ key }

/-- UNSUBSCRIBE (R61): of any object that exists. [DEDUCED, unsafe: log entry 69.] -/
def Session.unsubscribeItem (x : Session) (it : Item) : Session × Nat :=
  match lookUp it.index it.sub with
  | .inl st => (x, st)
  | .inr o =>
    if it.ty ≠ 0 ∧ it.ty ≠ o.1.ty.code then (x, Status.typeMismatch)
    else (x.unsubscribe (o.1.key o.2.1 o.2.2), Status.ok)

/-- SUBSCRIBE and UNSUBSCRIBE (R61): the session after it, and the status. [DEDUCED, unsafe: log entry 29.] -/
def State.subscribeItem (s : State) (x : Session) (it : Item) : Session × Nat :=
  if it.op = 8 then x.unsubscribeItem it
  else match readTest it with
    | .inl st => (x, st)
    | .inr o =>
      let key := o.1.key o.2.1 o.2.2
      let mode := leAt it.value 0 1
      let per := leAt it.value 2 2
      let y := x.unsubscribe key
      if it.value.length ≠ 4 then (x, Status.length)
      else if 1 < mode ∨ (mode = 1 ∧ per = 0) ∨ 256 ≤ y.subs.length then (x, Status.outOfRange)
      else ({ y with subs := y.subs ++ [{ key := key, mode := mode, period := per, due := 1, seen := s.valueAt key }] }, Status.ok)

/-- Response bytes of one item. -/
def answerItem (it : Item) (status ty : Nat) (v : List Byte) : List Byte := itemBytes it.op status it.index it.sub ty v

/-- Bytes that an item may take in a response (R53), `s` being the state that its reads sample and `shadowAll` the flag of
R48: a command's return data is not counted. [DEDUCED, unsafe: log entry 29.] -/
def State.responseSize (s : State) (shadowAll : Bool) (it : Item) : Nat :=
  let pad : Nat → Nat := fun n => (n + 3) / 4 * 4
  8 + (if it.runs then 4
    else if it.op = 1 ∨ it.op = 3 then
      match readTest it with
      | .inl _ => 0
      | .inr x => pad (match x.1.ty with
        | .domain => (s.readBytes x (shadowAll || it.op == 3)).length
        | t => t.size)
    else if it.op = 5 then pad (4 + leAt it.value 4 4)
    else 0)

/-! ### Execution (R50) -/

/-- What a request leaves: the state, its session, the response's items, and whether its command starts. -/
structure Executed where
  state   : State
  session : Session
  items   : List Byte
  starts  : Bool
  allOk   : Bool
  deriving DecidableEq, Repr

/-- The reads and subscriptions of a request, and the statuses of its other items, in order. -/
def State.answerAll (s : State) (shadowAll good : Bool) : Session → List Checked → Session × List Byte × Bool
  | x, [] => (x, [], true)
  | x, c :: rest =>
    let a : Session × List Byte × Bool :=
      if c.item.validated then
        let st := if good ∨ c.status ≠ Status.ok then c.status else Status.aborted
        (x, if good && c.item.runs then [] else answerItem c.item st c.item.ty [], decide (st = Status.ok))
      else if c.item.op = 7 ∨ c.item.op = 8 then
        let r := s.subscribeItem x c.item
        (r.1, answerItem c.item r.2 c.item.ty [], decide (r.2 = Status.ok))
      else
        let r := s.readItem c.item shadowAll
        (x, answerItem c.item r.1 r.2.1 r.2.2, decide (r.1 = Status.ok))
    let b := s.answerAll shadowAll good a.1 rest
    (b.1, a.2.1 ++ b.2.1, a.2.2 && b.2.2)

/-- Executes the items of a request for a session. [DEDUCED, unsafe: log entry 29.] -/
def State.execute (s : State) (x : Session) (role : Nat) (boot shadowAll : Bool) (its : List Item) : Executed :=
  let r := s.validate role boot shadowAll its
  let good := r.2.all fun c => !c.item.validated || c.status == Status.ok
  let writes := r.2.filterMap fun c => if c.item.runs then none else c.write
  let denied := (r.2.filter fun c => c.status = Status.denied).length
  let s1 :=
    if good then s.commitWrites writes
    else (r.2.foldl (fun t c => match c.write with
      | some w => if c.item.runs then t else t.noteRefusal r.1 w c.status
      | none => t) s).bumpBy Od.iop_DENIED_COUNT 0 0 denied
  let a := s1.answerAll shadowAll good x r.2
  { state := s1, session := a.1, items := a.2.1, starts := good && its.any Item.runs, allOk := a.2.2 }

/-- The command item that ends a request. -/
def lastCommand (its : List Item) : Option Item := its.getLast?.bind fun it => if it.runs then some it else none

/-! ### Answers -/

/-- A frame of the engine with FLAGS: AUTH when it has a key, RETRY when it is sent again (R48). -/
def engineFrame (ty session seq : Nat) (retry : Bool) (body : List Byte) (key : Option (List Byte)) : List Byte :=
  match key with
  | none => headerBytes ty (2 * b2n retry) (16 + body.length) session seq ++ body
  | some k =>
    let hb := headerBytes ty (1 + 2 * b2n retry) (80 + body.length) session seq ++ body
    hb ++ Config.hmac k hb

/-- Keeps the answer to a request, and sends it (R58). -/
def State.respond (s : State) (id seq : Nat) (frame : List Byte) : State :=
  match s.session id with
  | none => s
  | some x =>
    let y := if x.keptSeq = seq then { x with keptAnswer := frame } else x
    (s.setSession y).sendTo x.origin frame

/-- A REJECT of a frame inside a session or on the mailbox. -/
def rejectFrame (session seq reason : Nat) (key : Option (List Byte)) : List Byte :=
  engineFrame 0x3F session seq false (leBytes 1 reason ++ [0#8, 0#8, 0#8]) key

/-- A frame is discarded and counted. -/
def State.discardFrame (s : State) : State := s.bump Od.iop_FRAMES_DISCARDED

/-- A frame fails authentication. -/
def State.authFailure (s : State) : State := s.bump Od.iop_AUTH_FAILURES

/-- A session's role: the mailbox without AUTH holds MAILBOX_ROLE (R60). -/
def State.roleOf (s : State) (x : Session) : Nat := if x.id = 0 ∧ ¬ x.auth then s.get Od.iop_MAILBOX_ROLE else x.role

/-- A session closes (R59, R60): its subscriptions and notifications go, and the mailbox returns to MAILBOX_ROLE. -/
def State.closeSession (s : State) (id : Nat) : State :=
  if id = 0 then s.resetMailbox
  else { s with iop := { s.iop with
      sessions := s.iop.sessions.filter fun x => x.id ≠ id
      inFlight := s.iop.inFlight.filter fun f => f.session ≠ id } }

/-- A request whose SEQ is new: it is refused whole, or executed (R50–R53, R58, R63). -/
def State.runRequest (s : State) (x : Session) (seq flags : Nat) (frame body : List Byte) : State :=
  let x := { x with keptSeq := seq, keptAnswer := [] }
  let s := s.setSession x
  let reject : Nat → State := fun why => s.respond x.id seq (rejectFrame x.id seq why x.outKey)
  if x.frameMax < frame.length then reject 3
  else match itemsOf body with
    | none => reject 4
    | some its =>
      if ¬ commandLast its then reject 4
      else
        let e := s.execute x (s.roleOf x) false (flags.testBit 2) its
        if x.frameMax < x.overhead + (its.map fun it => e.state.responseSize (flags.testBit 2) it).sum then reject 5
        else
          let s := e.state.setSession e.session
          match lastCommand its, e.starts with
          | some c, true =>
            s.acceptCommand (c.index - 0x2400) x.id c.value (some ⟨x.id, seq, e.items⟩)
          | _, _ => s.respond x.id seq (engineFrame 0x11 x.id seq false e.items x.outKey)

/-! ### Commands' responses (R65–R67) -/

/-- The session of commands that the configuration set runs; no session has this number.
[DESIGN CHOICE, unsafe: log entry 32.] -/
def bootSession : Nat := 2 ^ 32

/-- The session of a command that a BROADCAST runs. [DESIGN CHOICE, unsafe: log entry 32.] -/
def broadcastSession : Nat := 2 ^ 32 + 1

/-- An item for a command of a code. -/
def commandItem (op status code : Nat) (v : List Byte) : List Byte := itemBytes op status (0x2400 + code) 1 0x0B v

/-- The response to a command that is still running: PENDING with its TICKET. -/
def State.sayPending (s : State) (e : CmdEntry) (h : HeldResponse) : State :=
  match s.session h.session with
  | none => s
  | some x => s.respond h.session h.seq
      (engineFrame 0x11 h.session h.seq false (h.items ++ commandItem 2 Status.pending e.code (leBytes 4 e.ticket)) x.outKey)

/-- The COMPLETE item of a command, in a NOTIFY (R66). -/
def State.sayComplete (s : State) (e : CmdEntry) (r : Nat) (data : List Byte) : State :=
  match s.session e.session with
  | none => s
  | some x =>
    let head := leBytes 4 e.ticket ++ leBytes 1 e.code ++ [0#8] ++ leBytes 2 r
    let whole := commandItem 9 Status.ok e.code (head ++ data)
    s.sendNotify e.session (if x.frameMax < x.overhead + whole.length then commandItem 9 Status.ok e.code head else whole)

/-- The outcome of a command reaches the session that issued it. -/
def State.answerCommand (s : State) (e : CmdEntry) (r : Nat) (data : List Byte) : State :=
  match e.held with
  | none => if bootSession ≤ e.session ∨ ¬ e.pending then s else s.sayComplete e r data
  | some h =>
    if e.pending then s.sayComplete e r data
    else match s.session h.session with
      | none => s
      | some x =>
        let item := if r = Result.ok then commandItem 2 Status.ok e.code data else commandItem 2 Status.failed e.code (leBytes 2 r)
        let body := h.items ++ item
        if x.frameMax < x.overhead + body.length then (s.sayPending e h).sayComplete e r data
        else s.respond h.session h.seq (engineFrame 0x11 h.session h.seq false body x.outKey)

/-- The command of a code that waits first starts, where it may. -/
def State.startWaiting (s : State) (code : Nat) : State :=
  let q := s.cmdQueue code
  match q.waiting with
  | [] => s
  | e :: rest => if s.mayStart code then s.setCmdQueue code { q with running := some e.begin, waiting := rest } else s

/-- Codes that exclude one another, by the ticket of what waits first. -/
def State.exclusiveOrder (s : State) : List Nat :=
  sortBy (fun a b =>
    decide ((((s.cmdQueue a).waiting.head?.map CmdEntry.ticket).getD (2 ^ 32)) <
      (((s.cmdQueue b).waiting.head?.map CmdEntry.ticket).getD (2 ^ 32)))) exclusive

/-- After a completion: the next commands start. -/
def State.nextCommand (s : State) (code : Nat) : State :=
  if code ∈ exclusive then s.exclusiveOrder.foldl (fun t c => t.startWaiting c) s else s.startWaiting code

/-- The region of a REGION_CREATE exists (R276), and may make PICTURE_REGION usable (R280). -/
def State.regionMade (s : State) (args : List Byte) (base : Nat) : State :=
  let s := s.nameRegion (leAt args 0 1) (leAt args 1 1) (leAt args 2 1) base (leAt args 12 8)
  if s.mem.noPictureReported then s.testPicture else s

/-- What the completion of a command ends besides: the region of a REGION_CREATE exists, a SCRUB's region is free and has its time, the
cells of a reset crown serve again, the banks of a MICROCODE_LOAD are LOADED. -/
def State.endCommand (s : State) (e : CmdEntry) (r : Nat) : State :=
  match e.code with
  | 0x20 => if r = Result.ok then s.regionMade e.args (leAt (e.result.elim [] Prod.snd) 0 8) else s
  | 0x22 =>
    let s := match s.mem.scrubbing with
      | some g => if r = Result.ok then s.set Od.reg_LAST_SCRUB_AT g (RTime.word (s.now 0)) else s
      | none => s
    { s with mem := { s.mem with scrubbing := none } }
  | 0x24 =>
    let cw := leAt e.args 0 1
    if r = Result.ok then
      let s := s.set Od.crown_POWER_STATE cw 2
      ((cellsOf cw).foldl (fun t cc => if t.isRetired cc then t else t.cellRest cc) (s.followForce cw)).balanceSpares
    else s
  | 0x30 =>
    let banks := s.code.banks.map fun b => (b.1, if b.2.state = 1 ∧ r = Result.ok then { b.2 with state := 2 } else b.2)
    ({ s with code := { s.code with banks := banks } }).tidyShelf
  | _ => s

/-! ### The configuration set (R480) -/

/-- The records of a configuration set's payload. -/
def configRecords : Nat → List Byte → List (List Byte)
  | 0, _ => []
  | n + 1, bs =>
    if bs.length < 4 then []
    else
      let len := leAt bs 0 2
      (bs.drop 4).take len :: configRecords n (bs.drop (4 + (len + 3) / 4 * 4))

/-- Marks the configuration set's record in BOOT_LOG as the one that failed. -/
def State.configStops (s : State) : State :=
  let n := s.sec.recordNo
  { s with sec := { s.sec with
      records := [], recordNo := 0
      bootLog := s.sec.bootLog.map fun b => if b.kind = 3 ∧ b.record = 0xFFFF then { b with record := n } else b } }

/-- Executes records, each as one request with ADMIN role, up to the first that holds a command, which runs to its
completion, or that does not end OK. -/
def State.applyRecords : Nat → State → State
  | 0, s => s
  | n + 1, s =>
    match s.sec.records with
    | [] => s
    | body :: rest =>
      match itemsOf body with
      | none => s.configStops
      | some its =>
        if ¬ commandLast its ∨ 3072 < body.length then s.configStops
        else
          let e := s.execute s.mailboxSession 2 true false its
          if ¬ e.allOk then e.state.configStops
          else match lastCommand its with
            | some c =>
              let t := { e.state with sec := { e.state.sec with records := rest } }
              t.acceptCommand (c.index - 0x2400) bootSession c.value none
            | none =>
              State.applyRecords n { e.state with sec := { e.state.sec with records := rest, recordNo := e.state.sec.recordNo + 1 } }

/-- The configuration set goes on after a command of it has completed. -/
def State.configGoesOn (s : State) (r : Nat) : State :=
  if r ≠ Result.ok then s.configStops
  else
    let s := { s with sec := { s.sec with recordNo := s.sec.recordNo + 1 } }
    s.applyRecords s.sec.records.length

/-- A running command completes: its record is written, its outcome is reported, and the next one starts. -/
def State.completeCommand (s : State) (code : Nat) : State :=
  let q := s.cmdQueue code
  match q.running with
  | none => s
  | some e =>
    match e.result with
    | none => s
    | some (r, data) =>
      let rec_ : CmdRecord := ⟨e.ticket, if bootSession ≤ e.session then 0 else e.session, r, s.now 0⟩
      let s := s.setCmdQueue code { q with running := none, records := (rec_ :: q.records).take 16, lastReturn := data }
      let s := (s.endCommand e r).answerCommand e r data
      let s := s.nextCommand code
      if e.session = bootSession then s.configGoesOn r else s

/-- The 1 ms of a held response has passed: the oldest command of the code that holds one and has no result is reported
PENDING; one that completes in that cycle is reported inline (R35, R66). -/
def State.pendCommand (s : State) (code : Nat) : State :=
  let q := s.cmdQueue code
  let holds : CmdEntry → Bool := fun e =>
    e.held.isSome && !e.pending && e.result.isNone && decide (e.at_ + msCycles 1 ≤ s.cycle)
  match (q.running.toList ++ q.waiting).find? holds with
  | none => s
  | some e =>
    let mark : CmdEntry → CmdEntry := fun x => if x.ticket = e.ticket then { x with pending := true } else x
    let s := s.setCmdQueue code { q with running := q.running.map mark, waiting := q.waiting.map mark }
    match e.held with
    | some h => s.sayPending e h
    | none => s

/-! ### The handshake (R55–R57) -/

/-- SESSIONS_OPEN: authenticated sessions, a raised mailbox among them (R59, R72). -/
def State.sessionsOpen (s : State) : Nat := s.authSessions.length

/-- A HELLO of the present second is within HELLO_RATE: the state that counts it, or none.
[DESIGN CHOICE, unsafe: log entry 30.] -/
def State.takeHello (s : State) : Option State :=
  let fresh := decide (s.iop.helloSince + secCycles 1 ≤ s.cycle)
  let n := if fresh then 0 else s.iop.helloCount
  if s.get Od.iop_HELLO_RATE ≤ n then none
  else some { s with iop := { s.iop with
    helloCount := n + 1, helloSince := if fresh then s.cycle / secCycles 1 * secCycles 1 else s.iop.helloSince } }

/-- The client key of a KEY_ID. -/
def State.clientKey (s : State) (id : List Byte) : Option ClientKey := s.sec.clientKeys.find? fun k => k.keyId = id

/-- CHALLENGE to an accepted HELLO. -/
def State.challenge (s : State) (o : Origin) (k : ClientKey) (body : List Byte) : State :=
  let id := if o = .mailbox then 0 else s.iop.nextId
  let nonce := s.drawBytes 32
  let s := s.useDraws 32
  let draw := s.sec.draws
  let eph := Config.ecdhPublic draw
  let s := s.useDraws 66
  let signed := nonce ++ eph ++ Config.ecdsaSign (Config.sha512 (body ++ nonce ++ eph))
  let h : Handshake :=
    { session := id, origin := o, hello := body, answer := signed, role := min (leAt body 173 1) k.role
      frameMax := max 512 (min 4096 (leAt body 175 2)), keyId := k.keyId, pubkey := k.pubkey, ephDraw := draw, startAt := s.cycle }
  let others := s.iop.handshakes.filter fun (x : Handshake) => ¬ (o = Origin.mailbox ∧ x.origin = Origin.mailbox)
  let s := { s with iop := { s.iop with
    handshakes := others ++ [h], nextId := if o = Origin.mailbox then s.iop.nextId else (if s.iop.nextId + 1 = 2 ^ 32 then 1 else s.iop.nextId + 1) } }
  s.sendTo o (engineFrame 0x02 id 1 false signed none)

/-- FRAME_MAX of a frame outside a session (R49). -/
def frameMost : Nat := 4096

/-- The mailbox is at MAILBOX_ROLE. -/
def State.plainMailbox (s : State) (o : Origin) : Bool :=
  decide (o = .mailbox) && match s.session 0 with
    | some x => !x.auth
    | none => true

/-- A fault of a frame's head: REJECT on the mailbox at MAILBOX_ROLE, else a counted discard. -/
def State.badHead (s : State) (o : Origin) (frame : List Byte) (reason : Nat) : State :=
  if s.plainMailbox o then s.sendTo o (rejectFrame (leAt frame 8 4) (leAt frame 12 4) reason none) else s.discardFrame

/-- A HELLO frame (R55, R57, R63). A SECURITY halt lets none through (R457). -/
def State.hello (s : State) (o : Origin) (frame : List Byte) : State :=
  match s.takeHello with
  | none => s
  | some s =>
    let body := frame.drop 16
    if s.sec.sealedOff then s.discardFrame
    else if frame.length < 512 then s.authFailure
    else match s.clientKey ((body.drop 165).take 8) with
      | none => s.authFailure
      | some k =>
        if o ≠ .mailbox ∧ s.get Od.iop_SESSION_MAX ≤ s.sessionsOpen then
          s.sendTo o (rejectFrame (leAt frame 8 4) (leAt frame 12 4) 6 none)
        else if frameMost < frame.length then s.badHead o frame 3
        else s.challenge o k body

/-- The keys of a session: client to engine, and engine to client (R56). -/
def Handshake.keys (h : Handshake) : List Byte × List Byte :=
  let z := Config.ecdhShared h.ephDraw ((h.hello.drop 32).take 133)
  let salt := h.hello.take 32 ++ h.answer.take 32
  let info : List Byte := [0x49#8, 0x4F#8, 0x50#8, 0x20#8]
  (Config.hkdf salt z (info ++ [0x63#8, 0x32#8, 0x65#8]) 64, Config.hkdf salt z (info ++ [0x65#8, 0x32#8, 0x63#8]) 64)

/-- The HMAC of an authenticated frame verifies. -/
def hmacOk (key frame : List Byte) : Bool :=
  decide (80 ≤ frame.length) && (leAt frame 4 2).testBit 0 &&
    decide (Config.hmac key (frame.take (frame.length - 64)) = frame.drop (frame.length - 64))

/-- A handshake is over. -/
def State.endHandshake (s : State) (h : Handshake) : State :=
  { s with iop := { s.iop with handshakes := s.iop.handshakes.filter fun x => x ≠ h } }

/-- The session opens: ACCEPT is sent. -/
def State.openSession (s : State) (h : Handshake) : State :=
  let keys := h.keys
  let idle := s.get Od.iop_IDLE_TIMEOUT
  let x : Session :=
    { id := h.session, origin := h.origin, role := h.role, auth := true, frameMax := h.frameMax, idleTimeout := idle
      keyId := h.keyId, lastValid := s.cycle, c2e := keys.1, e2c := keys.2, engineSeq := 2 }
  let s := s.endHandshake h
  let s := { s with iop := { s.iop with
    sessions := (s.iop.sessions.filter fun (y : Session) => y.id ≠ h.session) ++ [x]
    inFlight := s.iop.inFlight.filter fun (f : InFlight) => f.session ≠ h.session } }
  s.sendTo h.origin (engineFrame 0x04 h.session 2 false (leBytes 1 h.role ++ [0#8] ++ leBytes 2 h.frameMax ++ leBytes 2 idle) (some keys.2))

/-- A PROVE frame. -/
def State.prove (s : State) (o : Origin) (frame : List Byte) : State :=
  match s.iop.handshakes.find? fun h => h.session = leAt frame 8 4 ∧ h.origin = o with
  | none => s.authFailure
  | some h =>
    let sig := (frame.drop 16).take 132
    if ¬ Config.ecdsaVerify h.pubkey (Config.sha512 (h.hello ++ h.answer)) sig then (s.endHandshake h).authFailure
    else if ¬ hmacOk h.keys.1 frame then s.authFailure
    else if frameMost < frame.length then s.badHead o frame 3
    else s.openSession h

/-- A handshake without ACCEPT 2 s after its HELLO is discarded (R57). -/
def State.dropHandshake (s : State) (session : Nat) : State :=
  let stays : Handshake → Bool := fun h => decide (h.session ≠ session ∨ s.cycle < h.startAt + secCycles 2)
  { s with iop := { s.iop with handshakes := s.iop.handshakes.filter stays } }

/-! ### Frames (R48, R58, R63) -/

/-- TYPE codes that a client sends. [DESIGN CHOICE, unsafe: log entry 30.] -/
def clientTypes : List Nat := [0x01, 0x03, 0x10, 0x21, 0x30]

/-- A frame inside a session: a REQUEST by its SEQ, an acknowledgement, a close. -/
def State.sessionFrame (s : State) (o : Origin) (x : Session) (frame : List Byte) : State :=
  let ty := leAt frame 3 1
  let seq := leAt frame 12 4
  let body := (frame.drop 16).take (frame.length - x.overhead)
  if ty = 0x10 then
    if seq < x.keptSeq then s.discardFrame
    else if seq = x.keptSeq then if x.keptAnswer = [] then s else s.sendTo o x.keptAnswer
    else s.runRequest x seq (leAt frame 4 2) frame body
  else if x.frameMax < frame.length then s.sendTo x.origin (rejectFrame x.id seq 3 x.outKey)
  else if ty = 0x21 then
    { s with iop := { s.iop with inFlight := s.iop.inFlight.filter fun f => ¬ (f.session = x.id ∧ f.seq = seq) } }
  else s.closeSession x.id

/-- A frame with a bad HMAC, or without one, in an authenticated session (R59, R60). -/
def State.badHmac (s : State) (x : Session) : State :=
  let s := s.authFailure
  if x.id = 0 ∨ 16 ≤ x.badRun + 1 then s.closeSession x.id else s.setSession { x with badRun := x.badRun + 1 }

/-- The tests of a frame that belongs to a session: SESSION and HMAC, then what it asks. No key verifies the trailer of a frame
that sets AUTH on the mailbox at MAILBOX_ROLE. [DEDUCED, unsafe: log entry 30.] -/
def State.forSession (s : State) (o : Origin) (frame : List Byte) : State :=
  match s.session (leAt frame 8 4) with
  | none => s.authFailure
  | some x =>
    if (o = .mailbox) ≠ (x.id = 0) then s.authFailure
    else if x.auth then
      if ¬ hmacOk x.c2e frame then s.badHmac x
      else
        let x := { x with lastValid := s.cycle, badRun := 0 }
        (s.setSession x).sessionFrame o x frame
    else if (leAt frame 4 2).testBit 0 then s.authFailure
    else s.sessionFrame o x frame

/-- A transport on which the engine accepts IOP. [DESIGN CHOICE, unsafe: log entry 30.] -/
def State.transportOpen (s : State) (o : Origin) : Bool :=
  match o with
  | .fabric _ => s.flag Od.iop_FABRIC_IOP
  | _ => true

/-- A frame arrives, with the length that its transport gives it. -/
def State.receiveFrame (s : State) (o : Origin) (frame : List Byte) (length : Nat) : State :=
  if ¬ s.live then
    if o = .mailbox then s.sendTo o (rejectFrame (leAt frame 8 4) (leAt frame 12 4) 7 none) else s
  else if ¬ s.transportOpen o then s
  else if frame.take 3 ≠ [0x49#8, 0x4F#8, 0x01#8] ∨ frame.length < 16 then s.badHead o frame 1
  else if leAt frame 6 2 ≠ length ∨ frame.length ≠ length then s.badHead o frame 2
  else if leAt frame 3 1 ∉ clientTypes then s.badHead o frame 1
  else if leAt frame 3 1 = 0x01 then s.hello o frame
  else if leAt frame 3 1 = 0x03 then s.prove o frame
  else s.forSession o frame

/-- A mailbox frame that gets no answer leaves EXECUTING: no response of it is held or waits. -/
def State.endExecuting (s : State) : State :=
  let held := s.cmds.queues.any fun q => (q.2.running.toList ++ q.2.waiting).any fun e =>
    (match e.held with
      | some h => decide (h.session = 0)
      | none => false) && !e.pending
  if held ∨ s.host.respWaiting.isSome then s else { s with host := { s.host with executing := false } }

/-- The mailbox's request executes (R421). -/
def State.startExecuting (s : State) : State := { s with host := { s.host with executing := true } }

/-- A frame of a row: one of another TYPE is no event of that row; on the mailbox it comes while no request is outstanding, or
is ignored and counted (R47). -/
def State.takeFrame (s : State) (o : Origin) (frame : List Byte) (types : Nat → Bool) : State :=
  if types (leAt frame 3 1) then
    if o = .mailbox then
      if s.host.outstanding then s.discardFrame
      else (s.startExecuting.receiveFrame o frame frame.length).endExecuting
    else s.receiveFrame o frame frame.length
  else s

/-! ### Notifications (R62) -/

/-- The body of a frame that was sent with a key or without. -/
def Session.bodyOf (x : Session) (frame : List Byte) : List Byte := (frame.drop 16).take (frame.length - x.overhead)

/-- A NOTIFY has waited 100 ms for its acknowledgement, on the mailbox from its placement in the response buffer (R62). -/
def State.resendDue (s : State) (f : InFlight) : Bool :=
  match f.placed with
  | none => false
  | some a => decide (a + msCycles 100 ≤ s.cycle)

/-- A NOTIFY frame without its acknowledgement: it is sent again, or dropped after three resends.
[DESIGN CHOICE, unsafe: log entry 30.] -/
def State.resendNotify (s : State) (session seq : Nat) : State :=
  match s.iop.inFlight.find? fun f => f.session = session ∧ f.seq = seq, s.session session with
  | some f, some x =>
    if ¬ s.resendDue f then s
    else if 3 ≤ f.resends then
      ({ s with iop := { s.iop with inFlight := s.iop.inFlight.erase f } }).bump Od.iop_NOTIFY_LOST
    else
      let frame := engineFrame 0x20 session seq true (x.bodyOf f.frame) x.outKey
      let g : InFlight := { f with frame := frame, resends := f.resends + 1, placed := if session = 0 then none else some s.cycle }
      let s := { s with iop := { s.iop with inFlight := mapIf (fun y => decide (y = f)) (fun _ => g) s.iop.inFlight } }
      if session = 0 then s.notifyMailbox frame else s.sendWire x.origin frame
  | _, _ => s

end Sys2Proof.Machine
end

