-- ==== Sys2Proof/Machine/FaultOps.lean ====
section
/-! DEFINITION. The fault collector: the log, the capture and sticky bits (R450–R455), the actions (R447–R449), the recovery
of rows and of memory errors (R458–R463), and the halt (R457). -/

namespace Sys2Proof.Machine

/-! ### Log, capture, sticky bits -/

/-- ACTION of a KIND (R446): 0 LOG, 1 CONTAIN, 2 DEGRADE, 3 HALT. -/
def kindAction (k : Nat) : Nat :=
  if k ∈ [0x02, 0x03, 0x04, 0x05, 0x06, 0x07, 0x08, 0x09, 0x11, 0x13, 0x14, 0x21] then 1
  else if k = 0x0A then 2
  else if k ∈ [0x16, 0x52, 0x61, 0x70] then 3
  else 0

/-- A RETRAIN_FAILED of start-up training does not halt (R292, R457). -/
def State.actionOf (s : State) (m : FaultMsg) : Nat :=
  if m.kind = 0x16 ∧ s.mem.trainingFailed then 0 else kindAction m.kind

/-- A message repeats a log entry (R451). -/
def State.repeats (s : State) (m : FaultMsg) (e : LogEntry) : Bool :=
  decide (e.msg.unit = m.unit ∧ e.msg.kind = m.kind ∧ e.msg.addr = m.addr ∧
    s.uptimeNs < e.uptime + s.get Od.fc_REPEAT_WINDOW * 1000000)

/-- Counts a repeat in the first of some entries that a message repeats; its SEQ. -/
def State.mergeEntry (s : State) (m : FaultMsg) : List LogEntry → Option (List LogEntry × Nat)
  | [] => none
  | e :: es =>
    if s.repeats m e then some ({ e with repeats := min 65535 (e.repeats + 1) } :: es, e.seq)
    else (s.mergeEntry m es).map fun r => (e :: r.1, r.2)

/-- The message in the log: a repeat of one of the 16 newest entries, or a new entry (R450, R451). The second part is its
SEQ. -/
def State.logMessage (s : State) (m : FaultMsg) : State × Nat :=
  match s.mergeEntry m (s.faults.log.take 16) with
  | some (top, seq) => ({ s with faults := { s.faults with log := top ++ s.faults.log.drop 16 } }, seq)
  | none =>
    let seq := s.faults.seq
    let e : LogEntry := { seq := seq, msg := m, action := s.actionOf m, repeats := 0, at_ := s.now 0, uptime := s.uptimeNs }
    let s := if 256 ≤ s.faults.log.length then s.bump Od.fc_LOG_LOST else s
    (({ s with faults := { s.faults with log := (e :: s.faults.log).take 256, seq := seq + 1 } }).raise 241, seq)

/-- First-error capture (R452, R453). -/
def State.capture (s : State) (m : FaultMsg) (seq : Nat) : State :=
  if m.sev < s.get Od.fc_CAPTURE_SEV then s
  else if s.flag Od.cap_VALID then
    ((s.bump Od.cap_MERGE_COUNT).set Od.cap_KINDS_SEEN 0 (setBit (s.get Od.cap_KINDS_SEEN) m.kind)).set Od.cap_SEV_MAX 0
      (max m.sev (s.get Od.cap_SEV_MAX))
  else
    ((((s.set Od.cap_VALID 0 1).set Od.cap_MESSAGE 0 (FaultMsg.word m)).set Od.cap_AT 0 (RTime.word (s.now 0))).set Od.cap_UPTIME_NS 0
      s.uptimeNs).set Od.cap_LOG_SEQ 0 seq |>.set Od.cap_SEV_MAX 0 m.sev

/-- Units of the unit table (R445). -/
def unitListed (u : Nat) : Bool := decide (u < 299 ∧ u ≠ 159)

/-- Unit bits that a message sets (R340, R342, R289). -/
def unitBit (k : Nat) : Option Nat :=
  match k with
  | 0x31 => some 5
  | 0x32 => some 6
  | 0x15 => some 5
  | _ => none

/-- What a message leaves at its unit (R455, R466). -/
def State.unitNotes (s : State) (m : FaultMsg) : State :=
  if unitListed m.unit then
    let s := s.setSticky m.unit m.sev
    let s := match unitBit m.kind with
      | some b => s.setSticky m.unit b
      | none => s
    let s := ((s.bump Od.unit_MESSAGES m.unit).set Od.unit_LAST m.unit (FaultMsg.word m)).set Od.unit_LAST_AT m.unit (RTime.word (s.now 0))
    if m.unit < 128 ∧ 2 ≤ m.sev then s.bump Od.cell_FAULTS m.unit else s
  else s

/-- A fault whose recovery fails a condition of R465 from 2 to 4. -/
def State.breach (s : State) (condition : Nat) : State :=
  (s.bump Od.fc_GUARANTEE_BREACHES).reportInfo Unit.collector 0x69 condition

/-! ### Recovery of rows (R458–R461) -/

/-- Rows below an abandoned one that have coded blocks with its data restart from their first blocks (R459): those that run
without waiting for the row above. [DESIGN CHOICE, unsafe: log entry 60.] -/
def State.restartBelow (sid stage pic : Nat) : Nat → Nat → State → State
  | 0, _, s => s
  | n + 1, row, s =>
    match s.cellWith sid stage pic (row + 1) with
    | none => s
    | some cc => match (s.cell cc).row with
      | none => s
      | some r =>
        if r.depReady then
          let x := s.cell cc
          let entry := (s.bank (s.cellBank cc)).entry (rowEntry r.point.format r.point.preset)
          let again : CellRow := { r with startAt := s.cycle, waitDep := true, depReady := false, waitMem := false, ended := false, done := 0, above := 0, want := none, busy := 0 }
          let s := (s.setCell cc { x with row := some again, addr := bits entry 0 12, stack := [], lc0 := 0, lc1 := 0, waited := 0 }).refreshCell cc
          State.restartBelow sid stage pic n (row + 1) s
        else s

/-- The cell set that a row's picture runs on. -/
def State.cellsFor (s : State) (p : Checkpoint) : List Nat :=
  if 16 ≤ p.stage then match s.encPic p.sid p.index p.pic with
    | some q => q.cells
    | none => []
  else match s.decPic p.sid p.index p.pic with
    | some q => q.cells
    | none => []

/-- A cell that may take a recovered row. -/
def State.inService (s : State) (cc : Nat) : Bool :=
  decide (cc < 128) && !s.isRetired cc && !(s.crown (cc / 8)).banned && decide (s.cellState cc ≠ cellRetired)

/-- A cell whose crown holds the image of the row's picture (R141). -/
def State.hasImage (s : State) (p : Checkpoint) (cc : Nat) : Bool := (s.bankLike (cc / 8) (s.pointBanks p)).isSome

/-- The cell that recovers a row: the one that holds its position, else the stage's present one, else a free one, the first of
these that is in service and whose crown holds the image; a BULK row runs on any cell that may take it (R141, R458).
[DESIGN CHOICE, unsafe: log entry 60.] -/
def State.recoveryCell (s : State) (p : Checkpoint) : Option Nat :=
  let held := s.cellsFor p
  let now := s.stageCells p.sid p.stage
  let free := (List.range 128).filter fun cc => if p.cls = 2 then s.bulkCell p.sid p.stage cc else s.cellFree cc
  let at_ : List Nat → List Nat := fun cs => if cs = [] then [] else [cs.getD (p.row % cs.length) 128]
  (at_ held ++ at_ now ++ free).find? fun cc => s.inService cc && s.hasImage p cc

/-- A record waits on a cell for its re-run, or for the brim row that takes its row's place. -/
def State.holdRerun (s : State) (cc : Nat) (p : Checkpoint) (mirrored : Bool) : State :=
  s.setCell cc { s.cell cc with reruns := (s.cell cc).reruns ++ [(p, mirrored)] }

/-- Marks an encode row for its brim row. -/
def State.markRecover (s : State) (p : Checkpoint) : State :=
  s.mapPics p.sid (fun q => decide (q.rung = p.index ∧ q.pic = p.pic)) fun q => q.withRow p.row fun w => { w with recover := true }

/-- An encode row is replaced by its brim row: LIVE rows count in RECOVERY_BRIM (R460, R461). -/
def State.recoverBrim (s : State) (p : Checkpoint) (mirrored : Bool) : State :=
  let s := if p.cls = 0 ∧ ¬ s.recovers p then s.bump Od.fc_RECOVERY_BRIM else s
  let s := s.markRecover p
  match s.recoveryCell p with
  | some cc => s.holdRerun cc p mirrored
  | none => s

/-- A decode row is concealed as LATE (R460, R461). -/
def State.recoverConceal (s : State) (p : Checkpoint) : State :=
  let s := if p.cls = 0 then s.bump Od.fc_RECOVERY_CONCEALED else s
  (s.concealRow p.sid p.index p.pic p.row true).progress p.sid p.index p.pic

/-- A re-run (R118, R460). -/
def State.recoverRerun (s : State) (cc : Nat) (p : Checkpoint) (mirrored : Bool) : State :=
  ((s.bump Od.ss_ROWS_MOVED p.sid).bump Od.fc_RERUNS).holdRerun cc p mirrored

/-- Recovers an abandoned row by its stage and class (R460); `can` is false where a re-run cannot be made (R461).
[DESIGN CHOICE, unsafe: log entry 60.] -/
def State.recover (s : State) (p : Checkpoint) (mirrored can : Bool) : State :=
  let live := decide (p.cls = 0)
  if 16 ≤ p.stage then
    match s.encPic p.sid p.index p.pic with
    | none => s
    | some q =>
      if 2 ≤ (q.row p.row).state then s
      else if live || !can || s.recovers p then s.recoverBrim p mirrored
      else match s.recoveryCell p with
        | some cc => s.recoverRerun cc p mirrored
        | none => s.recoverBrim p mirrored
  else match s.decPic p.sid p.index p.pic with
    | none => s
    | some q =>
      if (q.row p.row).finished then s
      else if live || !can then s.recoverConceal p
      else match s.recoveryCell p with
        | some cc => s.recoverRerun cc p mirrored
        | none => s.recoverConceal p

/-- A cell's row and the records of its re-runs, taken off it. -/
def Cell.work (x : Cell) : List (Checkpoint × Bool) :=
  x.reruns ++ match x.row with
    | some r => [(r.point, r.mirrored)]
    | none => []

/-- Takes all work off a cell. -/
def State.clearWork (s : State) (cc : Nat) : State :=
  let s := s.leaveRow cc
  (s.setCell cc { s.cell cc with row := none, reruns := [] }).refreshCell cc

/-- The row of a cell is abandoned in its cycle: the rows below that used it restart (R458, R459). -/
def State.cutRow (s : State) (cc : Nat) : State :=
  match (s.cell cc).row with
  | none => s
  | some r => State.restartBelow r.point.sid r.point.stage r.point.pic 128 r.point.row s

/-- The row under way on a cell that stays in service is abandoned and recovered there (R458). -/
def State.abandonHere (s : State) (cc : Nat) (can : Bool) : State :=
  match (s.cell cc).row with
  | none => s
  | some r =>
    let s := (s.cutRow cc).leaveRow cc
    let s := (s.setCell cc { s.cell cc with row := none }).refreshCell cc
    (s.recover r.point r.mirrored can).atBoundary cc

/-- Work of cells that left service is recovered. [DESIGN CHOICE, unsafe: log entry 60.] -/
def State.recoverAll (s : State) (work : List (Checkpoint × Bool)) : State :=
  work.foldl (fun t k => t.recover k.1 k.2 true) s

/-! ### Retirement (R448) -/

/-- Retires a cell: its shares move (R91), and its row is recovered. -/
def State.retireCell (s : State) (cc : Nat) : State :=
  if s.flag Od.cell_RETIRED_BY_FAULT cc then s
  else
    let work := (s.cell cc).work
    let s := (s.cutRow cc).clearWork cc
    let s := (((s.set Od.cell_RETIRED_BY_FAULT cc 1).set Od.cell_STATE cc cellRetired).set Od.cell_SPARE cc 0).setSticky cc 5
    ((s.moveShares cc).balanceSpares).recoverAll work

/-- Retires a conditioner: its passes move (R266). -/
def State.retireConditioner (s : State) (ic : Nat) : State :=
  if ic ∈ s.faults.conditioners then s
  else
    let s := { s with faults := { s.faults with conditioners := s.faults.conditioners ++ [ic] } }
    State.movePasses 1024 (s.set Od.ic_STATE ic 2) ic

/-- Takes a crown out of work until CROWN_RESET (R462). -/
def State.banCrown (s : State) (cw : Nat) : State :=
  let work := (cellsOf cw).flatMap fun cc => (s.cell cc).work
  let s := (cellsOf cw).foldl (fun t cc => (t.cutRow cc).clearWork cc) s
  let s := (s.setCrown cw { s.crown cw with banned := true })
  let s := (cellsOf cw).foldl (fun t cc => t.set Od.cell_SPARE cc 0) s
  let s := (cellsOf cw).foldl (fun t cc => t.moveShares cc 0) s
  (s.balanceSpares).recoverAll work

/-- A contained fault of a cell: a second cell of its crown within one RD_0 frame makes the crown report SECOND_CELL (R462). -/
def State.noteCellFault (s : State) (cc : Nat) : State :=
  let cw := cc / 8
  let t := linear (s.lpf 0) (s.now 0)
  let second := match tget s.faults.lastCell none cw with
    | some (t0, c0) => decide (c0 ≠ cc ∧ signedMod (countCycle (s.lpf 0)) ((t : Int) - t0) ≤ (s.lpf 0 * 65536 : Nat))
    | none => false
  let s := { s with faults := { s.faults with lastCell := tput s.faults.lastCell none cw (some (t, cc)) } }
  if second then s.reportInfo (Unit.crown cw) 0x0A cc else s

/-! ### Memory errors (R327, R463) -/

/-- Bytes that a memory message names: its page, or its granule. -/
def FaultMsg.span (m : FaultMsg) : Nat × Nat := if m.kind = 0x11 then (m.addr / 4096 * 4096, 4096) else (m.addr / 256 * 256, 256)

/-- A packet lost at ingest (R217): which rows of the oldest picture under way it held is a free value. -/
def State.loseInput (s : State) (sid n : Nat) : State :=
  let l := s.layer sid n
  let s := s.setLayer sid n { l with packetsLost := l.packetsLost + 1, rawHoles := l.rawHoles || decide (0 < l.rawLines) }
  match l.pics.find? fun p => !p.finished with
  | none => s
  | some p => (s.damage sid n p.pic [⟨s.freeValue % max 1 p.rows.length, 0, 65535⟩]).useFree

/-- A packet whose batt is poisoned leaves its queue: lost at ingest, or a drop of its append (R324, R463). -/
def State.dropPoisoned (s : State) (q : Nat) (k : Packet) : State :=
  let x := s.queue q
  let s := s.setQueue q { x with packets := x.packets.erase k }
  match tget s.queues.inputOwner none q with
  | some (sid, n) => (s.decrementAll k.entries).loseInput sid n
  | none => s.dropAppend q k .depth

/-- Packets of queues with a byte in a span. -/
def State.poisonedPackets (s : State) (a n : Nat) : List (Nat × Packet) :=
  s.queues.queues.flatMap fun e => (e.2.packets.filter fun k => k.entries.any fun x => overlaps (s.battAddr x.batt) x.len a n).map
    fun k => (e.1, k)

/-- Clips with a byte in a span. -/
def State.poisonedClips (s : State) (a n : Nat) : List Nat :=
  (s.streams.clips.filter fun e => overlaps e.2.addr e.2.size a n).map fun e => e.1

/-- Rows of a clip's picture under way are damaged, from a free row on (R463). -/
def State.damageClip (s : State) (clip : Nat) : State :=
  let plays := (s.streams.streams.filter fun e => match e.2.playing with
    | some p => p.clip == clip
    | none => false).map fun e => e.1
  plays.foldl (fun t sid => match ((t.layer sid 0).pics.filter fun p => !p.finished).head? with
    | none => t
    | some p =>
      let from_ := t.freeValue % max 1 p.rows.length
      (t.useFree).damage sid 0 p.pic (((List.range p.rows.length).filter fun r => from_ ≤ r).map fun r => ⟨r, 0, 65535⟩)) s

/-- An encode reference is poisoned: the pictures already started code skip-form brim rows, and the next picture of each
rung is a random-access point (R157, R463). -/
def State.poisonReference (s : State) (sid : Nat) : State :=
  let s := s.mapPics sid (fun p => p.started) fun p => { p with poisoned := true }
  s.rapAll sid

/-- A decode reference is poisoned: it counts as never received (R231, R232, R463). Which one is a free value. -/
def State.loseReference (s : State) (sid n pic : Nat) : State :=
  let l := s.layer sid n
  match s.decPic sid n pic, l.buffer[s.freeValue % max 1 l.buffer.length]? with
  | some p, some b =>
    let l := { l with buffer := l.buffer.erase b }
    let s := (s.setLayer sid n (l.substitute p b.position)).useFree
    s.mapDec sid n pic fun q => { q with tainted := true }
  | _, _ => s.useFree

/-- A row that waits for memory gets poisoned data: a reference, or, of an encode, its source; which is a free value. -/
def State.poisonRow (s : State) (cc : Nat) : State :=
  match (s.cell cc).row with
  | none => s
  | some r =>
    let p := r.point
    if p.stage < 16 then s.loseReference p.sid p.index p.pic
    else if s.freeValue % 2 = 0 then
      ((s.useFree.poisonReference p.sid).markRecover p).abandonHere cc true
    else (s.useFree).loseInput p.sid 0

/-- The re-run that waits for its mirror record cannot be made (R461). -/
def State.loseMirror (s : State) : State :=
  match (List.range 128).find? fun cc => (s.cell cc).reruns.any fun k => decide (k.1.cell / 8 ≠ cc / 8) with
  | none => s
  | some cc => match (s.cell cc).reruns.find? fun k => decide (k.1.cell / 8 ≠ cc / 8) with
    | none => s
    | some k => (s.setCell cc { s.cell cc with reruns := (s.cell cc).reruns.erase k }).recover k.1 k.2 false

/-- Recovery from uncorrectable memory data by its owner (R463). Data that the host reads is returned poisoned by its reader.
[DESIGN CHOICE, unsafe: log entry 60.] -/
def State.memoryError (s : State) (m : FaultMsg) : State :=
  let a := (FaultMsg.span m).1
  let n := (FaultMsg.span m).2
  match s.poisonedClips a n, s.poisonedPackets a n with
  | c :: cs, _ => ((c :: cs).foldl (fun t x => t.damageClip x) s).breach 3
  | [], k :: ks => (k :: ks).foldl (fun t x => t.dropPoisoned x.1 x.2) s
  | [], [] =>
    if 128 ≤ m.master ∧ m.master < 144 then
      (cellsOf (m.master - 128)).foldl (fun t cc => match (t.cell cc).row with
        | some r => if r.waitMem then t.poisonRow cc else t
        | none => t) s
    else if 144 ≤ m.master ∧ m.master < 152 then
      (s.streams.streams.filter fun e => e.2.passes.any fun p => decide (p.ic = m.master - 144)).foldl (fun t e => t.loseInput e.1 0) s
    else if m.master = 152 then s.loseMirror
    else s

/-- An entry of the queue store is lost: a list is cut at its last good entry, and the control processor sweeps (R327). Which
list it is follows from no address: a free value. [DESIGN CHOICE, unsafe: log entry 60.] -/
def State.cutList (s : State) : State :=
  let all := s.queues.queues.flatMap fun e => e.2.packets.map fun k => (e.1, k)
  let s := match all[s.freeValue % max 1 all.length]? with
    | none => s
    | some (q, k) =>
      let x := s.queue q
      let mine := x.packets.filter fun (y : Packet) => y.pri = k.pri
      let lost := mine.drop (mine.idxOf k)
      let cut := (lost.map fun (y : Packet) => y.entries.length).sum
      let s := s.setQueue q { x with
        packets := x.packets.filter fun (y : Packet) => y ∉ lost, dropped := (x.dropped + lost.length) % 2 ^ 32 }
      { s with queues := { s.queues with entriesCut := s.queues.entriesCut + cut } }
  let s := s.useFree
  { s with queues := { s.queues with sweep := some (s.queues.batts.map fun (e : Nat × Batt) => e.1) } }

/-! ### Halt (R457) -/

/-- A stream goes to DROPPED in a halt. [DEDUCED, unsafe: log entry 59.] -/
def State.haltStream (s : State) (sid : Nat) : State :=
  if s.streamShut sid then s else ((s.abandonRows sid).releaseStream sid).setStreamState sid stDropped

/-- Cells and DMA channels stop. -/
def State.stopWork (s : State) : State :=
  let s := (s.cells.cells.map fun e => e.1).foldl (fun t cc => t.clearWork cc) s
  { s with host := { s.host with dma := s.host.dma.map fun e =>
      (e.1, { e.2 with state := if e.2.state = dmaError then dmaError else dmaStopped, desc := none, readback := false, stopping := false, frozen := none }) } }

/-- A SECURITY halt closes every authenticated session, and the island is out of every handshake (R457). -/
def State.sealOff (s : State) : State :=
  let s := (s.iop.sessions.filter fun x => x.auth).foldl (fun t x => t.closeSession x.id) s
  { s with sec := { s.sec with sealedOff := true }, iop := { s.iop with handshakes := [] } }

/-- The engine halts, and the fault that halted it breaks the guarantee (R465).
[DESIGN CHOICE, unsafe: log entry 58.] [DEDUCED, unsafe: log entry 59.] -/
def State.halt (s : State) (m : FaultMsg) : State :=
  let s := if m.kind = 0x70 then (s.breach 4).sealOff else s.bump Od.fc_GUARANTEE_BREACHES
  if s.halted then s
  else
    let s := ((List.range 512).foldl (fun t sid => t.haltStream sid) s).stopWork
    ({ s with halted := true }).set Od.fc_HALT_CAUSE 0 (FaultMsg.word m)

/-! ### Actions (R446–R449) -/

/-- The row that a CTX_CRC names is not re-run (R461). -/
def State.contextFails (s : State) (cw sid row : Nat) : State :=
  match (cellsOf cw).find? fun cc => match (s.cell cc).row with
    | some r => decide (r.point.sid = sid ∧ r.point.row = row)
    | none => false with
  | some cc => s.abandonHere cc false
  | none => s

/-- A slot of a forwarding engine's tables reads uncorrectable: its lookups treat it as a miss until the compare repairs it
(R388, R449). Which slot it is follows from no address: a free value. [DESIGN CHOICE, unsafe: log entry 60.] -/
def State.missSlot (s : State) (e : Nat) : State :=
  let lose : TableCopy → TableCopy := fun c =>
    let k := s.freeValue % max 1 (c.em.length + c.lpm.length)
    if k < c.em.length then { c with em := c.em.eraseIdx k } else { c with lpm := c.lpm.eraseIdx (k - c.em.length) }
  let f := s.fabric
  ({ s with fabric := if e = 0 then { f with copy0 := lose f.copy0 } else { f with copy1 := lose f.copy1 } }).useFree

/-- Action on an uncorrectable on-chip byte by its STORE (R449, R532); of STORE 8 the packet counts as one with a bad trailer
(R346). -/
def State.storeAction (s : State) (m : FaultMsg) : State :=
  match m.store with
  | 0 => if m.unit < 128 then (s.noteCellFault m.unit).retireCell m.unit else s
  | 1 =>
    let bank := bits m.addr 32 4
    let cw := m.unit - 128
    if bank = 13 then if m.master < 128 then s.abandonHere m.master false else s
    else if 14 ≤ bank then s.turnPasses cw
    else s
  | 3 => s.report Unit.queueEngine 0x21 m.acc m.master (s.freeValue % 2 ^ 22) |>.useFree
  | 4 => s.missSlot (m.unit - 157)
  | 5 => if 144 ≤ m.unit ∧ m.unit < 152 then s.retireConditioner (m.unit - 144) else s
  | 6 => s.reportInfo Unit.island 0x70 4
  | 7 => s.reportInfo Unit.control 0x61 0
  | 8 => if 160 ≤ m.unit ∧ m.unit < 288 then s.bump Od.port_CRC_ERRORS (m.unit - 160) else s
  | _ => s

/-- What the collector does beyond logging a message. -/
def State.act (s : State) (m : FaultMsg) : State :=
  match s.actionOf m with
  | 1 =>
    match m.kind with
    | 0x02 => s.storeAction m
    | 0x08 => if m.unit < 128 then (s.noteCellFault m.unit).abandonHere m.unit true else s
    | 0x09 => s.contextFails (m.unit - 128) (m.addr % 512) (bits m.addr 16 16)
    | 0x21 => s.cutList
    | 0x11 => s.memoryError m
    | 0x13 => s.memoryError m
    | 0x14 => s.memoryError m
    | _ =>
      if m.unit < 128 then (s.noteCellFault m.unit).retireCell m.unit
      else if 144 ≤ m.unit ∧ m.unit < 152 then s.retireConditioner (m.unit - 144)
      else s
  | 2 => if 128 ≤ m.unit ∧ m.unit < 144 then (s.banCrown (m.unit - 128)).breach 2 else s
  | 3 => s.halt m
  | _ => s

/-- A message with its fields in their widths, and the severity that its KIND carries wherever it is reported (R446).
[DESIGN CHOICE, unsafe: log entry 58.] -/
def FaultMsg.proper (m : FaultMsg) : FaultMsg :=
  { m with unit := m.unit % 1024, kind := m.kind % 256, sev := kindSev (m.kind % 256), acc := m.acc % 8, master := m.master % 256, addr := m.addr % 2 ^ 40 }

/-- FIRMWARE_INTERNAL (KIND 0x60) ends the running command of the code that it names with INTERNAL (R69, R448). -/
def State.commandFault (s : State) (m : FaultMsg) : State :=
  if m.kind = 0x60 then s.finishCommand (m.addr % 256) Result.internal [] else s

/-- The collector accepts a message. [DESIGN CHOICE, unsafe: log entry 58.] -/
def State.acceptMessage (s : State) (m : FaultMsg) : State :=
  let q := s.logMessage m
  (((q.1.capture m q.2).unitNotes m).act m).commandFault m

/-- Of the messages that units hold, the next one that is accepted: the lowest UNIT's oldest (R444).
[DESIGN CHOICE, unsafe: log entry 58.] -/
def nextHeld (ms : List FaultMsg) : Option FaultMsg :=
  ms.foldl (fun (best : Option FaultMsg) m => match best with
    | none => some m
    | some b => if m.unit < b.unit then some m else some b) none

end Sys2Proof.Machine
end

