-- ==== Sys2Proof/Machine/Faults.lean ====
section
/-! DEFINITION. The meanings of fault messages and watchdogs (R444–R465), but for writes. -/

namespace Sys2Proof.Machine

/-- FAULT_MESSAGE (R444–R465): the next message that a unit holds, or one that a unit outside the model's own detection
reports in this cycle. -/
def execFaultMessage (m : Option FaultMsg) (s : State) : Host.Outcome State Fault Refusal :=
  match m with
  | some x => done (s.acceptMessage (FaultMsg.proper x))
  | none => match nextHeld s.faults.held with
    | none => done s
    | some x => done (({ s with faults := { s.faults with held := s.faults.held.erase x } }).acceptMessage x)

/-- A row has run on a cell for longer than 16 times its time (R103, R449). -/
def State.rowOverdue (s : State) (r : CellRow) : Bool := decide (16 * s.rowTime r.point.sid r.point.stage < r.busy)

/-- Cycles of the 1.2 GHz clock that a strip of a pass takes: its share of the frame's pixels at 2 Gpixel/s (R83, R264). -/
def State.stripCycles (s : State) (sid : Nat) (p : Pass) : Nat :=
  ceilDiv (p.rate * 64 * 3 * (s.streamRate sid).2) (5 * (s.streamRate sid).1 * (s.passSize sid p.pass).2)

/-- The present strip of a pass has taken longer than 16 times its time (R449). -/
def State.stripOverdue (s : State) (sid : Nat) (p : Pass) : Bool := decide (p.stripAt + 16 * s.stripCycles sid p < s.cycle)

/-- ROW_WATCHDOG_EXPIRY (R449): a cell whose row, or a conditioner whose strip of the stream, has run too long reports it. -/
def execRowWatchdogExpiry (w : Watched) (s : State) : Host.Outcome State Fault Refusal :=
  match w with
  | .cell cc sid => match (s.cell cc).row with
    | some r => if r.point.sid = sid.val ∧ s.rowOverdue r then done (s.reportInfo cc 0x07 sid) else done s
    | none => done s
  | .conditioner ic sid =>
    if (s.stream sid).passes.any fun p => decide (p.ic = ic.val) && s.stripOverdue sid p then
      done (s.reportInfo (Unit.conditioner ic) 0x07 sid)
    else done s

/-- CP_WATCHDOG_EXPIRY (R446). -/
def execCpWatchdogExpiry (s : State) : Host.Outcome State Fault Refusal := done (s.reportInfo Unit.control 0x61 0)

end Sys2Proof.Machine
end

