-- ==== Sys2Proof/Machine/GlobalOps.lean ====
section
/-! DEFINITION. What a global operation does at AT (R395), and the scheduled events of a raster domain (R22, R26). -/

namespace Sys2Proof.Machine

/-! ### The snapshot (R395, R398) -/

/-- An object as SNAPSHOT holds it: INDEX, SUB, TYPE, VLEN and its value. -/
def State.latchOne (s : State) (r : Row) (i j : Nat) : List Byte :=
  let v := s.value r i j false
  leBytes 2 (r.base + i) ++ leBytes 1 (r.sub + r.step * j) ++ leBytes 1 r.ty.code ++ leBytes 2 v.length ++ v

/-- Every readable object of some rows for an instance. -/
def State.latchRows (s : State) (rows : List Row) (i : Nat) : List Byte :=
  (rows.filter fun r => r.acc ≠ .wo ∧ r.acc ≠ .cmd ∧ i < r.count).flatMap fun r =>
    (List.range (if r.step = 0 then 1 else r.subs)).flatMap fun j => s.latchOne r i j

/-- The objects of a SET: 0 counters of open streams, 1 port counters, 2 pools and queue groups, 3 all three. -/
def State.latchSet (s : State) (set : Nat) : List Byte :=
  let streams := (List.range 512).flatMap fun sid => if s.streamState sid = 0 then [] else s.latchRows Od.rows3A00 sid
  let ports := (List.range 128).flatMap fun p => s.latchRows (Od.rows6080.filter fun r => 0x17 ≤ r.sub ∧ r.sub ≤ 0x24) p
  let pools := (List.range 64).flatMap (fun i => s.latchRows Od.rows5200 i) ++
    (List.range 512).flatMap fun i => s.latchRows Od.rows5300 i
  match set with
  | 0 => streams
  | 1 => ports
  | 2 => pools
  | _ => streams ++ pools ++ ports

/-- SNAPSHOT at AT. [DEDUCED, unsafe: log entry 52.] -/
def State.snapshot (s : State) (o : GlobalOp) (set : Nat) : State :=
  { s with fabric := { s.fabric with
    snapshot := leBytes 4 o.opId ++ leBytes 9 (RTime.word o.at_) ++ leBytes 1 set ++ s.latchSet set } }

/-! ### Acting at AT (R395) -/

/-- BROADCAST at AT: the state after its request, and the part of this device. -/
def State.broadcast (s : State) (items : List Byte) : State × Nat :=
  match itemsOf items with
  | none => (s, 1)
  | some its =>
    if ¬ commandLast its then (s, 1)
    else
      let e := s.execute s.mailboxSession 2 false false its
      if ¬ e.allOk then (e.state, 1)
      else match lastCommand its with
        | some c => (e.state.acceptCommand (c.index - 0x2400) broadcastSession c.value none, 0)
        | none => (e.state, 0)

/-- An ARMED operation is done: its part is recorded, and its confirmation goes out when its subtrees' are held (R396). -/
def State.acted (s : State) (o : GlobalOp) (part : Nat) : State :=
  let s := s.unschedule ⟨0, o.at_, .globalOp o.opId⟩
  let o := { o with part := some part, applied := o.applied + b2n (part == 0) }
  ((s.setGlobalOp o).logOp o).confirmOp o.opId

/-- An ARMED operation acts. FABRIC_SWAP does not look at SWAP_HOLD (R32). -/
def State.actOp (s : State) (id : Nat) : State :=
  match s.globalOp id with
  | none => s
  | some o =>
    if o.part.isSome then s
    else match o.kind with
      | .fabricSwap => (s.swapGlobal.swapControl).acted o 0
      | .snapshot set => (s.snapshot o set).acted o 0
      | .broadcast items => ((s.broadcast items).1).acted o (s.broadcast items).2

/-- The operations armed for the AT of one, up to it, in increasing OP_ID order. -/
def State.armedTo (s : State) (id : Nat) : List Nat :=
  match s.globalOp id with
  | none => []
  | some o => sortBy (fun a b => decide (a < b))
      ((s.fabric.ops.filter fun x => x.part.isNone && decide (x.at_ = o.at_ ∧ x.opId ≤ id)).map GlobalOp.opId)

/-- The operations of one AT act. [DEDUCED, unsafe: log entry 52.] -/
def State.actOps (s : State) (id : Nat) : State := (s.armedTo id).foldl (fun t i => t.actOp i) s

/-! ### Scheduled events -/

/-- What a scheduled event does. -/
def State.runEvent (s : State) (e : Sched) : State :=
  match e.kind with
  | .swapNow scope => (s.unschedule e).swapScheduled scope
  | .globalOp id => (s.actOps id).unschedule e

/-- The earliest event of a domain runs once its time has come; one whose LINE lies past the frame occurs at LINE 0 of the
next (R26). -/
def State.eventDue (s : State) (rd : Nat) : State :=
  match s.nextSched rd with
  | none => s
  | some e => if s.later rd (s.occursAt rd e.at_) (s.now rd) then s else s.runEvent e

end Sys2Proof.Machine
end

