-- ==== Sys2Proof/Machine/Globals.lean ====
section
/-! DEFINITION. The meanings of BROADCAST and of a global operation at AT (R393, R395). -/

namespace Sys2Proof.Machine

/-- Items that BROADCAST carries: WRITE and TEST, a command's write last. [DESIGN CHOICE, unsafe: log entry 32.] -/
def broadcastItems (items : List Byte) : Bool :=
  match itemsOf items with
  | none => false
  | some its => (its.all fun it => it.op == 2 || it.op == 4) && commandLast its

/-- BROADCAST (R393, R395). An argument block beyond 3,081 bytes is answered LENGTH at the item (R64).
[DESIGN CHOICE, unsafe: log entry 32.] -/
def execBroadcast (at_ : RTime) (items : List Byte) (s : State) : Host.Outcome State Fault Refusal :=
  if 3072 < items.length then done { s with lastStatus := Status.length }
  else done (s.runCommand 0x13 (leBytes 9 (RTime.word at_) ++ items) fun s =>
    if ¬ broadcastItems items then answer s Result.badArgs
    else s.issueGlobal (.broadcast items) at_ (s.get Od.card_FABRIC_DIAMETER * 12000))

/-- GLOBAL_OP_ACT (R395): at AT on this device's RD_0, and not before it. -/
def execGlobalOpAct (opId : Nat) (s : State) : Host.Outcome State Fault Refusal :=
  match s.globalOp opId with
  | some o => if s.later 0 o.at_ (s.now 0) then done s else done (s.actOps opId)
  | none => done s

end Sys2Proof.Machine
end

