-- ==== Sys2Proof/Machine/HostInterface.lean ====
section
/-! DEFINITION. The meanings of the PCIe host interface, DMA and interrupts (R414–R442). -/

namespace Sys2Proof.Machine

/-! ### The function and its power states -/

/-- PCIE_FUNCTION_RESET (R415); in boot mode FLASH_NO_PCIE there is no function, and the pin is ignored (R509). -/
def execPcieFunctionReset (s : State) : Host.Outcome State Fault Refusal :=
  if s.get Od.sys_BOOT_MODE = 1 then done s else done s.resetFunction

/-- PCIE_REQUESTS_BLOCKED (R416). -/
def execPcieRequestsBlocked (c : BlockCause) (s : State) : Host.Outcome State Fault Refusal := done (s.blockRequests c)

/-- PCIE_REQUESTS_ALLOWED (R416, R441). -/
def execPcieRequestsAllowed (c : BlockCause) (s : State) : Host.Outcome State Fault Refusal := done (s.allowRequests c)

/-- D0_RETURN (R442). -/
def execD0Return (s : State) : Host.Outcome State Fault Refusal :=
  done ({ s with host := { s.host with pmeStatus := false } }.allowRequests .d3hot)

/-- MSIX_UNMASK (R441). -/
def execMsixUnmask (what : MsixCond) (s : State) : Host.Outcome State Fault Refusal :=
  let s := match what with
    | .vector v => s.setVector v { s.vector v with masked := false }
    | .function => { s with host := { s.host with functionMask := false } }
    | .enable => { s with host := { s.host with msixEnabled := true } }
  done s.d0Catch.sendHeld

/-! ### BAR accesses -/

/-- BAR2_ACCESS (R419, R420): `read` gives a read's length; without it the access writes `write`. -/
def execBar2Access (offset : Nat) (read : Option Nat) (write : List Byte) (meet : MemMeet) (s : State) :
    Host.Outcome State Fault Refusal :=
  match read with
  | some n => done (s.bar2Read (s.host.windowBase + offset) n meet)
  | none => done (s.bar2Write (s.host.windowBase + offset) write meet)

/-- WINDOW_BASE_WRITE (R418, R419): bits [39:20] are writable. -/
def execWindowBaseWrite (v : Nat) (s : State) : Host.Outcome State Fault Refusal :=
  done { s with host := { s.host with windowBase := bits v 20 20 * 2 ^ 20 } }

/-- A register of BAR 0 lies at the offset (R417). -/
def bar0Listed (o : Nat) : Bool :=
  decide (o < 0x30 ∨ (0x4000 ≤ o ∧ o < 0x4800) ∨ (0x20000 ≤ o ∧ o < 0x20880) ∨ (0x21000 ≤ o ∧ o < 0x211F8) ∨
    (0x21200 ≤ o ∧ o < 0x21208) ∨ (0x22000 ≤ o ∧ o < 0x22800) ∨ (0x30000 ≤ o ∧ o < 0x30400) ∨ (0x38000 ≤ o ∧ o < 0x38008))

/-- A register marked 64-bit starts at the offset (R418, R433). -/
def bar0Wide (o : Nat) : Bool :=
  decide (o = 0x008 ∨ o = 0x020 ∨ (0x4000 ≤ o ∧ o < 0x4800 ∧ (o % 64 = 0x08 ∨ o % 64 = 0x10)))

/-- An access that the registers do not accept (R418). -/
def bar0Misused (o size : Nat) : Bool :=
  bar0Listed o && !decide (size = 4 ∧ o % 4 = 0) && !(bar0Wide o && size == 8)

/-- MBX_STATUS (R418). -/
def State.mbxStatus (s : State) : Nat :=
  let h := s.host
  b2n h.reqBusy + 2 * b2n h.respReady + 4 * b2n (s.iop.sessions.any fun x => x.id == 0 && x.auth) +
    8 * b2n (h.notifyWaiting != []) + 16 * b2n h.executing + 2 ^ 8 * h.respType + 2 ^ 16 * h.respLen

/-- The dword of a field of 512 bits, one per interrupt source. -/
def State.sourceBits (s : State) (p : IrqSource → Bool) (k : Nat) : Nat :=
  ((List.range 32).map fun b => b2n (p (s.irq (32 * k + b))) * 2 ^ b).sum

/-- A register of a DMA channel: the dword at its offset. CTRL.RUN reads 1 while the channel runs.
[DESIGN CHOICE, safe: log entry 57.] -/
def State.dmaReg (s : State) (ch o : Nat) : Nat :=
  let x := s.dma ch
  if o = 0x00 then b2n (decide (x.state ≠ dmaStopped ∧ x.state ≠ dmaError) && !x.stopping)
  else if o = 0x04 then x.state + 2 ^ 4 * x.lastStatus + 2 ^ 8 * b2n x.doorbell + 2 ^ 9 * b2n x.fetchError
  else if o = 0x08 then bits x.descBase 0 32
  else if o = 0x0C then bits x.descBase 32 32
  else if o = 0x10 then bits x.curDesc 0 32
  else if o = 0x14 then bits x.curDesc 32 32
  else if o = 0x20 then x.done
  else 0

/-- A dword of an MSI-X table entry: the message's address and data, and its mask bit. -/
def IrqVector.dword (x : IrqVector) (o : Nat) : Nat :=
  if o = 0 then bits x.addr 0 32 else if o = 4 then bits x.addr 32 32 else if o = 8 then x.data else b2n x.masked

/-- The dword that a register of BAR 0 reads (R417, R418, R433, R442), but for the claims; what is not listed or is write-only
reads zero. -/
def State.bar0Dword (s : State) (o : Nat) : Nat :=
  if o = 0x000 then 0x967200B0
  else if o = 0x008 then bits s.host.windowBase 0 32
  else if o = 0x00C then bits s.host.windowBase 32 32
  else if o = 0x010 then s.mbxStatus
  else if o = 0x020 then bits s.uptimeNs 0 32
  else if o = 0x024 then bits s.uptimeNs 32 32
  else if o = 0x028 then s.host.bar2Refused
  else if o = 0x02C then s.host.bar0Misuse
  else if 0x4000 ≤ o ∧ o < 0x4800 then s.dmaReg ((o - 0x4000) / 64) (o % 64)
  else if 0x20000 ≤ o ∧ o < 0x20800 then s.srcCfg ((o - 0x20000) / 4)
  else if 0x20800 ≤ o ∧ o < 0x20840 then s.sourceBits IrqSource.pending ((o - 0x20800) / 4)
  else if 0x20840 ≤ o ∧ o < 0x20880 then s.sourceBits IrqSource.active ((o - 0x20840) / 4)
  else if 0x22000 ≤ o ∧ o < 0x22800 then tget s.host.streamEvt 0 ((o - 0x22000) / 4)
  else if 0x30000 ≤ o ∧ o < 0x30400 then (s.vector ((o - 0x30000) / 16)).dword (o % 16)
  else if o = 0x38000 then ((List.range 32).map fun v => b2n (s.vector v).held * 2 ^ v).sum
  else if o = 0x38004 then ((List.range 32).map fun v => b2n (s.vector (32 + v)).held * 2 ^ v).sum
  else 0

/-- n bytes of a mailbox buffer from an offset on, zero past the frame it holds. -/
def bufferBytes (buf : List Byte) (o n : Nat) : List Byte :=
  ((buf ++ List.replicate 4096 0#8).drop o).take n

/-- The vector whose claim register lies at an offset. -/
def claimAt (o : Nat) : Option Nat :=
  if 0x21000 ≤ o ∧ o < 0x211F8 ∧ o % 8 = 0 then some ((o - 0x21000) / 8) else if o = 0x21200 then some 63 else none

/-- A read of BAR 0: the mailbox's buffers at any size and alignment, a claim, or a register (R417, R418, R438).
[DESIGN CHOICE, unsafe: log entry 55.] -/
def State.bar0Read (s : State) (o size : Nat) : State :=
  if 0x1000 ≤ o ∧ o + size ≤ 0x2000 then s.emit (.answer (bufferBytes s.host.reqBuf (o - 0x1000) size))
  else if 0x2000 ≤ o ∧ o + size ≤ 0x3000 then s.emit (.answer (bufferBytes s.host.respBuf (o - 0x2000) size))
  else if bar0Misused o size then s.misuseBar0.emit (.answer (List.replicate size 0#8))
  else match claimAt o with
    | some v =>
      let r := s.claimVector v
      r.1.emit (.answer (leBytes 4 r.2))
    | none => s.emit (.answer (leBytes size (if bar0Listed o then s.bar0Dword o + 2 ^ 32 * s.bar0Dword (o + 4) else 0)))

/-- BAR0_MISUSE_ACCESS (R418), as a read of any offset and size: one that the registers do not accept reads zero and counts. -/
def execBar0MisuseAccess (offset size : Nat) (s : State) : Host.Outcome State Fault Refusal := done (s.bar0Read offset size)

/-! ### The mailbox -/

/-- MBX_DOORBELL (R421): `buffer` is the request buffer's content. -/
def execMbxDoorbell (length : Nat) (buffer : List Byte) (s : State) : Host.Outcome State Fault Refusal :=
  if s.host.outstanding then done (s.bump Od.iop_FRAMES_DISCARDED)
  else done { s with host := { s.host with reqBusy := true, reqLength := length % 8192, reqBuf := buffer.take 4096 } }

/-- MBX_RELEASE (R421, R422): a waiting answer goes ahead of a waiting notification. -/
def execMbxRelease (s : State) : Host.Outcome State Fault Refusal :=
  if s.host.respReady then
    let s := { s with host := { s.host with respReady := false } }
    match s.host.respWaiting with
    | some f => done ({ s with host := { s.host with respWaiting := none } }.placeResponse f)
    | none =>
      match s.host.notifyWaiting with
      | [] => done s
      | f :: fs =>
        done ({ s with iop := s.iop.markPlaced f s.cycle, host := { s.host with notifyWaiting := fs } }.placeResponse f)
  else done s

/-! ### DMA channels -/

/-- DMA_RUN (R429); a HALTED engine runs no channel (R457). -/
def execDmaRun (ch : Fin 32) (s : State) : Host.Outcome State Fault Refusal :=
  let x := s.dma ch
  if x.state = dmaStopped ∧ ¬ s.halted then
    done ((s.runDma ch { x with state := dmaRunning, curDesc := x.descBase, desc := none, readback := false, stopping := false, moved := 0 }).askDescriptor ch)
  else done s

/-- The channel stands at a descriptor boundary (R430). -/
def State.dmaAtBoundary (s : State) (ch : Nat) : Bool :=
  let x := s.dma ch
  let st := x.frozen.getD x.state
  decide (st = dmaIdle) || (decide (st = dmaRunning) && x.desc.isNone) ||
    (decide (st = dmaWaiting) && (if s.get Od.dma_MODE ch = 1 then x.packet.isNone else s.hostPaused ch))

/-- DMA_STOP (R430). -/
def execDmaStop (ch : Fin 32) (s : State) : Host.Outcome State Fault Refusal :=
  let x := s.dma ch
  if x.state = dmaStopped ∨ x.state = dmaError then done s
  else if s.dmaAtBoundary ch then done (s.dmaStops ch)
  else done (s.setDma ch { x with stopping := true })

/-- DMA_CLEAR_ERROR (R430). -/
def execDmaClearError (ch : Fin 32) (s : State) : Host.Outcome State Fault Refusal :=
  let x := s.dma ch
  if x.state = dmaError then done (s.setDma ch { x with state := dmaStopped, fetchError := false }) else done s

/-- DMA_DOORBELL (R429). -/
def execDmaDoorbell (ch : Fin 32) (s : State) : Host.Outcome State Fault Refusal :=
  let x := s.dma ch
  if x.state = dmaIdle then done ((s.runDma ch { x with state := dmaRunning, doorbell := false, desc := none }).askDescriptor ch)
  else done (s.setDma ch { x with doorbell := true })

/-- DMA_DESCRIPTOR_FETCHED (R424–R429, R431–R434): `d` is none when the descriptor cannot be read; `hostData` are the bytes
that a source in host memory delivers. Its data moves in chunks, as the engine serves its channels. -/
def execDmaDescriptorFetched (ch : Fin 32) (d : Option Descriptor) (hostData : List Byte) (meet : MemMeet) (s : State) :
    Host.Outcome State Fault Refusal :=
  let x := s.dma ch
  if x.fetching then
    match d with
    | none => done ((s.setDma ch { x with fetchError := true }).dmaFails ch)
    | some d =>
      if d.control.testBit 31 then
        let st := s.checkDescriptor (s.get Od.dma_MODE ch) d
        let s := s.setDma ch { x with desc := some d, moved := 0 }
        if st = 0 then done (s.moveData ch d hostData meet)
        else done ((s.writeBack ch x.curDesc d.control 0 st false).dmaFails ch)
      else if x.doorbell then done ((s.setDma ch { x with doorbell := false }).askDescriptor ch)
      else done (s.setDma ch { x with state := dmaIdle })
  else done s

/-- DMA_READBACK_DONE (R428, R430, R431). -/
def execDmaReadbackDone (ch : Fin 32) (s : State) : Host.Outcome State Fault Refusal :=
  let x := s.dma ch
  match x.desc with
  | none => done s
  | some d =>
    if x.readback ∧ x.state = dmaRunning then
      let cut := s.get Od.dma_MODE ch = 1 ∧ x.status = 0 ∧ ¬ x.eop ∧ (x.stopping ∨ d.next = 0)
      let s := s.writeBack ch x.curDesc d.control x.moved (if cut then 8 else x.status) (cut || x.eop)
      let s := if d.control.testBit 30 then s.raise (1 + ch) else s
      let s := s.confirmHost ch x.moved
      let s := s.setDma ch { s.dma ch with readback := false }
      let s := if cut then s.dropDmaPackets ch else s
      done (s.afterBack ch d (if cut then 8 else x.status))
    else done s

/-- DMA_HOST_READ_ERROR (R433): `received` are the bytes that came before the error. -/
def execDmaHostReadError (ch : Fin 32) (received : List Byte) (s : State) : Host.Outcome State Fault Refusal :=
  let x := s.dma ch
  match x.desc with
  | none => done s
  | some d =>
    if x.state = dmaRunning ∧ ¬ x.readback ∧ ¬ d.control.testBit 17 ∧ s.get Od.dma_MODE ch ≠ 1 then
      let part := (x.source ++ received).take (d.count - x.moved)
      if s.get Od.dma_MODE ch = 2 then done ((s.dropDmaPackets ch).startReadback ch (x.moved + part.length) 6 false)
      else done ((s.dmaWrite d x.moved part x.meet).startReadback ch (x.moved + part.length) 6 false)
    else done s

/-- DMA_QUEUE_PACKET_READY (R431). -/
def execDmaQueuePacketReady (ch : Fin 32) (s : State) : Host.Outcome State Fault Refusal :=
  let x := s.dma ch
  if x.state = dmaWaiting ∧ x.desc.isSome ∧ s.get Od.dma_MODE ch = 1 ∧ x.packet.isNone ∧ (s.queue (1536 + ch)).packets ≠ [] then
    let s := s.takeHostPacket ch
    done (s.runDma ch { s.dma ch with state := dmaRunning })
  else done s

/-- DMA_BATT_AVAILABLE (R318, R431): the transfer resumes where it can. -/
def execDmaBattAvailable (ch : Fin 32) (s : State) : Host.Outcome State Fault Refusal :=
  let x := s.dma ch
  if x.state = dmaWaiting ∧ x.desc.isSome ∧ s.get Od.dma_MODE ch = 2 ∧ ¬ (x.moved = 0 ∧ s.hostPaused ch) then
    let t := (s.setDma ch { x with state := dmaRunning }).moveChunk ch
    if (t.dma ch).state = dmaWaiting then done s else done t
  else done s

/-! ### Interrupts -/

/-- COALESCE_TIMER_EXPIRY (R437). -/
def execCoalesceTimerExpiry (src : Fin 512) (s : State) : Host.Outcome State Fault Refusal :=
  done (s.setIrq src ((s.irq src).expire (s.srcCfg src) s.cycle))

/-- CLAIM (R438, R439). -/
def execClaim (v : Fin 63) (s : State) : Host.Outcome State Fault Refusal :=
  let r := s.claimVector v
  done (r.1.emit (.answer (leBytes 4 r.2)))

/-- COMPLETE (R438, R439). -/
def execComplete (v : Fin 63) (src : Nat) (s : State) : Host.Outcome State Fault Refusal :=
  done (s.completeVector v (src % 512))

/-- FAST_CLAIM (R440). -/
def execFastClaim (s : State) : Host.Outcome State Fault Refusal :=
  let r := s.claimVector 63
  done (r.1.emit (.answer (leBytes 4 r.2)))

/-- FAST_COMPLETE (R440). -/
def execFastComplete (src : Nat) (s : State) : Host.Outcome State Fault Refusal := done (s.completeVector 63 (src % 512))

/-- SRC_CFG_WRITE (R437): bits [6:4] are reserved. -/
def execSrcCfgWrite (src : Fin 512) (v : Nat) (s : State) : Host.Outcome State Fault Refusal :=
  if src.val = 0 ∨ 256 ≤ src.val then done s
  else
    let c := setBits (v % 2 ^ 32) 4 3 0
    let s := { s with host := { s.host with srcCfg := tput s.host.srcCfg (srcCfgReset src) src c } }
    done (s.setIrq src ((s.irq src).reconfigure c))

/-- STREAM_EVT_CLEAR (R436). -/
def execStreamEvtClear (sid : Fin 512) (mask : Nat) (s : State) : Host.Outcome State Fault Refusal :=
  let old := tget s.host.streamEvt 0 sid
  done { s with host := { s.host with
    streamEvt := tput s.host.streamEvt 0 sid ((List.range 8).foldl (fun v k => if mask.testBit k then clearBit v k else v) old) } }

end Sys2Proof.Machine
end

