-- ==== Sys2Proof/Machine/Iop.lean ====
section
/-! DEFINITION. The meanings of IOP frames, their timers and command completions (R46–R67, R421). -/

namespace Sys2Proof.Machine

/-- HELLO (R55, R57, R63). -/
def execHello (o : Origin) (frame : List Byte) (s : State) : Host.Outcome State Fault Refusal :=
  done (s.takeFrame o frame fun ty => ty == 0x01)

/-- PROVE (R55, R56, R63). -/
def execProve (o : Origin) (frame : List Byte) (s : State) : Host.Outcome State Fault Refusal :=
  done (s.takeFrame o frame fun ty => ty == 0x03)

/-- REQUEST (R50, R58, R63); a frame of a TYPE that no client sends is refused here too. -/
def execRequest (o : Origin) (frame : List Byte) (s : State) : Host.Outcome State Fault Refusal :=
  done (s.takeFrame o frame fun ty => !([0x01, 0x03, 0x21, 0x30].contains ty))

/-- NOTIFY_ACK (R62). -/
def execNotifyAck (o : Origin) (frame : List Byte) (s : State) : Host.Outcome State Fault Refusal :=
  done (s.takeFrame o frame fun ty => ty == 0x21)

/-- CLOSE (R59, R60). -/
def execClose (o : Origin) (frame : List Byte) (s : State) : Host.Outcome State Fault Refusal :=
  done (s.takeFrame o frame fun ty => ty == 0x30)

/-- HANDSHAKE_TIMEOUT (R57). -/
def execHandshakeTimeout (session : Nat) (s : State) : Host.Outcome State Fault Refusal := done (s.dropHandshake session)

/-- IDLE_TIMEOUT (R59): the time that the session's ACCEPT gave has passed without a valid frame. -/
def execIdleTimeout (session : Nat) (s : State) : Host.Outcome State Fault Refusal :=
  match s.session session with
  | some x => if x.auth ∧ x.lastValid + secCycles x.idleTimeout ≤ s.cycle ∧ x.lastValid ≠ s.cycle then done (s.closeSession session) else done s
  | none => done s

/-- NOTIFY_RESEND_TIMEOUT (R62). -/
def execNotifyResendTimeout (session seq : Nat) (s : State) : Host.Outcome State Fault Refusal :=
  done (s.resendNotify session seq)

/-- COMMAND_RESPONSE_TIMEOUT (R66). -/
def execCommandResponseTimeout (code : Nat) (s : State) : Host.Outcome State Fault Refusal := done (s.pendCommand code)

/-- COMMAND_COMPLETION (R65–R67). -/
def execCommandCompletion (code : Nat) (s : State) : Host.Outcome State Fault Refusal := done (s.completeCommand code)

/-- MBX_COPY_DONE (R421): the copied frame is taken. -/
def execMbxCopyDone (s : State) : Host.Outcome State Fault Refusal :=
  if s.host.reqBusy then
    let s := { s with host := { s.host with reqBusy := false, executing := true } }.raise 67
    done ((s.receiveFrame .mailbox (s.host.reqBuf.take s.host.reqLength) (leAt (s.host.reqBuf) 6 2)).endExecuting)
  else done s

end Sys2Proof.Machine
end

