-- ==== Sys2Proof/Machine/Lanes.lean ====
section
/-! DEFINITION. The meanings of serial lanes and Chaec Link (R330–R354), but for the packets and frames received. -/

namespace Sys2Proof.Machine

/-! ### Bring-up -/

/-- RECEIVER_DETECT_STEP (R338). -/
def execReceiverDetectStep (lane : Fin 128) (found : Bool) (s : State) : Host.Outcome State Fault Refusal :=
  if s.get Od.lane_LINK_STATE lane = 1 then done (s.setLane lane { s.lane lane with found := found }) else done s

/-- A band moves on; one that becomes ACTIVE reports the memberships of its inputs (R216). -/
def State.stagePasses (s : State) (p : Nat) : State :=
  let s := s.nextStage p
  if s.portActive p then s.reportMemberships p else s

/-- LINK_STAGE_PASS (R338). -/
def execLinkStagePass (p : Fin 128) (s : State) : Host.Outcome State Fault Refusal :=
  if s.isBand p ∧ s.stageCondition p then done (s.stagePasses p) else done s

/-- LINK_STAGE_TIMEOUT (R35, R338, R340, R344), at the stage's timeout and not before it. -/
def execLinkStageTimeout (p : Fin 128) (s : State) : Host.Outcome State Fault Refusal :=
  let l := s.link p
  if s.isBand p ∧ 2 ≤ l.stage ∧ l.stage ≤ 4 ∧ l.stageAt + s.stageTime p ≤ s.cycle then
    if s.stageCondition p then done (s.stagePasses p)
    else if l.stage = 2 then
      match s.narrowTo p with
      | some ix => done (s.narrowBand p ix)
      | none =>
        let s := if l.retraining then
          (s.finishCommand 0x42 Result.linkFailed []).setLink p { l with retraining := false } else s
        done (s.stageTimesOut p)
    else done (s.stageTimesOut p)
  else done s

/-- LINK_RETRY_BACKOFF_EXPIRY (R338): 1 s after the band returned to DETECT. -/
def execLinkRetryBackoffExpiry (p : Fin 128) (s : State) : Host.Outcome State Fault Refusal :=
  if (s.link p).detectAt + secCycles 1 ≤ s.cycle then done (s.setLink p { s.link p with backoff := false }) else done s

/-- A lane's place among the lanes of its band. -/
def State.ownIndex (s : State) (l : Nat) : Nat := l - s.portOf l

/-- TRAINING_FRAME (R337, R339): the lane takes the tap requests, detects its polarity from the frame, counts the
frames for which it has held its own requests, and answers with a frame of its own. While its figure of merit rises it
requests steps, in a direction that the spec leaves open; at the best it finds, it holds.
[DESIGN CHOICE, unsafe: log entry 48.] -/
def execTrainingFrame (lane : Fin 128) (f : TrainingArrival) (s : State) : Host.Outcome State Fault Refusal :=
  if s.get Od.lane_LINK_STATE lane = 2 then
    let x := s.lane lane
    let held := if x.searching then 0 else x.heldFrames + 1
    let taps := s.get Od.lane_TX_FFE lane
    let ready := decide (s.get Od.port_FOM_MIN (s.portOf lane) ≤ s.get Od.lane_FOM lane ∧ 16 ≤ held)
    let s := s.setLane lane { x with searching := false, heldFrames := held, ownReady := ready, peerReady := f.frame.ready }
    let s := ((s.set Od.lane_LANE_INDEX lane (f.frame.index % 4)).set Od.lane_POLARITY lane (b2n f.inverted)).set
      Od.lane_TX_FFE lane (tapsAfter taps f.frame.requests)
    let asks := if x.searching then (List.range 3).map fun k => Config.free (s.freeUsed + k) % 3 else [0, 0, 0]
    done ((s.useFrees 3).emit (.training lane ⟨s.ownIndex lane, asks, tapStatus taps f.frame.requests, f.inverted, ready⟩))
  else done s

/-- ALIGN_BLOCK (R334, R342). -/
def execAlignBlock (lane : Fin 128) (index width skew : Nat) (s : State) : Host.Outcome State Fault Refusal :=
  let p := s.portOf lane
  let ok := decide (index = s.get Od.lane_LANE_INDEX lane ∧ width = (s.link p).inUse.length ∧ skew ≤ 32)
  if s.isBand p then
    if s.portActive p ∧ (s.lanesInUse p).contains lane.val ∧ ¬ ok then done (s.leaveActive p 1)
    else done (s.setLane lane { s.lane lane with aligned := ok })
  else done s

/-- Sealing keys of a band that agrees on them (R351). -/
def State.sealBand (s : State) (p : Nat) (own c : Capability) (o : SealOffer) : State :=
  let l := s.link p
  let b := sealBlocks own c l.ephDraw o
  ((s.sendSignature p own c l.ephDraw o).setLink p { l with
    keys := some { tx := ⟨b.1, 0, false⟩, rx := ⟨b.2, 0, false⟩, keyedAt := s.cycle } }).set Od.port_SEALED p 1

/-- CAPABILITY_PACKET (R341, R351, R484, R485). -/
def execCapabilityPacket (p : Fin 128) (c : Capability) (s : State) : Host.Outcome State Fault Refusal :=
  let l := s.link p
  if s.isBand p ∧ l.stage = 4 then
    let own := s.ownCapability p
    let s := ((s.set Od.port_PEER_SERIAL p c.serial).set Od.port_PEER_PORT p c.port).setLink p
      { l with peer := some c, loopback := decide (c.serial = s.serial) }
    let take : State → State := fun t => t.setLink p { t.link p with accepted := true }
    if c.width ≠ own.width then done s
    else match c.sealing with
      | some o =>
        if ¬ s.acceptsPeer own c l.ephDraw o then done ((s.bump Od.sec_SEAL_FAILURES).failBringUp p (some 4))
        else if own.sealMode ≠ 0 ∧ c.sealMode ≠ 0 then done (take (s.sealBand p own c o))
        else if own.sealMode = 2 then done (s.failBringUp p (some 4))
        else done (take s)
      | none =>
        if own.sealMode ≠ 0 ∧ c.sealMode ≠ 0 then done s
        else if own.sealMode = 2 then done (s.failBringUp p (some 4))
        else done (take s)
  else done s

/-! ### Lanes -/

/-- A figure of merit on a lane in use of an ACTIVE band (R342). -/
def State.activeFom (s : State) (p lane fom : Nat) : State :=
  let x := s.lane lane
  if fom < s.get Od.port_FOM_DROP p then
    if 3 ≤ x.lowRun + 1 then (s.bump Od.lane_FOM_DROPS lane).leaveActive p 3
    else s.setLane lane { x with lowRun := x.lowRun + 1 }
  else
    let s := s.setLane lane { x with lowRun := 0 }
    if fom < s.get Od.port_FOM_MIN p then
      let s := s.bump Od.lane_LOW_FOM_COUNT lane
      let due := match x.lowInfoAt with
        | none => true
        | some a => decide (a + secCycles 1 ≤ s.cycle)
      if due then
        ((s.setLane lane { s.lane lane with lowInfoAt := some s.cycle }).reportInfo (Unit.port p) 0x32 (lane + fom * 2 ^ 8)).setSticky
          (Unit.port p) 6
      else s
    else s

/-- FOM_MEASUREMENT (R336, R337, R342): receive adaptation leaves RX_EQ and FREQ_OFFSET to the lane, as free values. -/
def execFomMeasurement (lane : Fin 128) (fom : Fin 256) (s : State) : Host.Outcome State Fault Refusal :=
  let st := s.get Od.lane_LINK_STATE lane
  if (2 ≤ st ∧ st ≤ 5) ∨ st = 7 then
    let old := s.get Od.lane_FOM lane
    let s := s.set Od.lane_FOM lane fom
    let f := s.freeValue
    let s := ((s.useFree).set Od.lane_RX_EQ lane f).setInt Od.lane_FREQ_OFFSET lane ((f % 4001 : Nat) - 2000)
    let s := if old < fom.val then s.setLane lane { s.lane lane with searching := true, heldFrames := 0 } else s
    if st = 5 then
      let s := if fom.val < s.get Od.lane_FOM_LOW lane then s.set Od.lane_FOM_LOW lane fom else s
      if s.isBand (s.portOf lane) then done (s.activeFom (s.portOf lane) lane fom) else done s
    else done s
  else done s

/-- BLOCK_LOCK_LOSS (R333, R342, R350): 16 invalid sync headers were counted. [DESIGN CHOICE, unsafe: log entry 48.] -/
def execBlockLockLoss (lane : Fin 128) (hiBer : Bool) (s : State) : Host.Outcome State Fault Refusal :=
  let p := s.portOf lane
  let s := (s.setLane lane { s.lane lane with blockLock := false }).bumpBy Od.lane_BLOCK_ERRORS lane 0 16
  let s := if hiBer then s else s.bump Od.lane_LOCK_LOSSES lane
  if s.portActive p ∧ (s.lanesInUse p).contains lane.val then done (s.leaveActive p (if hiBer then 2 else 1)) else done s

/-- BLOCK_LOCK_GAINED (R333, R344, R350). -/
def execBlockLockGained (lane : Fin 128) (s : State) : Host.Outcome State Fault Refusal :=
  let p := s.portOf lane
  let s := s.setLane lane { s.lane lane with blockLock := true }
  if s.get Od.port_MODE p = 2 ∧ s.get Od.port_PORT_STATE p = 1 then done ((s.portUp p).reportMemberships p) else done s

/-- NEIGHBOUR_IDLE_TIMEOUT (R342). -/
def execNeighbourIdleTimeout (p : Fin 128) (s : State) : Host.Outcome State Fault Refusal :=
  if s.isBand p then done (s.leaveActive p 7) else done s

/-! ### Pauses and timing -/

/-- An ACTIVE band. -/
def State.activeBand (s : State) (p : Nat) : Bool := s.isBand p && s.portActive p

/-- PAUSE_BLOCK (R348). -/
def execPauseBlock (p : Fin 128) (mask : Nat) (s : State) : Host.Outcome State Fault Refusal :=
  if s.activeBand p then
    let s := s.setLink p { s.link p with paused := mask % 32, pausedAt := some s.cycle }
    if mask = 0 then done s else done (s.bump Od.port_PAUSES_RECEIVED p)
  else done s

/-- PAUSE_EXPIRY (R348): 40 µs after the last PAUSE; a refresh of the same cycle keeps the pause (R35). -/
def execPauseExpiry (p : Fin 128) (s : State) : Host.Outcome State Fault Refusal :=
  if (s.link p).pausedAt.any fun a => decide (a + usCycles 40 ≤ s.cycle) then
    done (s.setLink p { s.link p with paused := 0, pausedAt := none })
  else done s

/-- PAUSE_REFRESH_TIMER (R348): every 10 µs while a level holds. -/
def execPauseRefreshTimer (p : Fin 128) (s : State) : Host.Outcome State Fault Refusal :=
  if s.activeBand p ∧ s.pauseWanted p ≠ 0 ∧ (s.link p).sentAt + usCycles 10 ≤ s.cycle then done (s.sendPause p (s.pauseWanted p)) else done s

/-- A TIMING packet is due: 1 ms after the last one (R349). -/
def State.timingDue (s : State) (p : Nat) : Bool :=
  match (s.link p).timing.dueAt with
  | none => true
  | some a => decide (a + msCycles 1 ≤ s.cycle)

/-- TIMING_SEND_TIMER (R349). -/
def execTimingSendTimer (p : Fin 128) (s : State) : Host.Outcome State Fault Refusal :=
  if s.activeBand p ∧ s.timingDue p then done (s.sendTiming p) else done s

/-- TIMING_PACKET (R19, R20, R349): domains that follow the band measure their error. -/
def execTimingPacket (p : Fin 128) (t : TimingPayload) (s : State) : Host.Outcome State Fault Refusal :=
  if s.activeBand p then
    let s := s.takeTiming p t
    done (s.eachDomain (fun t rd => t.locksTo rd 3 && decide (t.fabricPort rd = p.val)) fun t rd =>
      match t.neighbourTime p rd with
      | some r => t.measure rd (t.fabricError rd r)
      | none => t)
  else done s

/-! ### Rekeying (R352) -/

/-- This end begins a rekey. -/
def State.startRekey (s : State) (p : Nat) (k : SealState) : State :=
  (s.setLink p { s.link p with keys := some { k with rekeyAt := some s.cycle } }).sendSealOffer p msgRekey

/-- A rekey is due: every REKEY_INTERVAL seconds, or after 2^32 packets. -/
def State.rekeyDue (s : State) (p : Nat) (k : SealState) : Bool :=
  decide (k.keyedAt + secCycles (s.get Od.port_REKEY_INTERVAL p) ≤ s.cycle ∨ 2 ^ 32 ≤ k.tx.counter)

/-- REKEY_TIMER. -/
def execRekeyTimer (p : Fin 128) (s : State) : Host.Outcome State Fault Refusal :=
  match (s.link p).keys with
  | some k => if s.activeBand p ∧ k.rekeyAt = none ∧ s.rekeyDue p k then done (s.startRekey p k) else done s
  | none => done s

/-- The next keys of a band, in the other key phase. -/
def State.takeRekey (s : State) (p : Nat) (k : SealState) (o : SealOffer) : State :=
  match (s.link p).peer with
  | none => s
  | some peer =>
    let own := s.ownCapability p
    let draw := (s.link p).ephDraw
    if s.acceptsPeer own peer draw o then
      let b := sealBlocks own peer draw o
      (s.sendSignature p own peer draw o).setLink p { s.link p with keys := some { k with
        rekeyAt := none, nextTx := some ⟨b.1, 0, !k.tx.phase⟩, nextRx := some ⟨b.2, 0, !k.rx.phase⟩ } }
    else s

/-- REKEY_MESSAGE: an end that has not begun yet answers with its own offer. -/
def execRekeyMessage (p : Fin 128) (offer : SealOffer) (s : State) : Host.Outcome State Fault Refusal :=
  match (s.link p).keys with
  | none => done s
  | some k =>
    if s.activeBand p then
      let t := if k.rekeyAt = none then s.startRekey p k else s
      match (t.link p).keys with
      | some k' => done (t.takeRekey p k' offer)
      | none => done t
    else done s

/-- REKEY_TIMEOUT: 200 ms after the rekey began. -/
def execRekeyTimeout (p : Fin 128) (s : State) : Host.Outcome State Fault Refusal :=
  match (s.link p).keys with
  | some k =>
    if k.rekeyAt.any fun a => decide (a + msCycles 200 ≤ s.cycle) then done (s.leaveActive p 4) else done s
  | none => done s

/-- OLD_KEY_EXPIRY: 100 ms after the first packet of the new phase. -/
def execOldKeyExpiry (p : Fin 128) (s : State) : Host.Outcome State Fault Refusal :=
  match (s.link p).keys with
  | some k =>
    if k.oldAt + msCycles 100 ≤ s.cycle then done (s.setLink p { s.link p with keys := some { k with oldRx := none } })
    else done s
  | none => done s

/-! ### Commands -/

/-- LINK_RETRAIN (R344). -/
def execLinkRetrain (port : Nat) (s : State) : Host.Outcome State Fault Refusal :=
  done (s.runCommand 0x42 (leBytes 1 port) fun s =>
    if 128 ≤ port ∨ s.portMode port = 0 ∨ s.portMode port = 3 ∨ ¬ s.quadOn (port / 4) then answer s Result.noSuchTarget
    else
      let s := s.setLink port { s.link port with retraining := true, retrainAt := s.cycle }
      ((if s.portActive port then s.leaveActive port 5 else s), none))

/-- LINK_RETRAIN_TIMEOUT (R344): 2 s after the command. -/
def execLinkRetrainTimeout (p : Fin 128) (s : State) : Host.Outcome State Fault Refusal :=
  if (s.link p).retraining ∧ (s.link p).retrainAt + secCycles 2 ≤ s.cycle then
    done ((s.setLink p { s.link p with retraining := false }).finishCommand 0x42 Result.timeout [])
  else done s

/-- One port of a quad that is reset: down with cause 6, its queues flushed. -/
def State.quadPort (s : State) (p : Nat) : State :=
  let s := if s.portActive p then s.leaveActive p 6 else s.set Od.port_LAST_DOWN_CAUSE p 6
  s.emptyPort p

/-- QUAD_RESET (R296, R302, R325, R332). -/
def execQuadReset (qd power : Nat) (s : State) : Host.Outcome State Fault Refusal :=
  if 2 ≤ power then done { s with lastStatus := Status.outOfRange }
  else done (s.runCommand 0x44 (leBytes 1 qd ++ leBytes 1 power) fun s =>
    let ports := (List.range 4).map fun k => 4 * qd + k
    if 32 ≤ qd then answer s Result.noSuchTarget
    else if ports.any fun p => s.portBound p then answer s Result.inUse
    else
      let s := ports.foldl (fun t p => t.quadPort p) s
      let s := (s.initStore 8 qd).repairsApply fun store inst => decide (store = 8 ∧ inst = qd)
      let s := { s with lanes := { s.lanes with quadOn := tput s.lanes.quadOn false qd (power == 1) } }
      let s := (ports.filter fun p => ¬ s.isMember p).foldl (fun t p => t.startBringUp p) s
      answer s Result.ok)

/-- MGMT_STATE_CHANGE (R354): `ipv4` is the address that DHCPv4 gives. -/
def execMgmtStateChange (up : Bool) (speed ipv4 : Nat) (s : State) : Host.Outcome State Fault Refusal :=
  let fixed := s.get Od.mgmt_MGMT_IPV4
  let now := if !up then 0 else if fixed = 0 then ipv4 else fixed % 2 ^ 32
  done (((s.set Od.mgmt_MGMT_STATE 0 (b2n up)).set Od.mgmt_MGMT_SPEED 0 (if up then speed else 0)).set Od.mgmt_MGMT_IPV4_NOW 0 now)

end Sys2Proof.Machine
end

