-- ==== Sys2Proof/Machine/Memory.lean ====
section
/-! DEFINITION. The meanings of picture memory and stored-data protection (R272–R306), but for the write of
PICTURE_REGION. -/

namespace Sys2Proof.Machine

/-! ### Regions -/

/-- Argument block of REGION_CREATE (R68). -/
def regionArgs (region kind t base size : Nat) : List Byte :=
  leBytes 1 region ++ leBytes 1 kind ++ leBytes 1 t ++ [0#8] ++ leBytes 8 base ++ leBytes 8 size

/-- REGION_CREATE (R275–R277): its tests and its fill; the region exists from the cycle in which the command completes. -/
def execRegionCreate (region kind t base size : Nat) (s : State) : Host.Outcome State Fault Refusal :=
  done (s.runCommand 0x20 (regionArgs region kind t base size) fun s =>
    match s.regionTests region kind t base size with
    | .inl r => answer s r
    | .inr a =>
      let s := s.fillRegion kind t a size
      let s := if kind = 1 ∨ t = 1 then
        (s.bumpBy Od.hbm_BYTES_WRITTEN 0 0 (extentOf kind size)).cleanGranules fun g => overlaps g 256 a (extentOf kind size)
        else s
      answer s Result.ok (leBytes 8 a))

/-- REGION_DELETE (R281, R304). -/
def execRegionDelete (region : Nat) (s : State) : Host.Outcome State Fault Refusal :=
  done (s.runCommand 0x21 (leBytes 1 region) fun s =>
    if ¬ s.regionExists region then answer s Result.noSuchTarget
    else if s.regionUsers region ≠ 0 then answer s Result.inUse
    else answer (s.dropRegion region) Result.ok)

/-! ### SCRUB (R298) -/

/-- The summary of a scrub: pages, bits corrected, uncorrectable pages, most bits in a page, and the bad pages. -/
structure ScrubSum where
  pages : Nat
  fixed : Nat
  bad   : List Nat
  most  : Nat
  deriving DecidableEq, Repr

/-- Reads the pages of a range. -/
def State.scrubPages (s : State) (r : Nat) (ps : List Nat) : State × ScrubSum :=
  ps.foldl (fun (q : State × ScrubSum) p =>
    let x := q.1.readPage r p 4 159
    let m := q.2
    (x.1, match x.2 with
      | .clean => { m with pages := m.pages + 1 }
      | .corrected n => { m with pages := m.pages + 1, fixed := m.fixed + n, most := max m.most n }
      | .uncorrectable => { m with pages := m.pages + 1, bad := m.bad ++ [p] })) (s, ⟨0, 0, [], 0⟩)

/-- The 21 bytes of the summary. -/
def ScrubSum.bytes (m : ScrubSum) : List Byte :=
  leBytes 8 m.pages ++ leBytes 8 m.fixed ++ leBytes 4 m.bad.length ++ leBytes 1 m.most

/-- SCRUB. -/
def execScrub (base size : Nat) (s : State) : Host.Outcome State Fault Refusal :=
  done (s.runCommand 0x22 (leBytes 8 base ++ leBytes 8 size) fun s =>
    if base % 4096 ≠ 0 ∨ size % 4096 ≠ 0 ∨ size = 0 then answer s Result.alignment
    else match s.regionAt base size with
      | none => answer s Result.noSuchTarget
      | some r =>
        if s.regionProtected r then
          let q := s.scrubPages r (pagesOf base size)
          let s := { q.1 with mem := { q.1.mem with scrubBad := q.2.bad.take 256, scrubbing := some r } }
          let s := s.set Od.reg_LAST_SCRUB r (leNat q.2.bytes)
          answer s Result.ok q.2.bytes
        else answer s Result.noSuchTarget)

/-! ### FUSE_REPAIR (R301–R303) -/

def fuseArgs (target addr : Nat) : List Byte := leBytes 1 target ++ [0#8] ++ leBytes 8 addr

/-- ENTRIES_LEFT as FUSE_REPAIR returns it. -/
def State.fuseReturn (s : State) : List Byte := leBytes 1 (s.get Od.sto_FUSE_ENTRIES_LEFT)

/-- FUSE_REPAIR_SRAM: `macroFound`, `spare` and `readsBack` are what the repair meets in the macro and the fuse bank. -/
def execFuseRepairSram (addr : Nat) (macroFound spare readsBack : Bool) (s : State) : Host.Outcome State Fault Refusal :=
  done (s.runCommand 0x33 (fuseArgs 0 addr) fun s =>
    if ¬ s.sec.efuse then answer s Result.noFuseSupply
    else if 9 ≤ fuseStore addr ∨ storeInstances (fuseStore addr) ≤ fuseInstance addr ∨ ¬ macroFound then
      answer s Result.outOfRange
    else if ¬ spare ∨ s.get Od.sto_FUSE_ENTRIES_LEFT = 0 then answer s Result.fusesExhausted
    else if readsBack then
      let s := s.burnFuse 0 2 addr
      answer s Result.ok s.fuseReturn
    else answer (s.burnFuse 0 3 addr) Result.repairFailed)

/-- PAUSE_MAX after a pause of ns. -/
def State.notePause (s : State) (ns : Nat) : State :=
  if s.get Od.hbm_PAUSE_MAX < ns then s.set Od.hbm_PAUSE_MAX 0 ns else s

/-- FUSE_REPAIR_HBM3_ROW (R303): `spare` says whether the row's bank has a spare row left, `ns` is the pause, for whose place
the repair waits. [DESIGN CHOICE, unsafe: log entry 45.] -/
def execFuseRepairHbm3Row (addr : Nat) (spare passes : Bool) (ns : Nat) (s : State) : Host.Outcome State Fault Refusal :=
  if s.sec.efuse ∧ addr < hbmEnd ∧ spare = true ∧ s.get Od.sto_FUSE_ENTRIES_LEFT ≠ 0 ∧ ¬ s.repairMayPause then done s
  else done (s.runCommand 0x33 (fuseArgs 1 addr) fun s =>
    if ¬ s.sec.efuse then answer s Result.noFuseSupply
    else if hbmEnd ≤ addr then answer s Result.outOfRange
    else if spare = false ∨ s.get Od.sto_FUSE_ENTRIES_LEFT = 0 then answer s Result.fusesExhausted
    else
      let p := pcOf addr
      let s := ((s.burnFuse 1 (if passes then 1 else 3) addr).notePause (min 40000 ns)).repairPause (min 40000 ns)
      let s := s.setPc p { s.pc p with pprUsed := (s.pc p).pprUsed + 1 }
      if passes then answer s Result.ok s.fuseReturn else answer s Result.repairFailed)

/-! ### Accesses -/

/-- A master that PICTURE_REGION is closed to (R279). -/
def Master.outside : Master → Bool
  | .dma _ => true
  | .bar2 => true
  | _ => false

/-- HBM_WRITE (R275, R278, R283, R286). -/
def execHbmWrite (m : Master) (addr : Nat) (data : List Byte) (meet : MemMeet) (s : State) :
    Host.Outcome State Fault Refusal :=
  if Master.outside m && s.touchesPicture addr data.length then done (s.emit (.refused addr))
  else
    let r := s.hbmWrite (Master.code m) addr data meet
    if r.2 then done r.1 else done (r.1.emit (.refused addr))

/-- HBM_READ (R275, R284, R286). -/
def execHbmRead (m : Master) (addr len : Nat) (meet : MemMeet) (s : State) : Host.Outcome State Fault Refusal :=
  if Master.outside m && s.touchesPicture addr len then done (s.emit (.refused addr))
  else match s.hbmRead (Master.code m) addr len meet with
    | (t, .data bs) => done (t.emit (.answer bs))
    | (t, .poisoned) => done (t.emit (.poisoned addr len))
    | (t, .rejected) => done (t.emit (.refused addr))

/-- PAGE_WRITE_BACK (R284, R285): a page that was miscorrected is written back with values that the spec leaves open. -/
def execPageWriteBack (page : Nat) (s : State) : Host.Outcome State Fault Refusal :=
  if page ∈ s.mem.writeBacks then
    match s.regionAt page 4096 with
    | none => done s
    | some r =>
      if s.get Od.reg_T r < tget s.mem.flips 0 page then
        done ((s.useFrees 4096).writePages r page (s.freeBytes 4096))
      else done (s.writePages r page (s.hbmBytes page 4096))
  else done s

/-! ### Refresh, temperatures, retraining -/

/-- REFRESH (R287, R289): from this refresh the stack runs at the interval that REFRESH_X2 shows. -/
def execRefresh (stack : Fin 2) (s : State) : Host.Outcome State Fault Refusal :=
  done { s with mem := { s.mem with
    refreshHalf := tput s.mem.refreshHalf false stack ((s.get Od.hbm_REFRESH_X2).testBit stack) } }

/-- LFSR_RESEED (R288): 1 s after the last seeding, and not before it. -/
def execLfsrReseed (s : State) : Host.Outcome State Fault Refusal :=
  if s.mem.seededAt + msCycles 1000 ≤ s.cycle then done s.seedLfsrs else done s

/-- One stack's reading in 0.1 °C. At 100 °C both halves that serve the stack report it.
[DESIGN CHOICE, unsafe: log entry 46.] -/
def State.stackReads (s : State) (k : Nat) (t : Int) : State :=
  let x2 := s.get Od.hbm_REFRESH_X2
  let high : Int := s.get Od.hbm_TEMP_HIGH * 10
  let s := if high < t then s.set Od.hbm_REFRESH_X2 0 (setBit x2 k)
    else if t ≤ high - 20 then s.set Od.hbm_REFRESH_X2 0 (clearBit x2 k) else s
  if 1000 ≤ t then
    ((((s.reportInfo (Unit.hbmHalf (2 * k)) 0x15 k).setSticky (Unit.hbmHalf (2 * k)) 5).reportInfo
      (Unit.hbmHalf (2 * k + 1)) 0x15 k).setSticky (Unit.hbmHalf (2 * k + 1)) 5)
  else s

/-- A pseudo-channel whose stack has moved by more than 10 °C since its last retrain falls due at once (R290).
[DESIGN CHOICE, unsafe: log entry 46.] -/
def State.warmPc (s : State) (p : Nat) (t : Int) : State :=
  let x := s.pc p
  match x.tempAt with
  | none => s.setPc p { x with tempAt := some t }
  | some a => if 100 < (t - a).natAbs ∧ x.dueAt.isNone then s.fallDue p else s

/-- The pseudo-channels of a stack after its reading. -/
def State.warmStack (s : State) (k : Nat) (t : Int) : State :=
  (List.range 32).foldl (fun u j => u.warmPc (32 * k + j) t) s

/-- The stack temperatures are due to be read: 1 ms after the last reading (R289). -/
def State.tempsDue (s : State) : Bool :=
  match s.mem.tempsAt with
  | none => true
  | some a => decide (a + msCycles 1 ≤ s.cycle)

/-- HBM_TEMPERATURE_READ (R289, R290). -/
def execHbmTemperatureRead (t0 t1 : Int) (s : State) : Host.Outcome State Fault Refusal :=
  if s.tempsDue then
    let s := { s with mem := { s.mem with tempsAt := some s.cycle } }
    done ((((((s.setInt Od.hbm_TEMP_0 0 t0).setInt Od.hbm_TEMP_1 0 t1).stackReads 0 t0).stackReads 1 t1).warmStack 0 t0).warmStack 1 t1)
  else done s

/-- RETRAIN_DUE (R290): a pseudo-channel falls due by its interval, and not before its instant. -/
def execRetrainDue (p : Fin 64) (s : State) : Host.Outcome State Fault Refusal :=
  if (s.pc p).dueAt.isNone ∧ s.retrainAt p ≤ s.cycle then done (s.fallDue p) else done s

/-- RETRAIN_PAUSE_START (R291). -/
def execRetrainPauseStart (p : Fin 64) (s : State) : Host.Outcome State Fault Refusal :=
  if (s.pc p).dueAt.isSome ∧ s.pauseFree then
    if s.retrainLate p then done ((s.bump Od.hbm_RETRAIN_LATE).startPause p)
    else if s.retrainNext p ∧ (¬ s.retrainAligned ∨ s.retrainBlank p) then done (s.startPause p)
    else done s
  else done s

/-- RETRAIN_END (R291, R292). -/
def execRetrainEnd (p : Fin 64) (passed : Bool) (ns : Nat) (s : State) : Host.Outcome State Fault Refusal :=
  if s.mem.pause.any fun e => e.2 = p.val then
    let s := { s with mem := { s.mem with pause := none } }.notePause (min 1500 ns)
    let x := s.pc p
    if passed then
      done ((s.bump Od.hbm_RETRAINS).setPc p { x with
        state := 0, fails := 0, last := s.now 0, lastAt := s.cycle, retrained := true, dueAt := none, tempAt := some (s.stackTemp p) })
    else if 3 ≤ x.fails + 1 then
      done ((s.setPc p { x with state := 2, fails := x.fails + 1 }).reportInfo (Unit.hbmHalf (p / 16)) 0x16 p)
    else done (s.setPc p { x with state := 0, fails := x.fails + 1 })
  else done s

/-! ### On-chip stores -/

/-- SRAM_CORRECTION_WRITEBACK (R295). -/
def execSramCorrectionWriteback (loc : Nat) (s : State) : Host.Outcome State Fault Refusal :=
  if (tfind s.mem.sramWriteBacks loc).isSome then done (s.writeSram loc) else done s

/-- FULLING_STEP (R295, R299): `flips` are the bits of the word's bytes found inverted, by byte.
[DESIGN CHOICE, unsafe: log entry 46.] -/
def execFullingStep (f : Fulled) (flips : List (Nat × Nat)) (s : State) : Host.Outcome State Fault Refusal :=
  let w := (s.lap (fulledLap f)).word
  if s.fullingPaused f w then done s else
  let s := flips.foldl (fun t e =>
    if e.1 < (fulledBytes f) then t.flipSram (sramLoc (fulledStore f) (fulledInst f) (w * (fulledBytes f) + e.1)) e.2 else t) s
  let s := s.fullWord f w
  if w + 1 < (fulledWords f) then done (s.setLap (fulledLap f) { s.lap (fulledLap f) with word := w + 1 }) else done (s.endLap f)

end Sys2Proof.Machine
end

