-- ==== Sys2Proof/Machine/Microcode.lean ====
section
/-! DEFINITION. The meanings of microcode sequencing and of the control stores (R124–R149), but for the write of
BANK_SELECT. -/

namespace Sys2Proof.Machine

/-! ### Sequencing (R129–R136) -/

/-- MW_JUMP: the word issues and continues at NEXT_ADDR. -/
def execMwJump (cc : Fin 128) (ext : Nat) (s : State) : Host.Outcome State Fault Refusal :=
  done (s.issueWord cc 0 0 fun t w =>
    let t := t.issue cc w ext
    (t.setCell cc ((t.cell cc).countDown (bits (mwSeqOp w) 0 3))).goto cc (mwNext w))

/-- A condition of a branch, with its inversion. -/
def State.branchBit (s : State) (cc ext w c : Nat) : Nat := b2n (s.condition cc ext c != (mwSeqOp w).testBit 0)

/-- A branch: its bits are sampled before the word's own effects, and its counter is decremented after them. -/
def State.branch (s : State) (cc w ext or_ : Nat) : State :=
  let t := s.issue cc w ext
  (t.setCell cc ((t.cell cc).countDown (bits (mwSeqOp w) 1 2))).goto cc (mwNext w ||| or_)

/-- MW_BR2. -/
def execMwBr2 (cc : Fin 128) (ext : Nat) (s : State) : Host.Outcome State Fault Refusal :=
  done (s.issueWord cc 1 0 fun t w => t.branch cc w ext (t.branchBit cc ext w (mwCond w)))

/-- MW_BR4. -/
def execMwBr4 (cc : Fin 128) (ext : Nat) (s : State) : Host.Outcome State Fault Refusal :=
  done (s.issueWord cc 2 0 fun t w =>
    t.branch cc w ext (2 * t.branchBit cc ext w (mwCond w + 1) + t.branchBit cc ext w (mwCond w)))

/-- Depth of the return stack (R128). -/
def stackDepth : Nat := 8

/-- MW_CALL (R133): a full stack traps, and the word issues nothing. -/
def execMwCall (cc : Fin 128) (ext : Nat) (s : State) : Host.Outcome State Fault Refusal :=
  done (s.issueWord cc 3 0 fun t w =>
    if stackDepth ≤ (t.cell cc).stack.length then t.trap cc 0x05
    else
      let t := t.issue cc w ext
      (t.setCell cc { t.cell cc with stack := mwNext w :: (t.cell cc).stack }).goto cc
        (bits ((t.bank (t.cellBank cc)).entry (mwCond w)) 0 12))

/-- MW_RETURN (R133): an empty stack traps. -/
def execMwReturn (cc : Fin 128) (ext : Nat) (s : State) : Host.Outcome State Fault Refusal :=
  done (s.issueWord cc 4 0 fun t w =>
    match (t.cell cc).stack with
    | [] => t.trap cc 0x05
    | a :: rest =>
      let t := t.issue cc w ext
      (t.setCell cc { t.cell cc with stack := rest }).goto cc a)

/-- MW_WAIT (R132): the word repeats, issuing nothing, until its condition is 1. -/
def execMwWait (cc : Fin 128) (ext : Nat) (s : State) : Host.Outcome State Fault Refusal :=
  done (s.issueWord cc 5 0 fun t w =>
    if t.condition cc ext (mwCond w) then t.goto cc (mwNext w)
    else t.setCell cc { t.cell cc with waited := max 1 (t.cell cc).waited })

/-- Crown cycles after which a WAIT of limit code m, 1 to 7, acts as TRAP (R129). -/
def waitLimit (m : Nat) : Nat := 2 ^ (4 + 2 * m)

/-- WAIT_LIMIT_EXPIRY: a WAIT that has repeated for its limit traps, unless its condition is 1 (R35, R132); m = 0 has no limit.
[DESIGN CHOICE, unsafe: log entry 35.] -/
def execWaitLimitExpiry (e : WaitEnd) (s : State) : Host.Outcome State Fault Refusal :=
  let cc := e.cell
  let ext := e.ext
  done (s.issueWord cc 5 0 fun t w =>
    let m := bits (mwSeqOp w) 0 3
    if t.condition cc ext (mwCond w) then t.goto cc (mwNext w)
    else if m = 0 ∨ (t.cell cc).waited < waitLimit m then t
    else t.trap cc 0x04)

/-- MW_ROW_END: the word issues and ends the row; the cell stands at its end until the end-of-row message (R136). -/
def execMwRowEnd (cc : Fin 128) (ext : Nat) (s : State) : Host.Outcome State Fault Refusal :=
  done (s.issueWord cc 0 1 fun t w =>
    let t := t.issue cc w ext
    match (t.cell cc).row with
    | some r => t.setCell cc { t.cell cc with row := some { r with ended := true } }
    | none => t)

/-- MW_TRAP: a word with STOP TRAP issues nothing and reports the trap. -/
def execMwTrap (cc : Fin 128) (s : State) : Host.Outcome State Fault Refusal :=
  done (if s.mayIssue cc then
    match s.fetch cc with
    | (t, none) => t
    | (t, some w) => if mwStop w = 2 then t.trap cc 0x03 else s
  else s)

/-! ### Control stores (R126, R144–R148) -/

/-- CONTROL_STORE_WORD_RESTORE (R126): every byte of the word is written again, and the fence lifts. -/
def execControlStoreWordRestore (cw : Fin 16) (bank : Fin 2) (addr : Nat) (s : State) : Host.Outcome State Fault Refusal :=
  let i := 2 * cw.val + bank.val
  let b := s.bank i
  done (match s.shelfCopy b.imageId b.version with
    | none => s
    | some h =>
      if addr ∈ b.fenced then
        let t := s.setBank i { b with fenced := b.fenced.filter (· ≠ addr), words := tput b.words trapWord addr (leNat (s.hbmBytes (s.shelfAddr h.slot addr) 18)) }
        (t.wroteRange 2 cw (bank * 73728 + addr * 18) 18).bump Od.cs_RESTORED_WORDS
      else s)

/-- Argument block of MICROCODE_LOAD (R68). -/
def microcodeLoadArgs (cwMask bank source addr length : Nat) : List Byte :=
  leBytes 2 cwMask ++ leBytes 1 bank ++ leBytes 1 source ++ leBytes 8 addr ++ leBytes 4 length

/-- A bank may take a load (R144, step 2). -/
def State.bankFree (s : State) (cw bank : Nat) : Bool :=
  let st := (s.bank (2 * cw + bank)).state
  let sel := s.getShadow Od.cs_BANK_SELECT
  decide (st ≠ 3 ∧ st ≠ 4) &&
    (decide (sel.testBit cw = (s.get Od.cs_BANK_SELECT).testBit cw) || decide (b2n (sel.testBit cw) ≠ bank))

/-- MICROCODE_LOAD (R144): the banks stay LOADING, and hold the image, until the command completes. -/
def execMicrocodeLoad (cwMask bank source addr length : Nat) (s : State) : Host.Outcome State Fault Refusal :=
  done (s.runCommand 0x30 (microcodeLoadArgs cwMask bank source addr length) fun s =>
    if cwMask % 2 ^ 16 = 0 ∨ 1 < bank ∨ 1 < source ∨ length < 492 ∨ 74220 < length then answer s Result.outOfRange
    else
      let cws := bitList cwMask 16
      if ¬ cws.all fun cw => s.bankFree cw bank then answer s Result.inUse
      else if s.flashBusy source then (s, none)
      else match s.copySource source addr length with
        | (t, .inl r) => answer t r
        | (t, .inr bs) =>
          match t.bundleTest bs 1 (t.get Od.cs_MICROCODE_ROLLBACK) with
          | some r => answer t r
          | none =>
            let b := Bundle.ofBytes bs
            let t := cws.foldl (fun t cw => t.loadBank (2 * cw + bank) b 1) t
            let t := t.tidyShelf.shelve b.imageId b.version (wordTab b.wordList)
            let t := if b.flags.testBit 0 then t.advanceCounter 0 b.rollback else t
            answer t Result.ok (leBytes 4 b.version))

/-- Argument block of PATCH_LOAD (R68). -/
def patchLoadArgs (source addr length : Nat) : List Byte :=
  leBytes 1 source ++ [0#8] ++ leBytes 8 addr ++ leBytes 4 length

/-- PATCH_LOAD (R147). -/
def execPatchLoad (source addr length : Nat) (s : State) : Host.Outcome State Fault Refusal :=
  done (s.runCommand 0x31 (patchLoadArgs source addr length) fun s =>
    if 1 < source ∨ length < 508 ∨ 66028 < length then answer s Result.outOfRange
    else if s.flashBusy source then (s, none)
    else match s.copySource source addr length with
      | (t, .inl r) => answer t r
      | (t, .inr bs) =>
        match t.bundleTest bs 2 (t.get Od.img_PATCH_ROLLBACK) with
        | some r => answer t r
        | none =>
          let b := Bundle.ofBytes bs
          match t.takePatch b with
          | (u, none) => answer u Result.noSlot
          | (u, some k) => answer (if b.flags.testBit 0 then u.advanceCounter 1 b.rollback else u) Result.ok (leBytes 2 k))

end Sys2Proof.Machine
end

