-- ==== Sys2Proof/Machine/ResetOps.lean ====
section
/-! DEFINITION. Resets (R39, R507–R509) and the start-up sequence with the boot chain (R474–R481, R510). -/

namespace Sys2Proof.Machine

/-! ### What resets keep (R39, R507) -/

/-- An object whose value comes from OTP, fuses, the flash or the boot pins. -/
def fusedRow (index sub : Nat) : Bool :=
  index == 0x1018 || (index == 0x1F10 && (sub == 1 || sub == 2 || sub == 5 || sub == 7)) || (index == 0x4100 && sub == 4) ||
    (index == 0x5180 && sub == 0x0B) || (index == 0x9000 && (sub == 3 || sub == 4 || sub == 5 || sub == 0x14)) ||
    (index == 0x2000 && sub == 1)

/-- An object that a warm reset keeps. [DESIGN CHOICE, unsafe: log entry 56.] -/
def warmRow (index sub : Nat) : Bool :=
  fusedRow index sub || (0x8000 ≤ index && index ≤ 0x840F) || (index == 0x2000 && (sub == 2 || sub == 3 || sub == 9))

/-- Pending repairs are in effect, and stored ones stay (R300). -/
def MemState.fusesAfter (m : MemState) : List FuseEntry := m.fuses.map fun e => if e.state = 2 then { e with state := 1 } else e

/-- The island after a reset: what OTP, fuses and flash hold, and the state of the draws. -/
def SecState.afterReset (x : SecState) : SecState :=
  { flash := x.flash, sfdpValid := x.sfdpValid, debugSealFuse := x.debugSealFuse, efuse := x.efuse, draws := x.draws }

/-- The engine in a warm reset (R39, R507, R508), by a cause of RESET_CAUSE: 1 WRST_N, 2 WARM_RESET, 3 rail, 4 PLL. An accepted
debug token takes effect (R488). [DESIGN CHOICE, unsafe: log entry 11.] [DESIGN CHOICE, unsafe: log entry 62.] -/
def State.warmReset (s : State) (cause : Nat) : State :=
  let debug := s.get Od.sec_DEBUG_STATE
  let t : State :=
    { pending := s.pending, cycle := s.cycle
      od := s.od.filter fun (e : Nat × Nat) => warmRow (e.1 / 256) (e.1 % 256)
      shadow := s.shadow.filter fun (e : Nat × Nat) => 0x8000 ≤ e.1 / 256 && e.1 / 256 ≤ 0x840F
      mem := { fuses := s.mem.fusesAfter }
      host := { sources := s.host.sources.map fun (e : Nat × IrqSource) => (e.1, ({ raised := e.2.raised } : IrqSource)) }
      faults := { held := s.faults.held, log := s.faults.log, seq := s.faults.seq, released := s.faults.released }
      sec := s.sec.afterReset
      power := { porst := s.power.porst, step := 1, resetAt := s.cycle, railEvents := s.power.railEvents, crownTrim := s.power.crownTrim }
      lastStatus := s.lastStatus, freeUsed := s.freeUsed, out := s.out }
  let t := t.set Od.sec_DEBUG_STATE 0 (if debug = 1 then 2 else debug)
  (t.set Od.sys_RESET_CAUSE 0 cause).bump Od.sys_WARM_RESETS

/-- The engine with PORST_N low (R39, R456, R507). [DESIGN CHOICE, unsafe: log entry 11.] -/
def State.powerReset (s : State) : State :=
  let t : State :=
    { pending := s.pending
      od := s.od.filter fun (e : Nat × Nat) => fusedRow (e.1 / 256) (e.1 % 256) && e.1 / 256 != 0x2000
      mem := { fuses := s.mem.fusesAfter }
      sec := s.sec.afterReset
      power := { porst := false, crownTrim := s.power.crownTrim }
      lastStatus := s.lastStatus, freeUsed := s.freeUsed, out := s.out }
  if s.sec.debugSealFuse then t.set Od.sec_DEBUG_STATE 0 3 else t

/-- PORST_N rises: the boot pins are sampled and start-up begins (R509, R510). -/
def State.powerOn (s : State) (bootPins : Nat) : State :=
  let t := { s with power := { s.power with porst := true, step := 1, resetAt := s.cycle } }
  t.set Od.sys_BOOT_MODE 0 (min bootPins 2)

/-! ### Boot (R474–R481) -/

/-- An entry of a boot directory: KIND, OFFSET, LENGTH. -/
structure DirEntry where
  kind   : Nat
  offset : Nat
  length : Nat
  deriving DecidableEq, Repr

/-- Entries of a slot's 256 bytes. -/
def dirEntries (bs : List Byte) : List DirEntry :=
  (List.range (leAt bs 8 1)).map fun k => ⟨leAt bs (16 + 16 * k) 1, leAt bs (20 + 16 * k) 4, leAt bs (24 + 16 * k) 4⟩

/-- GENERATION and entries of a valid slot (R475). [DESIGN CHOICE, unsafe: log entry 61.] -/
def State.directory (s : State) (slot : Nat) : Option (Nat × List DirEntry) :=
  let bs := s.flashBytes (slot * 0x10000) 256
  let es := dirEntries bs
  let one : Nat → Bool := fun k => decide ((es.filter fun e => e.kind = k).length ≤ 1)
  if s.sec.sfdpValid && decide (bs.take 4 = [0x42#8, 0x56#8, 0x44#8, 0x52#8]) && decide (crc32c (bs.take 12 ++ bs.drop 16) = leAt bs 12 4) &&
      decide (1 ≤ leAt bs 8 1 ∧ leAt bs 8 1 ≤ 15) && one 1 && one 3 &&
      es.all fun e => decide (e.offset + e.length ≤ s.get Od.sec_FLASH_SIZE)
  then some (leAt bs 4 4, es) else none

/-- The slot that the boot takes first, and the other when it is valid too (R475). [DESIGN CHOICE, unsafe: log entry 61.] -/
def State.bootSlots (s : State) : Option ((Nat × List DirEntry) × Option (Nat × List DirEntry)) :=
  match s.directory 0, s.directory 1 with
  | none, none => none
  | some a, none => some ((0, a.2), none)
  | none, some b => some ((1, b.2), none)
  | some a, some b => if b.1 ≤ a.1 then some ((0, a.2), some (1, b.2)) else some ((1, b.2), some (0, a.2))

/-- A bundle processed is recorded (R492). -/
def State.noteBundle (s : State) (slot entry kind : Nat) (b : Bundle) (result : Nat) : State :=
  { s with sec := { s.sec with bootLog := s.sec.bootLog ++ [(⟨slot, entry, kind, b.imageId, b.version, result, 0xFFFF⟩ : BootRecord)] } }

/-- A verified bundle asks for an advance, made at step 6 (R477). -/
def State.askAdvance (s : State) (which : Nat) (b : Bundle) : State :=
  if b.flags.testBit 0 then { s with sec := { s.sec with advances := s.sec.advances ++ [(which, b.rollback)] } } else s

/-- Boot step 3 for one entry: a patch bundle into a slot, or it is skipped. -/
def State.bootPatch (s : State) (slot k : Nat) (e : DirEntry) (quiet : Bool) : State :=
  let bs := s.flashBytes e.offset e.length
  let b := Bundle.ofBytes bs
  match s.bundleTest bs 2 (s.get Od.img_PATCH_ROLLBACK) with
  | some r => if quiet then s else s.noteBundle slot k 2 b r
  | none => match s.takePatch b with
    | (t, some _) => (t.askAdvance 1 b).noteBundle slot k 2 b Result.ok
    | (t, none) => if quiet then t else t.noteBundle slot k 2 b Result.noSlot

/-- Boot step 4: the microcode bundle into BANK_0 of every crown; whether it failed. -/
def State.bootMicrocode (s : State) (slot k : Nat) (e : DirEntry) (quiet : Bool) : State × Bool :=
  let bs := s.flashBytes e.offset e.length
  let b := Bundle.ofBytes bs
  match s.bundleTest bs 1 (s.get Od.cs_MICROCODE_ROLLBACK) with
  | some r => (if quiet then s else s.noteBundle slot k 1 b r, true)
  | none => ((((List.range 16).foldl (fun t cw => t.loadBank (2 * cw) b 3) s).askAdvance 0 b).noteBundle slot k 1 b Result.ok, false)

/-- Root key hash of a configuration set: the owner's; the set's own key where the hash is unprogrammed and VDD_EFUSE is
present (R478, R481); none where no set is accepted. -/
def State.ownerHash (s : State) (b : Bundle) : Option Nat :=
  if s.get Od.sec_OWNER_KEY_HASH ≠ 0 then some (s.get Od.sec_OWNER_KEY_HASH)
  else if s.sec.efuse then some (leNat (Config.sha512 b.root)) else none

/-- Verification of the configuration set (R478, R479, R481): its records wait for boot step 5; whether it failed. -/
def State.bootConfig (s : State) (slot k : Nat) (e : DirEntry) (quiet : Bool) : State × Bool :=
  let bs := s.flashBytes e.offset e.length
  let b := Bundle.ofBytes bs
  match s.ownerHash b with
  | none => (if quiet then s else s.noteBundle slot k 3 b Result.signatureBad, true)
  | some h =>
    let signed := bundleLayout bs 3 && signatureOk b h
    let s := if signed then s.set Od.img_CONFIG_VERSION 0 b.version else s
    match bundleFails bs 3 h (s.get Od.img_CONFIG_ROLLBACK) with
    | some r => (if quiet then s else s.noteBundle slot k 3 b r, true)
    | none =>
      let s := s.set Od.sec_OWNER_KEY_HASH 0 h
      let s := { s with sec := { s.sec with records := configRecords b.payload.length b.payload, recordNo := 0 } }
      ((s.askAdvance 2 b).noteBundle slot k 3 b Result.ok, false)

/-- Entries of a directory with their numbers, of one KIND. -/
def entriesOf (kind : Nat) (es : List DirEntry) : List (Nat × DirEntry) :=
  ((List.range es.length).zip es).filter fun x => x.2.kind = kind

/-- Boot steps 3 to 5 on a directory, up to the first of steps 4 and 5 that fails; with `quiet` the bundles that fail are
skipped. RECOVERY runs step 5 alone (R509). -/
def State.bootDir (s : State) (recovery quiet : Bool) (d : Nat × List DirEntry) : State × Bool :=
  let s := if recovery then s else (entriesOf 2 d.2).foldl (fun t x => t.bootPatch d.1 x.1 x.2 quiet) s
  let q : State × Bool := match recovery, (entriesOf 1 d.2).head? with
    | false, some x => s.bootMicrocode d.1 x.1 x.2 quiet
    | _, _ => (s, false)
  if q.2 ∧ ¬ quiet then q
  else match (entriesOf 3 d.2).head? with
    | some x => q.1.bootConfig d.1 x.1 x.2 quiet
    | none => (q.1, false)

/-- Everything that a failed run of a directory has filled is emptied again (R477). -/
def State.unboot (s : State) : State :=
  { s with code := {}, sec := { s.sec with advances := [], records := [], recordNo := 0 } }

/-- The directory finally used, and the extents of its bundles (R477, R489). -/
def State.useDir (s : State) (recovery : Bool) (d : Nat × List DirEntry) : State :=
  if recovery then s
  else ({ s with sec := { s.sec with protectedExtents := d.2.map fun (e : DirEntry) => (e.offset, e.length) } }).set Od.sec_ACTIVE_DIR 0 d.1

/-- The boot over both directories (R475–R477). [DESIGN CHOICE, unsafe: log entry 61.] -/
def State.bootAll (s : State) (recovery : Bool) : State :=
  match s.bootSlots with
  | none => s
  | some (a, other) =>
    let first := s.bootDir recovery false a
    if ¬ first.2 then first.1.useDir recovery a
    else match other with
      | some b =>
        let second := first.1.unboot.bootDir recovery false b
        if ¬ second.2 then second.1.useDir recovery b
        else ((second.1.unboot.bootDir recovery true a).1).useDir recovery a
      | none => ((first.1.unboot.bootDir recovery true a).1).useDir recovery a

/-- Some bank holds an image that pictures may start on. -/
def State.hasImages (s : State) : Bool := s.code.banks.any fun b => b.2.state == 3

/-! ### Start-up (R510) -/

/-- RECOVERY mode, in which boot pins 0b11 are read as well (R509). -/
def State.recovery (s : State) : Bool := decide (2 ≤ s.get Od.sys_BOOT_MODE)

/-- Step 1 ends: island SRAM repaired and written; self-tests; the values drawn at every start-up (R300, R378, R471, R488). -/
def State.endTests (s : State) (failed : Option Nat) : State :=
  let s := (s.repairsApply fun store _ => decide (store = 6)).initStore 6 0
  let s := match failed with
    | some cause => { s with sec := { s.sec with failed := true } }.reportInfo Unit.island 0x70 (cause % 256)
    | none => s
  let s := (s.set Od.tab_HASH_SEED 0 (leNat (s.drawBytes 4))).useDraws 4
  s.drawChallenge

/-- Step 3 ends: every on-chip store has been written, and the collector is released (R296, R456). -/
def State.endInit (s : State) : State :=
  { s with mem := { s.mem with sram := [], sramWriteBacks := [] }, faults := { s.faults with released := true } }

/-- Training of a pseudo-channel completes: its intervals count from here, and the row repairs of the fuse bank are applied
again (R290, R303). -/
def State.trained (s : State) (p : Nat) : State :=
  s.setPc p { s.pc p with
    lastAt := s.cycle
    pprUsed := (s.mem.fuses.filter fun (e : FuseEntry) => decide (e.target = 1 ∧ pcOf e.addr = p)).length }

/-- Step 4 ends: HBM3 is trained, or fails (R288, R292). -/
def State.endTraining (s : State) (untrained : List Nat) : State :=
  let s := untrained.foldl (fun t p => (t.setPc p { t.pc p with state := 2, fails := 3 }).report (Unit.hbmHalf (p / 16)) 0x16 0 0xFF p) s
  let s := { s with mem := { s.mem with trainingFailed := decide (untrained ≠ []) } }
  ((List.range 64).foldl (fun t p => t.trained p) s).seedLfsrs

/-- Step 5 ends: the boot's bundles are processed; without a valid image every cell is out of service (R142, R471). The
configuration set's records begin (R480). -/
def State.endBundles (s : State) : State :=
  let s := if s.sec.failed then s else s.bootAll s.recovery
  let s := if s.hasImages then s else s.cellsOut
  s.applyRecords s.sec.records.length

/-- Step 6 ends: region 0, the test of PICTURE_REGION, shelf copies (R145, R279, R280). -/
def State.endConfig (s : State) : State := s.createRegion0.testPicture.shelveAll

/-- Powers the quads of QUAD_BOOT_MASK and begins the bring-up of their ports (R332, R510). -/
def State.powerQuads (s : State) : State :=
  (bitList (s.get Od.sys_QUAD_BOOT_MASK) 32).foldl (fun t q =>
    let t := { t with lanes := { t.lanes with quadOn := tput t.lanes.quadOn false q true } }
    let t := t.initStore 8 q
    (((List.range 4).map fun k => 4 * q + k).filter fun p => ¬ t.isMember p).foldl (fun u p => u.startBringUp p) t) s

/-- Step 7 ends: quads, counter advances, and the dictionary is live (R308, R368, R477). -/
def State.goLive (s : State) : State :=
  let s := s.powerQuads
  let s := s.sec.advances.foldl (fun t a => t.advanceCounter a.1 a.2) s
  let s := { s with sec := { s.sec with advances := [] } }
  let s := ({ s with live := true }).resetMailbox
  let s : State := if s.poolOn 0 && s.get Od.pool_BASE 0 == 0 then s.enablePool0 else s
  let s := s.balanceSpares
  if s.flag Od.card_CARD_AUTO then s.startEpoch else s

/-- The effect of the end of a start-up step. -/
def State.stepEnds (s : State) (m : StartMeet) : State :=
  match s.power.step with
  | 1 => s.endTests m.selfTest
  | 2 => s.repairsApply fun _ _ => true
  | 3 => s.endInit
  | 4 => s.endTraining (m.untrained.map Fin.val)
  | 5 => s.endBundles
  | 6 => s.endConfig
  | 7 => s.goLive
  | _ => s

/-- The step that runs can end: the engine is out of reset, and the records of step 6 have all been applied.
[DESIGN CHOICE, unsafe: log entry 61.] -/
def State.stepMayEnd (s : State) : Bool :=
  s.power.porst && !s.power.held && decide (s.power.step ≤ 9) && (decide (s.power.step ≠ 6) || decide (s.sec.records = []))

end Sys2Proof.Machine
end

