-- ==== Sys2Proof/Machine/Power.lean ====
section
/-! DEFINITION. The meanings of power, resets, start-up and temperatures (R493–R511). -/

namespace Sys2Proof.Machine

/-! ### Resets (R494, R496, R508, R509, R528) -/

/-- PORST_N (R507, R509): the pin falls or rises. -/
def execPorstN (high : Bool) (bootPins : Fin 4) (s : State) : Host.Outcome State Fault Refusal :=
  match s.power.porst, high with
  | true, false => .next s.powerReset
  | false, true => .next (s.powerOn bootPins)
  | _, _ => .next s

/-- WRST_N rises after having been low for `lowNs` ns (R508, R528): a pulse below 500 ns is ignored, and one from there to
1 µs may be. [DESIGN CHOICE, unsafe: log entry 62.] -/
def execWrstN (lowNs : Nat) (s : State) : Host.Outcome State Fault Refusal :=
  if ¬ s.power.porst ∨ lowNs < 500 then .next s
  else if lowNs < 1000 then
    if s.freeValue % 2 = 0 then .next s.useFree else .next (s.useFree.warmReset 1)
  else .next (s.warmReset 1)

/-- WARM_RESET (R68): WRST_N takes effect 1 ms after the response leaves. -/
def execWarmReset (s : State) : Host.Outcome State Fault Refusal :=
  done (s.runCommand 0x70 [] fun s => answer { s with power := { s.power with warmDelay := true, warmAt := s.cycle } } Result.ok)

/-- WARM_RESET_DELAY_EXPIRY: 1 ms after the command (R68, R508). -/
def execWarmResetDelayExpiry (s : State) : Host.Outcome State Fault Refusal :=
  if s.power.warmDelay && decide (s.power.warmAt + msCycles 1 ≤ s.cycle) then .next (s.warmReset 2) else .next s

/-- A warm reset by the monitor network, in which the engine is held (R496). -/
def State.monitorReset (s : State) (cause : Nat) : State :=
  let t := s.warmReset cause
  { t with power := { t.power with held := true, railsOut := s.power.railsOut } }

/-- RAIL_EXCURSION (R496): `rail` is the row of the rail table; VDD_AON (0) and VDD_EFUSE (12) are not watched.
[DESIGN CHOICE, unsafe: log entry 62.] -/
def execRailExcursion (rail : Fin 13) (s : State) : Host.Outcome State Fault Refusal :=
  if ¬ s.power.porst ∨ rail.val = 0 ∨ rail.val = 12 then .next s
  else
    let events := (s.power.railEvents ++ [(rail.val, s.uptimeNs)])
    let s := { s with power := { s.power with
      railEvents := events.drop (events.length - 16)
      railsOut := if rail.val ∈ s.power.railsOut then s.power.railsOut else s.power.railsOut ++ [rail.val] } }
    .next (s.monitorReset 3)

/-- PLL_LOCK_LOSS (R496, R511): 0 core, 1 crown synthesiser, 2 island, 3 HBM3 PHY; the island watches its own.
[DESIGN CHOICE, unsafe: log entry 62.] -/
def execPllLockLoss (pll : Fin 4) (s : State) : Host.Outcome State Fault Refusal :=
  if ¬ s.power.porst then .next s
  else
    let status := clearBit (s.get Od.sys_PLL_STATUS) pll
    if pll.val = 2 then done (s.set Od.sys_PLL_STATUS 0 status)
    else .next ((s.monitorReset 4).set Od.sys_PLL_STATUS 0 status)

/-- RAILS_BACK_WITHIN_TOLERANCE (R496): the reset ends, and start-up begins. -/
def execRailsBackWithinTolerance (s : State) : Host.Outcome State Fault Refusal :=
  if s.power.held then
    .next ({ s with power := { s.power with held := false, railsOut := [], resetAt := s.cycle } }.set Od.sys_PLL_STATUS 0 15)
  else .next s

/-- START_UP_STEP (R510): the step that runs ends, and the next begins. -/
def execStartUpStep (meet : StartMeet) (s : State) : Host.Outcome State Fault Refusal :=
  if s.stepMayEnd then
    let t := s.stepEnds meet
    done { t with power := { t.power with
      step := s.power.step + 1, startTimes := s.power.startTimes ++ [(s.cycle - s.power.resetAt) / 1200] } }
  else done s

/-! ### Voltages and halves (R495, R498) -/

/-- AVS_READBACK_TIMEOUT, 200 µs after a write of the target (R495): with a read-back within 10 mV the steps that wait go on;
else the target is written again. [DESIGN CHOICE, unsafe: log entry 64.] -/
def execAvsReadbackTimeout (readMv : Nat) (s : State) : Host.Outcome State Fault Refusal :=
  if s.power.avsPending && decide (s.power.avsAt + usCycles 200 ≤ s.cycle) then
    let target := s.get Od.sys_VDD_CORE_TARGET
    let s := s.set Od.sys_VDD_CORE_NOW 0 readMv
    if target ≤ readMv + 10 ∧ readMv ≤ target + 10 then done { s with power := { s.power with avsPending := false } }
    else done ({ s with power := { s.power with avsAt := s.cycle } }.bump Od.sys_AVS_RETRIES)
  else done s

/-- CONDITIONER_HALF_POWER_UP_DONE (R296, R498). -/
def execConditionerHalfPowerUpDone (half : Fin 2) (s : State) : Host.Outcome State Fault Refusal :=
  if s.half half = 2 then
    let s := (List.range 4).foldl (fun t k => t.initStore 5 (4 * half + k)) s
    done ((s.setHalf half 1).refreshConditioners)
  else done s

/-- CONDITIONER_HALF_IDLE_EXPIRY: the half has held no pass for DOWN_HOLD seconds (R498). -/
def execConditionerHalfIdleExpiry (half : Fin 2) (s : State) : Host.Outcome State Fault Refusal :=
  if s.half half = 1 ∧ ¬ s.halfUsed half ∧ s.heldLow (tget s.power.halfIdle none half) then
    done ((s.setHalf half 0).refreshConditioners)
  else done s

/-! ### Temperatures (R504–R506) -/

/-- Hottest sensed domain of some readings, the lowest-numbered of equals, with its reading. -/
def hottest (temps : List Int) : Option (Nat × Int) :=
  ((List.range temps.length).filter sensed).foldl (fun (best : Option (Nat × Int)) d =>
    let t := temps.getD d 0
    match best with
    | none => some (d, t)
    | some b => if b.2 < t then some (d, t) else some b) none

/-- TJ and the temperatures of the crowns. -/
def State.showTemps (s : State) (d : Nat) (t : Int) : State :=
  let s := (s.setInt Od.th_TJ 0 t).set Od.th_TJ_DOMAIN 0 d
  (List.range 16).foldl (fun u cw => u.setInt Od.crown_TEMP cw (u.domainTemp cw)) s

/-- The TJ_HIGH report, and its re-arming (R505). -/
def State.checkHigh (s : State) (t : Int) : State :=
  let limit : Int := (s.get Od.th_TJ_HIGH * 10 : Nat)
  if limit < t ∧ ¬ s.power.highReported then
    (({ s with power := { s.power with highReported := true } }).bump Od.th_TJ_HIGH_EVENTS).reportInfo Unit.thermal 0x51 (ofInt 16 t)
  else if t ≤ limit - 20 then { s with power := { s.power with highReported := false } }
  else s

/-- Power leaves the crowns and the conditioner halves, and VDD_CORE goes to 0.70 V (R505). -/
def State.cutPower (s : State) : State :=
  let s := (List.range 16).foldl (fun t cw =>
    ((t.set Od.crown_POWER_STATE cw 0).setCrown cw { t.crown cw with step := none, downDue := false }).mapCells cw fun x =>
      { byWrite := x.byWrite, reruns := x.reruns }) s
  let s := (List.range 16).foldl (fun t cw => t.restCells cw) s
  let s := ((s.setHalf 0 0).setHalf 1 0).refreshConditioners
  (s.set Od.sys_VDD_CORE_TARGET 0 700).readBack

/-- The TJ_TRIP report: two readings in succession at or above it (R505). [DESIGN CHOICE, unsafe: log entry 62.] -/
def State.checkTrip (s : State) (t : Int) : State :=
  let n := if (s.get Od.th_TJ_TRIP * 10 : Nat) ≤ t then s.power.tripRun + 1 else 0
  let s := { s with power := { s.power with tripRun := n } }
  if n = 2 ∧ ¬ s.power.tripped then
    (({ s with power := { s.power with tripped := true } }).reportInfo Unit.thermal 0x52 (ofInt 16 t)).cutPower
  else s

/-- The gradient report of a pair: two readings in succession with 30 °C or more; re-armed below 25 °C (R506). -/
def State.checkPair (s : State) (before : List (Nat × Nat)) (p : Nat × Nat) : State :=
  let diff := s.pairDiff p
  if 300 ≤ diff then
    let s := { s with power := { s.power with gradientRun := s.power.gradientRun ++ [p] } }
    if p ∈ before ∧ p ∉ s.power.gradientReported then
      (({ s with power := { s.power with gradientReported := s.power.gradientReported ++ [p] } }).bump Od.th_GRADIENT_EVENTS).reportInfo
        Unit.thermal 0x50 (min p.1 p.2 + max p.1 p.2 * 2 ^ 16)
    else s
  else if diff < 250 then
    { s with power := { s.power with gradientReported := s.power.gradientReported.filter fun (q : Nat × Nat) => q ≠ p } }
  else s

/-- Every pair of NEIGHBOUR_MAP, and GRADIENT_MAX. -/
def State.checkPairs (s : State) : State :=
  let before := s.power.gradientRun
  let s := { s with power := { s.power with gradientRun := [] } }
  let s := sensedPairs.foldl (fun t p => t.checkPair before p) s
  s.set Od.th_GRADIENT_MAX 0 (max (s.get Od.th_GRADIENT_MAX) s.gradientNow)

/-- THERMAL_READING (R504–R506): `temps` are the readings by domain in 0.1 °C. -/
def execThermalReading (temps : List Int) (s : State) : Host.Outcome State Fault Refusal :=
  match hottest temps with
  | none => done s
  | some (d, t) =>
    let s := { s with power := { s.power with temps := temps } }
    done ((((s.showTemps d t).checkHigh t).checkTrip t).checkPairs)

end Sys2Proof.Machine
end

