-- ==== Sys2Proof/Machine/Raster.lean ====
section
/-! DEFINITION. The meanings of raster time: frame and line events, references, jumps, swap points (R8–R36). -/

namespace Sys2Proof.Machine

/-! ### Frames and lines (R21, R25) -/

/-- A domain at the start of a frame: its position, unless it stands there already. -/
def State.enterFrame (s : State) (rd : Nat) : State :=
  let d := s.dom rd
  s.setDom rd { d with pos := if d.landed then d.pos else nextFrame d.pos, landed := false }

/-- FRAME a follows FRAME b, modulo 2^40. -/
def frameAfter (a b : Nat) : Bool := decide (0 < signedMod (2 ^ 40) ((a : Int) - b))

/-- An event of FRAME a has not occurred yet: `last` is the FRAME of its last occurrence (R22). -/
def notYet (last : Option Nat) (a : Nat) : Bool := match last with
  | none => true
  | some b => frameAfter a b

/-- Streams bound to a domain. -/
def State.streamsOn (s : State) (rd : Nat) : List Nat :=
  (List.range 512).filter fun sid => s.streamState sid ≠ 0 ∧ s.get Od.st_DOMAIN sid = rd

/-- The frame-start event of the present frame: its interrupt source, what each stream of the domain does at it, and the
notifications of RD_0's (R25, R61). -/
def State.frameEvent (s : State) (rd : Nat) : State :=
  let f := (s.now rd).frame
  let s := (s.setDom rd { s.dom rd with startedTo := some f }).raise (225 + 2 * rd)
  let s := (s.streamsOn rd).foldl (fun t sid => t.streamFrame sid f) s
  if rd = 0 then s.notifyAll Subscription.frameStart else s

/-- FRAME_START (R25): a frame that a jump repeats raises its event no second time (R22).
[DEDUCED, unsafe: log entry 26.] -/
def execFrameStart (rd : Fin 8) (s : State) : Host.Outcome State Fault Refusal :=
  if s.enabled rd then
    let s := s.enterFrame rd
    done (if notYet (s.dom rd).startedTo (s.now rd).frame then s.frameEvent rd else s)
  else done s

/-- The line-match event of a frame (R25). -/
def State.lineEvent (s : State) (rd frame : Nat) : State :=
  (s.setDom rd { s.dom rd with matchedTo := some frame }).raise (226 + 2 * rd)

/-- LINE_MATCH (R25), once for each frame (R22). [DEDUCED, unsafe: log entry 26.] -/
def execLineMatch (rd : Fin 8) (s : State) : Host.Outcome State Fault Refusal :=
  if s.enabled rd ∧ notYet (s.dom rd).matchedTo (s.now rd).frame then done (s.lineEvent rd (s.now rd).frame) else done s

/-- RASTER_EVENT_DUE (R26). -/
def execRasterEventDue (rd : Fin 8) (s : State) : Host.Outcome State Fault Refusal := done (s.eventDue rd)

/-! ### References (R17–R20) -/

/-- A domain takes edges of a polarity on a pin. -/
def State.seesEdge (s : State) (pin : Nat) (falling : Bool) (rd : Nat) : Bool :=
  s.locksTo rd 1 && decide (s.get Od.rd_SOURCE_SEL rd = pin ∧ s.get Od.rd_EDGE_POLARITY rd = b2n falling)

/-- REF_FRAME_EDGE (R20). -/
def execRefFrameEdge (pin : Fin 4) (falling : Bool) (s : State) : Host.Outcome State Fault Refusal :=
  done (s.eachDomain (fun t rd => t.seesEdge pin falling rd) State.takeEdge)

/-- EDGE_WINDOW_CLOSE (R20). -/
def execEdgeWindowClose (rd : Fin 8) (s : State) : Host.Outcome State Fault Refusal :=
  if s.locksTo rd 1 then
    let d := s.dom rd
    if d.edgeSeen then done (s.setDom rd { d with edgeSeen := false, misses := 0 })
    else
      let s := s.setDom rd { d with misses := d.misses + 1 }
      if s.get Od.rd_MISS_LIMIT rd ≤ d.misses + 1 then done (s.referenceLost rd) else done s
  else done s

/-- PTP_STATE changes; a domain locked to PTP loses its reference when it leaves slave (R20).
[DESIGN CHOICE, unsafe: log entry 27.] -/
def State.setPtpState (s : State) (st : Nat) : State :=
  let leaves := decide (s.get Od.ptp_PTP_STATE = 3 ∧ st ≠ 3)
  let s := if s.get Od.ptp_PTP_STATE = st then s else (s.set Od.ptp_PTP_STATE 0 st).raise 246
  if leaves then s.eachDomain (fun t rd => t.locksTo rd 2) State.referenceLost else s

/-- The PTP instance takes a message: it runs, on the port, in the PTP domain and with the delay mechanism that its objects
name; either transport and one-step and two-step masters are taken. A band carries no PTP (R18).
[DESIGN CHOICE, unsafe: log entry 27.] -/
def State.ptpTakes (s : State) (u : PtpUpdate) : Bool :=
  s.flag Od.ptp_PTP_ENABLE && decide (u.port = s.get Od.ptp_PTP_PORT ∧ u.domain = s.get Od.ptp_PTP_DOMAIN ∧
    u.mech = s.get Od.ptp_DELAY_MECH) && !(decide (u.port < 128) && s.isBand u.port)

/-- A domain measures a PTP time update: it locks to PTP, and a domain in HOLDOVER has its reference back only in slave
state (R20). [DESIGN CHOICE, unsafe: log entry 27.] -/
def State.ptpMeasures (s : State) (rd : Nat) : Bool :=
  s.locksTo rd 2 && decide (s.get Od.rd_LOCK_STATE rd ≠ 3 ∨ s.get Od.ptp_PTP_STATE = 3)

/-- PTP_MESSAGE (R17, R18, R20). [DESIGN CHOICE, unsafe: log entry 27.] -/
def execPtpMessage (u : PtpUpdate) (s : State) : Host.Outcome State Fault Refusal :=
  if s.ptpTakes u then
    let s := (s.setPtpState (u.state % 5)).setInt Od.ptp_MASTER_OFFSET 0 u.offsetNs
    let s := s.set Od.ptp_GM_IDENTITY 0 u.gm
    match u.timeNs with
    | none => done s
    | some t =>
      let s := { s with raster := { s.raster with ptpTime := some (s.cycle, t) } }
      done (s.eachDomain State.ptpMeasures fun x rd => x.measure rd (x.ptpError rd t))
  else done s

/-- PTP_STATE_LEAVES_SLAVE (R20). -/
def execPtpStateLeavesSlave (newState : Nat) (s : State) : Host.Outcome State Fault Refusal :=
  if s.flag Od.ptp_PTP_ENABLE ∧ s.get Od.ptp_PTP_STATE = 3 ∧ newState % 5 ≠ 3 then done (s.setPtpState (newState % 5))
  else done s

/-- HOLDOVER_TIMEOUT (R20): once HOLDOVER has lasted HOLDOVER_TIME, FALLBACK is tried as though it had been written to SOURCE: from the
domain's next swap point. [DEDUCED, unsafe: log entry 25.] -/
def execHoldoverTimeout (rd : Fin 8) (s : State) : Host.Outcome State Fault Refusal :=
  let fallback := s.get Od.rd_FALLBACK rd
  let passed := decide ((s.dom rd).holdoverAt + secCycles (s.get Od.rd_HOLDOVER_TIME rd) ≤ s.cycle)
  if s.enabled rd ∧ s.get Od.rd_LOCK_STATE rd = 3 ∧ fallback ≠ 0 ∧ passed then
    done (s.setDom rd { s.dom rd with nextSrc := some fallback })
  else done s

/-! ### Jumps (R21, R22, R406) -/

/-- What a jump may cut off (R22). -/
inductive CutEvent where
  | sched (e : Sched)
  | lineMatch
  | rowDeadline (sid rung pic row : Nat)
  | giveUp (sid layer pic row : Nat)
  | slot (p : Nat)
  | gateBoundary (p : Nat)
  | gateChange (p : Nat)
  deriving DecidableEq, Repr

/-- Line ticks from a domain's present to a raster time. -/
def State.ticksTo (s : State) (rd : Nat) (t : RTime) : Int := rdiff (s.lpf rd) t (s.now rd)

/-- Events of one instance each that fall before `limit` ticks: scheduled events, and the deadlines of LIVE rows that are
not complete (R82, R167, R222). -/
def State.cutOnce (s : State) (rd : Nat) (limit : Int) : List (Int × CutEvent) :=
  let within : List (Int × CutEvent) → List (Int × CutEvent) := fun l => l.filter fun e => decide (e.1 < limit)
  let live := s.streams.streams.filter fun e => decide (s.streamClass e.1 = 0 ∧ s.streamDomain e.1 = rd)
  within (((s.raster.sched.filter fun e => e.rd = rd).map fun e => (s.ticksTo rd (s.occursAt rd e.at_), .sched e)) ++
    (live.flatMap fun e => e.2.pics.flatMap fun p =>
      ((List.range p.rows.length).filter fun r => decide ((p.row r).state < 2)).map fun r =>
        (s.ticksTo rd (s.completionDeadline e.1 p.frame p.cfg.height r), .rowDeadline e.1 p.rung p.pic r)) ++
    live.flatMap fun e => e.2.layers.flatMap fun l => l.2.pics.flatMap fun p =>
      ((List.range p.rows.length).filter fun r => !(p.row r).finished).filterMap fun r =>
        (s.decDeadline e.1 p r).map fun d => (s.ticksTo rd d, .giveUp e.1 l.1 p.pic r))

/-- Events that recur, in the rest of the present frame, `left` ticks long: the line match, calendar slots, boundaries and
changes of gate lists. -/
def State.cutRecurring (s : State) (rd : Nat) (left : Int) : List (Int × CutEvent) :=
  let ports := (List.range 128).filter fun p => decide (s.portDomain p = rd)
  let match_ := s.ticksTo rd ⟨(s.now rd).frame, s.get Od.rd_LINE_MATCH rd, 0⟩
  (if 0 < match_ ∧ notYet (s.dom rd).matchedTo (s.now rd).frame then [(match_, CutEvent.lineMatch)] else []) ++
    ((ports.flatMap fun p =>
      ((List.range 8).filterMap fun k => (s.shaper (8 * p + k)).slot.map fun i => (s.ticksDiff p (i * 4096) (s.ticksNow p), CutEvent.slot p)) ++
      (match s.gateSegs p with
        | some g => (boundariesIn g (s.gatePos p) left.toNat).map fun n : Nat => (Int.ofNat n, CutEvent.gateBoundary p)
        | none => []) ++
      match (s.egPort p).change with
        | some c => [(s.ticksDiff p c.startAt (s.ticksNow p), CutEvent.gateChange p)]
        | none => []).filter fun e => decide (e.1 < left))

/-- Everything that a jump to a raster time cuts off, in raster-time order. [DESIGN CHOICE, unsafe: log entry 26.] -/
def State.cutEvents (s : State) (rd : Nat) (landing : RTime) : List (Int × CutEvent) :=
  if s.later rd landing (s.now rd) then
    sortBy (fun a b : Int × CutEvent => decide (a.1 < b.1))
      (s.cutOnce rd (s.ticksTo rd landing) ++ s.cutRecurring rd (s.ticksTo rd (nextFrame (s.now rd))))
  else []

/-- A cut-off event occurs: the domain's position is the event's own, `base` being the one before the jump.
[DESIGN CHOICE, unsafe: log entry 26.] -/
def State.runCut (s : State) (rd : Nat) (base : RTime) (e : Int × CutEvent) : State :=
  let s := s.setDom rd { s.dom rd with pos := rshift (s.lpf rd) base (max 0 e.1) }
  match e.2 with
  | .sched x => if x ∈ s.raster.sched then s.runEvent x else s
  | .lineMatch => s.lineEvent rd base.frame
  | .rowDeadline sid rung pic row => s.rowDeadlineDue sid rung pic row
  | .giveUp sid layer pic row => s.giveUpDue sid layer pic row
  | .slot p => s.passSlot p
  | .gateBoundary p => s.passGate p
  | .gateChange p => s.startGates p

/-- The domain stands at the start of LINE 0 of the frame in which it lands (R21). -/
def RasterDomain.land (d : RasterDomain) (frame : Nat) : RasterDomain :=
  { d with pos := ⟨frame, 0, 0⟩, acc := 0, slew := 0, slewEnd := none, lastRef := none
           lastFrame := d.lastFrame.map fun _ => frame, jumpDue := false, landed := true }

/-- RASTER_JUMP (R21, R22, R406) at the frame start that the reference numbers `refFrame`, which must be the one the state gives: what
the jump cuts off occurs, then the domain lands, and its gate lists stand where the new time puts them.
[DESIGN CHOICE, unsafe: log entry 26.] -/
def execRasterJump (rd : Fin 8) (refFrame : Nat) (s : State) : Host.Outcome State Fault Refusal :=
  if s.enabled rd ∧ (s.dom rd).jumpDue ∧ s.get Od.rd_LOCK_STATE rd = 1 ∧ refFrame = s.jumpFrame rd then
    let frame := s.jumpFrame rd
    let t := (s.cutEvents rd ⟨frame, 0, 0⟩).foldl (fun t e => t.runCut rd (s.now rd) e) s
    let t := ((t.setDom rd ((t.dom rd).land frame)).bump Od.rd_LOCK_EVENTS rd).jumpShapers rd
    done ((List.range 128).foldl (fun u p => if u.portDomain p = rd then u.passGate p else u) t)
  else done s

/-! ### Swap points (R27–R32) -/

/-- SWAP_POINT (R27, R28, R30). -/
def execSwapPoint (sc : SwapScope) (s : State) : Host.Outcome State Fault Refusal :=
  if s.swaps sc then done (s.swap sc) else done s

/-- The domain of a SWAP_NOW's scope: RD_0 for the device-global one. -/
def State.swapNowDomain (s : State) (scope : Nat) : Nat := if scope = 0xFFFF then 0 else s.portDomain scope

/-- SWAP_NOW (R31): another SCOPE is answered OUT_OF_RANGE at the item (R64). [DEDUCED, unsafe: log entry 28.] -/
def execSwapNow (scope : Nat) (s : State) : Host.Outcome State Fault Refusal :=
  if scope < 128 ∨ scope = 0xFFFF then
    done (s.runCommand 0x10 (leBytes 2 scope) fun s =>
      let rd := s.swapNowDomain scope
      if ¬ s.enabled rd then answer s Result.noSuchTarget
      else
        let at_ := s.nextLine rd
        answer { s with raster := { s.raster with sched := s.raster.sched ++ [(⟨rd, at_, .swapNow scope⟩ : Sched)] } } Result.ok
          (leBytes 9 (RTime.word at_)))
  else done { s with lastStatus := Status.outOfRange }

end Sys2Proof.Machine
end

