-- ==== Sys2Proof/Machine/ReceiveOps.lean ====
section
/-! DEFINITION. What a received Chaec Link packet or Ethernet frame does (R46, R216, R345–R347, R350–R354, R358, R359, R367,
R373–R376). -/

namespace Sys2Proof.Machine

/-! ### Opening a sealed packet (R352, R353) -/

/-- A key after one more framed packet of its direction. -/
def SealKey.next (k : SealKey) : SealKey := { k with counter := k.counter + 1 }

/-- The plaintext of a sealed packet under a key; the 36 header bytes are authenticated. -/
def SealKey.open_ (k : SealKey) (bs : List Byte) : Option (List Byte) :=
  Config.gcmOpen k.block k.counter (bs.take 36) (chBody bs)

/-- The receiver takes the key of the packet's KEY_PHASE; the first good packet of a new phase retires the old key.
[DEDUCED, unsafe: log entry 49.] -/
def SealState.receive (k : SealState) (now : Nat) (bs : List Byte) : SealState × Option (List Byte) :=
  let phase := (ChHeader.ofBytes bs).flags.testBit 5
  if k.rx.phase = phase then ({ k with rx := k.rx.next }, k.rx.open_ bs)
  else match k.nextRx with
    | some n =>
      match n.open_ bs with
      | some m => ({ k with rx := n.next, oldRx := some k.rx, nextRx := none, oldAt := now }, some m)
      | none => ({ k with nextRx := some n.next }, none)
    | none =>
      match k.oldRx with
      | some o => ({ k with oldRx := some o.next }, if o.phase = phase then o.open_ bs else none)
      | none => (k, none)

/-- A packet that fails its tag, or is not sealed as its band is: the sixteenth in a row takes the band down (R342, R353).
[DEDUCED, unsafe: log entry 49.] -/
def State.tagFails (s : State) (p : Nat) : State :=
  let s := s.bump Od.port_TAG_FAILURES p
  let l := s.link p
  let s := s.setLink p { l with tagRun := l.tagRun + 1 }
  if 16 ≤ l.tagRun + 1 then s.leaveActive p 4 else s

/-- The packet without its seal. [DEDUCED, unsafe: log entry 49.] -/
def unsealed (bs payload : List Byte) : List Byte :=
  let h := ChHeader.ofBytes bs
  ({ h with flags := clearBit (clearBit h.flags 0) 5 } : ChHeader).packet payload

/-- A framed packet that cannot be checked still counts in the counter of a sealed band's key. -/
def State.skipSealed (s : State) (p : Nat) : State :=
  match (s.link p).keys with
  | none => s
  | some k => s.setLink p { s.link p with keys := some { k with rx := k.rx.next } }

/-- The seal of a packet on a band: the state after, and the packet as sent by its source.
[DEDUCED, unsafe: log entry 49.] -/
def State.openPacket (s : State) (p : Nat) (bs : List Byte) : State × Option (List Byte) :=
  let isSealed := (ChHeader.ofBytes bs).flags.testBit 0
  match (s.link p).keys with
  | none => if isSealed then (s.tagFails p, none) else (s, some bs)
  | some k =>
    if ¬ isSealed then ((s.skipSealed p).tagFails p, none)
    else match k.receive s.cycle bs with
      | (k', some m) => (s.setLink p { s.link p with keys := some k', tagRun := 0 }, some (unsealed bs m))
      | (k', none) => ((s.setLink p { s.link p with keys := some k' }).tagFails p, none)

/-! ### Ethernet frames -/

/-- A frame without its FCS: destination, source, tag, EtherType, payload, and all its bytes. -/
structure EthFrame where
  dst   : List Byte
  src   : List Byte
  tag   : Option Nat
  etype : Nat
  body  : List Byte
  raw   : List Byte
  deriving DecidableEq, Repr

def EthFrame.ofBytes (bs : List Byte) : EthFrame :=
  if beAt bs 12 2 = 0x8100 then
    { dst := bs.take 6, src := (bs.drop 6).take 6, tag := some (beAt bs 14 2), etype := beAt bs 16 2, body := bs.drop 18, raw := bs }
  else { dst := bs.take 6, src := (bs.drop 6).take 6, tag := none, etype := beAt bs 12 2, body := bs.drop 14, raw := bs }

/-- VLAN of a frame, 0 untagged, and its PCP. -/
def EthFrame.vlan (f : EthFrame) : Nat := (f.tag.getD 0) % 4096
def EthFrame.pcp (f : EthFrame) : Nat := (f.tag.getD 0) / 8192 % 8

/-- A group address: multicast or broadcast. -/
def groupMac (a : List Byte) : Bool := (leAt a 0 1).testBit 0

/-- The port whose MAC an address is (R375). -/
def State.portOfMac (s : State) (mac : List Byte) : Option Nat :=
  (List.range 128).find? fun p => decide (leBytes 6 (s.get Od.port_MAC_ADDR p) = mac)

/-- An address is one of an interface's: 4 bytes of IPv4 or 16 of IPv6. -/
def Iface.owns (i : Iface) (a : List Byte) : Bool :=
  if a.length = 4 then decide (i.ip4 ≠ 0 ∧ leNat a = i.ip4) else i.ip6.any fun x => decide (x ≠ 0 ∧ leNat a = x)

/-- An address is one of the engine's own. -/
def State.ownsIp (s : State) (a : List Byte) : Bool := (List.range 128).any fun p => (s.iface (some p)).owns a

/-! ### IP datagrams (R46, R350) -/

/-- A datagram or a fragment of one: addresses, protocol, data, and the fragment's identification, offset and more-bit. -/
structure IpData where
  src   : List Byte
  dst   : List Byte
  proto : Nat
  data  : List Byte
  frag  : Option (Nat × Nat × Bool)
  deriving DecidableEq, Repr

/-- An IPv4 datagram with a good header checksum. [PRESUMED, unsafe: log entry 54.] -/
def ipv4Of (b : List Byte) : Option IpData :=
  let ihl := leAt b 0 1 % 16 * 4
  let total := beAt b 2 2
  if leAt b 0 1 / 16 = 4 ∧ 20 ≤ ihl ∧ ihl ≤ total ∧ total ≤ b.length ∧ inetChecksum (b.take ihl) = 0 then
    let f := beAt b 6 2
    some { src := (b.drop 12).take 4, dst := (b.drop 16).take 4, proto := leAt b 9 1, data := (b.take total).drop ihl
           frag := if f % 16384 = 0 then none else some (beAt b 4 2, f % 8192 * 8, f.testBit 13) }
  else none

/-- Walks the extension headers of an IPv6 payload. -/
def ipv6Walk (src dst : List Byte) : Nat → Nat → List Byte → Option (Nat × Nat × Bool) → Option IpData
  | 0, _, _, _ => none
  | n + 1, next, b, frag =>
    if next = 0 ∨ next = 43 ∨ next = 60 then ipv6Walk src dst n (leAt b 0 1) (b.drop ((leAt b 1 1 + 1) * 8)) frag
    else if next = 44 then
      let f := beAt b 2 2
      ipv6Walk src dst n (leAt b 0 1) (b.drop 8) (if f / 8 = 0 ∧ f % 2 = 0 then none else some (beAt b 4 4, f / 8 * 8, f.testBit 0))
    else some { src := src, dst := dst, proto := next, data := b, frag := frag }

/-- An IPv6 datagram. [PRESUMED, unsafe: log entry 54.] -/
def ipv6Of (b : List Byte) : Option IpData :=
  if leAt b 0 1 / 16 = 6 ∧ 40 + beAt b 4 2 ≤ b.length then
    ipv6Walk ((b.drop 8).take 16) ((b.drop 24).take 16) 8 (leAt b 6 1) ((b.drop 40).take (beAt b 4 2)) none
  else none

/-- The datagram that a frame carries. -/
def EthFrame.ip (f : EthFrame) : Option IpData :=
  if f.etype = 0x0800 then ipv4Of f.body else if f.etype = 0x86DD then ipv6Of f.body else none

/-- A fragment kept, of its datagram. -/
def IpData.fragment (d : IpData) (f : Nat × Nat × Bool) : IpFragment :=
  { src := d.src, dst := d.dst, proto := d.proto, ident := f.1, offset := f.2.1, more := f.2.2, data := d.data }

/-- Joins fragments from an offset on: the whole data, once the last one has come. -/
def joinFragments (fs : List IpFragment) : Nat → Nat → Option (List Byte)
  | 0, _ => none
  | n + 1, off =>
    match fs.find? fun f => decide (f.offset = off) && decide (f.data ≠ []) with
    | none => none
    | some f => if f.more then (joinFragments fs n (off + f.data.length)).map fun r => f.data ++ r else some f.data

/-- Takes a datagram or a fragment: the whole datagram, once it is complete and at most 4,096 bytes (R46).
[PRESUMED, unsafe: log entry 54.] -/
def State.reassemble (s : State) (d : IpData) : State × Option IpData :=
  match d.frag with
  | none => (s, some d)
  | some f =>
    let x := d.fragment f
    let same : IpFragment → Bool := fun y => decide (y.src = d.src ∧ y.dst = d.dst ∧ y.proto = d.proto ∧ y.ident = x.ident)
    let mine := x :: (s.iop.fragments.filter same)
    let rest := s.iop.fragments.filter fun y => !same y
    match joinFragments mine (mine.length + 1) 0 with
    | some data =>
      ({ s with iop := { s.iop with fragments := rest } }, if data.length ≤ 4096 then some { d with data := data, frag := none } else none)
    | none =>
      if 4096 < (mine.map fun y => y.data.length).sum then ({ s with iop := { s.iop with fragments := rest } }, none)
      else ({ s with iop := { s.iop with fragments := mine ++ rest } }, none)

/-- The UDP or ICMPv6 checksum of a datagram holds. -/
def IpData.sumOk (d : IpData) : Bool :=
  let pseudo := d.src ++ d.dst ++ (if d.src.length = 4 then [0#8, BitVec.ofNat 8 d.proto] ++ beBytes 2 d.data.length
    else beBytes 4 d.data.length ++ [0#8, 0#8, 0#8, BitVec.ofNat 8 d.proto])
  (decide (d.src.length = 4 ∧ d.proto = 17 ∧ beAt d.data 6 2 = 0)) || decide (inetChecksum (pseudo ++ d.data) = 0)

/-! ### Sending the engine's own frames -/

/-- Answers where a frame came from with a frame of the engine's own. [DESIGN CHOICE, unsafe: log entry 53.] -/
def State.answerFrame (s : State) (g : Ingress) (bs : List Byte) : State :=
  match g with
  | .port p => s.sendControl p netPri false bs
  | .mgmt => s.emit (.packet 255 (bs ++ leBytes 4 (crc32 bs)))
  | .fabric _ dev =>
    match s.portTo none dev with
    | some q => s.sendControl q netPri false (s.framePacket dev netPri bs)
    | none => s.noRoute

/-! ### What the engine takes (R216, R350, R375 step 2) -/

/-- An ARP request for an address of the interface is answered. [PRESUMED, unsafe: log entry 54.] -/
def State.takeArp (s : State) (g : Ingress) (i : Iface) (f : EthFrame) : State :=
  let b := f.body
  if b.take 8 = beBytes 2 1 ++ beBytes 2 0x0800 ++ [6#8, 4#8] ++ beBytes 2 1 ∧ i.owns ((b.drop 24).take 4) then
    s.answerFrame g (i.frame ((b.drop 8).take 6) netPri 0x0806
      (b.take 6 ++ beBytes 2 2 ++ i.mac ++ (b.drop 24).take 4 ++ (b.drop 8).take 10))
  else s

/-- A neighbour solicitation for an address of the interface is answered. [PRESUMED, unsafe: log entry 54.] -/
def State.takeSolicit (s : State) (g : Ingress) (i : Iface) (f : EthFrame) (d : IpData) : State :=
  let target := (d.data.drop 8).take 16
  if leAt d.data 0 1 = 135 ∧ d.sumOk ∧ i.owns target then
    let anon := decide (leNat d.src = 0)
    let dest := if anon then [0xFF#8, 0x02#8] ++ leBytes 13 0 ++ [1#8] else d.src
    let mac := if anon then [0x33#8, 0x33#8, 0#8, 0#8, 0#8, 1#8] else f.src
    let msg : Nat → List Byte := fun sum => [136#8, 0#8] ++ beBytes 2 sum ++ [if anon then 0x20#8 else 0x60#8, 0#8, 0#8, 0#8] ++
      target ++ [2#8, 1#8] ++ i.mac
    let sum := inetChecksum (target ++ dest ++ beBytes 4 (msg 0).length ++ [0#8, 0#8, 0#8, 58#8] ++ msg 0)
    s.answerFrame g (i.frame mac netPri 0x86DD
      ([0x60#8, 0#8, 0#8, 0#8] ++ beBytes 2 (msg 0).length ++ [58#8, 255#8] ++ target ++ dest ++ msg sum))
  else s

/-- A UDP datagram to UDP_PORT carries one IOP frame (R46); the way back to its client is kept.
[PRESUMED, unsafe: log entry 54.] -/
def State.takeUdp (s : State) (g : Ingress) (mac : List Byte) (d : IpData) : State :=
  let len := beAt d.data 4 2
  if beAt d.data 2 2 = s.get Od.iop_UDP_PORT ∧ 8 ≤ len ∧ len ≤ d.data.length ∧ d.sumOk then
    let client := (leNat d.src * 256 + d.src.length) * 65536 + beAt d.data 0 2
    let path : UdpPath := { port := g.at?, dev := g.dev?, own := d.dst, mac := mac }
    let s := { s with iop := { s.iop with paths := tset s.iop.paths client path } }
    s.receiveFrame (.udp client) ((d.data.take len).drop 8) (len - 8)
  else s

/-- A membership query: IGMP 0x11, or MLD 130. -/
def IpData.isQuery (d : IpData) : Bool :=
  decide (d.proto = 2 ∧ leAt d.data 0 1 = 0x11) || decide (d.proto = 58 ∧ leAt d.data 0 1 = 130)

/-- The engine takes a frame of its own interface, on its own VLAN only. -/
def State.takeOwn (s : State) (g : Ingress) (i : Iface) (f : EthFrame) : State :=
  if i.vlan ≠ 0 ∧ f.vlan ≠ i.vlan then s
  else if f.etype = 0x0806 then s.takeArp g i f
  else match f.ip with
    | none => s
    | some d =>
      if d.isQuery then
        match g with
        | .port p => s.reportMemberships p
        | _ => s
      else if d.proto = 58 then s.takeSolicit g i f d
      else if d.proto = 17 ∧ i.owns d.dst then
        match s.reassemble d with
        | (t, some e) => t.takeUdp g f.src e
        | (t, none) => t
      else s

/-! ### Switching (R375) -/

/-- Takes in a frame or packet from where it came. -/
def State.ingestFrom (s : State) (g : Ingress) (pri : Nat) (bs : List Byte) : State × Option (List QEntry) :=
  match g with
  | .port p => s.ingest p pri bs
  | .fabric b _ => s.ingest b pri bs
  | .mgmt => s.ingestEngine bs

/-- Pool and owner of what came in there. -/
def State.ingressOwner (s : State) (g : Ingress) : Nat × Nat × Nat :=
  match g with
  | .port p => (s.get Od.qg_INGEST_POOL p, ownPort, p)
  | .fabric b _ => (s.get Od.qg_INGEST_POOL b, ownPort, b)
  | .mgmt => (0, ownEngine, 0)

/-- Queues bytes on queues, replicated under R315. -/
def State.spread (s : State) (g : Ingress) (pri : Nat) (bs : List Byte) (qs : List Nat) : State :=
  if qs = [] then s
  else match s.ingestFrom g pri bs with
    | (t, none) => t
    | (t, some es) =>
      let o := s.ingressOwner g
      t.release es (qs.map fun q => { queue := q, pri := pri }) o.1 o.2.1 o.2.2 none false

/-- Queues of the members of a replication list but where the frame came from. -/
def State.memberQueues (s : State) (g : Ingress) (pri n : Nat) : List Nat :=
  ((tget s.fabric.lists [] n).filter fun m => decide (some m ≠ g.at?)).map fun m => if m < 128 then 8 * m + pri else m - 0x8000

/-- A frame goes where an exact-match entry says. -/
def State.toEntry (s : State) (g : Ingress) (pri : Nat) (raw : List Byte) (e : Nat × Nat) : State :=
  if emPort e < 128 then s.spread g pri raw [8 * emPort e + pri]
  else if emPort e = 0xFC then
    match s.portTo g.at? (emTarget e) with
    | some q => s.spread g pri (s.framePacket (emTarget e) pri raw) [8 * q + pri]
    | none => s.noRoute
  else if emPort e = 0xFD then s.spread g pri raw (s.memberQueues g pri (emTarget e))
  else if emPort e = 0xFE then s.spread g pri raw [emTarget e]
  else s

/-- A frame is flooded: to the ports of FLOOD_PORTS but its own, and, from a local port, into the fabric. -/
def State.flood (s : State) (g : Ingress) (pri : Nat) (raw : List Byte) : State :=
  let ports := (bitList (s.get Od.tab_FLOOD_PORTS) 128).filter fun q => decide (s.get Od.port_MODE q = 2 ∧ some q ≠ g.at?)
  let s := s.spread g pri raw (ports.map fun q => 8 * q + pri)
  match g with
  | .port _ =>
    if s.flag Od.tab_FLOOD_FABRIC ∧ s.get Od.card_CARD_STATE = 2 then
      s.spread g pri (s.framePacket 0xFFFF pri raw) (s.treePorts.map fun q => 8 * q + pri)
    else s
  | _ => s

/-- The IP packet with its hop limit one lower: none when it has run out. -/
def hopLower (f : EthFrame) : Option (List Byte) :=
  if f.etype = 0x0800 then
    let ttl := leAt f.body 8 1
    if ttl ≤ 1 then none
    else
      let ihl := leAt f.body 0 1 % 16 * 4
      let b := patch (patch f.body 8 (leBytes 1 (ttl - 1))) 10 [0#8, 0#8]
      some (patch b 10 (beBytes 2 (inetChecksum (b.take ihl))))
  else if leAt f.body 7 1 ≤ 1 then none
  else some (patch f.body 7 (leBytes 1 (leAt f.body 7 1 - 1)))

/-- An IP packet for the engine's MAC that is not for its own address is routed by the longest prefix (R375). The MAC of a next
hop that the table leaves to be resolved on the link is a free value. [DESIGN CHOICE, unsafe: log entry 53.] -/
def State.routeIp (s : State) (g : Ingress) (f : EthFrame) (d : IpData) : State :=
  let v4 := decide (d.dst.length = 4)
  match (s.copyFor g.at?).route (if v4 then 1 else 2) (beNat d.dst * (if v4 then 2 ^ 96 else 1)), hopLower f with
  | some e, some body =>
    if e.port < 128 then
      let i := s.iface (some e.port)
      let mac := if e.nextHop = 0 then s.freeBytes 6 else beBytes 6 e.nextHop
      let s := if e.nextHop = 0 then s.useFrees 6 else s
      s.spread g f.pcp (i.frame mac f.pcp f.etype body) [8 * e.port + f.pcp]
    else s
  | _, _ => s

/-- An IP multicast address. -/
def multicastIp (a : List Byte) : Bool := if a.length = 4 then leAt a 0 1 / 16 == 14 else leAt a 0 1 == 255

/-- A frame for a MAC of the engine's own (R375 step 2). -/
def State.forEngine (s : State) (g : Ingress) (p : Nat) (f : EthFrame) : State :=
  let s := s.takeOwn g (s.iface (some p)) f
  match f.ip with
  | some d => if s.halted || s.ownsIp d.dst || multicastIp d.dst then s else s.routeIp g f d
  | none => s

/-- The steps of R375 for a frame from a port or the fabric. [DESIGN CHOICE, unsafe: log entry 53.] -/
def State.switchFrame (s : State) (g : Ingress) (f : EthFrame) : State :=
  let s := if s.halted || groupMac f.src then s
    else match g with
      | .fabric _ dev => s.learn (beNat f.src) f.vlan 0xFC dev
      | .port p => s.learn (beNat f.src) f.vlan p 0
      | .mgmt => s
  match s.portOfMac f.dst with
  | some p => s.forEngine g p f
  | none =>
    let s := if groupMac f.dst then
        match g with
        | .port p => s.takeOwn g (s.iface (some p)) f
        | _ => s
      else s
    if s.halted then s
    else if groupMac f.dst then s.flood g f.pcp f.raw
    else match s.lookupHit g.at? (macKey (beNat f.dst) f.vlan) with
      | (t, some e) => t.toEntry g f.pcp f.raw e
      | (t, none) => t.flood g f.pcp f.raw

/-- Size and FCS of a received frame (R350): an untagged frame, or one with one tag. -/
def frameOk (maxFrame : Nat) (bs : List Byte) : Bool :=
  decide (64 ≤ bs.length ∧ bs.length ≤ maxFrame ∧ leAt bs (bs.length - 4) 4 = crc32 (bs.take (bs.length - 4))) &&
    decide (¬ (beAt bs 12 2 = 0x8100 ∧ beAt bs 16 2 = 0x8100))

/-- A frame on a 10GBASE-R port. -/
def State.portFrame (s : State) (p : Nat) (bs : List Byte) : State :=
  if s.get Od.port_MODE p ≠ 2 ∨ ¬ s.portActive p then s
  else if ¬ frameOk (s.get Od.port_MAX_FRAME p) bs then s.bump Od.port_CRC_ERRORS p
  else
    let f := EthFrame.ofBytes (bs.take (bs.length - 4))
    if f.etype = 0x8808 then s.bump Od.port_PAUSE_FRAMES_IGNORED p
    else (s.countIn p bs.length).switchFrame (.port p) f

/-- A frame on the management port: IOP and address resolution only (R354). -/
def State.mgmtFrame (s : State) (bs : List Byte) : State :=
  if s.get Od.mgmt_MGMT_STATE = 1 ∧ frameOk 1518 bs then
    let f := EthFrame.ofBytes (bs.take (bs.length - 4))
    let i := s.iface none
    if f.dst = i.mac ∨ groupMac f.dst then s.takeOwn .mgmt i f else s
  else s

/-! ### Chaec Link packets (R359, R373, R374) -/

/-- A ROW packet for this device: the arrival of an input stream's packet is a command of its own, so only the lookup of its
STREAM entry happens here; any other entry's queue takes the packet. -/
def State.rowHere (s : State) (p : Nat) (bs : List Byte) : State :=
  match (s.copyFor (some p)).lookup (streamKey (ChHeader.ofBytes bs).stream) with
  | some (_, e) =>
    if (tget s.queues.inputOwner none (emTarget e)).isSome then (s.lookupHit (some p) (streamKey (ChHeader.ofBytes bs).stream)).1
    else s.deliverRow (some p) bs
  | none => s.deliverRow (some p) bs

/-- A FRAME packet for this device: its frame goes to the 10GBASE-R port that the endpoint names, or through R375. -/
def State.frameHere (s : State) (p : Nat) (h : ChHeader) (raw : List Byte) : State :=
  let f := EthFrame.ofBytes raw
  let g : Ingress := .fabric p h.srcDev
  if h.dest % 65536 = 0xFFFF then s.switchFrame g f
  else
    let s := if groupMac f.src then s else s.learn (beNat f.src) f.vlan 0xFC h.srcDev
    let q := h.dest % 256
    if q < 128 ∧ s.get Od.port_MODE q = 2 then s.spread g f.pcp raw [8 * q + f.pcp] else s.noRoute

/-- A packet delivered to this device (R359). A halted engine takes MGMT packets only (R457).
[DESIGN CHOICE, unsafe: log entry 53.] -/
def State.deliver (s : State) (p : Nat) (bs : List Byte) : State :=
  let h := ChHeader.ofBytes bs
  let payload := (bs.drop 36).take (chLength bs)
  if h.kind = 2 then
    if h.dest % 65536 = 0 then s.receiveFrame (.fabric h.srcDev) payload payload.length else s.noRoute
  else if s.halted then s
  else if h.kind = 1 then s.rowHere p bs
  else if h.kind = 6 then s.frameHere p h payload
  else s.bump Od.port_KIND_DROPS p

/-- A packet for a multicast group: to the members of the list that its GROUP entry names. -/
def State.toGroup (s : State) (p dev : Nat) (bs : List Byte) : State :=
  let h := ChHeader.ofBytes bs
  match s.lookupHit (some p) (groupKey dev) with
  | (t, none) => t.noRoute
  | (t, some e) =>
    if emPort e ≠ 0xFD then t.noRoute
    else if h.hops = 0 then t.bump Od.port_HOP_DROPS p
    else t.replicate (some p) h.prio (({ h with hops := h.hops - 1 } : ChHeader).packet ((bs.drop 36).take (chLength bs)))
      (tget t.fabric.lists [] (emTarget e))

/-- A packet goes by the first step of R373 that applies. TIMING, CARD, LINK and GLOBAL packets act by rows of their own.
[DESIGN CHOICE, unsafe: log entry 53.] -/
def State.switchPacket (s : State) (p : Nat) (bs : List Byte) : State :=
  let h := ChHeader.ofBytes bs
  let dev := h.dest / 65536
  if h.kind ∈ [3, 4, 5, 7] ∨ (s.link p).loopback ∨ s.foreignBand p ∨ ¬ s.forwards then s
  else if dev = s.ownAddr then s.deliver p bs
  else if s.halted then s
  else if dev = 0xFFFF then
    let s := s.deliver p bs
    let ports := s.treePorts.filter fun q => decide (q ≠ p)
    if ports = [] then s else s.relay (some p) bs ports
  else if 0x8000 ≤ dev then s.toGroup p dev bs
  else match (s.copyFor (some p)).route 0 (h.dest * 2 ^ 96) with
    | some e => if e.port < 128 then s.relay (some p) bs [e.port] else s.noRoute
    | none => s.noRoute

/-- A Chaec Link packet framed on a band. -/
def State.receivePacket (s : State) (p : Nat) (bs : List Byte) : State :=
  if ¬ (s.isBand p && s.portActive p) then s
  else if ¬ hcrcOk bs then (s.bump Od.port_HCRC_ERRORS p).skipSealed p
  else if ¬ trailerOk bs then (s.bump Od.port_CRC_ERRORS p).skipSealed p
  else match s.openPacket p bs with
    | (t, none) => t
    | (t, some m) => (t.countIn p bs.length).switchPacket p m

end Sys2Proof.Machine
end

