-- ==== Sys2Proof/Machine/Receive.lean ====
section
/-! DEFINITION. The meanings of packets and frames received on ports. -/

namespace Sys2Proof.Machine

/-- CHAEC_PACKET_RECEIVE (R346, R353, R367, R373). -/
def execChaecPacketReceive (p : Fin 128) (packet : List Byte) (s : State) : Host.Outcome State Fault Refusal :=
  done (s.receivePacket p packet)

/-- ETHERNET_FRAME_RECEIVE (R350, R354, R375). -/
def execEthernetFrameReceive (p : Option (Fin 128)) (frame : List Byte) (s : State) : Host.Outcome State Fault Refusal :=
  done (match p with
    | some q => s.portFrame q frame
    | none => s.mgmtFrame frame)

end Sys2Proof.Machine
end

