-- ==== Sys2Proof/Machine/Security.lean ====
section
/-! DEFINITION. The meanings of attestation, of flash programming and of the island's failures (R471, R473, R486, R489). -/

namespace Sys2Proof.Machine

/-- The 336-byte attestation report over a nonce (R486). -/
def State.attestReport (s : State) (nonce : List Byte) : List Byte :=
  [0x41#8, 0x54#8, 0x54#8, 0x31#8] ++ leBytes 2 1 ++ leBytes 2 0 ++ leBytes 16 (s.get Od.id_SERIAL) ++ leBytes 4 0x9672 ++
    leBytes 4 0xB0 ++ leBytes 4 (s.get Od.img_ROM_VERSION) ++ leBytes 4 (s.get Od.img_ROM_BUILD) ++ leBytes 4 s.patchLevel ++
    leBytes 2 s.code.patches.length ++ leBytes 2 (s.get Od.cs_BANK_SELECT) ++ leBytes 4 (s.get Od.img_CONFIG_VERSION) ++
    leBytes 1 (s.get Od.cs_MICROCODE_ROLLBACK) ++ leBytes 1 (s.get Od.img_PATCH_ROLLBACK) ++
    leBytes 1 (s.get Od.img_CONFIG_ROLLBACK) ++ leBytes 1 (s.get Od.sec_DEBUG_STATE) ++ leBytes 1 (b2n s.evaluated) ++
    leBytes 1 (64 - s.get Od.sto_FUSE_ENTRIES_LEFT) ++ leBytes 2 0 ++ leBytes 8 s.uptimeNs ++ leBytes 9 (RTime.word (s.now 0)) ++
    leBytes 3 0 ++ Config.sha512 ((List.range 32).flatMap s.bankInfo) ++ Config.sha512 s.patchTable ++
    Config.sha512 s.fuseTable ++ nonce

/-- ATTEST: the report and IDENTITY_KEY's signature over it (R473, R486). -/
def execAttest (nonce : List Byte) (s : State) : Host.Outcome State Fault Refusal :=
  if nonce.length ≠ 64 then done { s with lastStatus := Status.length }
  else done (s.runCommand 0x32 nonce fun s =>
    answer s Result.ok (s.attestReport nonce ++ Config.ecdsaSign (Config.sha512 (s.attestReport nonce))))

/-- FLASH_PROGRAM_DONE (R489): programming and read-back end. -/
def execFlashProgramDone (readsBack : Bool) (s : State) : Host.Outcome State Fault Refusal :=
  if s.get Od.sec_FLASH_STATE = 1 then done (s.programFlash.set Od.sec_FLASH_STATE 0 (if readsBack then 2 else 3)) else done s

/-- A cause of R471 is met: SECURITY is raised with it, and its action halts the engine (R457). -/
def State.islandFails (s : State) (cause : Nat) : State :=
  { s with sec := { s.sec with failed := true } }.reportInfo Unit.island 0x70 cause

/-- ISLAND_WATCHDOG_EXPIRY (R471). -/
def execIslandWatchdogExpiry (s : State) : Host.Outcome State Fault Refusal := done (s.islandFails 0x06)

/-- TRNG_HEALTH_FAILURE (R471). -/
def execTrngHealthFailure (s : State) : Host.Outcome State Fault Refusal := done (s.islandFails 0x02)

/-- ISLAND_MONITOR_EXCURSION (R471). -/
def execIslandMonitorExcursion (s : State) : Host.Outcome State Fault Refusal := done (s.islandFails 0x05)

end Sys2Proof.Machine
end

