-- ==== Sys2Proof/Machine/Streams.lean ====
section
/-! DEFINITION. The meanings of stream commands (R73–R99) and of rows on cells (R80, R110, R117), but for writes. -/

namespace Sys2Proof.Machine

/-! ### Opening and closing (R76, R77, R84, R94) -/

/-- The lowest-numbered stream that is CLOSED and STAGED (R84). -/
def State.stagedStream (s : State) : Option Nat :=
  (List.range 512).find? fun x => decide (s.streamState x = stClosed) && s.flag Od.st_STAGED x

/-- Milli-cells that a stream asks for; BULK asks for none. -/
def State.milliOf (s : State) (sid : Nat) : Nat :=
  if s.streamClass sid = 2 then 0 else ((s.stageCosts sid).map fun g => g.2).sum

/-- Return data of STREAM_OPEN. -/
def openReturn (sid milli : Nat) : List Byte := leBytes 2 sid ++ leBytes 4 milli

/-- STREAM_OPEN of a CLOSED stream: consistency, an alias, or admission. -/
def State.tryOpen (s : State) (sid : Nat) (dry : Bool) : State × Option (Nat × List Byte) :=
  if ¬ s.argsOk sid then answer s Result.badArgs
  else match s.mergeLeader sid with
    | some leader =>
      let ok := s.aliasTest sid
      let s := s.set Od.st_ADMIT_SHORTFALL sid (if ok then 0 else setBit 0 3)
      if ¬ ok then answer s Result.noPortCapacity
      else answer (if dry then s else s.openAlias sid leader) Result.ok (openReturn sid 0)
    | none =>
      let a := s.admission sid
      let s := s.set Od.st_ADMIT_SHORTFALL sid a.1
      if a.2 ≠ 0 then answer s a.2
      else answer (if dry then s else s.openStream sid) Result.ok (openReturn sid (s.milliOf sid))

/-- Both forms of STREAM_OPEN. [DESIGN CHOICE, unsafe: log entry 42.] -/
def State.openCommand (s : State) (sid : Nat) (dry : Bool) : State × Option (Nat × List Byte) :=
  if sid = 0xFFFF then
    match s.stagedStream with
    | none => answer s Result.noContext
    | some x => (s.set Od.st_STAGED x 0).tryOpen x dry
  else if 512 ≤ sid ∨ s.streamState sid ≠ stClosed then answer s Result.noSuchTarget
  else s.tryOpen sid dry

/-- STREAM_OPEN, FLAGS bit 0 clear. -/
def execStreamOpen (sid flags : Nat) (s : State) : Host.Outcome State Fault Refusal :=
  done (s.runCommand 0x01 (leBytes 2 sid ++ leBytes 2 (clearBit flags 0)) fun s => s.openCommand sid false)

/-- STREAM_OPEN, FLAGS bit 0 set: nothing is reserved. -/
def execStreamOpenDryRun (sid flags : Nat) (s : State) : Host.Outcome State Fault Refusal :=
  done (s.runCommand 0x01 (leBytes 2 sid ++ leBytes 2 (setBit flags 0)) fun s => s.openCommand sid true)

/-- An alias closes: its destinations leave its leader's replication at the leader's next swap point. -/
def State.closeAlias (s : State) (sid : Nat) : State :=
  let x := s.stream sid
  let leader := s.get Od.st_LEADER sid
  let s := s.setStream sid { x with portBits := [], joined := false, leaving := if x.joined then some leader else none }
  let s := if x.joined then s else s.freeTemplates sid
  (s.set Od.st_LEADER sid 0xFFFF).setStreamState sid stClosed

/-- STREAM_CLOSE with MODE 0 (R76, R77): a stream with aliases hands its coding state over to one of them in that cycle (R95),
and its own destinations still get every picture that is started before its swap point.
[DESIGN CHOICE, unsafe: log entry 22.] -/
def State.closeAtSwap (s : State) (sid : Nat) : State × Option (Nat × List Byte) :=
  let st := s.streamState sid
  if 512 ≤ sid ∨ st = stClosed ∨ st = stClosing then answer s Result.noSuchTarget
  else if st = stRunning then
    if s.aliasesOf sid ≠ [] then
      let a := (s.aliasesOf sid).head?
      let s := s.aliasTakeover sid
      answer ((s.setStream sid { s.stream sid with closeAtSwap := true, follows := a }).setStreamState sid stClosing) Result.ok
    else answer ((s.setStream sid { s.stream sid with closeAtSwap := true }).setStreamState sid stClosing) Result.ok
  else if st = stAlias then answer (s.closeAlias sid) Result.ok
  else answer (s.closeStream sid) Result.ok

/-- STREAM_CLOSE_AT_SWAP. -/
def execStreamCloseAtSwap (sid : Nat) (s : State) : Host.Outcome State Fault Refusal :=
  done (s.runCommand 0x02 (leBytes 2 sid ++ [0#8]) fun s => s.closeAtSwap sid)

/-- STREAM_CLOSE_AT_ONCE (R76): a cell that holds a row of the stream ends it, and its completion is discarded. -/
def execStreamCloseAtOnce (sid : Nat) (s : State) : Host.Outcome State Fault Refusal :=
  done (s.runCommand 0x02 (leBytes 2 sid ++ [1#8]) fun s =>
    let st := s.streamState sid
    if 512 ≤ sid ∨ st = stClosed ∨ st = stClosing then answer s Result.noSuchTarget
    else if st = stAlias then answer (s.closeAlias sid) Result.ok
    else answer (s.closeStream sid) Result.ok)

/-! ### Clips and playlists (R96, R97) -/

/-- A coded clip is in a supported decode format and begins with a random-access point. -/
def clipOk (m : ClipMeet) : Bool :=
  ({ format := m.format, fec := 0, width := m.width, height := m.height, level := m.level, slots := 0, depth := m.depth,
     program := 0, pid := 0 } : LayerCfg).supported &&
    (m.format != 1 || m.depth == 8) && decide (m.profile ∈ decProfiles m.format) && decide (0 < m.pictures) && decide (0 ∈ m.raps)

/-- The lowest page of the clip store with room for n bytes. [DESIGN CHOICE, unsafe: log entry 41.] -/
def State.clipPlace (s : State) (r n : Nat) : Option Nat :=
  let base := s.get Od.reg_BASE r
  let taken := s.streams.clips.map fun e => (e.2.addr, roundUp 4096 e.2.size)
  (sortBy (fun a b : Nat => decide (a < b)) (base :: taken.map fun e => e.1 + e.2)).find? fun a =>
    s.inRegion r a n && taken.all fun e => !overlaps a n e.1 e.2

/-- Argument block of CLIP_STORE (R68). [DESIGN CHOICE, unsafe: log entry 41.] -/
def clipStoreArgs (clip source addr length : Nat) : List Byte :=
  leBytes 2 clip ++ leBytes 1 source ++ [0#8] ++ leBytes 8 addr ++ leBytes 4 length

/-- CLIP_STORE: the size of the index is a free value. -/
def execClipStore (clip source addr length : Nat) (meet : ClipMeet) (s : State) : Host.Outcome State Fault Refusal :=
  if 2 ≤ source then done { s with lastStatus := Status.outOfRange }
  else done (s.runCommand 0x50 (clipStoreArgs clip source addr length) fun s =>
    if 1024 ≤ clip then answer s Result.outOfRange
    else if (tfind s.streams.clips clip).isSome then answer s Result.noSuchTarget
    else
      let r := s.get Od.mil_CLIP_REGION
      let size := length + s.freeValue % 2 ^ 20
      let s := s.useFree
      if r = 255 ∨ ¬ s.regionProtected r then answer s Result.noSpace
      else match s.copySource source addr length with
        | (t, .inl e) => answer t (if e = Result.imageFormat then Result.uncorrectable else e)
        | (t, .inr bs) =>
          if ¬ meet.readable then answer t Result.uncorrectable
          else if ¬ clipOk meet then answer t Result.badArgs
          else match t.clipPlace r (roundUp 4096 size) with
            | none => answer t Result.noSpace
            | some a =>
              let w := t.hbmWrite 157 a (padPage bs) { flips := [], severity := 0, parity := 0, acts := [] }
              answer { w.1 with streams := { w.1.streams with clips := tset w.1.streams.clips clip ⟨meet, a, size⟩ } } Result.ok (leBytes 4 size))

/-- An open stream's playlist, present or written, names a clip. -/
def State.clipNamed (s : State) (clip : Nat) : Bool :=
  s.streams.streams.any fun e => !s.streamShut e.1 &&
    (e.2.playlist ++ e.2.nextPlaylist.getD []).any fun p => p.clip == clip

/-- CLIP_DELETE. -/
def execClipDelete (clip : Nat) (s : State) : Host.Outcome State Fault Refusal :=
  done (s.runCommand 0x51 (leBytes 2 clip) fun s =>
    if (tfind s.streams.clips clip).isNone then answer s Result.noSuchTarget
    else if s.clipNamed clip then answer s Result.inUse
    else answer { s with streams := { s.streams with clips := tdel s.streams.clips clip } } Result.ok)

/-- START values strictly increase, by the order of R10 on a domain. -/
def State.risingStarts (s : State) (rd : Nat) : List PlaylistEntry → Bool
  | a :: b :: l => s.later rd b.start a.start && s.risingStarts rd (b :: l)
  | _ => true

/-- Argument block of PLAYLIST_SET (R68). -/
def playlistArgs (sid : Nat) (es : List PlaylistEntry) : List Byte :=
  leBytes 2 sid ++ leBytes 2 es.length ++ es.flatMap fun e => leBytes 2 e.clip ++ leBytes 9 (RTime.word e.start)

/-- A clip fits the largest decode size of a stream. -/
def State.clipFits (s : State) (sid clip : Nat) : Bool :=
  match tfind s.streams.clips clip with
  | none => false
  | some c => decide (c.meet.width ≤ (s.layerCfg sid 0).width ∧ c.meet.height ≤ (s.layerCfg sid 0).height)

/-- PLAYLIST_SET: an open stream's new playlist waits for its next swap point. -/
def execPlaylistSet (sid : Nat) (entries : List PlaylistEntry) (s : State) : Host.Outcome State Fault Refusal :=
  if entries = [] ∨ 256 < entries.length then done { s with lastStatus := Status.outOfRange }
  else done (s.runCommand 0x52 (playlistArgs sid entries) fun s =>
    if 512 ≤ sid ∨ s.streamType sid ≠ 4 ∨ entries.any (fun e => (tfind s.streams.clips e.clip).isNone) then answer s Result.noSuchTarget
    else if ¬ s.risingStarts (s.streamDomain sid) entries then answer s Result.badArgs
    else if entries.any fun e => !s.clipFits sid e.clip || !s.validTime (s.streamDomain sid) e.start ||
      !s.notTooFar (s.streamDomain sid) e.start then answer s Result.outOfRange
    else if s.streamShut sid then answer (s.setStream sid { s.stream sid with playlist := entries, nextPlaylist := none }) Result.ok
    else answer (s.setStream sid { s.stream sid with nextPlaylist := some entries }) Result.ok)

/-! ### Rows (R80, R110, R117) -/

/-- ROW_START on cell k of crown cw (R80). -/
def execRowStart (cw : Fin 16) (k : Fin 8) (s : State) : Host.Outcome State Fault Refusal := done (s.startRow (8 * cw + k))

/-- ROW_COMPLETE on cell k of crown cw (R117). -/
def execRowComplete (cw : Fin 16) (k : Fin 8) (s : State) : Host.Outcome State Fault Refusal := done (s.completeRow (8 * cw + k))

/-- DEP_READY: block `blocks` of the row may be coded; a waiting row continues. -/
def execDepReady (cc : Fin 128) (blocks : Nat) (s : State) : Host.Outcome State Fault Refusal := done (s.releaseDep cc blocks)

end Sys2Proof.Machine
end

