-- ==== Sys2Proof/Machine/Writes.lean ====
section
/-! DEFINITION. The meanings of writes of objects and registers (R14, R40, R44, R50, R86, R113, R120, R139, R157, R266, R280,
R308, R310, R325, R411, R454, R455, R466, R481, R488, R489): each as a request of its own. -/

namespace Sys2Proof.Machine

/-- DOMAIN_ENABLE_WRITE (R14). -/
def execDomainEnableWrite (role : Role) (rd : Fin 8) (v : Nat) (s : State) : Host.Outcome State Fault Refusal :=
  done (s.writeRow role Od.rd_ENABLE rd v)

/-- CROWN_MASK_WRITE (R86). -/
def execCrownMaskWrite (role : Role) (sid : Fin 512) (v : Nat) (s : State) : Host.Outcome State Fault Refusal :=
  done (s.writeRow role Od.st_CROWN_MASK sid v)

/-- RAP_REQUEST (R157). -/
def execRapRequest (role : Role) (sid : Fin 512) (v : Nat) (s : State) : Host.Outcome State Fault Refusal :=
  done (s.writeRow role Od.enc_RAP_REQUEST sid v)

/-- CELL_OUT_OF_SERVICE (R91, R120). -/
def execCellOutOfService (role : Role) (cc : Fin 128) (v : Nat) (s : State) : Host.Outcome State Fault Refusal :=
  done (s.writeRow role Od.cell_OUT_OF_SERVICE cc v)

/-- CLOCK_FORCE_WRITE (R113). -/
def execClockForceWrite (role : Role) (cw : Fin 16) (v : Nat) (s : State) : Host.Outcome State Fault Refusal :=
  done (s.writeRow role Od.crown_CLOCK_FORCE cw v)

/-- BANK_SELECT_WRITE (R139). -/
def execBankSelectWrite (role : Role) (v : Nat) (s : State) : Host.Outcome State Fault Refusal :=
  done (s.writeRow role Od.cs_BANK_SELECT 0 v)

/-- CONDITIONER_OUT_OF_SERVICE (R266). -/
def execConditionerOutOfService (role : Role) (ic : Fin 8) (v : Nat) (s : State) : Host.Outcome State Fault Refusal :=
  done (s.writeRow role Od.ic_OUT_OF_SERVICE ic v)

/-- PICTURE_REGION_WRITE (R278, R280): what follows is done when the value becomes active. -/
def execPictureRegionWrite (role : Role) (v : Nat) (s : State) : Host.Outcome State Fault Refusal :=
  done (s.writeRow role Od.mil_PICTURE_REGION 0 v)

/-- POOL_ENABLE_WRITE (R308). -/
def execPoolEnableWrite (role : Role) (pool : Fin 16) (v : Nat) (s : State) : Host.Outcome State Fault Refusal :=
  done (s.writeRow role Od.pool_ENABLE pool v)

/-- MINIMUM_WRITE (R310): of HOST_MIN of a pool, or INGEST_MIN of a port. -/
def execMinimumWrite (role : Role) (host : Bool) (i : Fin 128) (v : Nat) (s : State) : Host.Outcome State Fault Refusal :=
  done (if host then s.writeRow role Od.pool_HOST_MIN i v else s.writeRow role Od.qg_INGEST_MIN i v)

/-- QUEUE_FLUSH (R325). -/
def execQueueFlush (role : Role) (g : Fin 256) (mask : Nat) (s : State) : Host.Outcome State Fault Refusal :=
  done (s.writeRow role Od.qg_FLUSH g mask)

/-- GATE_APPLY_INSTALL (R410, R411). -/
def execGateApplyInstall (role : Role) (p : Fin 128) (s : State) : Host.Outcome State Fault Refusal :=
  done (s.writeRow role Od.egr_GATE_APPLY p 1)

/-- GATE_APPLY_REMOVE (R411, R412). -/
def execGateApplyRemove (role : Role) (p : Fin 128) (s : State) : Host.Outcome State Fault Refusal :=
  done (s.writeRow role Od.egr_GATE_APPLY p 2)

/-- CAPTURE_CLEAR (R454). -/
def execCaptureClear (role : Role) (s : State) : Host.Outcome State Fault Refusal := done (s.writeRow role Od.cap_VALID 0 0)

/-- STICKY_WRITE (R455). -/
def execStickyWrite (role : Role) (unit : Fin 1024) (v : Nat) (s : State) : Host.Outcome State Fault Refusal :=
  done (s.writeRow role Od.unit_STICKY unit v)

/-- CLEAR_ALL (R466). -/
def execClearAll (role : Role) (v : Nat) (s : State) : Host.Outcome State Fault Refusal :=
  done (s.writeRow role Od.fc_CLEAR_ALL 0 v)

/-- DEBUG_TOKEN (R488). -/
def execDebugToken (role : Role) (token : List Byte) (s : State) : Host.Outcome State Fault Refusal :=
  done (s.writeObject (roleRank role) ⟨0x9000, 0x0B, 0x0B, token⟩)

/-- DEBUG_SEAL (R488). -/
def execDebugSeal (role : Role) (v : Nat) (s : State) : Host.Outcome State Fault Refusal :=
  done (s.writeRow role Od.sec_DEBUG_SEAL 0 v)

/-- OWNER_KEY_HASH_WRITE (R481). -/
def execOwnerKeyHashWrite (role : Role) (hash : List Byte) (s : State) : Host.Outcome State Fault Refusal :=
  done (s.writeObject (roleRank role) ⟨0x9000, 0x04, 0x0B, hash⟩)

/-- FLASH_PROGRAM (R489). -/
def execFlashProgram (role : Role) (v : Nat) (s : State) : Host.Outcome State Fault Refusal :=
  done (s.writeRow role Od.sec_FLASH_PROGRAM 0 v)

/-- STICKY_CLEAR (R44): a write of the value 0; of a DOMAIN, zero bytes of its present length. -/
def execStickyClear (role : Role) (index sub : Nat) (s : State) : Host.Outcome State Fault Refusal :=
  match lookUp index sub with
  | .inl st => done { s with lastStatus := st }
  | .inr (r, i, j) =>
    let n := if r.ty = .domain then (s.value r i j false).length else r.ty.size
    done (s.writeObject (roleRank role) ⟨index, sub, r.ty.code, leBytes n 0⟩)

/-- A 32-bit or 64-bit write of a BAR 0 register without a row of its own (R418, R429): the counts of refused and misused
accesses, a channel's DESC_BASE, and the MSI-X table. Every other register ignores it.
[DESIGN CHOICE, safe: log entry 57.] -/
def State.writeBar0 (s : State) (o size v : Nat) : State :=
  if o = 0x28 ∧ size = 4 then if v = 0 then { s with host := { s.host with bar2Refused := 0 } } else s
  else if o = 0x2C ∧ size = 4 then if v = 0 then { s with host := { s.host with bar0Misuse := 0 } } else s
  else if 0x4000 ≤ o ∧ o < 0x4800 then
    let ch := (o - 0x4000) / 64
    let x := s.dma ch
    let base := match o % 64, size with
      | 0x08, 8 => some v
      | 0x08, 4 => some (setBits x.descBase 0 32 v)
      | 0x0C, 4 => some (setBits x.descBase 32 32 v)
      | _, _ => none
    match base with
    | none => s
    | some b => if x.state = dmaStopped then s.setDma ch { x with descBase := b / 32 * 32 } else s.misuseBar0
  else if 0x30000 ≤ o ∧ o < 0x30400 ∧ size = 4 then
    let n := (o - 0x30000) / 16
    let x := s.vector n
    match o % 16 with
    | 0 => s.setVector n { x with addr := setBits x.addr 0 32 v }
    | 4 => s.setVector n { x with addr := setBits x.addr 32 32 v }
    | 8 => s.setVector n { x with data := v }
    | 12 => if v % 2 = 1 then s.setVector n { x with masked := true } else (s.setVector n { x with masked := false }).d0Catch.sendHeld
    | _ => s
  else s

/-- OBJECT_WRITE (R40, R50, R423). [DESIGN CHOICE, safe: log entry 57.] -/
def execObjectWrite (target : WriteTarget) (s : State) : Host.Outcome State Fault Refusal :=
  match target with
  | .object role index sub ty value => done (s.writeObject (roleRank role) ⟨index, sub, ty, value⟩)
  | .bar0 offset size value => done (s.writeBar0 offset size value)
  | .msixEnable on =>
    if on then done ({ s with host := { s.host with msixEnabled := true } }.d0Catch.sendHeld)
    else done { s with host := { s.host with msixEnabled := false } }
  | .functionMask on =>
    if on then done { s with host := { s.host with functionMask := true } }
    else done ({ s with host := { s.host with functionMask := false } }.d0Catch.sendHeld)
  | .pmeEnable on => done { s with host := { s.host with pmeEnabled := on } }

end Sys2Proof.Machine
end

