-- ==== Sys2Proof/Machine/Dispatch.lean ====
section
/-! DEFINITION. The meaning of every command: one arm per constructor of `Instr`. -/

namespace Sys2Proof.Machine

/-- The effect of a command on everything but the queue. -/
def exec (i : Instr) (s : State) : Host.Outcome State Fault Refusal :=
  match i with
  | .frameStart rd => Sys2Proof.Machine.execFrameStart rd s
  | .lineMatch rd => Sys2Proof.Machine.execLineMatch rd s
  | .rasterEventDue rd => Sys2Proof.Machine.execRasterEventDue rd s
  | .refFrameEdge pin falling => Sys2Proof.Machine.execRefFrameEdge pin falling s
  | .edgeWindowClose rd => Sys2Proof.Machine.execEdgeWindowClose rd s
  | .ptpMessage u => Sys2Proof.Machine.execPtpMessage u s
  | .ptpStateLeavesSlave newState => Sys2Proof.Machine.execPtpStateLeavesSlave newState s
  | .holdoverTimeout rd => Sys2Proof.Machine.execHoldoverTimeout rd s
  | .rasterJump rd refFrame => Sys2Proof.Machine.execRasterJump rd refFrame s
  | .domainEnableWrite role rd v => Sys2Proof.Machine.execDomainEnableWrite role rd v s
  | .swapPoint scope => Sys2Proof.Machine.execSwapPoint scope s
  | .swapNow scope => Sys2Proof.Machine.execSwapNow scope s
  | .hello origin frame => Sys2Proof.Machine.execHello origin frame s
  | .prove origin frame => Sys2Proof.Machine.execProve origin frame s
  | .request origin frame => Sys2Proof.Machine.execRequest origin frame s
  | .notifyAck origin frame => Sys2Proof.Machine.execNotifyAck origin frame s
  | .close origin frame => Sys2Proof.Machine.execClose origin frame s
  | .handshakeTimeout session => Sys2Proof.Machine.execHandshakeTimeout session s
  | .idleTimeout session => Sys2Proof.Machine.execIdleTimeout session s
  | .notifyResendTimeout session seq => Sys2Proof.Machine.execNotifyResendTimeout session seq s
  | .commandResponseTimeout code => Sys2Proof.Machine.execCommandResponseTimeout code s
  | .commandCompletion code => Sys2Proof.Machine.execCommandCompletion code s
  | .objectWrite target => Sys2Proof.Machine.execObjectWrite target s
  | .stickyClear role index sub => Sys2Proof.Machine.execStickyClear role index sub s
  | .streamOpen sid flags => Sys2Proof.Machine.execStreamOpen sid flags s
  | .streamOpenDryRun sid flags => Sys2Proof.Machine.execStreamOpenDryRun sid flags s
  | .streamCloseAtSwap sid => Sys2Proof.Machine.execStreamCloseAtSwap sid s
  | .streamCloseAtOnce sid => Sys2Proof.Machine.execStreamCloseAtOnce sid s
  | .crownMaskWrite role sid v => Sys2Proof.Machine.execCrownMaskWrite role sid v s
  | .clipStore clip source addr length meet => Sys2Proof.Machine.execClipStore clip source addr length meet s
  | .clipDelete clip => Sys2Proof.Machine.execClipDelete clip s
  | .playlistSet sid entries => Sys2Proof.Machine.execPlaylistSet sid entries s
  | .rowStart cw k => Sys2Proof.Machine.execRowStart cw k s
  | .rowComplete cw k => Sys2Proof.Machine.execRowComplete cw k s
  | .depReady cc blocks => Sys2Proof.Machine.execDepReady cc blocks s
  | .rapRequest role sid v => Sys2Proof.Machine.execRapRequest role sid v s
  | .rowCompletionDeadline sid rung pic row cd => Sys2Proof.Machine.execRowCompletionDeadline sid rung pic row cd s
  | .pacedSlipExpiry sid encode stage pic => Sys2Proof.Machine.execPacedSlipExpiry sid encode stage pic s
  | .patPmtRepeatTimer sid rung => Sys2Proof.Machine.execPatPmtRepeatTimer sid rung s
  | .mirrorWriteDone cc => Sys2Proof.Machine.execMirrorWriteDone cc s
  | .memoryPortFillDone cc => Sys2Proof.Machine.execMemoryPortFillDone cc s
  | .cellOutOfService role cc v => Sys2Proof.Machine.execCellOutOfService role cc v s
  | .clockForceWrite role cw v => Sys2Proof.Machine.execClockForceWrite role cw v s
  | .crownPark cw => Sys2Proof.Machine.execCrownPark cw s
  | .crownWakeDone cw => Sys2Proof.Machine.execCrownWakeDone cw s
  | .crownStepDone cw => Sys2Proof.Machine.execCrownStepDone cw s
  | .crownDownHoldExpiry cw => Sys2Proof.Machine.execCrownDownHoldExpiry cw s
  | .crownReset cw bistPass => Sys2Proof.Machine.execCrownReset cw bistPass s
  | .mwJump cc ext => Sys2Proof.Machine.execMwJump cc ext s
  | .mwBr2 cc ext => Sys2Proof.Machine.execMwBr2 cc ext s
  | .mwBr4 cc ext => Sys2Proof.Machine.execMwBr4 cc ext s
  | .mwCall cc ext => Sys2Proof.Machine.execMwCall cc ext s
  | .mwReturn cc ext => Sys2Proof.Machine.execMwReturn cc ext s
  | .mwWait cc ext => Sys2Proof.Machine.execMwWait cc ext s
  | .waitLimitExpiry e => Sys2Proof.Machine.execWaitLimitExpiry e s
  | .mwRowEnd cc ext => Sys2Proof.Machine.execMwRowEnd cc ext s
  | .mwTrap cc => Sys2Proof.Machine.execMwTrap cc s
  | .controlStoreWordRestore cw bank addr => Sys2Proof.Machine.execControlStoreWordRestore cw bank addr s
  | .bankSelectWrite role v => Sys2Proof.Machine.execBankSelectWrite role v s
  | .microcodeLoad cwMask bank source addr length => Sys2Proof.Machine.execMicrocodeLoad cwMask bank source addr length s
  | .patchLoad source addr length => Sys2Proof.Machine.execPatchLoad source addr length s
  | .inputPacketArrival port sid layer p => Sys2Proof.Machine.execInputPacketArrival port sid layer p s
  | .gapDeclareTimeout sid layer seq damage => Sys2Proof.Machine.execGapDeclareTimeout sid layer seq damage s
  | .decodeGiveup sid layer pic row => Sys2Proof.Machine.execDecodeGiveup sid layer pic row s
  | .motionDecisionDeadline sid layer pic row => Sys2Proof.Machine.execMotionDecisionDeadline sid layer pic row s
  | .inputTimeout sid layer => Sys2Proof.Machine.execInputTimeout sid layer s
  | .rotationPassStart ic sid pass => Sys2Proof.Machine.execRotationPassStart ic sid pass s
  | .stripWritten ic sid pass pic strip corrected => Sys2Proof.Machine.execStripWritten ic sid pass pic strip corrected s
  | .conditionerOutOfService role ic v => Sys2Proof.Machine.execConditionerOutOfService role ic v s
  | .regionCreate region kind t base size => Sys2Proof.Machine.execRegionCreate region kind t base size s
  | .regionDelete region => Sys2Proof.Machine.execRegionDelete region s
  | .scrub base size => Sys2Proof.Machine.execScrub base size s
  | .fuseRepairSram addr macroFound spare readsBack => Sys2Proof.Machine.execFuseRepairSram addr macroFound spare readsBack s
  | .fuseRepairHbm3Row addr spare passes ns => Sys2Proof.Machine.execFuseRepairHbm3Row addr spare passes ns s
  | .hbmWrite m addr data meet => Sys2Proof.Machine.execHbmWrite m addr data meet s
  | .hbmRead m addr len meet => Sys2Proof.Machine.execHbmRead m addr len meet s
  | .pageWriteBack page => Sys2Proof.Machine.execPageWriteBack page s
  | .refresh stack => Sys2Proof.Machine.execRefresh stack s
  | .lfsrReseed => Sys2Proof.Machine.execLfsrReseed s
  | .hbmTemperatureRead t0 t1 => Sys2Proof.Machine.execHbmTemperatureRead t0 t1 s
  | .retrainDue pc => Sys2Proof.Machine.execRetrainDue pc s
  | .retrainPauseStart pc => Sys2Proof.Machine.execRetrainPauseStart pc s
  | .retrainEnd pc passed ns => Sys2Proof.Machine.execRetrainEnd pc passed ns s
  | .sramCorrectionWriteback loc => Sys2Proof.Machine.execSramCorrectionWriteback loc s
  | .fullingStep st flips => Sys2Proof.Machine.execFullingStep st flips s
  | .pictureRegionWrite role v => Sys2Proof.Machine.execPictureRegionWrite role v s
  | .poolEnableWrite role pool v => Sys2Proof.Machine.execPoolEnableWrite role pool v s
  | .minimumWrite role host inst v => Sys2Proof.Machine.execMinimumWrite role host inst v s
  | .queueAppend q w pri data => Sys2Proof.Machine.execQueueAppend q w pri data s
  | .battDecrement batt => Sys2Proof.Machine.execBattDecrement batt s
  | .cacheRefillDone pool => Sys2Proof.Machine.execCacheRefillDone pool s
  | .cacheSpillDone pool => Sys2Proof.Machine.execCacheSpillDone pool s
  | .replicationCopyDone => Sys2Proof.Machine.execReplicationCopyDone s
  | .queueFlush role g mask => Sys2Proof.Machine.execQueueFlush role g mask s
  | .queueSweepDone => Sys2Proof.Machine.execQueueSweepDone s
  | .receiverDetectStep lane found => Sys2Proof.Machine.execReceiverDetectStep lane found s
  | .linkStagePass p => Sys2Proof.Machine.execLinkStagePass p s
  | .linkStageTimeout p => Sys2Proof.Machine.execLinkStageTimeout p s
  | .linkRetryBackoffExpiry p => Sys2Proof.Machine.execLinkRetryBackoffExpiry p s
  | .trainingFrame lane f => Sys2Proof.Machine.execTrainingFrame lane f s
  | .alignBlock lane index width skew => Sys2Proof.Machine.execAlignBlock lane index width skew s
  | .capabilityPacket p c => Sys2Proof.Machine.execCapabilityPacket p c s
  | .fomMeasurement lane fom => Sys2Proof.Machine.execFomMeasurement lane fom s
  | .blockLockLoss lane hiBer => Sys2Proof.Machine.execBlockLockLoss lane hiBer s
  | .blockLockGained lane => Sys2Proof.Machine.execBlockLockGained lane s
  | .neighbourIdleTimeout p => Sys2Proof.Machine.execNeighbourIdleTimeout p s
  | .pauseBlock p mask => Sys2Proof.Machine.execPauseBlock p mask s
  | .pauseExpiry p => Sys2Proof.Machine.execPauseExpiry p s
  | .pauseRefreshTimer p => Sys2Proof.Machine.execPauseRefreshTimer p s
  | .timingSendTimer p => Sys2Proof.Machine.execTimingSendTimer p s
  | .timingPacket p t => Sys2Proof.Machine.execTimingPacket p t s
  | .chaecPacketReceive p packet => Sys2Proof.Machine.execChaecPacketReceive p packet s
  | .ethernetFrameReceive p frame => Sys2Proof.Machine.execEthernetFrameReceive p frame s
  | .rekeyTimer p => Sys2Proof.Machine.execRekeyTimer p s
  | .rekeyMessage p offer => Sys2Proof.Machine.execRekeyMessage p offer s
  | .rekeyTimeout p => Sys2Proof.Machine.execRekeyTimeout p s
  | .oldKeyExpiry p => Sys2Proof.Machine.execOldKeyExpiry p s
  | .linkRetrain port => Sys2Proof.Machine.execLinkRetrain port s
  | .linkRetrainTimeout p => Sys2Proof.Machine.execLinkRetrainTimeout p s
  | .quadReset qd power => Sys2Proof.Machine.execQuadReset qd power s
  | .mgmtStateChange up speed ipv4 => Sys2Proof.Machine.execMgmtStateChange up speed ipv4 s
  | .fabricSwap at_ => Sys2Proof.Machine.execFabricSwap at_ s
  | .snapshot at_ set => Sys2Proof.Machine.execSnapshot at_ set s
  | .broadcast at_ items => Sys2Proof.Machine.execBroadcast at_ items s
  | .cardStart mode => Sys2Proof.Machine.execCardStart mode s
  | .cardRestart p epoch => Sys2Proof.Machine.execCardRestart p epoch s
  | .cardOffer p o => Sys2Proof.Machine.execCardOffer p o s
  | .offerSendTimer => Sys2Proof.Machine.execOfferSendTimer s
  | .cardChild p epoch serial => Sys2Proof.Machine.execCardChild p epoch serial s
  | .cardCount p c => Sys2Proof.Machine.execCardCount p c s
  | .cardQuietExpiry => Sys2Proof.Machine.execCardQuietExpiry s
  | .cardAssign p a => Sys2Proof.Machine.execCardAssign p a s
  | .cardJoin p serial => Sys2Proof.Machine.execCardJoin p serial s
  | .cardGraft p g => Sys2Proof.Machine.execCardGraft p g s
  | .graftWaitExpiry bands => Sys2Proof.Machine.execGraftWaitExpiry bands s
  | .heartbeatTick => Sys2Proof.Machine.execHeartbeatTick s
  | .heartbeatMiss => Sys2Proof.Machine.execHeartbeatMiss s
  | .cardTimeoutExpiry => Sys2Proof.Machine.execCardTimeoutExpiry s
  | .learnApply => Sys2Proof.Machine.execLearnApply s
  | .agePass => Sys2Proof.Machine.execAgePass s
  | .shadowCompareStep exact slot meet => Sys2Proof.Machine.execShadowCompareStep exact slot meet s
  | .tableSyncInsert table base count => Sys2Proof.Machine.execTableSyncInsert table base count s
  | .tableSyncDelete table base count => Sys2Proof.Machine.execTableSyncDelete table base count s
  | .tableSyncReplaceAll table base count => Sys2Proof.Machine.execTableSyncReplaceAll table base count s
  | .tableSyncDump table base count => Sys2Proof.Machine.execTableSyncDump table base count s
  | .globalAnnounce p a => Sys2Proof.Machine.execGlobalAnnounce p a s
  | .globalOpAct opId => Sys2Proof.Machine.execGlobalOpAct opId s
  | .globalConfirm p opId applied => Sys2Proof.Machine.execGlobalConfirm p opId applied s
  | .globalOpTimeout opId => Sys2Proof.Machine.execGlobalOpTimeout opId s
  | .egressStart p => Sys2Proof.Machine.execEgressStart p s
  | .egressPacketEnd p => Sys2Proof.Machine.execEgressPacketEnd p s
  | .calendarSlot p => Sys2Proof.Machine.execCalendarSlot p s
  | .gateEntryBoundary p => Sys2Proof.Machine.execGateEntryBoundary p s
  | .gateApplyInstall role p => Sys2Proof.Machine.execGateApplyInstall role p s
  | .gateApplyRemove role p => Sys2Proof.Machine.execGateApplyRemove role p s
  | .gateChangeStart p => Sys2Proof.Machine.execGateChangeStart p s
  | .pcieFunctionReset => Sys2Proof.Machine.execPcieFunctionReset s
  | .pcieRequestsBlocked cause => Sys2Proof.Machine.execPcieRequestsBlocked cause s
  | .pcieRequestsAllowed cause => Sys2Proof.Machine.execPcieRequestsAllowed cause s
  | .d0Return => Sys2Proof.Machine.execD0Return s
  | .msixUnmask what => Sys2Proof.Machine.execMsixUnmask what s
  | .bar2Access offset read write meet => Sys2Proof.Machine.execBar2Access offset read write meet s
  | .windowBaseWrite v => Sys2Proof.Machine.execWindowBaseWrite v s
  | .bar0MisuseAccess offset size => Sys2Proof.Machine.execBar0MisuseAccess offset size s
  | .mbxDoorbell length buffer => Sys2Proof.Machine.execMbxDoorbell length buffer s
  | .mbxCopyDone => Sys2Proof.Machine.execMbxCopyDone s
  | .mbxRelease => Sys2Proof.Machine.execMbxRelease s
  | .dmaRun ch => Sys2Proof.Machine.execDmaRun ch s
  | .dmaStop ch => Sys2Proof.Machine.execDmaStop ch s
  | .dmaClearError ch => Sys2Proof.Machine.execDmaClearError ch s
  | .dmaDoorbell ch => Sys2Proof.Machine.execDmaDoorbell ch s
  | .dmaDescriptorFetched ch d hostData meet => Sys2Proof.Machine.execDmaDescriptorFetched ch d hostData meet s
  | .dmaReadbackDone ch => Sys2Proof.Machine.execDmaReadbackDone ch s
  | .dmaHostReadError ch received => Sys2Proof.Machine.execDmaHostReadError ch received s
  | .dmaQueuePacketReady ch => Sys2Proof.Machine.execDmaQueuePacketReady ch s
  | .dmaBattAvailable ch => Sys2Proof.Machine.execDmaBattAvailable ch s
  | .coalesceTimerExpiry src => Sys2Proof.Machine.execCoalesceTimerExpiry src s
  | .claim v => Sys2Proof.Machine.execClaim v s
  | .complete v src => Sys2Proof.Machine.execComplete v src s
  | .fastClaim => Sys2Proof.Machine.execFastClaim s
  | .fastComplete src => Sys2Proof.Machine.execFastComplete src s
  | .srcCfgWrite src v => Sys2Proof.Machine.execSrcCfgWrite src v s
  | .streamEvtClear sid mask => Sys2Proof.Machine.execStreamEvtClear sid mask s
  | .faultMessage m => Sys2Proof.Machine.execFaultMessage m s
  | .rowWatchdogExpiry w => Sys2Proof.Machine.execRowWatchdogExpiry w s
  | .cpWatchdogExpiry => Sys2Proof.Machine.execCpWatchdogExpiry s
  | .captureClear role => Sys2Proof.Machine.execCaptureClear role s
  | .stickyWrite role unit v => Sys2Proof.Machine.execStickyWrite role unit v s
  | .clearAll role v => Sys2Proof.Machine.execClearAll role v s
  | .attest nonce => Sys2Proof.Machine.execAttest nonce s
  | .debugToken role token => Sys2Proof.Machine.execDebugToken role token s
  | .debugSeal role v => Sys2Proof.Machine.execDebugSeal role v s
  | .ownerKeyHashWrite role hash => Sys2Proof.Machine.execOwnerKeyHashWrite role hash s
  | .flashProgram role v => Sys2Proof.Machine.execFlashProgram role v s
  | .flashProgramDone readsBack => Sys2Proof.Machine.execFlashProgramDone readsBack s
  | .islandWatchdogExpiry => Sys2Proof.Machine.execIslandWatchdogExpiry s
  | .trngHealthFailure => Sys2Proof.Machine.execTrngHealthFailure s
  | .islandMonitorExcursion => Sys2Proof.Machine.execIslandMonitorExcursion s
  | .porstN high bootPins => Sys2Proof.Machine.execPorstN high bootPins s
  | .wrstN lowNs => Sys2Proof.Machine.execWrstN lowNs s
  | .warmReset => Sys2Proof.Machine.execWarmReset s
  | .warmResetDelayExpiry => Sys2Proof.Machine.execWarmResetDelayExpiry s
  | .railExcursion rail => Sys2Proof.Machine.execRailExcursion rail s
  | .pllLockLoss pll => Sys2Proof.Machine.execPllLockLoss pll s
  | .railsBackWithinTolerance => Sys2Proof.Machine.execRailsBackWithinTolerance s
  | .startUpStep meet => Sys2Proof.Machine.execStartUpStep meet s
  | .avsReadbackTimeout readMv => Sys2Proof.Machine.execAvsReadbackTimeout readMv s
  | .thermalReading temps => Sys2Proof.Machine.execThermalReading temps s
  | .conditionerHalfPowerUpDone half => Sys2Proof.Machine.execConditionerHalfPowerUpDone half s
  | .conditionerHalfIdleExpiry half => Sys2Proof.Machine.execConditionerHalfIdleExpiry half s

end Sys2Proof.Machine
end

