-- ==== Sys2Proof/Machine/Tick.lean ====
section
/-! DEFINITION. The passage of one cycle of the 1.2 GHz clock while no command waits: the cycle count, the raster positions
(R8, R21), the cells' cycle counters (R121), and the DMA engine's chunks (R434). -/

namespace Sys2Proof.Machine

/-- A running domain one cycle on: its position advances by RATE_NUM × (L × 65,536 + slew) / (RATE_DEN × 1.2 × 10^9) line
ticks; it waits at the last tick of a frame for the frame-start event. [DESIGN CHOICE, unsafe: log entry 1.] -/
def RasterDomain.tick (d : RasterDomain) (num den l : Nat) : RasterDomain :=
  let acc := d.acc + num * ((l * 65536 : Nat) + d.slew).toNat
  let per := den * 1200000000
  let n := d.pos.line * 65536 + d.pos.phase + acc / per
  let pos : RTime :=
    if n < l * 65536 then ⟨d.pos.frame, n / 65536, n % 65536⟩ else ⟨d.pos.frame, l - 1, 65535⟩
  { d with acc := acc % per, pos := pos, landed := d.landed && decide (pos.line = 0) }

/-- The end of a correction, once cycle c has removed the measured error (R21). -/
def RasterDomain.endSlew (d : RasterDomain) (c : Nat) : RasterDomain :=
  match d.slewEnd with
  | some e => if e ≤ c then { d with slew := 0, slewEnd := none } else d
  | none => d

/-- Advances every enabled domain by one cycle. -/
def State.tickRaster (s : State) : State :=
  (List.range 8).foldl (fun t rd =>
    if s.enabled rd then
      t.setDom rd (((s.dom rd).tick (s.get Od.rd_RATE_NUM rd) (s.get Od.rd_RATE_DEN rd) (s.lpf rd)).endSlew (s.cycle + 1))
    else t) s

/-- The counter that a crown cycle of a cell increments (R121). [DESIGN CHOICE, unsafe: log entry 38.] -/
def State.cycleCounter (s : State) (cc : Nat) : Row :=
  if s.cellState cc = cellRetired then Od.cell_CYCLES_IDLE
  else match (s.cell cc).row with
    | none => Od.cell_CYCLES_IDLE
    | some r =>
      if r.waitDep then Od.cell_CYCLES_WAIT_DEP
      else if r.waitMem || s.bankWaits cc then Od.cell_CYCLES_WAIT_MEM
      else Od.cell_CYCLES_BUSY

/-- A crown that is neither parked nor waking has a cycle of its own clock within this cycle of 1.2 GHz. -/
def State.crownCycle (s : State) (cw : Nat) : Bool :=
  let mhz := s.get Od.crown_CLOCK_MHZ cw
  decide (2 ≤ s.get Od.crown_POWER_STATE cw ∧ s.cycle * mhz / 1200 < (s.cycle + 1) * mhz / 1200)

/-- A crown cycle of a crown's store: every bank that is asked serves one cell, and each of the others has waited (R108). -/
def State.serveBanks (s : State) (cw : Nat) : State :=
  let x := s.crown cw
  let left := x.asks.map fun e => (e.1, match x.served e.1 with
    | some c => e.2.filter fun d => d ≠ c
    | none => [])
  let turn := x.asks.foldl (fun t e => match x.served e.1 with
    | some c => tput t 7 e.1 c
    | none => t) x.turn
  if x.asks = [] then s
  else (s.setCrown cw { x with asks := left.filter fun e => e.2 ≠ [], turn := turn }).bumpBy Od.crown_BANK_CONFLICTS cw 0
    ((left.map fun e => e.2.length).sum)

/-- A crown cycle of a cell's row counts towards its watchdog unless it waits for the row above, a fill or a batt (R449). -/
def Cell.runCycle (x : Cell) : Cell := match x.row with
  | none => x
  | some r => if r.waitDep || r.waitMem then x else { x with row := some { r with busy := r.busy + 1 } }

/-- A crown cycle of a cell: its cycle counter, its row's watchdog, and a WAIT that repeats (R121, R129, R449).
[DESIGN CHOICE, unsafe: log entry 38.] -/
def State.tickCell (s t : State) (cc : Nat) : State :=
  let t := t.bump (s.cycleCounter cc) cc
  let t := t.setCell cc (t.cell cc).runCycle
  if (t.cell cc).waited = 0 then t else t.setCell cc { t.cell cc with waited := (t.cell cc).waited + 1 }

/-- The cells' cycles, and those of the crown stores. [DESIGN CHOICE, unsafe: log entry 38.] -/
def State.tickCells (s : State) : State :=
  let t := (List.range 128).foldl (fun t cc => if s.crownCycle (cc / 8) then State.tickCell s t cc else t) s
  (List.range 16).foldl (fun t cw => if s.crownCycle cw then t.serveBanks cw else t) t

/-- The holds of R92 and R498 in this cycle: since when each crown's load has allowed a lower clock, and each powered half has
held no pass. -/
def State.watchHolds (s : State) : State :=
  let t := (List.range 16).foldl (fun t cw =>
    let low := stands (s.crown cw).lowAt (s.loadLow cw) s.cycle
    if (s.crown cw).lowAt = low then t
    else t.setCrown cw { t.crown cw with lowAt := low, downDue := (t.crown cw).downDue && low.isSome }) s
  let idle := (List.range 2).foldl (fun u h =>
    tput u none h (stands (tget s.power.halfIdle none h) (s.half h == 1 && !s.halfUsed h) s.cycle)) s.power.halfIdle
  { t with power := { t.power with halfIdle := idle } }

/-- Blocks that a lane has had slots for since reset: 10.3125 Gbaud over 66 bits, in cycles of 1.2 GHz (R333). -/
def blockSlots (cycles : Nat) : Nat := cycles * 25 / 192

/-- Every 16,384 blocks the lanes of each band in LOCK or later send ALIGN (R334, R338). -/
def State.sendAligns (s : State) : State :=
  if blockSlots (s.cycle + 1) / 16384 = blockSlots s.cycle / 16384 then s
  else (List.range 128).foldl (fun t p =>
    if t.isBand p && decide (3 ≤ (t.link p).stage) then
      (t.lanesInUse p).foldl (fun u l =>
        u.emit (.block l blockAlign (u.get Od.lane_LANE_INDEX l + 256 * (u.link p).inUse.length))) t
    else t) s

/-- What a cycle does to the units: the holds, raster positions, cells, the DMA engine, the lanes' ALIGN blocks, and the batts that
the cycle before has released. -/
def State.runCycle (s : State) : State :=
  ({ s.watchHolds.tickRaster.tickCells.serveDma.sendAligns with cycle := s.cycle + 1 }).returnBatts

/-- One cycle passes; the queue of commands is no part of it. [DESIGN CHOICE, unsafe: log entry 1.] -/
def State.tick (s : State) : State :=
  if s.power.porst then { s.runCycle with cycle := s.cycle + 1, pending := s.pending } else s

end Sys2Proof.Machine
end

