-- ==== Sys2Proof/Safety.lean ====
section
/-! DEFINITION. What a safe run is, and the terms in which statements speak of a step's result. -/

namespace Sys2Proof.Safety

open Sys2Proof.Machine

/-- HBM3's bytes are in canonical form: addresses strictly rising, no byte equal to what an unlisted address reads as. -/
def memoryForm (s : State) : Bool := tsorted s.mem.bytes && s.mem.bytes.all fun e => e.2 != 0#8

/-- The state t is u after the notifications and interrupt messages that end a meaning (R61, R421, R422, R438): of the IOP
service only sessions, the NOTIFY frames in flight and the next IP identification, of the host interface only the response buffer and its queue, the
mailbox's sources 65 and 66, the vectors and the counts of messages, and the record of outputs may differ. -/
def Settled (u t : State) : Prop :=
  t = { u with
    iop := { u.iop with sessions := t.iop.sessions, inFlight := t.iop.inFlight, ipIdent := t.iop.ipIdent }
    host := { u.host with
      executing := t.host.executing, respReady := t.host.respReady, respType := t.host.respType, respLen := t.host.respLen
      respBuf := t.host.respBuf, respWaiting := t.host.respWaiting, notifyWaiting := t.host.notifyWaiting
      sources := t.host.sources, vectors := t.host.vectors, messages := t.host.messages, heldCount := t.host.heldCount
      pmeSent := t.host.pmeSent, pmeStatus := t.host.pmeStatus }
    out := t.out } ∧
  ∀ src, src ≠ 65 → src ≠ 66 → t.irq src = u.irq src

/-- The command i completes in state s with the effect u: exec answers a next state, which is u but for notifications and
interrupt messages. -/
def Ends (i : Instr) (s u : State) : Prop := ∃ t, exec i s = .next t ∧ Settled u t

/-- The command i completes in state s exactly with the effect u and what settles at its end: nothing but u.settle follows. -/
def Completes (i : Instr) (s u : State) : Prop := exec i s = .next u.settle

/-- A frame with a good head of a TYPE (R48): MAGIC, VERSION and LENGTH. -/
def Framed (frame : List Byte) (ty : Nat) : Prop :=
  frame.take 3 = [0x49#8, 0x4F#8, 0x01#8] ∧ 16 ≤ frame.length ∧ leAt frame 6 2 = frame.length ∧ leAt frame 3 1 = ty

/-- The command that a frame from `o` is, by its TYPE (R48): what no client's frame is comes as a REQUEST. -/
def frameCommand (o : Origin) (f : List Byte) : Instr :=
  if leAt f 3 1 = 0x01 then .hello o f
  else if leAt f 3 1 = 0x03 then .prove o f
  else if leAt f 3 1 = 0x21 then .notifyAck o f
  else if leAt f 3 1 = 0x30 then .close o f
  else .request o f

/-- A frame from the mailbox starts EXECUTING (R421). -/
def beforeFrame (o : Origin) (s : State) : State := if o = .mailbox then s.startExecuting else s

/-- The request of the mailbox is not outstanding: its next frame is taken (R47). A frame from elsewhere is always taken. -/
def Free (o : Origin) (s : State) : Prop := o = .mailbox → s.host.outstanding = false

/-- A frame from the mailbox that has no answer ends EXECUTING; one from elsewhere does not touch the mailbox (R421). -/
def afterFrame (o : Origin) (s : State) : State := if o = .mailbox then s.endExecuting else s

/-- A command of the code runs with these arguments, their reserved bytes left out (R6), and has no result yet (R65). -/
def Running (s : State) (code : Nat) (args : List Byte) : Prop :=
  ∃ e, (s.cmdQueue code).running = some e ∧ e.result = none ∧ e.args = plainArgs code args

/-- The command of a row is taken with these arguments, and u is the state in which it has its effect: it runs already, as
a ticket of its queue, or nothing that excludes it runs, and it takes a ticket and starts (R65; log entry 32). -/
def Taken (s : State) (code : Nat) (args : List Byte) (u : State) : Prop :=
  (Running s code args ∧ u = s) ∨
    (s.live = true ∧ (s.halted = false ∨ code = 0x70) ∧ s.mayStart code = true ∧ (s.cmdQueue code).waiting = [] ∧
      u = s.acceptCommand code 0 args none)

/-- The write that names an object by its row and instance. -/
def writingOf (r : Row) (i : Nat) (value : List Byte) : Writing := ⟨r, i, 0, value⟩

/-- A write of a value passes every test of R50: the dictionary is live, the object is named with its type and length by a role
that may write it, the value is in range, and the binding rules allow it. -/
def Accepted (s : State) (role : Role) (r : Row) (i : Nat) (value : List Byte) : Prop :=
  s.live = true ∧ plainTest (roleRank role) false ⟨r.base + i, r.sub, r.ty.code, value⟩ = .inr (writingOf r i value) ∧
    s.lateTest (s.stage s (writingOf r i value)) (writingOf r i value) = Status.ok

/-- `Accepted` for a number that the object's type holds. -/
def AcceptedNum (s : State) (role : Role) (r : Row) (i v : Nat) : Prop :=
  v < r.modulus ∧ Accepted s role r i (leBytes r.ty.size v)

/-- The state after a write without a swap point: the value is active, and none waits in the object's shadow. -/
def stored (s : State) (r : Row) (i v : Nat) : State :=
  { s.set r i v with shadow := tdel s.shadow (r.key i 0) }

/-- The last write or command that the operands name succeeded. -/
def succeeded (s : State) : State := { s with lastStatus := Status.ok }

/-- Every vector with a pending source has sent its message, or holds it (R438, R441): it is not ARMED. -/
def messagesSent (s : State) : Prop := ∀ v < 64, s.pendingOn v ≠ [] → (s.vector v).sent = true

end Sys2Proof.Safety
end

