-- ==== Sys2Proof/Certificates/Slice0/Obligations.lean ====
section
/-! DEFINITION. The statements for the provers, by families of commands. `Completes i s u` says that the command i completes in
state s, and that its next state is u with the notifications and interrupt messages that end a meaning; so u gives both the
effect and the frame. `Ends i s u` says the same of a command after which they may or may not follow. -/

open Sys2Proof Sys2Proof.Machine Sys2Proof.Safety

/-! ### The queue and the clock -/

/-- The block's frame: a step takes the command at the front of the queue and is exec of it on the state with the queue's rest
(first in, first out); on an empty queue one cycle of the 1.2 GHz clock passes, and none while PORST_N is low (the model's choice,
log entry 1). -/
def Obligations.StepRunsTheFrontCommand : Prop :=
  (∀ (c : Instr) (rest : List Instr) (s : State), s.pending = c :: rest → step s = exec c { s with pending := rest }) ∧
  (∀ s : State, s.pending = [] → step s = .next s.tick.settle) ∧
  (∀ s : State, s.power.porst = true → s.tick.cycle = s.cycle + 1 ∧ s.tick.pending = s.pending) ∧
  (∀ s : State, s.power.porst = false → s.tick = s)

/-- R39, R507: after reset the queue is empty, every object of the dictionary has its default, no shadow waits, nothing is
stored, start-up stands at its first step and the dictionary is not live.
Clauses of it rest on the model's choices: log entry 10 (memory that nothing has written reads as 0), 12 (defaults that the spec does not give). -/
def Obligations.ResetHasDefaults : Prop :=
  State.reset.pending = [] ∧ (∀ (r : Row) (i j : Nat), State.reset.get r i j = r.default i j) ∧
  (∀ (r : Row) (i : Nat), State.reset.blob r i = []) ∧ State.reset.shadow = [] ∧ State.reset.blobsShadow = [] ∧
  (∀ a : Nat, State.reset.hbmByte a = 0#8) ∧ (∀ sid : Nat, State.reset.streamState sid = stClosed) ∧
  State.reset.enabled 0 = true ∧ (∀ rd : Nat, 0 < rd → State.reset.enabled rd = false) ∧
  State.reset.faults.log = [] ∧ State.reset.iop.sessions = [] ∧ State.reset.power.step = 1 ∧ State.reset.live = false ∧
  State.reset.halted = false

/-! ### Raster time (R8–R36) -/

/-- R25, R22: FRAME_START of an enabled domain enters the frame (the position moves to LINE 0 of the next frame unless the
domain stands there already), raises source 225 + 2 × rd and
lets each stream of the domain enter the frame; LINE_MATCH raises source 226 + 2 × rd and changes nothing else. A frame that a
jump repeats raises neither a second time. A disabled
domain's events change nothing. Both sources are in the fast class by default.
Clauses of it rest on the model's choices: log entry 4 (a disabled domain's events change nothing), 26 (which events are repeated). -/
def Obligations.FrameAndLineEvents : Prop :=
  (∀ (rd : Fin 8) (s : State), s.enabled rd = true →
    let d := s.dom rd
    let t := s.setDom rd { d with
      pos := if d.landed then d.pos else ⟨(d.pos.frame + 1) % 2 ^ 40, 0, 0⟩
      landed := false }
    let f := (t.now rd).frame
    let u := (t.setDom rd { t.dom rd with startedTo := some f }).raise (225 + 2 * rd)
    let v := (u.streamsOn rd).foldl (fun t sid => t.streamFrame sid f) u
    (notYet d.startedTo f = true → Completes (.frameStart rd) s (if rd.val = 0 then v.notifyAll Subscription.frameStart else v)) ∧
    (notYet d.startedTo f = false → Completes (.frameStart rd) s t)) ∧
  (∀ (rd : Fin 8) (s : State), s.enabled rd = true →
    let d := s.dom rd
    (notYet d.matchedTo (s.now rd).frame = true →
      Completes (.lineMatch rd) s ((s.setDom rd { d with matchedTo := some (s.now rd).frame }).raise (226 + 2 * rd))) ∧
    (notYet d.matchedTo (s.now rd).frame = false → Completes (.lineMatch rd) s s)) ∧
  (∀ (rd : Fin 8) (s : State), s.enabled rd = false → Completes (.frameStart rd) s s ∧ Completes (.lineMatch rd) s s) ∧
  (∀ a : Nat, notYet none a = true ∧ ∀ b < 2 ^ 40, a < 2 ^ 40 →
    (notYet (some b) a = true ↔ 0 < (a + 2 ^ 40 - b) % 2 ^ 40 ∧ (a + 2 ^ 40 - b) % 2 ^ 40 < 2 ^ 39)) ∧
  (∀ rd < 8, cfgFast (srcCfgReset (225 + 2 * rd)) = true ∧ cfgFast (srcCfgReset (226 + 2 * rd)) = true)

/-- R26, R31: an event whose LINE is no smaller than LINES_PER_FRAME occurs at LINE 0 of the next frame. The earliest event of a
domain, its time come, occurs and leaves the list: the swap of a SWAP_NOW's scope, or what is armed for a global operation.
Before its time, and with nothing scheduled, nothing happens. SWAP_NOW schedules its scope's swap at the start of the domain's
next line and returns that time; of a disabled domain it answers NO_SUCH_TARGET, and another SCOPE is OUT_OF_RANGE.
Clauses of it rest on the model's choices: log entry 28 (how times of several domains compare, the answer to another SCOPE), 32
(a command given without a ticket). -/
def Obligations.ScheduledEvents : Prop :=
  (∀ (rd : Nat) (s : State) (t : RTime), (s.lpf rd ≤ t.line → s.occursAt rd t = ⟨(t.frame + 1) % 2 ^ 40, 0, 0⟩) ∧
    (t.line < s.lpf rd → s.occursAt rd t = t)) ∧
  (∀ (rd : Fin 8) (s : State) (e : Sched), s.nextSched rd = some e → s.later rd (s.occursAt rd e.at_) (s.now rd) = false →
    (∀ scope, e.kind = .swapNow scope → Completes (.rasterEventDue rd) s
      (({ s with raster := { s.raster with sched := s.raster.sched.erase e } } : State).swapScheduled scope)) ∧
    (∀ id, e.kind = .globalOp id → let u := s.actOps id
      Completes (.rasterEventDue rd) s { u with raster := { u.raster with sched := u.raster.sched.erase e } })) ∧
  (∀ (rd : Fin 8) (s : State) (e : Sched), s.nextSched rd = some e → s.later rd (s.occursAt rd e.at_) (s.now rd) = true →
    Completes (.rasterEventDue rd) s s) ∧
  (∀ (rd : Fin 8) (s : State), s.nextSched rd = none → Completes (.rasterEventDue rd) s s) ∧
  (∀ (scope : Nat) (s u : State), Taken s 0x10 (leBytes 2 scope) u → (scope < 128 ∨ scope = 0xFFFF) →
    let rd := if scope = 0xFFFF then 0 else u.portDomain scope
    (u.enabled rd = true →
      Completes (.swapNow scope) s (({ u with raster := { u.raster with
        sched := u.raster.sched ++ [(⟨rd, u.nextLine rd, .swapNow scope⟩ : Sched)] } } : State).attach 0x10 Result.ok
          (leBytes 9 (RTime.word (u.nextLine rd))))) ∧
    (u.enabled rd = false → Completes (.swapNow scope) s (u.attach 0x10 Result.noSuchTarget []))) ∧
  (∀ (scope : Nat) (s : State), 128 ≤ scope → scope ≠ 0xFFFF → Completes (.swapNow scope) s { s with lastStatus := Status.outOfRange })

/-- R20: an edge of the selected polarity on REF_FRAME_k is measured by each domain that locks to it and has not seen one in
the present window: its error is the window's expected instant less FRAME_OFFSET, minus the present. At the close of a window an
edge seen clears the run of misses; a window without one counts one more, and MISS_LIMIT of them lose the reference, so that a
LOCKED domain enters HOLDOVER and keeps the frequency measured last, and one that is not LOCKED stays where it is.
Clauses of it rest on the model's choices: log entry 24 (a phase error that its object cannot hold), 25 (the frequency kept). -/
def Obligations.ReferenceEdges : Prop :=
  (∀ (pin : Fin 4) (falling : Bool) (s : State),
    Completes (.refFrameEdge pin falling) s ((List.range 8).foldl (fun t rd =>
      if (t.enabled rd && decide ((t.dom rd).src = 1)) && decide (t.get Od.rd_SOURCE_SEL rd = pin ∧
          t.get Od.rd_EDGE_POLARITY rd = b2n falling) then
        if (t.dom rd).edgeSeen then t
        else (t.setDom rd { t.dom rd with edgeSeen := true }).measure rd (t.edgeError rd)
      else t) s)) ∧
  (∀ (rd : Fin 8) (s : State), s.enabled rd = true → (s.dom rd).src = 1 →
    ((s.dom rd).edgeSeen = true →
      Completes (.edgeWindowClose rd) s (s.setDom rd { s.dom rd with edgeSeen := false, misses := 0 })) ∧
    ((s.dom rd).edgeSeen = false →
      let u := s.setDom rd { s.dom rd with misses := (s.dom rd).misses + 1 }
      ((s.dom rd).misses + 1 < s.get Od.rd_MISS_LIMIT rd ∨ s.get Od.rd_LOCK_STATE rd ≠ 2 → Completes (.edgeWindowClose rd) s u) ∧
      (s.get Od.rd_MISS_LIMIT rd ≤ (s.dom rd).misses + 1 → s.get Od.rd_LOCK_STATE rd = 2 →
        Completes (.edgeWindowClose rd) s ((u.setDom rd { u.dom rd with
          holdoverAt := s.cycle, slew := (u.dom rd).freq, slewEnd := none }).setLock rd 3)))) ∧
  (∀ (rd : Fin 8) (s : State), s.enabled rd = false ∨ (s.dom rd).src ≠ 1 → Completes (.edgeWindowClose rd) s s)

/-- R17, R18, R20: the PTP instance, enabled, takes a message on PTP_PORT, in PTP_DOMAIN and with DELAY_MECH: it
sets PTP_STATE, MASTER_OFFSET and GM_IDENTITY, and one that gives the time is kept and measured
by every domain that locks to PTP, by one in HOLDOVER only in slave state. Another message changes nothing.
When the instance leaves slave, every such domain that is LOCKED enters HOLDOVER and keeps the frequency measured last. After
HOLDOVER_TIME seconds, and not before, a FALLBACK other than FREE is tried as a write of SOURCE would be: from the domain's next swap point.
Clauses of it rest on the model's choices: log entry 25 (the frequency kept), 27 (the states in which a time is measured). -/
def Obligations.PtpAndHoldover : Prop :=
  (∀ (u : PtpUpdate) (s : State), s.flag Od.ptp_PTP_ENABLE = true → u.port = s.get Od.ptp_PTP_PORT →
    u.domain = s.get Od.ptp_PTP_DOMAIN → u.mech = s.get Od.ptp_DELAY_MECH → (u.port < 128 → s.isBand u.port = false) → u.state < 5 →
    let v := ((s.setPtpState u.state).setInt Od.ptp_MASTER_OFFSET 0 u.offsetNs).set Od.ptp_GM_IDENTITY 0 u.gm
    (u.timeNs = none → Completes (.ptpMessage u) s v) ∧
    (∀ t, u.timeNs = some t → Completes (.ptpMessage u) s ((List.range 8).foldl (fun x rd =>
      if x.locksTo rd 2 && decide (x.get Od.rd_LOCK_STATE rd ≠ 3 ∨ x.get Od.ptp_PTP_STATE = 3) then
        x.measure rd (x.ptpError rd t)
      else x) { v with raster := { v.raster with ptpTime := some (v.cycle, t) } }))) ∧
  (∀ (u : PtpUpdate) (s : State), s.flag Od.ptp_PTP_ENABLE = false ∨ u.port ≠ s.get Od.ptp_PTP_PORT ∨
    u.domain ≠ s.get Od.ptp_PTP_DOMAIN ∨ u.mech ≠ s.get Od.ptp_DELAY_MECH ∨ (u.port < 128 ∧ s.isBand u.port = true) →
      Completes (.ptpMessage u) s s) ∧
  (∀ (st : Nat) (s : State), s.flag Od.ptp_PTP_ENABLE = true → s.get Od.ptp_PTP_STATE = 3 → st < 5 → st ≠ 3 →
    Completes (.ptpStateLeavesSlave st) s ((List.range 8).foldl (fun x rd =>
      if x.enabled rd && decide ((x.dom rd).src = 2) then
        if x.get Od.rd_LOCK_STATE rd = 2 then (x.setDom rd { x.dom rd with
          holdoverAt := x.cycle, slew := (x.dom rd).freq, slewEnd := none }).setLock rd 3
        else x
      else x) ((s.set Od.ptp_PTP_STATE 0 st).raise 246))) ∧
  (∀ (st : Nat) (s : State), s.flag Od.ptp_PTP_ENABLE = false ∨ s.get Od.ptp_PTP_STATE ≠ 3 ∨ st % 5 = 3 →
    Completes (.ptpStateLeavesSlave st) s s) ∧
  (∀ (rd : Fin 8) (s : State), s.enabled rd = true → s.get Od.rd_LOCK_STATE rd = 3 → s.get Od.rd_FALLBACK rd ≠ 0 →
    (s.dom rd).holdoverAt + secCycles (s.get Od.rd_HOLDOVER_TIME rd) ≤ s.cycle → Completes (.holdoverTimeout rd) s (s.setDom rd { s.dom rd with nextSrc := some (s.get Od.rd_FALLBACK rd) })) ∧
  (∀ (rd : Fin 8) (s : State), s.enabled rd = false ∨ s.get Od.rd_LOCK_STATE rd ≠ 3 ∨ s.get Od.rd_FALLBACK rd = 0 ∨
      s.cycle < (s.dom rd).holdoverAt + secCycles (s.get Od.rd_HOLDOVER_TIME rd) → Completes (.holdoverTimeout rd) s s)

/-- R21, R22, R27–R30, R406: a jump that is due in ACQUIRING first runs, in raster-time order, every event between the present and the
landing that has not occurred; then it lands at the start of LINE 0 of the frame that
the reference gives with nothing left to correct, counts in LOCK_EVENTS and resets the domain's shapers, and its gate lists stand
where the new time puts them; a jump that is not due, or that names another frame than the reference's, does nothing. A swap point
whose domain runs without SWAP_HOLD swaps its scope; one that is held, or whose domain is disabled, changes nothing.
Clauses of it rest on the model's choices: log entry 26 (which events a jump cuts off), 4 (a swap point that is held changes nothing). -/
def Obligations.JumpsAndSwapPoints : Prop :=
  (∀ (rd : Fin 8) (s : State), s.enabled rd = true → (s.dom rd).jumpDue = true → s.get Od.rd_LOCK_STATE rd = 1 →
    let frame := s.jumpFrame rd
    let v := (s.cutEvents rd ⟨frame, 0, 0⟩).foldl (fun t e => t.runCut rd (s.now rd) e) s
    let w := v.setDom rd { v.dom rd with
      pos := ⟨frame, 0, 0⟩, acc := 0, slew := 0, slewEnd := none, lastRef := none
      lastFrame := (v.dom rd).lastFrame.map fun _ => frame
      jumpDue := false, landed := true }
    Completes (.rasterJump rd frame) s ((List.range 128).foldl (fun u p => if u.portDomain p = rd then u.passGate p else u)
      ((w.bump Od.rd_LOCK_EVENTS rd).jumpShapers rd))) ∧
  (∀ (rd : Fin 8) (refFrame : Nat) (s : State), s.enabled rd = false ∨ (s.dom rd).jumpDue = false ∨ s.get Od.rd_LOCK_STATE rd ≠ 1 ∨
      refFrame ≠ s.jumpFrame rd →
    Completes (.rasterJump rd refFrame) s s) ∧
  (∀ (rd : Nat) (s : State) (landing : RTime), s.later rd landing (s.now rd) = false → s.cutEvents rd landing = []) ∧
  (∀ (sc : SwapScope) (s : State), s.swaps sc = true → Completes (.swapPoint sc) s (s.swap sc)) ∧
  (∀ (sc : SwapScope) (s : State), s.swaps sc = false → Completes (.swapPoint sc) s s)

/-! ### Carding (R358–R372) -/

/-- R361, R368, R372: a RESTART of a higher epoch on a band of carding is taken: operations that are armed are discarded,
carding state is cleared, EPOCH is the new one, the device has no address, block or parent and is its own root, and the RESTART
goes on over every other band. CARD_START with MODE 0, and a device other than the root whose parent's HB_SEQ stands still for
HEARTBEAT_MISS × 10 ms
outside a graft, start an epoch one above the highest known. The root counts HB_SEQ on every 10 ms. When CARD_TIMEOUT has passed, a
device that has sent a JOIN is ISOLATED, and another one's carding fails with FAIL_CAUSE 4, as does its CARD_START.
Clauses of it rest on the model's choices: log entries 50 (readings of carding), 4 (what is not due changes nothing), 32. -/
def Obligations.CardingEpochs : Prop :=
  let taken : State → Nat → Option Nat → State := fun s e but =>
    let u := ((((((((s.discardOps).set Od.card_EPOCH 0 e).set Od.card_OWN_ADDR 0 0xFFFF).set Od.card_BLOCK 0 0).set
      Od.card_ROOT_SERIAL 0 s.discardOps.serial).set Od.card_PARENT_PORT 0 255).set Od.card_DEPTH 0 0).set Od.card_FAIL_CAUSE 0 0).set
      Od.card_MAX_DEPTH 0 0
    let v := u.setCard { epochAt := u.cycle, changedAt := u.cycle, valuesAt := u.cycle, hbAt := u.cycle, starting := u.card.starting }
    (v.setCardState 1).sendCards (v.cardBands.filter fun p => decide (some p ≠ but)) (leBytes 1 1 ++ leBytes 4 e)
  let own : State → Nat := fun s =>
    (s.card.neighbours.foldl (fun m n => max m n.offer.epoch) (s.get Od.card_EPOCH) + 1) % 2 ^ 32
  (∀ (p : Fin 128) (e : Nat) (s : State), s.cardBand p = true → s.get Od.card_EPOCH < e →
    Completes (.cardRestart p e) s (taken s e (some p))) ∧
  (∀ (p : Fin 128) (e : Nat) (s : State), s.cardBand p = false ∨ e ≤ s.get Od.card_EPOCH → Completes (.cardRestart p e) s s) ∧
  (∀ s x : State, Taken s 0x41 [0#8] x →
    let u := x.setCard { x.card with starting := true }
    Completes (.cardStart 0) s (taken u (own u) none)) ∧
  (∀ (mode : Nat) (s x : State), mode ≠ 0 → Taken s 0x41 (leBytes 1 mode) x →
    Completes (.cardStart mode) s (x.attach 0x41 Result.outOfRange [])) ∧
  (∀ s : State,
    (s.get Od.card_CARD_STATE = 2 → s.get Od.card_DEPTH ≠ 0 → s.card.grafting = false →
      s.card.hbAt + msCycles (10 * s.get Od.card_HEARTBEAT_MISS) ≤ s.cycle → Completes .heartbeatMiss s (taken s (own s) none)) ∧
    (s.get Od.card_CARD_STATE ≠ 2 ∨ s.get Od.card_DEPTH = 0 ∨ s.card.grafting = true ∨
      s.cycle < s.card.hbAt + msCycles (10 * s.get Od.card_HEARTBEAT_MISS) → Completes .heartbeatMiss s s)) ∧
  (∀ s : State,
    (s.get Od.card_CARD_STATE = 2 → s.get Od.card_DEPTH = 0 → (∀ a, s.card.tickAt = some a → a + msCycles 10 ≤ s.cycle) →
      Completes .heartbeatTick s (s.setCard { s.card with hbSeq := (s.card.hbSeq + 1) % 2 ^ 32, tickAt := some s.cycle })) ∧
    (s.get Od.card_CARD_STATE ≠ 2 ∨ s.get Od.card_DEPTH ≠ 0 ∨ (∃ a, s.card.tickAt = some a ∧ s.cycle < a + msCycles 10) →
      Completes .heartbeatTick s s)) ∧
  (∀ s : State, s.get Od.card_CARD_STATE = 1 → s.card.epochAt + msCycles (s.get Od.card_CARD_TIMEOUT) ≤ s.cycle →
    let u := ((s.set Od.card_FAIL_CAUSE 0 4).setCardState 4).reportInfo 291 0x38 4
    (s.card.joining = true → Completes .cardTimeoutExpiry s ((s.setCardState 3).reportInfo 291 0x39 0)) ∧
    (s.card.joining = false → s.card.starting = false → Completes .cardTimeoutExpiry s u) ∧
    (s.card.joining = false → s.card.starting = true →
      Completes .cardTimeoutExpiry s ((u.setCard { u.card with starting := false }).finishCommand 0x41 Result.timeout []))) ∧
  (∀ s : State, s.get Od.card_CARD_STATE ≠ 1 ∨ s.cycle < s.card.epochAt + msCycles (s.get Od.card_CARD_TIMEOUT) →
    Completes .cardTimeoutExpiry s s)

/-- R361–R363, R370, R372: an OFFER of this epoch is noted for its band, refreshes the heartbeat when the parent's HB_SEQ has moved, and
the best offer is adopted while the device is not CARDED, whose DEPTH follows its parent's; one of a higher epoch takes that epoch
first, one of a lower epoch changes nothing, and one of a
separate fabric is only noted. Every 1 ms while carding and every 10 ms otherwise the device gives
its OFFER on every band but those to another fabric, and CHILD to the parent. A CHILD of the epoch makes its sender a child,
on the lowest of several bands; a COUNT of the epoch is kept with the child on its band; both make the own COUNT due again.
Clauses of it rest on the model's choices: log entry 50 (readings of carding), 4 (what is out of place changes nothing). -/
def Obligations.OffersChildrenCounts : Prop :=
  let noted : State → Nat → CardOffer → State := fun s p o =>
    s.setCard { s.card with neighbours := ⟨p, o⟩ :: s.card.neighbours.filter fun n => n.port ≠ p }
  let foreign : State → CardOffer → Prop := fun s o => s.get Od.card_CARD_STATE = 2 ∧ o.addr ≠ 0xFFFF ∧
    (o.root ≠ s.get Od.card_ROOT_SERIAL ∨ o.epoch ≠ s.get Od.card_EPOCH)
  (∀ (p : Fin 128) (o : CardOffer) (s : State), s.cardBand p = true → ¬ foreign s o → o.epoch = s.get Od.card_EPOCH →
    let u := noted s p o
    let v := if u.get Od.card_PARENT_PORT = p ∧ o.hbSeq ≠ u.card.hbSeq then
      u.setCard { u.card with hbSeq := o.hbSeq, hbAt := u.cycle } else u
    (s.get Od.card_CARD_STATE ≠ 2 → Completes (.cardOffer p o) s v.adopt) ∧
    (s.get Od.card_CARD_STATE = 2 → s.get Od.card_PARENT_PORT = p → Completes (.cardOffer p o) s (v.set Od.card_DEPTH 0 (o.dist + 1))) ∧
    (s.get Od.card_CARD_STATE = 2 → s.get Od.card_PARENT_PORT ≠ p → Completes (.cardOffer p o) s v)) ∧
  (∀ (p : Fin 128) (o : CardOffer) (s : State), s.cardBand p = true →
    (foreign s o → Completes (.cardOffer p o) s (noted s p o)) ∧
    (¬ foreign s o → s.get Od.card_EPOCH < o.epoch →
      Completes (.cardOffer p o) s (noted (s.takeEpoch o.epoch (some p.val)) p o).adopt) ∧
    (¬ foreign s o → o.epoch < s.get Od.card_EPOCH → Completes (.cardOffer p o) s s)) ∧
  (∀ (p : Fin 128) (o : CardOffer) (s : State), s.cardBand p = false → Completes (.cardOffer p o) s s) ∧
  (∀ s : State, let every := msCycles (if s.get Od.card_CARD_STATE = 1 then 1 else 10)
    (s.get Od.card_CARD_STATE ≠ 0 → (∀ a, s.card.offerAt = some a → a + every ≤ s.cycle) →
      let x := s.setCard { s.card with offerAt := some s.cycle }
      let u := x.sendCards (x.cardBands.filter fun p => !x.foreignBand p) x.offerMsg
      Completes .offerSendTimer s (match u.card.parent with
        | some n => u.sendCard n.port u.childMsg
        | none => u)) ∧
    (s.get Od.card_CARD_STATE = 0 ∨ (∃ a, s.card.offerAt = some a ∧ s.cycle < a + every) → Completes .offerSendTimer s s)) ∧
  (∀ (p : Fin 128) (serial : Nat) (s : State), s.cardBand p = true →
    ((s.card.children.find? fun c => c.serial = serial) = none →
      Completes (.cardChild p (s.get Od.card_EPOCH) serial) s (s.setCard { s.card with
        children := s.card.children ++ [⟨p, serial, none⟩], counts := none, changedAt := s.cycle })) ∧
    (∀ c, (s.card.children.find? fun c => c.serial = serial) = some c →
      (p.val < c.port → Completes (.cardChild p (s.get Od.card_EPOCH) serial) s (s.setCard { s.card with
        children := mapIf (fun c : CardChildState => decide (c.serial = serial)) (fun c => { c with port := p }) s.card.children
        counts := none, changedAt := s.cycle })) ∧
      (c.port ≤ p.val → Completes (.cardChild p (s.get Od.card_EPOCH) serial) s s))) ∧
  (∀ (p : Fin 128) (e serial : Nat) (s : State), s.cardBand p = false ∨ e ≠ s.get Od.card_EPOCH →
    Completes (.cardChild p e serial) s s) ∧
  (∀ (p : Fin 128) (c : CardCounts) (s : State), c.epoch = s.get Od.card_EPOCH →
    Completes (.cardCount p c) s (s.setCard { s.card with
      children := mapIf (fun k : CardChildState => decide (k.port = p)) (fun k => { k with counts := some c }) s.card.children
      counts := none, valuesAt := s.cycle })) ∧
  (∀ (p : Fin 128) (c : CardCounts) (s : State), c.epoch ≠ s.get Od.card_EPOCH → Completes (.cardCount p c) s s)

/-- R363–R366, R369: when CARD_QUIET has passed and every child has counted, a device with a parent sends it COUNT by the
formulae of R363; the root with a COUNT that R364 allows takes block 0 and assigns, and with another one carding fails with its
FAIL_CAUSE. An ASSIGN of the epoch from the parent
installs the block. A JOIN that meets a free address within the depth is given the lowest one, with a graft route towards it;
another travels on to the parent, and one that would be too deep goes no further.
R369, R371: a GRAFT of the epoch that gives this device its address makes it CARDED with the routes to itself and up. Of those
that change routes, the one for the block of S installs it at F and above up to L, a device of S passes it on; the one up turns the
PLEN 0 route of a device of S; the one below L turns the block's route to the parent; each counts in
GRAFTS. When GRAFT_WAIT ends, the device chooses the band
whose far end has the least DIST, then the lower addresses; one within 12 hops becomes its way up, and its diameter bound.
Clauses of it rest on the model's choices: log entry 50 (readings of carding, the roles of a GRAFT). -/
def Obligations.AssignmentsJoinsAndGrafts : Prop :=
  let quiet : State → Prop := fun s => s.get Od.card_CARD_STATE = 1 ∧ s.card.counts = none ∧
    (∀ c ∈ s.card.children, c.counts ≠ none) ∧ s.cardIsQuiet = true
  let count : State → CardCounts := fun s => countsOf (s.get Od.card_EPOCH) (s.card.children.filterMap fun k => k.counts)
  (∀ (s : State) (n : CardNeighbour), quiet s → s.card.parent = some n →
    let c := count s
    Completes .cardQuietExpiry s ((s.setCard { s.card with counts := some c }).sendCard n.port
      (leBytes 1 4 ++ leBytes 4 c.epoch ++ leBytes 4 c.need ++ leBytes 2 c.devices ++ leBytes 1 c.height ++ leBytes 1 c.diam))) ∧
  (∀ s : State, quiet s → s.card.parent = none →
    let c := count s
    let u := (s.setCard { s.card with counts := some c }).set Od.card_ADDR_NEED 0 c.need
    (c.devices ≤ 4096 → c.diam ≤ 12 → c.need ≤ 32768 →
      Completes .cardQuietExpiry s (u.installBlock 0 (clog2 c.need) c.devices c.diam c.height)) ∧
    (4096 < c.devices → Completes .cardQuietExpiry s (u.cardFails 2 Result.outOfRange)) ∧
    (c.devices ≤ 4096 → 12 < c.diam → Completes .cardQuietExpiry s (u.cardFails 1 Result.outOfRange)) ∧
    (c.devices ≤ 4096 → c.diam ≤ 12 → 32768 < c.need → Completes .cardQuietExpiry s (u.cardFails 3 Result.outOfRange))) ∧
  (∀ s : State, ¬ quiet s → Completes .cardQuietExpiry s s) ∧
  (∀ (e : Nat) (cs : List CardCounts), (countsOf e cs).devices = 1 + (cs.map fun c => c.devices).sum ∧
    (cs = [] → (countsOf e cs).need = 1 ∧ (countsOf e cs).height = 0) ∧
    (cs ≠ [] → (countsOf e cs).need = 2 ^ clog2 (1 + (cs.map fun c => c.need).sum) ∧
      (countsOf e cs).height = 1 + (cs.map fun c => c.height).foldl max 0)) ∧
  (∀ (p : Fin 128) (a : CardAssign) (s : State),
    (a.epoch = s.get Od.card_EPOCH → s.get Od.card_PARENT_PORT = p → s.get Od.card_CARD_STATE = 1 →
      Completes (.cardAssign p a) s (s.installBlock a.base a.log2 a.devices a.diameter a.maxDepth)) ∧
    (a.epoch ≠ s.get Od.card_EPOCH ∨ s.get Od.card_PARENT_PORT ≠ p ∨ s.get Od.card_CARD_STATE ≠ 1 →
      Completes (.cardAssign p a) s s)) ∧
  (∀ (p : Fin 128) (serial : Nat) (s : State), s.get Od.card_CARD_STATE = 2 → s.cardBand p = true →
    (12 < s.get Od.card_DEPTH + 1 + s.get Od.card_MAX_DEPTH → Completes (.cardJoin p serial) s s) ∧
    (s.get Od.card_DEPTH + 1 + s.get Od.card_MAX_DEPTH ≤ 12 →
      (∀ a, s.freeAddress = some a →
        Completes (.cardJoin p serial) s ((((s.setCard { s.card with joiners := s.card.joiners ++ [(a, serial)] }).addRoute
          (fabricRoute 2 16 p (a * 65536))).bump Od.card_GRAFTS).sendCard p (graftMsg (s.get Od.card_EPOCH) a 16 0 255))) ∧
      (∀ n, s.freeAddress = none → s.card.parent = some n →
        Completes (.cardJoin p serial) s ((s.setCard { s.card with joinPorts := s.card.joinPorts ++ [p.val] }).sendCard n.port
          (leBytes 1 6 ++ leBytes 16 serial))) ∧
      (s.freeAddress = none → s.card.parent = none → Completes (.cardJoin p serial) s s))) ∧
  (∀ (p : Fin 128) (serial : Nat) (s : State), s.get Od.card_CARD_STATE ≠ 2 ∨ s.cardBand p = false →
    Completes (.cardJoin p serial) s s) ∧
  (∀ (p : Fin 128) (g : CardGraft) (s : State), g.epoch ≠ s.get Od.card_EPOCH ∨ s.cardBand p = false →
    Completes (.cardGraft p g) s s) ∧
  (∀ (p : Fin 128) (g : CardGraft) (s : State), g.epoch = s.get Od.card_EPOCH → s.cardBand p = true →
    let msg : Nat → List Byte := fun role => graftMsg g.epoch g.block g.plen role g.port
    let blk := s.get Od.card_BLOCK
    (g.role = 0 → s.ownAddr = 0xFFFF →
      let u := ((s.set Od.card_OWN_ADDR 0 g.block).set Od.card_BLOCK 0 (g.block * 65536)).addRoute
        (fabricRoute 1 16 0xFE (g.block * 65536))
      Completes (.cardGraft p g) s (((u.addRoute (fabricRoute 1 0 p 0)).setCard
        { u.card with joining := false, hbAt := u.cycle }).setCardState 2)) ∧
    (∀ q qs, g.role = 0 → s.ownAddr ≠ 0xFFFF → s.card.joinPorts = q :: qs →
      Completes (.cardGraft p g) s ((((s.setCard { s.card with joinPorts := qs }).addRoute (fabricRoute 2 16 q (g.block * 65536))).bump
        Od.card_GRAFTS).sendCard q (graftMsg g.epoch g.block 16 0 255))) ∧
    (g.role = 1 → inBlock g.block g.plen s.ownAddr = true →
      Completes (.cardGraft p g) s (s.passGraft (s.routePort 0xFFFF) (msg 1))) ∧
    (g.role = 1 → inBlock g.block g.plen s.ownAddr = false →
      let u := ((s.addRoute (fabricRoute 2 g.plen p (g.block * 65536))).setCard { s.card with
        children := s.card.children ++ [⟨p, 0, none⟩] }).bump Od.card_GRAFTS
      (inBlock (bits blk 16 16) (16 - bits blk 0 8) g.block = true →
        Completes (.cardGraft p g) s (u.passGraft (s.routePort g.block) (msg 3))) ∧
      (inBlock (bits blk 16 16) (16 - bits blk 0 8) g.block = false →
        Completes (.cardGraft p g) s (u.passGraft (some (u.get Od.card_PARENT_PORT)) (msg 1)))) ∧
    (g.role = 2 →
      let q := if s.ownAddr = g.block then g.port else (s.routePort g.block).getD 255
      let u := (((s.addRoute (fabricRoute 2 0 q 0)).set Od.card_PARENT_PORT 0 q).setCard { s.card with
        parent := s.card.neighbours.find? fun n => n.port = q
        children := (s.card.children.filter fun c => c.port ≠ q) ++ [⟨p, 0, none⟩] }).bump Od.card_GRAFTS
      Completes (.cardGraft p g) s (if u.ownAddr = g.block then u else u.passGraft (some q) (msg 2))) ∧
    (g.role = 3 → Completes (.cardGraft p g) s
      (((s.addRoute (fabricRoute 2 g.plen (s.get Od.card_PARENT_PORT) (g.block * 65536))).bump Od.card_GRAFTS).passGraft
        (s.routePort g.block) (msg 3)))) ∧
  (∀ (bands : List GraftBand) (s : State), s.card.grafting = true → s.card.graftAt + msCycles (s.get Od.card_GRAFT_WAIT) ≤ s.cycle →
    let u := s.setCard { s.card with grafting := false, hbAt := s.cycle }
    (bestGraft bands = none → Completes (.graftWaitExpiry bands) s u) ∧
    (∀ b, bestGraft bands = some b →
      let sum := b.farDist + 1 + b.depth + (u.card.counts.map fun c => c.height).getD 0 + u.get Od.card_MAX_DEPTH
      let v := (((u.set Od.card_FABRIC_DIAMETER 0 sum).set Od.card_DEPTH 0 (b.farDist + 1 + b.depth)).addRoute
        (fabricRoute 2 0 b.toward.val 0)).set Od.card_PARENT_PORT 0 b.toward.val
      let w := (v.setCard { v.card with
        parent := v.card.neighbours.find? fun n => n.port = b.toward.val
        children := v.card.children.filter fun c => c.port ≠ b.toward.val }).bump Od.card_GRAFTS
      let msg := graftMsg (u.get Od.card_EPOCH) (bits (u.get Od.card_BLOCK) 16 16) (16 - bits (u.get Od.card_BLOCK) 0 8) 1 255
      (12 < sum → Completes (.graftWaitExpiry bands) s u) ∧
      (sum ≤ 12 → b.depth = 0 → Completes (.graftWaitExpiry bands) s (w.sendCard b.toward.val msg)) ∧
      (sum ≤ 12 → b.depth ≠ 0 → Completes (.graftWaitExpiry bands) s ((w.sendCard b.toward.val
        (graftMsg (u.get Od.card_EPOCH) b.nearAddr 16 2 b.nearPort.val)).sendCard b.toward.val msg)))) ∧
  (∀ (bands : List GraftBand) (s : State), s.card.grafting = false ∨ s.cycle < s.card.graftAt + msCycles (s.get Od.card_GRAFT_WAIT) →
    Completes (.graftWaitExpiry bands) s s)

/-! ### Tables (R377–R391) -/

/-- R383–R387: one queued learn is applied. For a key that is absent it is inserted; for a learned entry from its own port (and
address) it is a hit that clears the candidate; from another port, or address, it becomes the candidate, and a candidate that is
MOVE_HOLD old moves the entry. A STATIC entry keeps all but its AGE_STAMP. Each counts in LEARNS. With nothing queued nothing happens.
Clauses of it rest on the model's choices: log entry 51 (the address of a remote candidate). -/
def Obligations.LearningOneEntry : Prop :=
  (∀ s : State, s.fabric.learnQ = [] → Completes .learnApply s s) ∧
  ∀ (l : Learn) (ls : List Learn) (s : State), s.fabric.learnQ = l :: ls →
    let u := ({ s with fabric := { s.fabric with learnQ := ls } }).bump Od.tab_LEARNS
    (∀ t, u.fabric.copy0.lookup l.key = none →
      u.insertEntry (2 ^ 71 + l.key) (emWord l.port l.target u.secondsClock 0xFF 0) = some t → Completes .learnApply s t) ∧
    (u.fabric.copy0.lookup l.key = none →
      u.insertEntry (2 ^ 71 + l.key) (emWord l.port l.target u.secondsClock 0xFF 0) = none →
      Completes .learnApply s (u.bump Od.tab_LEARN_FAILS)) ∧
    (∀ i e, u.fabric.copy0.lookup l.key = some (i, e) →
      (emLearned e = false → Completes .learnApply s (u.writeSlot i e.1 (setBits e.2 32 16 u.secondsClock))) ∧
      (emLearned e = true → emPort e = l.port → (l.port ≠ 0xFC ∨ emTarget e = l.target) → emStatic e = false →
        Completes .learnApply s (u.writeSlot i e.1 (emWord l.port l.target u.secondsClock 0xFF 0))) ∧
      (emLearned e = true → (emPort e ≠ l.port ∨ (l.port = 0xFC ∧ emTarget e ≠ l.target)) →
        let known := emCand e = l.port ∧ (l.port = 0xFC → tget u.fabric.candDev 0 i = l.target)
        let v := (u.writeSlot i e.1 (emWord (emPort e) (emTarget e) (emStamp e) l.port u.microClock)).bump Od.tab_MOVE_CANDIDATES
        (¬ known → Completes .learnApply s { v with fabric := { v.fabric with candDev := tput v.fabric.candDev 0 i l.target } }) ∧
        (known → u.get Od.tab_MOVE_HOLD ≤ (u.microClock + 2 ^ 24 - emCandTime e) % 2 ^ 24 →
          Completes .learnApply s ((u.writeSlot i e.1 (emWord l.port l.target u.secondsClock 0xFF 0)).bump Od.tab_MOVES)) ∧
        (known → (u.microClock + 2 ^ 24 - emCandTime e) % 2 ^ 24 < u.get Od.tab_MOVE_HOLD → Completes .learnApply s u)))

/-- R386, R388: an age pass invalidates every learned entry whose age is at least AGE_TIME, each counted in AGED_OUT; AGE_TIME 0
turns ageing off. The shadow compare of a slot leaves one that agrees in both copies; where a copy differs, or reads uncorrectable,
it restores the slot from the shadow, or invalidates a learned entry, and an uncorrectable shadow takes the word of copy 0, or
with that one uncorrectable too is invalidated; each repair with
its count and a fault of the engine whose copy failed. The longest-prefix table's last slot ends the lap.
Clauses of it rest on the model's choices: log entry 50 (readings of the tables). -/
def Obligations.AgeingAndCompare : Prop :=
  (∀ s : State, s.get Od.tab_AGE_TIME ≠ 0 →
    Completes .agePass s ((s.fabric.copy0.em.filter fun e => emLearned e.2 && decide (s.get Od.tab_AGE_TIME ≤ s.ageOf e.2)).foldl
      (fun t e => (t.clearSlot e.1).bump Od.tab_AGED_OUT) s)) ∧
  (∀ s : State, s.get Od.tab_AGE_TIME = 0 → Completes .agePass s s) ∧
  (∀ (slot : Nat) (m : CompareMeet) (s : State), slot < 66560 →
    let a := tget s.fabric.shadow.em (0, 0) slot
    let differs : TableCopy → Nat → Bool := fun c flip => emSeen c slot flip != emRaw a
    let d0 := differs s.fabric.copy0 m.flip0 || m.bad0
    let d1 := differs s.fabric.copy1 m.flip1 || m.bad1
    let engine := if d0 then 157 else 158
    let put : TableCopy → Nat × Nat → TableCopy := fun c e =>
      { c with em := if e = (0, 0) then tdel c.em slot else tset c.em slot e }
    let gone := ((s.bump Od.tab_INVALIDATED).report engine 0x29 4 0xFF slot).clearSlot slot
    (m.badShadow = false → d0 = false → d1 = false → Completes (.shadowCompareStep true slot m) s s) ∧
    (m.badShadow = false → (d0 || d1) = true → emLearned a = true → Completes (.shadowCompareStep true slot m) s gone) ∧
    (m.badShadow = false → (d0 || d1) = true → emLearned a = false → Completes (.shadowCompareStep true slot m) s
      (((s.bump Od.tab_RESTORED).report engine 0x28 4 0xFF slot).writeTables fun c => put c a)) ∧
    (m.badShadow = true → m.bad0 = true → Completes (.shadowCompareStep true slot m) s gone) ∧
    (m.badShadow = true → m.bad0 = false → Completes (.shadowCompareStep true slot m) s
      (s.writeTables fun c => put c (tget s.fabric.copy0.em (0, 0) slot)))) ∧
  (∀ (slot : Nat) (m : CompareMeet) (s : State), slot < 4096 →
    let z : LpmEntry := ⟨0, 0, 0⟩
    let word : LpmEntry → Nat := fun e => (e.w0 * 2 ^ 72 + e.w1) * 2 ^ 72 + e.w2
    let a := tget s.fabric.shadow.lpm z slot
    let differs : TableCopy → Nat → Bool := fun c flip => decide ((word (tget c.lpm z slot) ^^^ flip) ≠ word a)
    let d0 := differs s.fabric.copy0 m.flip0 || m.bad0
    let d1 := differs s.fabric.copy1 m.flip1 || m.bad1
    let engine := if d0 then 157 else 158
    let put : TableCopy → LpmEntry → TableCopy := fun c e => { c with lpm := if e = z then tdel c.lpm slot else tset c.lpm slot e }
    (m.badShadow = false → d0 = false → d1 = false → Completes (.shadowCompareStep false slot m) s (s.compareLap false slot)) ∧
    (m.badShadow = false → (d0 || d1) = true → Completes (.shadowCompareStep false slot m) s
      ((((s.bump Od.tab_RESTORED).report engine 0x28 4 0xFF slot).writeTables fun c => put c a).compareLap false slot)) ∧
    (m.badShadow = true → m.bad0 = true → Completes (.shadowCompareStep false slot m) s
      ((((s.bump Od.tab_INVALIDATED).report engine 0x29 4 0xFF slot).writeTables fun c =>
        { c with lpm := tdel c.lpm slot }).compareLap false slot)) ∧
    (m.badShadow = true → m.bad0 = false → Completes (.shadowCompareStep false slot m) s
      ((s.writeTables fun c => put c (tget s.fabric.copy0.lpm z slot)).compareLap false slot))) ∧
  (∀ (exact : Bool) (slot : Nat) (m : CompareMeet) (s : State), (if exact then 66560 else 4096) ≤ slot →
    Completes (.shadowCompareStep exact slot m) s s)

/-- R390, R391: TABLE_SYNC of MODE 0 to 2 reads its records and stages the whole set (insertions, deletions, or the emptying of
the table's TABLE_SYNC entries before insertions) when every record is valid and the set can be placed, returning COUNT; with a
record that is not valid it ends with OUT_OF_RANGE, with a set that cannot be placed with TABLE_FULL, and nothing is staged. A BASE
that is no multiple of 4 KiB ends every mode with ALIGNMENT. MODE 3 writes at most COUNT entries in whole pages and
returns their number.
Clauses of it rest on the model's choices: log entry 50 (readings of the tables), 71 (a TABLE above 2). -/
def Obligations.TableSync : Prop :=
  let cmd : Nat → Nat → Nat → Nat → Instr := fun mode table base count =>
    if mode = 0 then .tableSyncInsert table base count else if mode = 1 then .tableSyncDelete table base count
    else if mode = 2 then .tableSyncReplaceAll table base count else .tableSyncDump table base count
  let args : Nat → Nat → Nat → Nat → List Byte := fun mode table base count =>
    leBytes 1 table ++ leBytes 1 mode ++ leBytes 8 base ++ leBytes 4 count
  (∀ (mode : Nat) (table base count : Nat) (s u t : State) (bs : List Byte), mode < 3 → table < 3 → count < 2 ^ 32 →
    Taken s 0x40 (args mode table base count) u →
    u.syncSource base (count * recordSize table) = (t, .inr bs) →
    let recs := pieces (recordSize table) bs
    let set := t.fabric.staged ++ (if mode = 2 then [stagedClear table] else []) ++ recs.map (stagedOf table (decide (mode = 1)))
    ((mode = 1 ∨ ∀ b ∈ recs, recordOk table b = true) → (t.applyAll set).isSome →
      Completes (cmd mode table base count) s ({ t with fabric := { t.fabric with staged := set } }.attach 0x40 Result.ok (leBytes 4 count))) ∧
    ((mode = 1 ∨ ∀ b ∈ recs, recordOk table b = true) → t.applyAll set = none →
      Completes (cmd mode table base count) s (t.attach 0x40 Result.tableFull [])) ∧
    ((mode ≠ 1 ∧ ∃ b ∈ recs, recordOk table b = false) → Completes (cmd mode table base count) s (t.attach 0x40 Result.outOfRange []))) ∧
  (∀ (mode table base count : Nat) (s u t : State) (r : Nat), mode < 3 → table < 3 → count < 2 ^ 32 → Taken s 0x40 (args mode table base count) u →
    u.syncSource base (count * recordSize table) = (t, .inl r) → Completes (cmd mode table base count) s (t.attach 0x40 r [])) ∧
  (∀ (mode table base count : Nat) (s u : State), mode < 4 → table < 3 → base % 4096 ≠ 0 → Taken s 0x40 (args mode table base count) u →
    Completes (cmd mode table base count) s (u.attach 0x40 Result.alignment [])) ∧
  (∀ (table base count : Nat) (s u : State), table < 3 → count < 2 ^ 32 → base % 4096 = 0 → Taken s 0x40 (args 3 table base count) u →
    (u.regionAt base (roundUp 4096 (count * recordSize table))).isSome →
    u.touchesPicture base (roundUp 4096 (count * recordSize table)) = false →
    let recs := (u.tableRecords table).take count
    let data := padPage recs.flatten
    (data ≠ [] → Completes (.tableSyncDump table base count) s
      ((u.hbmWrite 157 base data ⟨[], 0, 0, []⟩).1.attach 0x40 Result.ok (leBytes 4 recs.length))) ∧
    (data = [] → Completes (.tableSyncDump table base count) s (u.attach 0x40 Result.ok (leBytes 4 recs.length)))) ∧
  (∀ (table base count : Nat) (s u : State), table < 3 → count < 2 ^ 32 → base % 4096 = 0 → Taken s 0x40 (args 3 table base count) u →
    (u.regionAt base (roundUp 4096 (count * recordSize table)) = none ∨
      u.touchesPicture base (roundUp 4096 (count * recordSize table)) = true) →
    Completes (.tableSyncDump table base count) s (u.attach 0x40 Result.noSuchTarget [])) ∧
  (∀ (mode table base count : Nat) (s : State), mode < 4 → 3 ≤ table →
    Completes (cmd mode table base count) s { s with lastStatus := Status.outOfRange })

/-! ### Global operations (R392–R397) -/

/-- R32, R393: a global operation that is issued with its lead kept takes the issuer's address and next count as OP_ID and
becomes known here at AT, where an AT of 0 stands for the second RD_0 frame after the present; one issued too late completes with
TOO_LATE, an AT out of range with OUT_OF_RANGE; FABRIC_SWAP with a LINE or PHASE completes with OUT_OF_RANGE.
Clauses of it rest on the model's choices: log entry 52 (order of operations), 32 (what BROADCAST carries), 71 (a SET above 3). -/
def Obligations.IssuingGlobalOperations : Prop :=
  let issued : State → RTime → GlobalKind → State := fun s at_ kind =>
    let a := if RTime.word at_ = 0 then ⟨((s.now 0).frame + 2) % 2 ^ 40, 0, 0⟩ else at_
    let n := (s.fabric.opCount + 1) % 2 ^ 16
    { s with fabric := { s.fabric with opCount := n } }.learnOp ⟨s.ownAddr * 2 ^ 16 + n, a, kind⟩ none
  let inRange : State → RTime → Prop := fun s at_ => s.validTime 0 (s.globalAt at_) = true ∧ s.notTooFar 0 (s.globalAt at_) = true
  let late : State → RTime → Nat → Bool := fun s at_ hop => s.leadTooShort (s.globalAt at_) (s.get Od.card_FABRIC_DIAMETER * hop)
  (∀ (at_ : RTime) (s u : State), Taken s 0x11 (leBytes 9 (RTime.word at_)) u →
    (at_.line ≠ 0 ∨ at_.phase ≠ 0 → Completes (.fabricSwap at_) s (u.attach 0x11 Result.outOfRange [])) ∧
    (at_.line = 0 → at_.phase = 0 →
      (¬ inRange u at_ → Completes (.fabricSwap at_) s (u.attach 0x11 Result.outOfRange [])) ∧
      (inRange u at_ → late u at_ 800 = true → Completes (.fabricSwap at_) s (u.attach 0x11 Result.tooLate [])) ∧
      (inRange u at_ → late u at_ 800 = false → Completes (.fabricSwap at_) s (issued u at_ .fabricSwap)))) ∧
  (∀ (at_ : RTime) (set : Nat) (s u : State), set < 4 → Taken s 0x12 (leBytes 9 (RTime.word at_) ++ leBytes 1 set) u →
    (¬ inRange u at_ → Completes (.snapshot at_ set) s (u.attach 0x12 Result.outOfRange [])) ∧
    (inRange u at_ → late u at_ 800 = true → Completes (.snapshot at_ set) s (u.attach 0x12 Result.tooLate [])) ∧
    (inRange u at_ → late u at_ 800 = false → Completes (.snapshot at_ set) s (issued u at_ (.snapshot set)))) ∧
  (∀ (at_ : RTime) (set : Nat) (s : State), 4 ≤ set → Completes (.snapshot at_ set) s { s with lastStatus := Status.outOfRange }) ∧
  (∀ (at_ : RTime) (items : List Byte) (s u : State), items.length ≤ 3072 → Taken s 0x13 (leBytes 9 (RTime.word at_) ++ items) u →
    (broadcastItems items = false → Completes (.broadcast at_ items) s (u.attach 0x13 Result.badArgs [])) ∧
    (broadcastItems items = true →
      (¬ inRange u at_ → Completes (.broadcast at_ items) s (u.attach 0x13 Result.outOfRange [])) ∧
      (inRange u at_ → late u at_ 12000 = true → Completes (.broadcast at_ items) s (u.attach 0x13 Result.tooLate [])) ∧
      (inRange u at_ → late u at_ 12000 = false → Completes (.broadcast at_ items) s (issued u at_ (.broadcast items))))) ∧
  (∀ (at_ : RTime) (items : List Byte) (s : State), 3072 < items.length →
    Completes (.broadcast at_ items) s { s with lastStatus := Status.length })

/-- R394–R396: an announcement on a tree band of a CARDED device makes the operation known once, forwards it on the other tree bands
and decides the part: LATE when AT has passed, ARMED and scheduled when RD_0 is ready, else REFUSED; a device without an address
discards it. At AT, and not before, the operations armed for it
act in increasing OP_ID; a confirmation from a subtree that is waited for adds its APPLIED count; at AT + 1 ms the issuer completes
with UNREACHABLE and the count.
Clauses of it rest on the model's choices: log entry 52 (order of operations), 4 (a second announcement changes nothing). -/
def Obligations.GlobalOperationsRun : Prop :=
  (∀ (p : Fin 128) (a : Announcement) (s : State), s.cardBand p = true → s.forwards = true → s.foreignBand p = false →
    s.globalOp a.opId = none →
    let ports := s.treePorts.filter fun q => decide (some q ≠ some p.val)
    let known : Option Nat → State := fun part => { s with fabric := { s.fabric with ops := s.fabric.ops ++
      [({ opId := a.opId, at_ := a.at_, kind := a.kind, part := part, from_ := some p.val, waiting := ports } : GlobalOp)] } }
    let forwarded : State → State := fun u => (u.sendGlobal ports (announcementBytes a)).confirmOp a.opId
    let noted : Nat → State := fun part => (known (some part)).logOp
      { opId := a.opId, at_ := a.at_, kind := a.kind, part := some part, from_ := some p.val, waiting := ports }
    (0 < rdiff (s.lpf 0) a.at_ (s.now 0) → s.globalReady = true →
      Completes (.globalAnnounce p a) s (forwarded { known none with raster := { s.raster with
        sched := s.raster.sched ++ [(⟨0, a.at_, .globalOp a.opId⟩ : Sched)] } })) ∧
    (0 < rdiff (s.lpf 0) a.at_ (s.now 0) → s.globalReady = false → Completes (.globalAnnounce p a) s (forwarded (noted 1))) ∧
    (rdiff (s.lpf 0) a.at_ (s.now 0) ≤ 0 → Completes (.globalAnnounce p a) s (forwarded (noted 2)))) ∧
  (∀ (p : Fin 128) (a : Announcement) (s : State), (s.globalOp a.opId).isSome ∨ s.cardBand p = false ∨ s.forwards = false ∨
    s.foreignBand p = true → Completes (.globalAnnounce p a) s s) ∧
  (∀ (id : Nat) (s : State) (o : GlobalOp), s.globalOp id = some o →
    (s.later 0 o.at_ (s.now 0) = false → Completes (.globalOpAct id) s ((sortBy (fun a b => decide (a < b))
      ((s.fabric.ops.filter fun x => x.part.isNone && decide (x.at_ = o.at_ ∧ x.opId ≤ id)).map GlobalOp.opId)).foldl
        (fun t i => t.actOp i) s)) ∧
    (s.later 0 o.at_ (s.now 0) = true → Completes (.globalOpAct id) s s)) ∧
  (∀ (id : Nat) (s : State), s.globalOp id = none → Completes (.globalOpAct id) s s) ∧
  (∀ (p : Fin 128) (id applied : Nat) (s : State) (o : GlobalOp), s.globalOp id = some o → s.forwards = true →
    let o' : GlobalOp := { o with waiting := o.waiting.erase p, applied := o.applied + applied }
    (p.val ∈ o.waiting → Completes (.globalConfirm p id applied) s (((s.setGlobalOp o').logOp o').confirmOp id)) ∧
    (p.val ∉ o.waiting → Completes (.globalConfirm p id applied) s s)) ∧
  (∀ (p : Fin 128) (id applied : Nat) (s : State), s.globalOp id = none ∨ s.forwards = false →
    Completes (.globalConfirm p id applied) s s) ∧
  (∀ (id : Nat) (s : State) (o : GlobalOp), s.globalOp id = some o →
    (o.from_ = none → o.confirmed = false → s.msSince o.at_ = true → Completes (.globalOpTimeout id) s
      ((s.setGlobalOp { o with confirmed := true }).finishCommand (globalCode o.kind) Result.unreachable (leBytes 2 o.applied))) ∧
    (o.from_ ≠ none ∨ o.confirmed = true ∨ s.msSince o.at_ = false → Completes (.globalOpTimeout id) s s)) ∧
  (∀ (id : Nat) (s : State), s.globalOp id = none → Completes (.globalOpTimeout id) s s)


/-! ### Resets, start-up, power and temperatures (R493–R511) -/

/-- R39, R507–R509: PORST_N falling puts every object that is neither fused nor kept in OTP back to its default and clears all
state; rising samples the boot mode and begins start-up. WRST_N takes effect from 1 µs and is ignored below 500 ns; between
them it may do either (a free choice, log entry 62). WARM_RESET acts 1 ms after its response, and not before. A warm reset keeps the log, the
flash and the objects of R39, records its cause and counts in WARM_RESETS.
Clauses of it rest on the model's choices: log entries 62 (pulses and power events), 32. -/
def Obligations.Resets : Prop :=
  (∀ (pins : Fin 4) (s : State), s.power.porst = true → Ends (.porstN false pins) s s.powerReset) ∧
  (∀ (s : State) (k : Nat), s.sec.debugSealFuse = false → (fusedRow (k / 256) (k % 256) = false ∨ k / 256 = 0x2000) →
    tfind s.powerReset.od k = none) ∧
  (∀ s : State, s.powerReset.streams = {} ∧ s.powerReset.cells = {} ∧ s.powerReset.queues = {} ∧ s.powerReset.lanes = {} ∧
    s.powerReset.faults = {} ∧ s.powerReset.cycle = 0 ∧ s.powerReset.sec.flash = s.sec.flash) ∧
  (∀ (pins : Fin 4) (s : State), s.power.porst = false → Ends (.porstN true pins) s
    (({ s with power := { s.power with porst := true, step := 1, resetAt := s.cycle } } : State).set Od.sys_BOOT_MODE 0
      (min pins 2))) ∧
  (∀ (ns : Nat) (s : State), s.power.porst = true → 1000 ≤ ns → Ends (.wrstN ns) s (s.warmReset 1)) ∧
  (∀ (b : Bool) (pins : Fin 4) (s : State), s.power.porst = b → Ends (.porstN b pins) s s) ∧
  (∀ (ns : Nat) (s : State), ns < 500 ∨ s.power.porst = false → Ends (.wrstN ns) s s) ∧
  (∀ (ns : Nat) (s : State), s.power.porst = true → 500 ≤ ns → ns < 1000 →
    Ends (.wrstN ns) s s.useFree ∨ Ends (.wrstN ns) s (s.useFree.warmReset 1)) ∧
  (∀ s u : State, Taken s 0x70 [] u → Completes .warmReset s
    (({ u with power := { u.power with warmDelay := true, warmAt := u.cycle } } : State).attach 0x70 Result.ok [])) ∧
  (∀ s : State, s.power.warmDelay = true → s.power.warmAt + msCycles 1 ≤ s.cycle → Ends .warmResetDelayExpiry s (s.warmReset 2)) ∧
  (∀ s : State, s.power.warmDelay = false ∨ s.cycle < s.power.warmAt + msCycles 1 → Ends .warmResetDelayExpiry s s) ∧
  (∀ (s : State) (cause : Nat), cause < 5 →
    (s.warmReset cause).get Od.sys_RESET_CAUSE = cause ∧ (s.warmReset cause).faults.log = s.faults.log ∧
    (s.warmReset cause).sec.flash = s.sec.flash ∧ (s.warmReset cause).power.step = 1 ∧
    (s.warmReset cause).streams = {} ∧ (s.warmReset cause).cells = {} ∧ (s.warmReset cause).raster = {})

/-- R496: a watched rail out of tolerance is the newest of the last 16 RAIL_EVENTS and holds the engine in a warm reset of cause 3;
a PLL other than the island's that loses lock one of cause 4; the island's own shows in PLL_STATUS alone. When everything is back
within tolerance, the reset ends with every PLL locked.
R495, R498, R510: a start-up step that may end has its effect and notes its end time. 200 µs after the target was written, a
read-back within 10 mV of it
ends the wait for VDD_CORE; another one counts in AVS_RETRIES and waits again. A half powered up has its strip buffers written; one
without a pass for DOWN_HOLD loses its power, and one with a pass keeps it.
Clauses of it rest on the model's choices: log entries 61 and 62 (start-up and power events), 64 (the read-back),
4 (rails that are not watched, events that are not due). -/
def Obligations.MonitorsAndStartUp : Prop :=
  (let held : State → Nat → State := fun s cause =>
     let t := s.warmReset cause
     { t with power := { t.power with held := true, railsOut := s.power.railsOut } }
   (∀ (rail : Fin 13) (s : State), s.power.porst = true → rail.val ≠ 0 → rail.val ≠ 12 →
     Ends (.railExcursion rail) s (held { s with power := { s.power with
       railEvents := (s.power.railEvents ++ [(rail.val, s.uptimeNs)]).drop (s.power.railEvents.length + 1 - 16)
       railsOut := if rail.val ∈ s.power.railsOut then s.power.railsOut else s.power.railsOut ++ [rail.val] } } 3)) ∧
   (∀ (rail : Fin 13) (s : State), rail.val = 0 ∨ rail.val = 12 ∨ s.power.porst = false → Ends (.railExcursion rail) s s) ∧
   (∀ (pll : Fin 4) (s : State), s.power.porst = false → Ends (.pllLockLoss pll) s s) ∧
   (∀ (pll : Fin 4) (s : State), s.power.porst = true → pll.val ≠ 2 →
     Ends (.pllLockLoss pll) s ((held s 4).set Od.sys_PLL_STATUS 0 (clearBit (s.get Od.sys_PLL_STATUS) pll))) ∧
   (∀ s : State, s.power.porst = true →
     Completes (.pllLockLoss 2) s (s.set Od.sys_PLL_STATUS 0 (clearBit (s.get Od.sys_PLL_STATUS) 2))) ∧
   (∀ s : State, s.power.held = false → Ends .railsBackWithinTolerance s s) ∧
   (∀ s : State, s.power.held = true → Ends .railsBackWithinTolerance s
     (({ s with power := { s.power with held := false, railsOut := [], resetAt := s.cycle } } : State).set Od.sys_PLL_STATUS 0 15))) ∧
  (∀ (m : StartMeet) (s : State), s.stepMayEnd = true →
    let t := s.stepEnds m
    Completes (.startUpStep m) s { t with power := { t.power with
      step := s.power.step + 1, startTimes := s.power.startTimes ++ [(s.cycle - s.power.resetAt) / 1200] } }) ∧
  (∀ (m : StartMeet) (s : State), s.stepMayEnd = false → Completes (.startUpStep m) s s) ∧
  (∀ (m : StartMeet) (s : State), s.power.step = 3 → (s.stepEnds m).faults = { s.faults with released := true }) ∧
  (∀ (m : StartMeet) (s : State), s.power.step = 2 → s.stepEnds m = s.repairsApply fun _ _ => true) ∧
  (∀ (mv : Nat) (s : State), s.power.avsPending = true → s.power.avsAt + usCycles 200 ≤ s.cycle →
    let target := s.get Od.sys_VDD_CORE_TARGET
    let u := s.set Od.sys_VDD_CORE_NOW 0 mv
    (target ≤ mv + 10 ∧ mv ≤ target + 10 →
      Completes (.avsReadbackTimeout mv) s { u with power := { u.power with avsPending := false } }) ∧
    (mv + 10 < target ∨ target + 10 < mv →
      Completes (.avsReadbackTimeout mv) s (({ u with power := { u.power with avsAt := u.cycle } } : State).bump Od.sys_AVS_RETRIES))) ∧
  (∀ (mv : Nat) (s : State), s.power.avsPending = false ∨ s.cycle < s.power.avsAt + usCycles 200 →
    Completes (.avsReadbackTimeout mv) s s) ∧
  (∀ (half : Fin 2) (s : State), s.half half = 2 → Completes (.conditionerHalfPowerUpDone half) s
    ((((((s.initStore 5 (4 * half + 0)).initStore 5 (4 * half + 1)).initStore 5 (4 * half + 2)).initStore 5 (4 * half + 3)).setHalf
      half 1).refreshConditioners)) ∧
  (∀ (half : Fin 2) (s : State), s.half half ≠ 2 → Completes (.conditionerHalfPowerUpDone half) s s) ∧
  (∀ (half : Fin 2) (s : State), s.half half = 1 → s.heldLow (tget s.power.halfIdle none half) = true →
    (∀ e ∈ s.streams.streams, ∀ p ∈ e.2.passes, p.ic < 8 → p.ic / 4 ≠ half) →
    Completes (.conditionerHalfIdleExpiry half) s ((s.setHalf half 0).refreshConditioners)) ∧
  (∀ (half : Fin 2) (s : State), s.halfUsed half = true ∨ s.half half ≠ 1 ∨
    s.heldLow (tget s.power.halfIdle none half) = false → Completes (.conditionerHalfIdleExpiry half) s s)

/-- R504–R506: a reading is taken for TJ and for the crowns; a TJ above TJ_HIGH is reported once, until TJ is at TJ_HIGH − 2 °C; the
second reading in succession at or above TJ_TRIP is reported and cuts the power of R505; a neighbouring pair with 30 °C in two
readings in succession is reported once, until the difference is below 25 °C. -/
def Obligations.Temperatures : Prop :=
  (∀ (temps : List Int) (s : State) (d : Nat) (t : Int), hottest temps = some (d, t) →
    Completes (.thermalReading temps) s
      ((((({ s with power := { s.power with temps := temps } } : State).showTemps d t).checkHigh t).checkTrip t).checkPairs)) ∧
  (∀ (temps : List Int) (s : State), hottest temps = none → Completes (.thermalReading temps) s s) ∧
  (∀ (s : State) (t : Int), (s.get Od.th_TJ_HIGH * 10 : Nat) < t → s.power.highReported = false →
    s.checkHigh t = ((({ s with power := { s.power with highReported := true } } : State).bump Od.th_TJ_HIGH_EVENTS).reportInfo 296
      0x51 (ofInt 16 t))) ∧
  (∀ (s : State) (t : Int), (s.get Od.th_TJ_HIGH * 10 : Nat) < t → s.power.highReported = true → s.checkHigh t = s) ∧
  (∀ (s : State) (t : Int), t ≤ (s.get Od.th_TJ_HIGH * 10 : Nat) - 20 →
    s.checkHigh t = { s with power := { s.power with highReported := false } }) ∧
  (∀ (s : State) (t : Int), (s.get Od.th_TJ_TRIP * 10 : Nat) ≤ t → s.power.tripRun = 1 → s.power.tripped = false →
    s.checkTrip t = (({ s with power := { s.power with tripRun := 2, tripped := true } } : State).reportInfo 296 0x52
      (ofInt 16 t)).cutPower) ∧
  (∀ (s : State) (t : Int), t < (s.get Od.th_TJ_TRIP * 10 : Nat) →
    s.checkTrip t = { s with power := { s.power with tripRun := 0 } }) ∧
  (∀ (s : State) (p : Nat × Nat) (before : List (Nat × Nat)), 300 ≤ s.pairDiff p → p ∈ before →
    p ∉ s.power.gradientReported → s.checkPair before p = ((({ s with power := { s.power with
      gradientRun := s.power.gradientRun ++ [p], gradientReported := s.power.gradientReported ++ [p] } } : State).bump
        Od.th_GRADIENT_EVENTS).reportInfo 296 0x50 (min p.1 p.2 + max p.1 p.2 * 2 ^ 16))) ∧
  (∀ (s : State) (p : Nat × Nat) (before : List (Nat × Nat)), s.pairDiff p < 250 → p ∉ (s.checkPair before p).power.gradientReported) ∧
  (∀ (s : State) (p : Nat × Nat) (before : List (Nat × Nat)), 300 ≤ s.pairDiff p → p ∉ before ∨ p ∈ s.power.gradientReported →
    s.checkPair before p = { s with power := { s.power with gradientRun := s.power.gradientRun ++ [p] } }) ∧
  (∀ (s : State) (p : Nat × Nat) (before : List (Nat × Nat)), 250 ≤ s.pairDiff p → s.pairDiff p < 300 → s.checkPair before p = s)

/-! ### The island (R467–R492) -/

/-- R471, R473, R486: ATTEST answers its report over the caller's nonce with IDENTITY_KEY's signature over it. The report has its
MAGIC in front and the nonce at its end. The island's watchdog, its TRNG's health tests and its monitors raise SECURITY with their cause.
R481, R488, R489: an accepted DEBUG_TOKEN sets UNLOCK_PENDING and draws the challenge afresh; DEBUG_SEAL := 1 with VDD_EFUSE
blows the fuse and seals at once; OWNER_KEY_HASH is programmed by a write while it is not; FLASH_PROGRAM := 1 makes the flash
busy, and the end of programming leaves the staged bytes in it with FLASH_STATE 2, or 3.
Clauses of it rest on the model's choices: log entries 8 (cryptographic functions are opaque), 32. -/
def Obligations.AttestationAndIsland : Prop :=
  (∀ (nonce : List Byte) (s u : State), nonce.length = 64 → Taken s 0x32 nonce u →
    Completes (.attest nonce) s (u.attach 0x32 Result.ok
      (u.attestReport nonce ++ Config.ecdsaSign (Config.sha512 (u.attestReport nonce))))) ∧
  (∀ (nonce : List Byte) (s : State), nonce.length ≠ 64 → Completes (.attest nonce) s { s with lastStatus := Status.length }) ∧
  (∀ (s : State) (nonce : List Byte), [0x41#8, 0x54#8, 0x54#8, 0x31#8] <+: s.attestReport nonce ∧ nonce <:+ s.attestReport nonce) ∧
  (∀ s : State, Completes .islandWatchdogExpiry s
    (({ s with sec := { s.sec with failed := true } } : State).report 295 0x70 0 0xFF 0x06)) ∧
  (∀ s : State, Completes .trngHealthFailure s
    (({ s with sec := { s.sec with failed := true } } : State).report 295 0x70 0 0xFF 0x02)) ∧
  (∀ s : State, Completes .islandMonitorExcursion s
    (({ s with sec := { s.sec with failed := true } } : State).report 295 0x70 0 0xFF 0x05)) ∧
  (∀ (role : Role) (token : List Byte) (s : State), Accepted s role Od.sec_DEBUG_TOKEN 0 token →
    Completes (.debugToken role token) s (succeeded (s.set Od.sec_DEBUG_STATE 0 1).drawChallenge)) ∧
  (∀ (role : Role) (s : State), AcceptedNum s role Od.sec_DEBUG_SEAL 0 1 → s.sec.efuse = true →
    Completes (.debugSeal role 1) s (succeeded
      (({ s with sec := { s.sec with debugSealFuse := true } } : State).set Od.sec_DEBUG_STATE 0 3))) ∧
  (∀ (role : Role) (hash : List Byte) (s : State), Accepted s role Od.sec_OWNER_KEY_HASH 0 hash →
    Completes (.ownerKeyHashWrite role hash) s (succeeded (s.set Od.sec_OWNER_KEY_HASH 0 (leNat hash)))) ∧
  (∀ (role : Role) (s : State), AcceptedNum s role Od.sec_FLASH_PROGRAM 0 1 →
    Completes (.flashProgram role 1) s (succeeded (s.set Od.sec_FLASH_STATE 0 1))) ∧
  (∀ (good : Bool) (s : State), s.get Od.sec_FLASH_STATE = 1 →
    Completes (.flashProgramDone good) s (s.programFlash.set Od.sec_FLASH_STATE 0 (if good then 2 else 3))) ∧
  (∀ (good : Bool) (s : State), s.get Od.sec_FLASH_STATE ≠ 1 → Completes (.flashProgramDone good) s s) ∧
  (∀ (role : Role) (hash : List Byte) (s : State), s.get Od.sec_OWNER_KEY_HASH ≠ 0 →
    ¬ Accepted s role Od.sec_OWNER_KEY_HASH 0 hash)

/-! ### Faults (R444–R466) -/

/-- R444: of the messages that units hold, the one of the lowest UNIT is accepted, the oldest of that unit. -/
def Obligations.LowestUnitIsAcceptedFirst : Prop :=
  ∀ ms : List FaultMsg, (ms ≠ [] → ∃ m, nextHeld ms = some m) ∧
    ∀ m, nextHeld ms = some m → ∃ a b, ms = a ++ m :: b ∧ (∀ x ∈ a, m.unit < x.unit) ∧ ∀ x ∈ b, m.unit ≤ x.unit

/-- R444, R448, R450–R452, R455: the collector takes a held message, or one that comes from outside, into the log as the newest entry,
whose source 241 it raises (LOG_LOST counts where 256 stand); one that repeats one of the 16 newest only counts there. It fills
an empty capture with one of at least CAPTURE_SEV,
and sets the unit's STICKY bit of its SEV, its count and its last message. FIRMWARE_INTERNAL ends the command that it names with
INTERNAL.
Clauses of it rest on the model's choices: log entry 58 (the collector), 4 (nothing held, nothing accepted). -/
def Obligations.AcceptingFaultMessages : Prop :=
  (∀ (s : State) (m : FaultMsg), nextHeld s.faults.held = some m → Completes (.faultMessage none) s
    (({ s with faults := { s.faults with held := s.faults.held.erase m } } : State).acceptMessage m)) ∧
  (∀ s : State, s.faults.held = [] → Completes (.faultMessage none) s s) ∧
  (∀ (s : State) (m : FaultMsg), Completes (.faultMessage (some m)) s (s.acceptMessage (Sys2Proof.Machine.FaultMsg.proper m))) ∧
  (∀ (s : State) (m : FaultMsg), s.acceptMessage m =
    (((((s.logMessage m).1.capture m (s.logMessage m).2).unitNotes m).act m)).commandFault m) ∧
  (∀ (s : State) (m : FaultMsg), (m.kind ≠ 0x60 → s.commandFault m = s) ∧
    (m.kind = 0x60 → s.commandFault m = s.finishCommand (m.addr % 256) Result.internal [])) ∧
  (∀ (s : State) (m : FaultMsg) (u : Nat), m.unit = u → unitListed u = true → unitBit m.kind = none → 128 ≤ u →
    s.unitNotes m = (((s.setSticky u m.sev).bump Od.unit_MESSAGES u).set Od.unit_LAST u (FaultMsg.word m)).set Od.unit_LAST_AT u
      (RTime.word ((s.setSticky u m.sev).now 0))) ∧
  (∀ (s : State) (m : FaultMsg) (top : List LogEntry) (n : Nat), s.mergeEntry m (s.faults.log.take 16) = some (top, n) →
    s.logMessage m = ({ s with faults := { s.faults with log := top ++ s.faults.log.drop 16 } }, n)) ∧
  (∀ (s : State) (m : FaultMsg) (e : LogEntry) (es : List LogEntry), s.repeats m e = true →
    s.mergeEntry m (e :: es) = some ({ e with repeats := min 65535 (e.repeats + 1) } :: es, e.seq)) ∧
  (∀ (s : State) (m : FaultMsg), (∀ e ∈ s.faults.log.take 16, s.repeats m e = false) → 256 ≤ s.faults.log.length →
    let u := s.bump Od.fc_LOG_LOST
    s.logMessage m = ((({ u with faults := { u.faults with
      log := ({ seq := s.faults.seq, msg := m, action := s.actionOf m, repeats := 0, at_ := s.now 0, uptime := s.uptimeNs } ::
        u.faults.log).take 256
      seq := s.faults.seq + 1 } } : State).raise 241), s.faults.seq)) ∧
  (∀ (s : State) (m : FaultMsg), (∀ e ∈ s.faults.log.take 16, s.repeats m e = false) → s.faults.log.length < 256 →
    s.logMessage m = ((({ s with faults := { s.faults with
      log := { seq := s.faults.seq, msg := m, action := s.actionOf m, repeats := 0, at_ := s.now 0, uptime := s.uptimeNs } ::
        s.faults.log
      seq := s.faults.seq + 1 } } : State).raise 241), s.faults.seq)) ∧
  (∀ (s : State) (m : FaultMsg) (n : Nat), m.sev < s.get Od.fc_CAPTURE_SEV → s.capture m n = s) ∧
  (∀ (s : State) (m : FaultMsg) (n : Nat), s.get Od.fc_CAPTURE_SEV ≤ m.sev → s.flag Od.cap_VALID = false →
    s.capture m n = (((((s.set Od.cap_VALID 0 1).set Od.cap_MESSAGE 0 (FaultMsg.word m)).set Od.cap_AT 0
      (RTime.word (s.now 0))).set Od.cap_UPTIME_NS 0 s.uptimeNs).set Od.cap_LOG_SEQ 0 n).set Od.cap_SEV_MAX 0 m.sev)

/-- R453: while VALID is 1, a further message of at least CAPTURE_SEV, whatever raised it, counts in MERGE_COUNT, sets bit KIND of
KINDS_SEEN, and raises SEV_MAX when its SEV is higher; the captured message, its times and its SEQ keep their values. The
collector runs this for every message that it accepts. -/
def Obligations.MergingIntoTheCapture : Prop :=
  (∀ (s : State) (m : FaultMsg) (n : Nat), s.get Od.fc_CAPTURE_SEV ≤ m.sev → s.flag Od.cap_VALID = true →
    let t := s.capture m n
    t = ((s.bump Od.cap_MERGE_COUNT).set Od.cap_KINDS_SEEN 0 (setBit (s.get Od.cap_KINDS_SEEN) m.kind)).set
      Od.cap_SEV_MAX 0 (max m.sev (s.get Od.cap_SEV_MAX)) ∧
    t.get Od.cap_KINDS_SEEN = setBit (s.get Od.cap_KINDS_SEEN) m.kind % Od.cap_KINDS_SEEN.modulus ∧
    t.get Od.cap_SEV_MAX = max m.sev (s.get Od.cap_SEV_MAX) % Od.cap_SEV_MAX.modulus ∧
    ∀ r ∈ [Od.cap_VALID, Od.cap_MESSAGE, Od.cap_AT, Od.cap_UPTIME_NS, Od.cap_LOG_SEQ], t.get r = s.get r) ∧
  (∀ (s : State) (m : FaultMsg), s.acceptMessage m =
    (((((s.logMessage m).1.capture m (s.logMessage m).2).unitNotes m).act m)).commandFault m)

/-- R447–R449, R457: a cell's ROW_WATCHDOG retires it; a message of KIND 0x40 is only logged; SECURITY and the other fatal kinds
halt, with HALTED set and HALT_CAUSE the message. A cell reports ROW_WATCHDOG once its row has run for more than 16 times its
time, and a conditioner once a strip of the stream has; not before. The control processor's reports at once.
Clauses of it rest on the model's choices: log entry 59 (what a HALT drops). -/
def Obligations.FaultActions : Prop :=
  (∀ (s : State) (m : FaultMsg), m.kind = 0x07 → m.unit < 128 → s.act m = (s.noteCellFault m.unit).retireCell m.unit) ∧
  (∀ (s : State) (m : FaultMsg), m.kind = 0x40 → s.act m = s) ∧
  (∀ (s : State) (m : FaultMsg), m.kind ∈ [0x52, 0x61, 0x70] → s.act m = s.halt m) ∧
  (∀ (s : State) (m : FaultMsg), m.kind ≠ 0x70 → s.halted = false →
    (s.halt m).halted = true ∧ (s.halt m).get Od.fc_HALT_CAUSE = FaultMsg.word m % Od.fc_HALT_CAUSE.modulus) ∧
  (∀ (cc : Fin 128) (sid : Fin 512) (s : State) (r : CellRow), (s.cell cc).row = some r →
    (r.point.sid = sid → 16 * s.rowTime r.point.sid r.point.stage < r.busy →
      Completes (.rowWatchdogExpiry (.cell cc sid)) s (s.report cc 0x07 0 0xFF sid)) ∧
    (r.point.sid ≠ sid ∨ r.busy ≤ 16 * s.rowTime r.point.sid r.point.stage →
      Completes (.rowWatchdogExpiry (.cell cc sid)) s s)) ∧
  (∀ (cc : Fin 128) (sid : Fin 512) (s : State), (s.cell cc).row = none → Completes (.rowWatchdogExpiry (.cell cc sid)) s s) ∧
  (∀ (ic : Fin 8) (sid : Fin 512) (s : State),
    ((∃ p ∈ (s.stream sid).passes, p.ic = ic.val ∧ p.stripAt + 16 * s.stripCycles sid p < s.cycle) →
      Completes (.rowWatchdogExpiry (.conditioner ic sid)) s (s.report (144 + ic) 0x07 0 0xFF sid)) ∧
    ((∀ p ∈ (s.stream sid).passes, p.ic = ic.val → s.cycle ≤ p.stripAt + 16 * s.stripCycles sid p) →
      Completes (.rowWatchdogExpiry (.conditioner ic sid)) s s)) ∧
  (∀ s : State, Completes .cpWatchdogExpiry s (s.report 290 0x61 0 0xFF 0))

/-- R44, R454, R455, R466: VALID := 0 empties the capture; a write of STICKY clears the bits that are 1 in it; CLEAR_ALL := 1
clears every STICKY and no other object; a write of 0 to a sticky count zeroes it, and to a record, FOM_LOW, LOW_SHARED_FREE or
GRADIENT_MAX, restarts it from the present value.
Clauses of it rest on the model's choices: log entries 33 (writes with rows of their own), 66. -/
def Obligations.ClearingFaults : Prop :=
  (∀ (role : Role) (s : State), AcceptedNum s role Od.cap_VALID 0 0 →
    Completes (.captureClear role) s (succeeded ((((((((s.set Od.cap_VALID 0 0).set Od.cap_MESSAGE 0 0).set Od.cap_AT 0 0).set
      Od.cap_UPTIME_NS 0 0).set Od.cap_LOG_SEQ 0 0).set Od.cap_MERGE_COUNT 0 0).set Od.cap_KINDS_SEEN 0 0).set Od.cap_SEV_MAX 0 0))) ∧
  (∀ (role : Role) (unit : Fin 1024) (v : Nat) (s : State), AcceptedNum s role Od.unit_STICKY unit v →
    Completes (.stickyWrite role unit v) s (succeeded
      (s.set Od.unit_STICKY unit (s.get Od.unit_STICKY unit - (s.get Od.unit_STICKY unit &&& v))))) ∧
  (∀ (role : Role) (s : State), AcceptedNum s role Od.fc_CLEAR_ALL 0 1 → Completes (.clearAll role 1) s (succeeded s.clearAll)) ∧
  (∀ (s : State) (u : Nat), u < 1024 → s.clearAll.get Od.unit_STICKY u = 0) ∧
  (∀ (s : State) (r : Row) (i j : Nat), (∀ u < 1024, r.key i j ≠ Od.unit_STICKY.key u 0) → s.clearAll.get r i j = s.get r i j) ∧
  (∀ (role : Role) (index sub : Nat) (r : Row) (i j : Nat) (s : State), lookUp index sub = .inr (r, i, j) → r.acc = .roClear →
    let w : Writing := ⟨r, i, j, leBytes (if r.ty = .domain then (s.value r i j false).length else r.ty.size) 0⟩
    s.live = true → plainTest (roleRank role) false ⟨index, sub, r.ty.code, w.value⟩ = .inr w → s.lateTest s w = Status.ok →
    Completes (.stickyClear role index sub) s (succeeded (s.clearCount w))) ∧
  (∀ (role : Role) (index sub st : Nat) (s : State), lookUp index sub = .inl st →
    Completes (.stickyClear role index sub) s { s with lastStatus := st }) ∧
  (∀ (s : State) (w : Writing),
    (w.row ∉ [Od.lane_FOM_LOW, Od.pool_LOW_SHARED_FREE, Od.irq_HELD, Od.irq_PME_SENT, Od.egr_QUEUE_EGRESS, Od.th_GRADIENT_MAX] →
      s.clearCount w = s.put w.row w.inst w.sub 0) ∧
    (w.row = Od.lane_FOM_LOW → s.clearCount w = s.set Od.lane_FOM_LOW w.inst (s.get Od.lane_FOM w.inst)) ∧
    (w.row = Od.pool_LOW_SHARED_FREE → s.clearCount w =
      { s with queues := { s.queues with lowFree := tput s.queues.lowFree none w.inst (some (s.sharedFree w.inst)) } }) ∧
    (w.row = Od.irq_HELD → s.clearCount w = { s with host := { s.host with heldCount := 0 } }) ∧
    (w.row = Od.irq_PME_SENT → s.clearCount w = { s with host := { s.host with pmeSent := 0 } }) ∧
    (w.row = Od.th_GRADIENT_MAX → s.clearCount w = s.set Od.th_GRADIENT_MAX w.inst s.gradientNow))

/-! ### Writes of objects (R33–R50) -/

/-- R50, R63: a write is tested in order: a dictionary that is not live, an index or subindex that no object has, an object that is read
only, a role too low (counted), a wrong type, a wrong length, a value out of range, and the binding rules; a refused write stores
nothing. A write that passes commits. The rows of single objects are such writes.
R418, R423, R429, R441: a host write of BAR 0 clears the counts of refused and misused accesses, and writes DESC_BASE of a stopped
channel; enabling MSI-X, and unmasking the function, send what is held.
Clauses of it rest on the model's choices: log entries 33 (corners of writes), 57 (BAR 0). -/
def Obligations.WritesAreTested : Prop :=
  let answered : State → Nat → State := fun s st => { s with lastStatus := st }
  (∀ (role : Role) (index sub ty : Nat) (v : List Byte) (s : State), s.live = false →
    Completes (.objectWrite (.object role index sub ty v)) s (answered s Status.notReady)) ∧
  (∀ (role : Role) (index sub ty : Nat) (v : List Byte) (s : State) (st : Nat), s.live = true → lookUp index sub = .inl st →
    st ≠ Status.denied → Completes (.objectWrite (.object role index sub ty v)) s (answered s st)) ∧
  (∀ (role : Role) (index sub ty : Nat) (v : List Byte) (s : State) (r : Row) (i j : Nat), s.live = true →
    lookUp index sub = .inr (r, i, j) →
    (r.acc = .ro → Completes (.objectWrite (.object role index sub ty v)) s (answered s Status.readOnly)) ∧
    (r.acc ≠ .ro → r.acc ≠ .cmd →
      (roleRank role < writeRole index sub → Completes (.objectWrite (.object role index sub ty v)) s
        (answered (s.bump Od.iop_DENIED_COUNT) Status.denied)) ∧
      (writeRole index sub ≤ roleRank role →
        (ty ≠ r.ty.code → Completes (.objectWrite (.object role index sub ty v)) s (answered s Status.typeMismatch)) ∧
        (ty = r.ty.code → lengthOk r v.length = false →
          Completes (.objectWrite (.object role index sub ty v)) s (answered s Status.length)) ∧
        (ty = r.ty.code → lengthOk r v.length = true →
          let w : Writing := ⟨r, i, j, v⟩
          (s.rangeOk (s.stage s w) w = false → r ≠ Od.sec_DEBUG_TOKEN →
            Completes (.objectWrite (.object role index sub ty v)) s (answered s Status.outOfRange)) ∧
          (s.rangeOk (s.stage s w) w = true → s.bindingOk (s.stage s w) w = false → r ≠ Od.sec_DEBUG_TOKEN → isSetting w = false →
            Completes (.objectWrite (.object role index sub ty v)) s (answered s Status.inUse)) ∧
          (s.lateTest (s.stage s w) w ≠ Status.ok → Completes (.objectWrite (.object role index sub ty v)) s
            (answered (s.noteRefusal (s.stage s w) w (s.lateTest (s.stage s w) w)) (s.lateTest (s.stage s w) w))) ∧
          (s.rangeOk (s.stage s w) w = true → s.bindingOk (s.stage s w) w = true →
            Completes (.objectWrite (.object role index sub ty v)) s (succeeded (State.follow s (s.stage s w) w))))))) ∧
  (let write : Role → Row → Nat → Nat → Instr := fun role r i v =>
     .objectWrite (.object role (r.base + i) r.sub r.ty.code (valueBytes r v))
   ∀ (role : Role) (v : Nat) (s : State),
    (∀ rd : Fin 8, exec (.domainEnableWrite role rd v) s = exec (write role Od.rd_ENABLE rd v) s) ∧
    (∀ cc : Fin 128, exec (.cellOutOfService role cc v) s = exec (write role Od.cell_OUT_OF_SERVICE cc v) s) ∧
    (∀ ic : Fin 8, exec (.conditionerOutOfService role ic v) s = exec (write role Od.ic_OUT_OF_SERVICE ic v) s) ∧
    (∀ sid : Fin 512, exec (.rapRequest role sid v) s = exec (write role Od.enc_RAP_REQUEST sid v) s) ∧
    (∀ sid : Fin 512, exec (.crownMaskWrite role sid v) s = exec (write role Od.st_CROWN_MASK sid v) s) ∧
    (∀ cw : Fin 16, exec (.clockForceWrite role cw v) s = exec (write role Od.crown_CLOCK_FORCE cw v) s) ∧
    (∀ p : Fin 16, exec (.poolEnableWrite role p v) s = exec (write role Od.pool_ENABLE p v) s) ∧
    (∀ g : Fin 256, exec (.queueFlush role g v) s = exec (write role Od.qg_FLUSH g v) s) ∧
    (∀ u : Fin 1024, exec (.stickyWrite role u v) s = exec (write role Od.unit_STICKY u v) s) ∧
    exec (.bankSelectWrite role v) s = exec (write role Od.cs_BANK_SELECT 0 v) s ∧
    exec (.pictureRegionWrite role v) s = exec (write role Od.mil_PICTURE_REGION 0 v) s ∧
    exec (.clearAll role v) s = exec (write role Od.fc_CLEAR_ALL 0 v) s ∧
    exec (.debugSeal role v) s = exec (write role Od.sec_DEBUG_SEAL 0 v) s ∧
    exec (.flashProgram role v) s = exec (write role Od.sec_FLASH_PROGRAM 0 v) s) ∧
  (∀ s : State, Completes (.objectWrite (.bar0 0x28 4 0)) s { s with host := { s.host with bar2Refused := 0 } } ∧
    Completes (.objectWrite (.bar0 0x2C 4 0)) s { s with host := { s.host with bar0Misuse := 0 } }) ∧
  (∀ (ch : Fin 32) (v : Nat) (s : State),
    ((s.dma ch).state = dmaStopped → Completes (.objectWrite (.bar0 (0x4000 + 64 * ch + 8) 8 v)) s
      (s.setDma ch { s.dma ch with descBase := v / 32 * 32 })) ∧
    ((s.dma ch).state ≠ dmaStopped → Completes (.objectWrite (.bar0 (0x4000 + 64 * ch + 8) 8 v)) s s.misuseBar0)) ∧
  (∀ s : State, Completes (.objectWrite (.msixEnable true)) s ({ s with host := { s.host with msixEnabled := true } }.d0Catch.sendHeld) ∧
    Completes (.objectWrite (.msixEnable false)) s { s with host := { s.host with msixEnabled := false } } ∧
    Completes (.objectWrite (.functionMask true)) s { s with host := { s.host with functionMask := true } } ∧
    Completes (.objectWrite (.functionMask false)) s ({ s with host := { s.host with functionMask := false } }.d0Catch.sendHeld) ∧
    ∀ on, Completes (.objectWrite (.pmeEnable on)) s { s with host := { s.host with pmeEnabled := on } })

/-- R14, R91, R113, R120, R139, R157, R266, R280: what accepted writes of the rows of their own do at once: a domain that is enabled
starts from raster time 0, and one that runs is stopped at its swap point; a cell taken out of service drains, and one that is put
back rests or goes on; a conditioner out of service shows it; RAP_REQUEST and QUEUE_FLUSH act; CLOCK_FORCE, BANK_SELECT and
PICTURE_REGION wait for the swap.
Clauses of it rest on the model's choices: log entry 33 (corners of writes). -/
def Obligations.WritesOfUnits : Prop :=
  (∀ (role : Role) (rd : Fin 8) (s : State), AcceptedNum s role Od.rd_ENABLE rd 1 → s.enabled rd = false →
    Completes (.domainEnableWrite role rd 1) s (succeeded ((stored s Od.rd_ENABLE rd 1).startDomain rd))) ∧
  (∀ (role : Role) (rd : Fin 8) (s : State), AcceptedNum s role Od.rd_ENABLE rd 0 → s.enabled rd = true →
    Completes (.domainEnableWrite role rd 0) s (succeeded (s.putShadow Od.rd_ENABLE rd 0 0))) ∧
  (∀ (role : Role) (cc : Fin 128) (s : State), AcceptedNum s role Od.cell_OUT_OF_SERVICE cc 1 →
    (stored s Od.cell_OUT_OF_SERVICE cc 1).cellState cc ≠ cellRetired →
    Completes (.cellOutOfService role cc 1) s (succeeded
      (((stored s Od.cell_OUT_OF_SERVICE cc 1).set Od.cell_STATE cc cellDraining).atBoundary cc))) ∧
  (∀ (role : Role) (cc : Fin 128) (s : State), AcceptedNum s role Od.cell_OUT_OF_SERVICE cc 0 →
    (stored s Od.cell_OUT_OF_SERVICE cc 0).cellState cc = cellDraining →
    Completes (.cellOutOfService role cc 0) s (succeeded (((stored s Od.cell_OUT_OF_SERVICE cc 0).cellRest cc).refreshCell cc))) ∧
  (∀ (role : Role) (ic : Fin 8) (s : State), AcceptedNum s role Od.ic_OUT_OF_SERVICE ic 1 →
    Completes (.conditionerOutOfService role ic 1) s (succeeded ((stored s Od.ic_OUT_OF_SERVICE ic 1).set Od.ic_STATE ic 2))) ∧
  (∀ (role : Role) (ic : Fin 8) (s : State), AcceptedNum s role Od.ic_OUT_OF_SERVICE ic 0 → ic.val ∉ s.faults.conditioners →
    Completes (.conditionerOutOfService role ic 0) s (succeeded
      ((stored s Od.ic_OUT_OF_SERVICE ic 0).set Od.ic_STATE ic 0).refreshConditioners)) ∧
  (∀ (role : Role) (sid : Fin 512) (s : State), AcceptedNum s role Od.enc_RAP_REQUEST sid 1 → s.streamShut sid = false →
    Completes (.rapRequest role sid 1) s (succeeded (s.setStream sid { s.stream sid with rapRequest := true }))) ∧
  (∀ (role : Role) (cw : Fin 16) (v : Nat) (s : State), AcceptedNum s role Od.crown_CLOCK_FORCE cw v →
    Completes (.clockForceWrite role cw v) s (succeeded (s.putShadow Od.crown_CLOCK_FORCE cw 0 v))) ∧
  (∀ (role : Role) (v : Nat) (s : State), AcceptedNum s role Od.cs_BANK_SELECT 0 v →
    Completes (.bankSelectWrite role v) s (succeeded (s.putShadow Od.cs_BANK_SELECT 0 0 v))) ∧
  (∀ (role : Role) (v : Nat) (s : State), AcceptedNum s role Od.mil_PICTURE_REGION 0 v →
    Completes (.pictureRegionWrite role v) s (succeeded (s.putShadow Od.mil_PICTURE_REGION 0 0 v)))

/-- R86, R308, R310, R325, R410–R412: CROWN_MASK of a stream that is not open is stored, and of an open one plans its cells
again; a pool is enabled at the place that R308 finds and disabled when it may be; a change of a minimum is followed in its pool;
FLUSH empties the queues of its mask; GATE_APPLY installs the staged list, or removes the one that runs.
Clauses of it rest on the model's choices: log entry 33 (corners of writes), 47 (pools). -/
def Obligations.WritesOfQueuesAndGates : Prop :=
  (∀ (role : Role) (sid : Fin 512) (v : Nat) (s : State), AcceptedNum s role Od.st_CROWN_MASK sid v →
    Completes (.crownMaskWrite role sid v) s (succeeded (State.planStream s (stored s Od.st_CROWN_MASK sid v) sid true))) ∧
  (∀ (old s : State) (sid : Nat) (mask : Bool), s.streamShut sid = true → State.planStream old s sid mask = s) ∧
  (∀ (role : Role) (p : Fin 16) (s : State) (a : Nat), AcceptedNum s role Od.pool_ENABLE p 1 → s.poolOn p = false →
    s.poolSpot p = some a → Completes (.poolEnableWrite role p 1) s (succeeded (s.openPool p a))) ∧
  (∀ (role : Role) (p : Fin 16) (s : State), AcceptedNum s role Od.pool_ENABLE p 0 → s.poolOn p = true →
    Completes (.poolEnableWrite role p 0) s (succeeded (((s.set Od.pool_ENABLE p 0).set Od.pool_BASE p 0).setFree p {}))) ∧
  (∀ (role : Role) (p : Fin 128) (v : Nat) (s : State), AcceptedNum s role Od.pool_HOST_MIN p v →
    Completes (.minimumWrite role true p v) s (succeeded ((s.putShadow Od.pool_HOST_MIN p 0 v).poolChanged p))) ∧
  (∀ (role : Role) (g : Fin 128) (v : Nat) (s : State), AcceptedNum s role Od.qg_INGEST_MIN g v →
    Completes (.minimumWrite role false g v) s (succeeded
      ((s.putShadow Od.qg_INGEST_MIN g 0 v).poolChanged (s.get Od.qg_INGEST_POOL g)))) ∧
  (∀ (role : Role) (g : Fin 256) (mask : Nat) (s : State), AcceptedNum s role Od.qg_FLUSH g mask →
    Completes (.queueFlush role g mask) s (succeeded (s.flushGroup g mask))) ∧
  (∀ (role : Role) (p : Fin 128) (s : State), AcceptedNum s role Od.egr_GATE_APPLY p 1 →
    Completes (.gateApplyInstall role p) s (succeeded (s.installGates p))) ∧
  (∀ (role : Role) (p : Fin 128) (s : State), AcceptedNum s role Od.egr_GATE_APPLY p 2 →
    Completes (.gateApplyRemove role p) s (succeeded (s.removeGates p)))

/-! ### IOP (R46–R67) -/

/-- R55, R57, R59: a HELLO beyond HELLO_RATE is discarded silently; one with an unknown KEY_ID counts as an authentication failure;
one with a known key is answered with a CHALLENGE, or, over UDP or the fabric with SESSION_MAX sessions open, with REJECT. A PROVE
whose signature and HMAC verify opens its session; one without a handshake is a failure. A handshake and an idle session end
with their times, and not before.
Clauses of it rest on the model's choices: log entry 8 (cryptographic functions are opaque), 30 (frames of sessions), 31 (the
mailbox's request). -/
def Obligations.Handshakes : Prop :=
  (∀ (o : Origin) (f : List Byte) (s : State), s.live = true → s.transportOpen o = true → Framed f 0x01 → Free o s →
    let b := beforeFrame o s
    (b.takeHello = none → Completes (.hello o f) s (afterFrame o b)) ∧
    ∀ t, b.takeHello = some t →
      (t.sec.sealedOff = true → Completes (.hello o f) s (afterFrame o (t.bump Od.iop_FRAMES_DISCARDED))) ∧
      (t.sec.sealedOff = false → f.length < 512 → Completes (.hello o f) s (afterFrame o (t.bump Od.iop_AUTH_FAILURES))) ∧
      (t.sec.sealedOff = false → 512 ≤ f.length →
        (t.clientKey (((f.drop 16).drop 165).take 8) = none →
          Completes (.hello o f) s (afterFrame o (t.bump Od.iop_AUTH_FAILURES))) ∧
        ∀ k, t.clientKey (((f.drop 16).drop 165).take 8) = some k →
          (o ≠ .mailbox → t.get Od.iop_SESSION_MAX ≤ t.sessionsOpen →
            Completes (.hello o f) s (t.sendTo o (rejectFrame (leAt f 8 4) (leAt f 12 4) 6 none))) ∧
          ((o = .mailbox ∨ t.sessionsOpen < t.get Od.iop_SESSION_MAX) →
            (4096 < f.length → Completes (.hello o f) s (afterFrame o (t.badHead o f 3))) ∧
            (f.length ≤ 4096 → Completes (.hello o f) s (afterFrame o (t.challenge o k (f.drop 16))))))) ∧
  (∀ (o : Origin) (f : List Byte) (s : State), s.live = true → s.transportOpen o = true → Framed f 0x03 → Free o s →
    let b := beforeFrame o s
    (b.iop.handshakes.find? (fun h => h.session = leAt f 8 4 ∧ h.origin = o) = none →
      Completes (.prove o f) s (afterFrame o (b.bump Od.iop_AUTH_FAILURES))) ∧
    ∀ h, b.iop.handshakes.find? (fun h => h.session = leAt f 8 4 ∧ h.origin = o) = some h →
      let good := Config.ecdsaVerify h.pubkey (Config.sha512 (h.hello ++ h.answer)) ((f.drop 16).take 132)
      (good = false → Completes (.prove o f) s (afterFrame o ((b.endHandshake h).bump Od.iop_AUTH_FAILURES))) ∧
      (good = true → hmacOk h.keys.1 f = false → Completes (.prove o f) s (afterFrame o (b.bump Od.iop_AUTH_FAILURES))) ∧
      (good = true → hmacOk h.keys.1 f = true →
        (4096 < f.length → Completes (.prove o f) s (afterFrame o (b.badHead o f 3))) ∧
        (f.length ≤ 4096 → Completes (.prove o f) s (afterFrame o (b.openSession h))))) ∧
  (∀ (id : Nat) (s : State), Completes (.handshakeTimeout id) s { s with iop := { s.iop with
    handshakes := s.iop.handshakes.filter fun h => decide (h.session ≠ id ∨ s.cycle < h.startAt + secCycles 2) } }) ∧
  (∀ (id : Nat) (s : State),
    (s.session id = none → Completes (.idleTimeout id) s s) ∧
    ∀ x, s.session id = some x →
      (x.auth = false ∨ s.cycle < x.lastValid + secCycles x.idleTimeout ∨ x.lastValid = s.cycle → Completes (.idleTimeout id) s s) ∧
      (x.auth = true → x.lastValid + secCycles x.idleTimeout ≤ s.cycle → x.lastValid ≠ s.cycle →
        (id = 0 → Completes (.idleTimeout id) s s.resetMailbox) ∧
        (id ≠ 0 → Completes (.idleTimeout id) s { s with iop := { s.iop with
          sessions := s.iop.sessions.filter (fun y => decide (y.id ≠ id))
          inFlight := s.iop.inFlight.filter (fun f => decide (f.session ≠ id)) } })))

/-- R47, R58–R60, R62, R63: a frame is the command of its TYPE. One of the mailbox while a request is outstanding is ignored and
counted; before the dictionary is live the mailbox is answered with REJECT; a bad head is refused. Inside a session a REQUEST with a new
SEQ is executed, one with the kept SEQ is answered again with what was answered, and an older one is discarded and counted; NOTIFY_ACK
ends the resending of its NOTIFY; CLOSE closes; a bad HMAC counts, and the sixteenth in succession closes. A NOTIFY not
acknowledged for 100 ms is sent again up to three times and then lost.
Clauses of it rest on the model's choices: log entries 8, 29, 30 (frames of sessions) and 31 (the mailbox's request). -/
def Obligations.SessionFrames : Prop :=
  (∀ (o : Origin) (f : List Byte) (s : State),
    let i := frameCommand o f
    let b := beforeFrame o s
    (∀ j ∈ [Instr.hello o f, .prove o f, .request o f, .notifyAck o f, .close o f], j ≠ i → Completes j s s) ∧
    (o = .mailbox → s.host.outstanding = true → Completes i s (s.bump Od.iop_FRAMES_DISCARDED)) ∧
    (Free o s →
      (s.live = false →
        (o = .mailbox → Completes i s (afterFrame o (b.sendTo o (rejectFrame (leAt f 8 4) (leAt f 12 4) 7 none)))) ∧
        (o ≠ .mailbox → Completes i s s)) ∧
      (s.live = true →
        (s.transportOpen o = false → Completes i s s) ∧
        (s.transportOpen o = true →
          (f.take 3 ≠ [0x49#8, 0x4F#8, 0x01#8] ∨ f.length < 16 → Completes i s (afterFrame o (b.badHead o f 1))) ∧
          (f.take 3 = [0x49#8, 0x4F#8, 0x01#8] → 16 ≤ f.length → leAt f 6 2 ≠ f.length → Completes i s (afterFrame o (b.badHead o f 2))) ∧
          (f.take 3 = [0x49#8, 0x4F#8, 0x01#8] → 16 ≤ f.length → leAt f 6 2 = f.length → leAt f 3 1 ∉ clientTypes →
            Completes i s (afterFrame o (b.badHead o f 1))))))) ∧
  (∀ (o : Origin) (f : List Byte) (s : State) (i : Instr), s.live = true → s.transportOpen o = true → Free o s →
    (i = .request o f ∧ Framed f 0x10 ∨ i = .notifyAck o f ∧ Framed f 0x21 ∨ i = .close o f ∧ Framed f 0x30) →
    let b := beforeFrame o s
    (b.session (leAt f 8 4) = none → Completes i s (afterFrame o (b.bump Od.iop_AUTH_FAILURES))) ∧
    ∀ x, b.session (leAt f 8 4) = some x →
      (¬ (o = .mailbox ↔ x.id = 0) → Completes i s (afterFrame o (b.bump Od.iop_AUTH_FAILURES))) ∧
      ((o = .mailbox ↔ x.id = 0) → x.auth = false → (leAt f 4 2).testBit 0 = true →
        Completes i s (afterFrame o (b.bump Od.iop_AUTH_FAILURES))) ∧
      ((o = .mailbox ↔ x.id = 0) → x.auth = true → hmacOk x.c2e f = false →
        (x.id ≠ 0 → x.badRun < 15 →
          Completes i s (afterFrame o ((b.bump Od.iop_AUTH_FAILURES).setSession { x with badRun := x.badRun + 1 }))) ∧
        (x.id = 0 ∨ 15 ≤ x.badRun → Completes i s (afterFrame o ((b.bump Od.iop_AUTH_FAILURES).closeSession x.id))))) ∧
  (∀ (o : Origin) (f : List Byte) (s : State) (x y : Session) (t : State), s.live = true → s.transportOpen o = true → Free o s →
    (beforeFrame o s).session (leAt f 8 4) = some x → (o = .mailbox ↔ x.id = 0) →
    (x.auth = true ∧ hmacOk x.c2e f = true ∧ y = { x with lastValid := s.cycle, badRun := 0 } ∧ t = (beforeFrame o s).setSession y ∨
      x.auth = false ∧ (leAt f 4 2).testBit 0 = false ∧ y = x ∧ t = beforeFrame o s) →
    (Framed f 0x10 →
      (x.keptSeq < leAt f 12 4 → Completes (.request o f) s
        (afterFrame o (t.runRequest y (leAt f 12 4) (leAt f 4 2) f ((f.drop 16).take (f.length - y.overhead))))) ∧
      (leAt f 12 4 = x.keptSeq → x.keptAnswer ≠ [] → Completes (.request o f) s (afterFrame o (t.sendTo o x.keptAnswer))) ∧
      (leAt f 12 4 = x.keptSeq → x.keptAnswer = [] → Completes (.request o f) s (afterFrame o t)) ∧
      (leAt f 12 4 < x.keptSeq → Completes (.request o f) s (afterFrame o (t.bump Od.iop_FRAMES_DISCARDED)))) ∧
    (Framed f 0x21 →
      (f.length ≤ x.frameMax → Completes (.notifyAck o f) s (afterFrame o { t with iop := { t.iop with
        inFlight := t.iop.inFlight.filter fun g => ¬ (g.session = x.id ∧ g.seq = leAt f 12 4) } })) ∧
      (x.frameMax < f.length →
        Completes (.notifyAck o f) s (afterFrame o (t.sendTo x.origin (rejectFrame x.id (leAt f 12 4) 3 x.outKey))))) ∧
    (Framed f 0x30 →
      (f.length ≤ x.frameMax → Completes (.close o f) s (afterFrame o (t.closeSession x.id))) ∧
      (x.frameMax < f.length →
        Completes (.close o f) s (afterFrame o (t.sendTo x.origin (rejectFrame x.id (leAt f 12 4) 3 x.outKey)))))) ∧
  (∀ (id seq : Nat) (s : State),
    (s.iop.inFlight.find? (fun f => f.session = id ∧ f.seq = seq) = none ∨ s.session id = none →
      Completes (.notifyResendTimeout id seq) s s) ∧
    ∀ g x, s.iop.inFlight.find? (fun f => f.session = id ∧ f.seq = seq) = some g → s.session id = some x →
      (s.resendDue g = false → Completes (.notifyResendTimeout id seq) s s) ∧
      (s.resendDue g = true → 3 ≤ g.resends → Completes (.notifyResendTimeout id seq) s
        (({ s with iop := { s.iop with inFlight := s.iop.inFlight.erase g } } : State).bump Od.iop_NOTIFY_LOST)) ∧
      (s.resendDue g = true → g.resends < 3 →
        let frame := engineFrame 0x20 id seq true (x.bodyOf g.frame) x.outKey
        let again : Option Nat → State := fun p => { s with iop := { s.iop with
          inFlight := mapIf (fun y => decide (y = g)) (fun _ => { g with frame := frame, resends := g.resends + 1, placed := p }) s.iop.inFlight } }
        (id = 0 → Completes (.notifyResendTimeout id seq) s ((again none).notifyMailbox frame)) ∧
        (id ≠ 0 → Completes (.notifyResendTimeout id seq) s ((again (some s.cycle)).sendWire x.origin frame))))

/-- R65–R67: an accepted command takes the next ticket and runs at once where none of its code, and none that excludes it, runs, else
it waits; when its 1 ms ends, the response that is held carries PENDING; its completion writes a record in front of the sixteen,
keeps the return data, reports the outcome and starts what waits.
Clauses of it rest on the model's choices: log entries 31 and 32 (where commands run), 82 (FUSE_REPAIR's TARGET). -/
def Obligations.CommandsRunInTicketOrder : Prop :=
  (∀ (s : State) (code session : Nat) (args : List Byte) (held : Option HeldResponse),
    let e : CmdEntry := {
      ticket := s.cmds.nextTicket, code := code, session := session, args := plainArgs code args, at_ := s.cycle, held := held }
    let t : State := { s with cmds := { s.cmds with ticket := s.cmds.nextTicket } }
    let q := s.cmdQueue code
    (s.mayStart code = true → q.waiting = [] →
      s.acceptCommand code session args held = t.setCmdQueue code { q with running := some e.begin }) ∧
    (s.mayStart code = false ∨ q.waiting ≠ [] →
      s.acceptCommand code session args held = t.setCmdQueue code { q with waiting := q.waiting ++ [e] }) ∧
    (e.code ≠ 0x33 ∨ leAt e.args 0 1 < 2 → e.begin = e)) ∧
  (∀ (code : Nat) (s : State),
    let q := s.cmdQueue code
    (q.running = none → Completes (.commandCompletion code) s s) ∧
    ∀ e, q.running = some e →
      (e.result = none → Completes (.commandCompletion code) s s) ∧
      ∀ r data, e.result = some (r, data) →
        let t := s.setCmdQueue code { q with
          running := none, lastReturn := data
          records := ((⟨e.ticket, if 2 ^ 32 ≤ e.session then 0 else e.session, r, s.now 0⟩ : CmdRecord) :: q.records).take 16 }
        let u := ((t.endCommand e r).answerCommand e r data).nextCommand code
        (e.session ≠ bootSession → Completes (.commandCompletion code) s u) ∧
        (e.session = bootSession → Completes (.commandCompletion code) s (u.configGoesOn r))) ∧
  (∀ (code : Nat) (s : State),
    let q := s.cmdQueue code
    let asks : CmdEntry → Bool := fun e =>
      e.held.isSome && !e.pending && e.result.isNone && decide (e.at_ + msCycles 1 ≤ s.cycle)
    ((∀ e ∈ q.running.toList ++ q.waiting, asks e = false) → Completes (.commandResponseTimeout code) s s) ∧
    ∀ e h, (q.running.toList ++ q.waiting).find? asks = some e → e.held = some h →
      let mark : CmdEntry → CmdEntry := fun x => if x.ticket = e.ticket then { x with pending := true } else x
      Completes (.commandResponseTimeout code) s
        ((s.setCmdQueue code { q with running := q.running.map mark, waiting := q.waiting.map mark }).sayPending e h))

/-! ### The PCIe function (R414–R434) -/

/-- R421, R422: a doorbell with no request outstanding makes REQ_BUSY 1, and any other is discarded and counted; when the copy ends,
source 67 is raised and the frame is taken; a release lets the waiting answer go ahead of the waiting notification.
Clauses of it rest on the model's choices: log entries 31 (requests of the mailbox), 4. -/
def Obligations.MailboxRequests : Prop :=
  (∀ (n : Nat) (b : List Byte) (s : State), s.host.outstanding = false →
    Completes (.mbxDoorbell n b) s { s with host := { s.host with reqBusy := true, reqLength := n % 8192, reqBuf := b.take 4096 } }) ∧
  (∀ (n : Nat) (b : List Byte) (s : State), s.host.outstanding = true →
    Completes (.mbxDoorbell n b) s (s.bump Od.iop_FRAMES_DISCARDED)) ∧
  (∀ s : State, s.host.reqBusy = true →
    let t := ({ s with host := { s.host with reqBusy := false, executing := true } } : State).raise 67
    Completes .mbxCopyDone s
      ((t.receiveFrame .mailbox (t.host.reqBuf.take t.host.reqLength) (leAt t.host.reqBuf 6 2)).endExecuting)) ∧
  (∀ s : State, s.host.reqBusy = false → Completes .mbxCopyDone s s) ∧
  (∀ (s : State) (f : List Byte), s.host.respReady = true → s.host.respWaiting = some f → Completes .mbxRelease s
    (({ s with host := { s.host with respReady := false, respWaiting := none } } : State).placeResponse f)) ∧
  (∀ (s : State) (f : List Byte) (fs : List (List Byte)), s.host.respReady = true → s.host.respWaiting = none →
    s.host.notifyWaiting = f :: fs → Completes .mbxRelease s (({ s with
      iop := s.iop.markPlaced f s.cycle, host := { s.host with respReady := false, notifyWaiting := fs } } : State).placeResponse f)) ∧
  (∀ s : State, s.host.respReady = true → s.host.respWaiting = none → s.host.notifyWaiting = [] →
    Completes .mbxRelease s { s with host := { s.host with respReady := false } }) ∧
  (∀ s : State, s.host.respReady = false → Completes .mbxRelease s s)

/-- R415, R416, R441, R442: a reset of the function abandons the DMA channels, every pending source and the mailbox session; a cause
that blocks requests freezes the running channels, and its end, the return to D0 and an unmasking let go what is held.
R417–R420: WINDOW_BASE takes bits [39:20]; an access that the registers do not accept reads zero and counts in BAR0_MISUSE, one
that they accept is answered; a BAR 2 access whose bytes do not lie in one region, or lie in PICTURE_REGION, is refused: it reads all
ones, a write is discarded, and it counts in BAR2_REFUSED. Another one reads, or writes, device memory at WINDOW_BASE + offset.
Clauses of it rest on the model's choices: log entries 55 and 57 (PCIe), 67 (a read of poisoned data). -/
def Obligations.PcieFunctionAndBars : Prop :=
  ((∀ s : State, (s.get Od.sys_BOOT_MODE ≠ 1 → Completes .pcieFunctionReset s s.resetFunction) ∧
      (s.get Od.sys_BOOT_MODE = 1 → Completes .pcieFunctionReset s s)) ∧
    (∀ s : State, s.resetFunction.host.dma = [] ∧ s.resetFunction.host.windowBase = 0 ∧ s.resetFunction.host.respReady = false ∧
      s.resetFunction.host.reqBusy = false ∧ ∀ e ∈ s.resetFunction.host.sources, e.2.pending = false ∧ e.2.active = false ∧ e.2.count = 0) ∧
    (∀ s : State, Completes (.pcieRequestsBlocked .busMaster) s (({ s with host := { s.host with busMaster := false } } : State).freezeDma)) ∧
    (∀ s : State, Completes (.pcieRequestsBlocked .d3hot) s (({ s with host := { s.host with d3hot := true } } : State).freezeDma)) ∧
    (∀ s : State, Completes (.pcieRequestsBlocked .linkDown) s
      ((({ s with host := { s.host with linkUp := false } } : State).set Od.pcie_LINK_SPEED 0 0).set Od.pcie_LINK_WIDTH 0 0).freezeDma) ∧
    (∀ s : State, Completes (.pcieRequestsAllowed .busMaster) s
      (({ s with host := { s.host with busMaster := true } } : State).thawDma.d0Catch.sendHeld)) ∧
    (∀ s : State, Completes (.pcieRequestsAllowed .d3hot) s (({ s with host := { s.host with
      d3hot := false, d0Due := s.host.d0Due || s.host.d3hot } } : State).thawDma.d0Catch.sendHeld)) ∧
    (∀ s : State, (s.pciePowered = false → Completes (.pcieRequestsAllowed .linkDown) s s) ∧
      (s.pciePowered = true →
        let t : State := { s with host := { s.host with linkUp := true } }
        Completes (.pcieRequestsAllowed .linkDown) s ((if s.host.linkUp then t else t.trainPcie).thawDma.d0Catch.sendHeld))) ∧
    (∀ s : State, Completes .d0Return s (({ s with host := { s.host with
      pmeStatus := false, d3hot := false, d0Due := s.host.d0Due || s.host.d3hot } } : State).thawDma.d0Catch.sendHeld)) ∧
    (∀ (v : Fin 64) (s : State), Completes (.msixUnmask (.vector v)) s
      ((s.setVector v { s.vector v with masked := false }).d0Catch.sendHeld)) ∧
    (∀ s : State, Completes (.msixUnmask .function) s (({ s with host := { s.host with functionMask := false } } : State).d0Catch.sendHeld)) ∧
    (∀ s : State, Completes (.msixUnmask .enable) s (({ s with host := { s.host with msixEnabled := true } } : State).d0Catch.sendHeld)) ∧
    (∀ x : DmaChannel, x.settleFrozen false =
      (if x.state = dmaRunning ∨ x.state = dmaWaiting then { x with state := dmaFrozen, frozen := some x.state } else x))) ∧
  (∀ (v : Nat) (s : State), Completes (.windowBaseWrite v) s { s with host := { s.host with windowBase := bits v 20 20 * 2 ^ 20 } }) ∧
  (∀ (o n : Nat) (s : State),
    (0x1000 ≤ o → o + n ≤ 0x2000 → Completes (.bar0MisuseAccess o n) s (s.emit (.answer (bufferBytes s.host.reqBuf (o - 0x1000) n)))) ∧
    (0x2000 ≤ o → o + n ≤ 0x3000 → 0 < n →
      Completes (.bar0MisuseAccess o n) s (s.emit (.answer (bufferBytes s.host.respBuf (o - 0x2000) n)))) ∧
    (bar0Misused o n = true → Completes (.bar0MisuseAccess o n) s
      (({ s with host := { s.host with bar0Misuse := (s.host.bar0Misuse + 1) % 2 ^ 32 } } : State).emit (.answer (List.replicate n 0#8)))) ∧
    (bar0Misused o n = false → ¬ (0x1000 ≤ o ∧ o + n ≤ 0x2000) → ¬ (0x2000 ≤ o ∧ o + n ≤ 0x3000) →
      (∀ v, claimAt o = some v → Completes (.bar0MisuseAccess o n) s
        ((s.claimVector v).1.emit (.answer (leBytes 4 (s.claimVector v).2)))) ∧
      (claimAt o = none → bar0Listed o = true → Completes (.bar0MisuseAccess o n) s
        (s.emit (.answer (leBytes n (s.bar0Dword o + 2 ^ 32 * s.bar0Dword (o + 4)))))) ∧
      (claimAt o = none → bar0Listed o = false → Completes (.bar0MisuseAccess o n) s (s.emit (.answer (leBytes n 0)))))) ∧
  (∀ (o : Nat) (n : Nat) (w : List Byte) (m : MemMeet) (s : State),
    let a := s.host.windowBase + o
    let refused : State := { s with host := { s.host with bar2Refused := (s.host.bar2Refused + 1) % 2 ^ 32 } }
    (s.bar2Bad a n = true → Completes (.bar2Access o (some n) w m) s (refused.emit (.answer (List.replicate n 0xFF#8)))) ∧
    (s.bar2Bad a w.length = true → Completes (.bar2Access o none w m) s refused) ∧
    (s.bar2Bad a n = false →
      (∀ bs t, s.hbmRead 156 a n m = (t, .data bs) → Completes (.bar2Access o (some n) w m) s (t.emit (.answer bs))) ∧
      (∀ t, s.hbmRead 156 a n m = (t, .poisoned) → Completes (.bar2Access o (some n) w m) s
        (((t.bump Od.pcie_AER_UNCORRECTABLE).report Unit.pcie 0x48 1 156 a).emit (.poisoned a n))) ∧
      (s.hbmRead 156 a n m).2 ≠ .rejected) ∧
    (s.bar2Bad a w.length = false →
      (∀ t, s.hbmWrite 156 a w m = (t, true) → Completes (.bar2Access o none w m) s t) ∧
      (∀ t, s.hbmWrite 156 a w m = (t, false) → Completes (.bar2Access o none w m) s t.refuseBar2)))

/-- R429, R430: RUN starts a STOPPED channel at DESC_BASE, and asks for its descriptor; RUN := 0 stops one that stands at a boundary at
once, and another one at the end of its descriptor; CLEAR_ERROR returns a channel from ERROR; a doorbell makes an IDLE channel
fetch, and waits at another one. A descriptor that the host does not own leaves the channel IDLE, or uses up the doorbell; one that
cannot be read ends in ERROR.
Clauses of it rest on the model's choices: log entries 55 (DMA), 59 (HALTED runs no channel), 4. -/
def Obligations.DmaChannels : Prop :=
  (∀ (ch : Fin 32) (s : State),
    let x := s.dma ch
    let y := { x with state := dmaRunning, curDesc := x.descBase, desc := none, readback := false, stopping := false, moved := 0 }
    (x.state = dmaStopped → s.halted = false →
      (s.host.allowed = true → Completes (.dmaRun ch) s ((s.setDma ch y).emit (.hostRead x.descBase 32))) ∧
      (s.host.allowed = false → Completes (.dmaRun ch) s (s.setDma ch { y with state := dmaFrozen, frozen := some dmaRunning }))) ∧
    (x.state ≠ dmaStopped ∨ s.halted = true → Completes (.dmaRun ch) s s)) ∧
  (∀ (ch : Fin 32) (s : State),
    let x := s.dma ch
    (x.state = dmaStopped ∨ x.state = dmaError → Completes (.dmaStop ch) s s) ∧
    (x.state ≠ dmaStopped → x.state ≠ dmaError →
      (s.dmaAtBoundary ch = false → Completes (.dmaStop ch) s (s.setDma ch { x with stopping := true })) ∧
      (s.dmaAtBoundary ch = true → x.packet = none → Completes (.dmaStop ch) s (s.setDma ch { x with
        state := dmaStopped, desc := none, readback := false, stopping := false, frozen := none })) ∧
      (s.dmaAtBoundary ch = true → x.packet ≠ none → Completes (.dmaStop ch) s
        ((s.truncatePacket ch).setDma ch { (s.truncatePacket ch).dma ch with
          state := dmaStopped, desc := none, readback := false, stopping := false, frozen := none })))) ∧
  (∀ (ch : Fin 32) (s : State),
    ((s.dma ch).state = dmaError →
      Completes (.dmaClearError ch) s (s.setDma ch { s.dma ch with state := dmaStopped, fetchError := false })) ∧
    ((s.dma ch).state ≠ dmaError → Completes (.dmaClearError ch) s s)) ∧
  (∀ (ch : Fin 32) (s : State),
    let x := s.dma ch
    let y := { x with state := dmaRunning, doorbell := false, desc := none }
    (x.state = dmaIdle → s.host.allowed = true → Completes (.dmaDoorbell ch) s ((s.setDma ch y).emit (.hostRead x.curDesc 32))) ∧
    (x.state = dmaIdle → s.host.allowed = false →
      Completes (.dmaDoorbell ch) s (s.setDma ch { y with state := dmaFrozen, frozen := some dmaRunning })) ∧
    (x.state ≠ dmaIdle → Completes (.dmaDoorbell ch) s (s.setDma ch { x with doorbell := true }))) ∧
  (∀ (ch : Fin 32) (d : Descriptor) (data : List Byte) (m : MemMeet) (s : State), (s.dma ch).state = dmaRunning →
    (s.dma ch).desc = none →
    (Completes (.dmaDescriptorFetched ch none data m) s ((s.setDma ch { s.dma ch with fetchError := true }).dmaFails ch)) ∧
    (d.control.testBit 31 = false → (s.dma ch).doorbell = true → Completes (.dmaDescriptorFetched ch (some d) data m) s
      ((s.setDma ch { s.dma ch with doorbell := false }).emit (.hostRead (s.dma ch).curDesc 32))) ∧
    (d.control.testBit 31 = false → (s.dma ch).doorbell = false → Completes (.dmaDescriptorFetched ch (some d) data m) s
      (s.setDma ch { s.dma ch with state := dmaIdle }))) ∧
  (∀ (ch : Fin 32) (d : Option Descriptor) (data : List Byte) (m : MemMeet) (s : State),
    (s.dma ch).state ≠ dmaRunning ∨ (s.dma ch).desc ≠ none → Completes (.dmaDescriptorFetched ch d data m) s s)

/-- R427, R428, R431–R434: a descriptor that fails a check is written back with COUNT 0 and its status, and the channel enters ERROR
with its source; one that passes has its data moved, in chunks. When the read-back is done, CONTROL and COUNT are written back, INT
raises the channel's source, and the channel goes on; a packet that a stop or the end of the list cuts off ends with status 8. A host
read that fails writes what came before it and ends with status 6. A channel that waits goes on when its queue has a packet, or when
a batt is free.
Clauses of it rest on the model's choices: log entry 55 (DMA). -/
def Obligations.DmaDescriptors : Prop :=
  (∀ (ch : Fin 32) (d : Descriptor) (data : List Byte) (m : MemMeet) (s : State), (s.dma ch).state = dmaRunning →
    (s.dma ch).desc = none → d.control.testBit 31 = true →
    let t := s.setDma ch { s.dma ch with desc := some d, moved := 0 }
    let st := s.checkDescriptor (s.get Od.dma_MODE ch) d
    (st = 0 → Completes (.dmaDescriptorFetched ch (some d) data m) s (t.moveData ch d data m)) ∧
    (st ≠ 0 → Completes (.dmaDescriptorFetched ch (some d) data m) s
      ((t.writeBack ch (s.dma ch).curDesc d.control 0 st false).dmaFails ch))) ∧
  (∀ (s : State) (mode : Nat) (d : Descriptor), d.count = 0 → s.checkDescriptor mode d = 1) ∧
  (∀ (ch : Fin 32) (s : State),
    let x := s.dma ch
    (x.desc = none ∨ x.readback = false ∨ x.state ≠ dmaRunning → Completes (.dmaReadbackDone ch) s s) ∧
    ∀ d, x.desc = some d → x.readback = true → x.state = dmaRunning →
      let cut := s.get Od.dma_MODE ch = 1 ∧ x.status = 0 ∧ x.eop = false ∧ (x.stopping = true ∨ d.next = 0)
      let back : Nat → Bool → State := fun st eop =>
        let t := s.writeBack ch x.curDesc d.control x.moved st eop
        let u := (if d.control.testBit 30 then t.raise (1 + ch) else t).confirmHost ch x.moved
        u.setDma ch { u.dma ch with readback := false }
      (¬ cut → Completes (.dmaReadbackDone ch) s ((back x.status x.eop).afterBack ch d x.status)) ∧
      (cut → Completes (.dmaReadbackDone ch) s (((back 8 true).dropDmaPackets ch).afterBack ch d 8))) ∧
  (∀ (ch : Fin 32) (got : List Byte) (s : State),
    let x := s.dma ch
    (x.desc = none ∨ x.state ≠ dmaRunning ∨ x.readback = true ∨ s.get Od.dma_MODE ch = 1 → Completes (.dmaHostReadError ch got) s s) ∧
    ∀ d, x.desc = some d → x.state = dmaRunning → x.readback = false → s.get Od.dma_MODE ch ≠ 1 →
      let part := (x.source ++ got).take (d.count - x.moved)
      (d.control.testBit 17 = true → Completes (.dmaHostReadError ch got) s s) ∧
      (d.control.testBit 17 = false → s.get Od.dma_MODE ch ≠ 2 → Completes (.dmaHostReadError ch got) s
        ((s.dmaWrite d x.moved part x.meet).startReadback ch (x.moved + part.length) 6 false)) ∧
      (d.control.testBit 17 = false → s.get Od.dma_MODE ch = 2 → Completes (.dmaHostReadError ch got) s
        ((s.dropDmaPackets ch).startReadback ch (x.moved + part.length) 6 false))) ∧
  (∀ (ch : Fin 32) (s : State),
    let x := s.dma ch
    (x.state = dmaWaiting → x.desc ≠ none → s.get Od.dma_MODE ch = 1 → x.packet = none → (s.queue (1536 + ch)).packets ≠ [] →
      let t := s.takeHostPacket ch
      Completes (.dmaQueuePacketReady ch) s (t.runDma ch { t.dma ch with state := dmaRunning })) ∧
    (x.state ≠ dmaWaiting ∨ x.desc = none ∨ s.get Od.dma_MODE ch ≠ 1 ∨ x.packet ≠ none ∨ (s.queue (1536 + ch)).packets = [] →
      Completes (.dmaQueuePacketReady ch) s s)) ∧
  (∀ (ch : Fin 32) (s : State),
    let x := s.dma ch
    (x.state = dmaWaiting → x.desc ≠ none → s.get Od.dma_MODE ch = 2 → (0 < x.moved ∨ s.hostPaused ch = false) →
      let t := (s.setDma ch { x with state := dmaRunning }).moveChunk ch
      ((t.dma ch).state ≠ dmaWaiting → Completes (.dmaBattAvailable ch) s t) ∧
      ((t.dma ch).state = dmaWaiting → Completes (.dmaBattAvailable ch) s s)) ∧
    (x.state ≠ dmaWaiting ∨ x.desc = none ∨ s.get Od.dma_MODE ch ≠ 2 ∨ (x.moved = 0 ∧ s.hostPaused ch = true) →
      Completes (.dmaBattAvailable ch) s s))

/-! ### Interrupts (R435–R442) -/

/-- R438: a claim names the pending source of highest priority, the lower number among equals. -/
def Obligations.ClaimTakesTheBestSource : Prop :=
  ∀ l : List (Nat × Nat), (l ≠ [] → ∃ e, bestSource l = some e) ∧
    ∀ e, bestSource l = some e → e ∈ l ∧ ∀ x ∈ l, x.2 < e.2 ∨ (x.2 = e.2 ∧ e.1 ≤ x.1)

/-- R436–R440: an event counts, starts the timer, and makes its source pending at COAL_COUNT; COAL_TIME after the first event it is
pending too. A claim clears its source's pending state and makes it active; with nothing pending it answers 0 and re-arms the
vector. A completion ends the active state and re-arms; one of a source that is not active there counts in COMPLETE_ERRORS. SRC_CFG
keeps its reserved bits zero, and PRIORITY 0 clears pending and count. STREAM_EVT bits are cleared by ones.
Clauses of it rest on the model's choices: log entry 5 (messages leave in the same step). -/
def Obligations.InterruptSources : Prop :=
  (∀ (s : State) (src : Nat), 0 < src → src < 256 → s.raise src = s.setIrq src ((s.irq src).event (s.srcCfg src) s.cycle)) ∧
  (∀ (q : IrqSource) (c now : Nat), cfgPriority c ≠ 0 → q.pending = false → q.active = false →
    (q.count + 1 < cfgCount c → (q.event c now).pending = false ∧ (q.event c now).timer = true ∧ (q.event c now).count = q.count + 1 ∧
      (q.timer = false → (q.event c now).since = now)) ∧
    (cfgCount c ≤ q.count + 1 → (q.event c now).pending = true ∧ (q.event c now).count = q.count + 1)) ∧
  (∀ (i : Instr) (v : Nat) (s : State), (∃ w : Fin 63, i = .claim w ∧ v = w.val) ∨ i = .fastClaim ∧ v = 63 →
    (∀ src pri, bestSource (s.pendingOn v) = some (src, pri) → Completes i s
      ((s.setIrq src { s.irq src with pending := false, active := true, vector := v, count := 0, timer := false }).emit
        (.answer (leBytes 4 (src + 2 ^ 16 * min 255 (s.irq src).count))))) ∧
    (s.pendingOn v = [] → Completes i s
      (((s.setVector v { s.vector v with sent := false }).bump Od.irq_EMPTY_CLAIMS).emit (.answer (leBytes 4 0))))) ∧
  (∀ (i : Instr) (v n : Nat) (s : State), (∃ w : Fin 63, i = .complete w n ∧ v = w.val) ∨ i = .fastComplete n ∧ v = 63 →
    let src := n % 512
    ((s.irq src).active = true → (s.irq src).vector = v → Completes i s ((s.setIrq src { s.irq src with
      active := false, pending := (s.irq src).pending || (s.irq src).reached, reached := false }).setVector v { s.vector v with sent := false })) ∧
    ((s.irq src).active = false ∨ (s.irq src).vector ≠ v → Completes i s (s.bump Od.irq_COMPLETE_ERRORS))) ∧
  (∀ (src : Fin 512) (s : State),
    let q := s.irq src
    (q.timer = true → q.since + cfgTime (s.srcCfg src) ≤ s.cycle →
      (q.active = false → Completes (.coalesceTimerExpiry src) s (s.setIrq src { q with timer := false, pending := true })) ∧
      (q.active = true → Completes (.coalesceTimerExpiry src) s (s.setIrq src { q with timer := false, reached := true }))) ∧
    (q.timer = false ∨ s.cycle < q.since + cfgTime (s.srcCfg src) → Completes (.coalesceTimerExpiry src) s (s.setIrq src q))) ∧
  (∀ (src : Fin 512) (v : Nat) (s : State),
    (src.val = 0 ∨ 256 ≤ src.val → Completes (.srcCfgWrite src v) s s) ∧
    (0 < src.val → src.val < 256 →
      let c := setBits (v % 2 ^ 32) 4 3 0
      let t : State := { s with host := { s.host with srcCfg := tput s.host.srcCfg (srcCfgReset src) src c } }
      let q := s.irq src
      (cfgPriority c = 0 → Completes (.srcCfgWrite src v) s
        (t.setIrq src { q with pending := false, count := 0, timer := false, reached := false })) ∧
      (cfgPriority c ≠ 0 → q.timer = true → cfgCount c ≤ q.count → Completes (.srcCfgWrite src v) s
        (t.setIrq src (if q.active then { q with timer := false, reached := true } else { q with timer := false, pending := true }))) ∧
      (cfgPriority c ≠ 0 → (q.timer = false ∨ q.count < cfgCount c) → Completes (.srcCfgWrite src v) s (t.setIrq src q)))) ∧
  (∀ (sid : Fin 512) (mask : Nat) (s : State),
    let old := tget s.host.streamEvt 0 sid
    Completes (.streamEvtClear sid mask) s { s with host := { s.host with
      streamEvt := tput s.host.streamEvt 0 sid ((List.range 8).foldl (fun v k => if mask.testBit k then clearBit v k else v) old) } })
/-! ### Serial lanes and Chaec Link (R330–R354) -/

/-- R333, R336–R341: a found receiver is noted in DETECT; a stage whose condition holds passes, also in the cycle of its timeout (R35);
one whose condition does not hold times out, not before its time, and TRAIN, where a narrower band may come up, does so; the wait of
1 s ends. A training frame gives the lane its index, polarity, taps and the neighbour's READY; FOM is taken from TRAIN on; block
lock is noted. What adaptation leaves open (tap requests, RX_EQ, FREQ_OFFSET) are free values (log entry 7).
R341, R351: a capability of another width is noted and waits; one of the same width is accepted without sealing where neither end
asks for it, sealed where both do, and fails the bring-up with cause 4 where this end requires it or the signature does not verify.
Clauses of it rest on the model's choices: log entries 48 (training values come from outside), 49 (sealing), 4. -/
def Obligations.BringUpOfBands : Prop :=
  (∀ (l : Fin 128) (found : Bool) (s : State),
    (s.get Od.lane_LINK_STATE l = 1 → Completes (.receiverDetectStep l found) s (s.setLane l { s.lane l with found := found })) ∧
    (s.get Od.lane_LINK_STATE l ≠ 1 → Completes (.receiverDetectStep l found) s s)) ∧
  (∀ (p : Fin 128) (s : State),
    let passed := if (s.nextStage p).portActive p then (s.nextStage p).reportMemberships p else s.nextStage p
    let due := s.isBand p = true ∧ 2 ≤ (s.link p).stage ∧ (s.link p).stage ≤ 4 ∧ (s.link p).stageAt + s.stageTime p ≤ s.cycle
    (s.isBand p = true → s.stageCondition p = true → Completes (.linkStagePass p) s passed) ∧
    (s.isBand p = false ∨ s.stageCondition p = false → Completes (.linkStagePass p) s s) ∧
    (¬ due → Completes (.linkStageTimeout p) s s) ∧
    (due → s.stageCondition p = true → Completes (.linkStageTimeout p) s passed) ∧
    (due → s.stageCondition p = false →
      ((s.link p).stage ≠ 2 → Completes (.linkStageTimeout p) s (s.stageTimesOut p)) ∧
      ((s.link p).stage = 2 →
        (∀ ix, s.narrowTo p = some ix → Completes (.linkStageTimeout p) s (s.narrowBand p ix)) ∧
        (s.narrowTo p = none → (s.link p).retraining = false → Completes (.linkStageTimeout p) s (s.stageTimesOut p)) ∧
        (s.narrowTo p = none → (s.link p).retraining = true → Completes (.linkStageTimeout p) s
          (((s.finishCommand 0x42 Result.linkFailed []).setLink p { s.link p with retraining := false }).stageTimesOut p))))) ∧
  (∀ (p : Nat) (s : State), (s.link p).stage = 2 → s.nextStage p = ((s.sendTrainEnd p).setLinkState (s.portLanes p) 3).setLink p
    { s.link p with stage := 3, stageAt := s.cycle, inUse := List.range (s.get Od.port_WIDTH p) }) ∧
  (∀ (p : Fin 128) (s : State),
    ((s.link p).detectAt + secCycles 1 ≤ s.cycle →
      Completes (.linkRetryBackoffExpiry p) s (s.setLink p { s.link p with backoff := false })) ∧
    (s.cycle < (s.link p).detectAt + secCycles 1 → Completes (.linkRetryBackoffExpiry p) s s)) ∧
  (∀ (l : Fin 128) (f : TrainingArrival) (s : State),
    (s.get Od.lane_LINK_STATE l ≠ 2 → Completes (.trainingFrame l f) s s) ∧
    (s.get Od.lane_LINK_STATE l = 2 →
      let x := s.lane l
      let held := if x.searching then 0 else x.heldFrames + 1
      let ready := decide (s.get Od.port_FOM_MIN (s.portOf l) ≤ s.get Od.lane_FOM l ∧ 16 ≤ held)
      let t := s.setLane l { x with searching := false, heldFrames := held, ownReady := ready, peerReady := f.frame.ready }
      let u := ((t.set Od.lane_LANE_INDEX l (f.frame.index % 4)).set Od.lane_POLARITY l (b2n f.inverted)).set Od.lane_TX_FFE l
        (tapsAfter (s.get Od.lane_TX_FFE l) f.frame.requests)
      let asks := if x.searching then (List.range 3).map fun k => Config.free (u.freeUsed + k) % 3 else [0, 0, 0]
      Completes (.trainingFrame l f) s ((u.useFrees 3).emit
        (.training l ⟨u.ownIndex l, asks, tapStatus (s.get Od.lane_TX_FFE l) f.frame.requests, f.inverted, ready⟩)))) ∧
  (∀ (l : Fin 128) (fom : Fin 256) (s : State),
    let st := s.get Od.lane_LINK_STATE l
    let t := s.set Od.lane_FOM l fom
    let u := ((t.useFree).set Od.lane_RX_EQ l t.freeValue).setInt Od.lane_FREQ_OFFSET l ((t.freeValue % 4001 : Nat) - 2000)
    let v := if s.get Od.lane_FOM l < fom.val then u.setLane l { u.lane l with searching := true, heldFrames := 0 } else u
    let w := if fom.val < v.get Od.lane_FOM_LOW l then v.set Od.lane_FOM_LOW l fom else v
    (st < 2 ∨ st = 6 ∨ 7 < st → Completes (.fomMeasurement l fom) s s) ∧
    (2 ≤ st ∧ st ≤ 4 ∨ st = 7 → Completes (.fomMeasurement l fom) s v) ∧
    (st = 5 → Completes (.fomMeasurement l fom) s (if w.isBand (w.portOf l) then w.activeFom (w.portOf l) l fom else w))) ∧
  (∀ (l : Fin 128) (s : State),
    let t := s.setLane l { s.lane l with blockLock := true }
    (s.get Od.port_MODE (s.portOf l) ≠ 2 ∨ s.get Od.port_PORT_STATE (s.portOf l) ≠ 1 → Completes (.blockLockGained l) s t) ∧
    (s.get Od.port_MODE (s.portOf l) = 2 → s.get Od.port_PORT_STATE (s.portOf l) = 1 →
      Completes (.blockLockGained l) s ((t.portUp (s.portOf l)).reportMemberships (s.portOf l)))) ∧
  (∀ (p : Fin 128) (c : Capability) (s : State),
    (s.isBand p = false ∨ (s.link p).stage ≠ 4 → Completes (.capabilityPacket p c) s s) ∧
    (s.isBand p = true → (s.link p).stage = 4 →
      let own := s.ownCapability p
      let t := ((s.set Od.port_PEER_SERIAL p c.serial).set Od.port_PEER_PORT p c.port).setLink p
        { s.link p with peer := some c, loopback := decide (c.serial = s.serial) }
      let accept : State → State := fun v => v.setLink p { v.link p with accepted := true }
      let fails : State → State := fun v => (v.set Od.port_LAST_DOWN_CAUSE p 4).startBringUp p
      (c.width ≠ own.width → Completes (.capabilityPacket p c) s t) ∧
      (c.width = own.width → c.sealing = none →
        (own.sealMode ≠ 0 → c.sealMode ≠ 0 → Completes (.capabilityPacket p c) s t) ∧
        (own.sealMode = 2 → c.sealMode = 0 → Completes (.capabilityPacket p c) s (fails t)) ∧
        (own.sealMode ≠ 2 → (own.sealMode = 0 ∨ c.sealMode = 0) → Completes (.capabilityPacket p c) s (accept t))) ∧
      (∀ o, c.width = own.width → c.sealing = some o →
        (t.acceptsPeer own c (s.link p).ephDraw o = false →
          Completes (.capabilityPacket p c) s (fails (t.bump Od.sec_SEAL_FAILURES))) ∧
        (t.acceptsPeer own c (s.link p).ephDraw o = true →
          (own.sealMode ≠ 0 → c.sealMode ≠ 0 → Completes (.capabilityPacket p c) s (accept (t.sealBand p own c o))) ∧
          (own.sealMode = 2 → c.sealMode = 0 → Completes (.capabilityPacket p c) s (fails t)) ∧
          (own.sealMode ≠ 2 → (own.sealMode = 0 ∨ c.sealMode = 0) → Completes (.capabilityPacket p c) s (accept t))))))

/-- R342–R344, R352: an ACTIVE band goes down with cause 1 for lock or deskew, 2 for hi_ber, 3 for a third low FOM, 4 for a rekey that
does not complete, 5 for LINK_RETRAIN, 7 for its neighbour's exit; a port that is not ACTIVE has nothing to leave. LINK_RETRAIN of a port
without a link is refused, and one that takes 2 s completes with TIMEOUT.
Clauses of it rest on the model's choices: log entries 48 (lanes), 32 (a command without a ticket), 4. -/
def Obligations.LeavingActive : Prop :=
  (∀ (l : Fin 128) (index width skew : Nat) (s : State),
    let p := s.portOf l
    let ok := index = s.get Od.lane_LANE_INDEX l ∧ width = (s.link p).inUse.length ∧ skew ≤ 32
    (s.isBand p = false → Completes (.alignBlock l index width skew) s s) ∧
    (s.isBand p = true → s.portActive p = true → l.val ∈ s.lanesInUse p → ¬ ok →
      Completes (.alignBlock l index width skew) s (s.leaveActive p 1)) ∧
    (s.isBand p = true → s.portActive p = false ∨ l.val ∉ s.lanesInUse p ∨ ok →
      Completes (.alignBlock l index width skew) s (s.setLane l { s.lane l with aligned := decide ok }))) ∧
  (∀ (l : Fin 128) (hiBer : Bool) (s : State),
    let p := s.portOf l
    let t := (s.setLane l { s.lane l with blockLock := false }).bumpBy Od.lane_BLOCK_ERRORS l 0 16
    let u := if hiBer then t else t.bump Od.lane_LOCK_LOSSES l
    (u.portActive p = true → l.val ∈ u.lanesInUse p →
      Completes (.blockLockLoss l hiBer) s (u.leaveActive p (if hiBer then 2 else 1))) ∧
    (u.portActive p = false ∨ l.val ∉ u.lanesInUse p → Completes (.blockLockLoss l hiBer) s u)) ∧
  (∀ (p l fom : Nat) (s : State), fom < s.get Od.port_FOM_DROP p →
    (2 ≤ (s.lane l).lowRun → s.activeFom p l fom = (s.bump Od.lane_FOM_DROPS l).leaveActive p 3) ∧
    ((s.lane l).lowRun < 2 → s.activeFom p l fom = s.setLane l { s.lane l with lowRun := (s.lane l).lowRun + 1 })) ∧
  (∀ (p : Fin 128) (s : State), (s.isBand p = true → Completes (.neighbourIdleTimeout p) s (s.leaveActive p 7)) ∧
    (s.isBand p = false → Completes (.neighbourIdleTimeout p) s s)) ∧
  (∀ (p : Fin 128) (s : State),
    (∀ k a, (s.link p).keys = some k → k.rekeyAt = some a → a + msCycles 200 ≤ s.cycle →
      Completes (.rekeyTimeout p) s (s.leaveActive p 4)) ∧
    ((∀ k a, (s.link p).keys = some k → k.rekeyAt = some a → s.cycle < a + msCycles 200) → Completes (.rekeyTimeout p) s s)) ∧
  (∀ (p : Nat) (s u : State), Taken s 0x42 (leBytes 1 p) u →
    (p < 128 → u.portMode p ≠ 0 → u.portMode p ≠ 3 → u.quadOn (p / 4) = true →
      let t := u.setLink p { u.link p with retraining := true, retrainAt := u.cycle }
      Completes (.linkRetrain p) s (if t.portActive p then t.leaveActive p 5 else t)) ∧
    (128 ≤ p ∨ u.portMode p = 0 ∨ u.portMode p = 3 ∨ u.quadOn (p / 4) = false →
      Completes (.linkRetrain p) s (u.attach 0x42 Result.noSuchTarget []))) ∧
  (∀ (p : Fin 128) (s : State),
    ((s.link p).retraining = true → (s.link p).retrainAt + secCycles 2 ≤ s.cycle →
      Completes (.linkRetrainTimeout p) s ((s.setLink p { s.link p with retraining := false }).finishCommand 0x42 Result.timeout [])) ∧
    ((s.link p).retraining = false ∨ s.cycle < (s.link p).retrainAt + secCycles 2 → Completes (.linkRetrainTimeout p) s s)) ∧
  (∀ (s : State) (p cause : Nat), s.portActive p = false → s.leaveActive p cause = s)

/-- R332, R354: QUAD_RESET of a quad that no stream uses takes its ports down with cause 6, erases and repairs its buffers, sets its
power and begins bring-up; of one in use it completes with IN_USE, and of one that does not exist with NO_SUCH_TARGET. The management
port shows its state, speed and address.
Clauses of it rest on the model's choices: log entries 61 (repairs), 71 (the arguments' values), 32 (a command without a ticket). -/
def Obligations.QuadsAndManagement : Prop :=
  (∀ (q power : Nat) (s : State), 2 ≤ power → Completes (.quadReset q power) s { s with lastStatus := Status.outOfRange }) ∧
  (∀ (q power : Nat) (s v : State), power < 2 → Taken s 0x44 (leBytes 1 q ++ leBytes 1 power) v →
    (32 ≤ q → Completes (.quadReset q power) s (v.attach 0x44 Result.noSuchTarget [])) ∧
    (∀ k < 4, q < 32 → v.portBound (4 * q + k) = true → Completes (.quadReset q power) s (v.attach 0x44 Result.inUse [])) ∧
    (q < 32 → (∀ k < 4, v.portBound (4 * q + k) = false) →
      let ports := [4 * q, 4 * q + 1, 4 * q + 2, 4 * q + 3]
      let t := ((ports.foldl (fun t p => t.quadPort p) v).initStore 8 q).repairsApply fun store inst => decide (store = 8 ∧ inst = q)
      let u := { t with lanes := { t.lanes with quadOn := tput t.lanes.quadOn false q (power == 1) } }
      Completes (.quadReset q power) s
        (((ports.filter fun p => ¬ u.isMember p).foldl (fun t p => t.startBringUp p) u).attach 0x44 Result.ok []))) ∧
  (∀ (speed ip : Nat) (s : State), Completes (.mgmtStateChange true speed ip) s
    (((s.set Od.mgmt_MGMT_STATE 0 1).set Od.mgmt_MGMT_SPEED 0 speed).set Od.mgmt_MGMT_IPV4_NOW 0
      (if s.get Od.mgmt_MGMT_IPV4 = 0 then ip else s.get Od.mgmt_MGMT_IPV4 % 2 ^ 32))) ∧
  (∀ (speed ip : Nat) (s : State), Completes (.mgmtStateChange false speed ip) s
    (((s.set Od.mgmt_MGMT_STATE 0 0).set Od.mgmt_MGMT_SPEED 0 0).set Od.mgmt_MGMT_IPV4_NOW 0 0))

/-- R348, R349, R352: a PAUSE of an ACTIVE band takes its mask and, unless it is 0, counts; it expires 40 µs after the last one, and this
end's own is refreshed every 10 µs while it is wanted; TIMING is sent every 1 ms and taken on an ACTIVE band; a rekey starts when it is
due with an offer, the neighbour's offer that is accepted gives the next keys in the other phase, and the old key ends after its
100 ms.
Clauses of it rest on the model's choices: log entry 49 (sealing), 4 (what is not due changes nothing). -/
def Obligations.PausesTimingAndKeys : Prop :=
  (∀ (p : Fin 128) (mask : Nat) (s : State),
    let t := s.setLink p { s.link p with paused := mask % 32, pausedAt := some s.cycle }
    (s.activeBand p = true → mask ≠ 0 → Completes (.pauseBlock p mask) s (t.bump Od.port_PAUSES_RECEIVED p)) ∧
    (s.activeBand p = true → mask = 0 → Completes (.pauseBlock p mask) s t) ∧
    (s.activeBand p = false → Completes (.pauseBlock p mask) s s)) ∧
  (∀ (p : Fin 128) (s : State),
    (∀ a, (s.link p).pausedAt = some a → a + usCycles 40 ≤ s.cycle →
      Completes (.pauseExpiry p) s (s.setLink p { s.link p with paused := 0, pausedAt := none })) ∧
    ((∀ a, (s.link p).pausedAt = some a → s.cycle < a + usCycles 40) → Completes (.pauseExpiry p) s s)) ∧
  (∀ (p : Fin 128) (s : State),
    let due := s.activeBand p = true ∧ s.pauseWanted p ≠ 0 ∧ (s.link p).sentAt + usCycles 10 ≤ s.cycle
    (due → Completes (.pauseRefreshTimer p) s (s.sendPause p (s.pauseWanted p))) ∧
    (¬ due → Completes (.pauseRefreshTimer p) s s)) ∧
  (∀ (p : Fin 128) (s : State),
    (s.activeBand p = true → s.timingDue p = true → Completes (.timingSendTimer p) s (s.sendTiming p)) ∧
    (s.activeBand p = false ∨ s.timingDue p = false → Completes (.timingSendTimer p) s s)) ∧
  (∀ (p : Fin 128) (x : TimingPayload) (s : State),
    (s.activeBand p = false → Completes (.timingPacket p x) s s) ∧
    (s.activeBand p = true → Completes (.timingPacket p x) s
      ((s.takeTiming p x).eachDomain (fun t rd => t.locksTo rd 3 && decide (t.fabricPort rd = p.val)) fun t rd =>
        match t.neighbourTime p rd with
        | some r => t.measure rd (t.fabricError rd r)
        | none => t)) ∧
    (s.activeBand p = true →
      (∀ rd < 8, ((s.takeTiming p x).locksTo rd 3 && decide ((s.takeTiming p x).fabricPort rd = p.val)) = false) →
      Completes (.timingPacket p x) s (s.takeTiming p x))) ∧
  (∀ (p : Fin 128) (s : State),
    ((s.link p).keys = none → Completes (.rekeyTimer p) s s) ∧
    ∀ k, (s.link p).keys = some k →
      let due := s.activeBand p = true ∧ k.rekeyAt = none ∧ s.rekeyDue p k = true
      (due → Completes (.rekeyTimer p) s
        ((s.setLink p { s.link p with keys := some { k with rekeyAt := some s.cycle } }).sendSealOffer p msgRekey)) ∧
      (¬ due → Completes (.rekeyTimer p) s s)) ∧
  (∀ (p : Fin 128) (o : SealOffer) (s : State),
    ((s.link p).keys = none ∨ s.activeBand p = false → Completes (.rekeyMessage p o) s s) ∧
    (∀ k, (s.link p).keys = some k → s.activeBand p = true → k.rekeyAt = none →
      let k' := { k with rekeyAt := some s.cycle }
      Completes (.rekeyMessage p o) s
        (((s.setLink p { s.link p with keys := some k' }).sendSealOffer p msgRekey).takeRekey p k' o)) ∧
    (∀ k c, (s.link p).keys = some k → s.activeBand p = true → k.rekeyAt ≠ none → (s.link p).peer = some c →
      let own := s.ownCapability p
      (s.acceptsPeer own c (s.link p).ephDraw o = true →
        let b := sealBlocks own c (s.link p).ephDraw o
        Completes (.rekeyMessage p o) s ((s.sendSignature p own c (s.link p).ephDraw o).setLink p { s.link p with keys := some { k with
          rekeyAt := none, nextTx := some ⟨b.1, 0, !k.tx.phase⟩, nextRx := some ⟨b.2, 0, !k.rx.phase⟩ } })) ∧
      (s.acceptsPeer own c (s.link p).ephDraw o = false → Completes (.rekeyMessage p o) s s))) ∧
  (∀ (p : Fin 128) (s : State),
    (∀ k, (s.link p).keys = some k → k.oldAt + msCycles 100 ≤ s.cycle →
      Completes (.oldKeyExpiry p) s (s.setLink p { s.link p with keys := some { k with oldRx := none } })) ∧
    ((∀ k, (s.link p).keys = some k → s.cycle < k.oldAt + msCycles 100) → Completes (.oldKeyExpiry p) s s))

/-- R346, R350, R353, R354, R373: a packet with a bad header check, or a bad trailer, only counts (and moves a sealed band's counter on); a
good one is counted, and goes on by R373 on a band without keys; one that is sealed there counts as a tag failure. A frame with
a bad FCS counts on its port, a PAUSE frame is ignored and counted, and a good one is switched; the management port takes
frames for itself alone.
Clauses of it rest on the model's choices: log entry 53 (switching), 54 (formats of other standards). -/
def Obligations.ReceivedPackets : Prop :=
  (∀ (p : Fin 128) (bs : List Byte) (s : State), s.isBand p = true → s.portActive p = true →
    (hcrcOk bs = false → Completes (.chaecPacketReceive p bs) s ((s.bump Od.port_HCRC_ERRORS p).skipSealed p)) ∧
    (hcrcOk bs = true → trailerOk bs = false → Completes (.chaecPacketReceive p bs) s ((s.bump Od.port_CRC_ERRORS p).skipSealed p)) ∧
    (hcrcOk bs = true → trailerOk bs = true → (s.link p).keys = none → (ChHeader.ofBytes bs).flags.testBit 0 = false →
      Completes (.chaecPacketReceive p bs) s ((s.countIn p bs.length).switchPacket p bs)) ∧
    (hcrcOk bs = true → trailerOk bs = true → (s.link p).keys = none → (ChHeader.ofBytes bs).flags.testBit 0 = true →
      Completes (.chaecPacketReceive p bs) s (s.tagFails p)) ∧
    (hcrcOk bs = true → trailerOk bs = true →
      (∀ t m, s.openPacket p bs = (t, some m) →
        Completes (.chaecPacketReceive p bs) s ((t.countIn p bs.length).switchPacket p m)) ∧
      (∀ t, s.openPacket p bs = (t, none) → Completes (.chaecPacketReceive p bs) s t))) ∧
  (∀ (p : Fin 128) (bs : List Byte) (s : State), s.isBand p = false ∨ s.portActive p = false →
    Completes (.chaecPacketReceive p bs) s s) ∧
  (∀ (p : Fin 128) (bs : List Byte) (s : State), s.get Od.port_MODE p ≠ 2 ∨ s.portActive p = false →
    Completes (.ethernetFrameReceive (some p) bs) s s) ∧
  (∀ (p : Fin 128) (bs : List Byte) (s : State), s.get Od.port_MODE p = 2 → s.portActive p = true →
    let f := EthFrame.ofBytes (bs.take (bs.length - 4))
    (frameOk (s.get Od.port_MAX_FRAME p) bs = false → Completes (.ethernetFrameReceive (some p) bs) s (s.bump Od.port_CRC_ERRORS p)) ∧
    (frameOk (s.get Od.port_MAX_FRAME p) bs = true → f.etype = 0x8808 →
      Completes (.ethernetFrameReceive (some p) bs) s (s.bump Od.port_PAUSE_FRAMES_IGNORED p)) ∧
    (frameOk (s.get Od.port_MAX_FRAME p) bs = true → f.etype ≠ 0x8808 →
      Completes (.ethernetFrameReceive (some p) bs) s ((s.countIn p bs.length).switchFrame (.port p) f))) ∧
  (∀ (bs : List Byte) (s : State),
    let f := EthFrame.ofBytes (bs.take (bs.length - 4))
    let mine := f.dst = leBytes 6 (s.get Od.mgmt_MGMT_MAC) ∨ groupMac f.dst = true
    (s.get Od.mgmt_MGMT_STATE = 1 → frameOk 1518 bs = true → mine →
      Completes (.ethernetFrameReceive none bs) s (s.takeOwn .mgmt (s.iface none) f)) ∧
    (s.get Od.mgmt_MGMT_STATE ≠ 1 ∨ frameOk 1518 bs = false ∨ ¬ mine → Completes (.ethernetFrameReceive none bs) s s))

/-! ### Egress (R400–R413) -/

/-- R392, R400: a short GLOBAL packet goes ahead and interrupts the packet in progress; a free ACTIVE port takes control traffic
first, then the highest queue that may send, and stays idle when nothing may; R313, R403: the end of a packet releases its batts and
gives the next head of its queue its eligibility. R402: E is the later of now − tau and T_prev, moved by the ticks that carry the
packet.
Clauses of it rest on the model's choices: log entry 4 (an end with nothing sent changes nothing). -/
def Obligations.EgressOfPackets : Prop :=
  (∀ (p : Fin 128) (s : State), s.portActive p = false → Completes (.egressStart p) s s) ∧
  (∀ (p : Fin 128) (s : State), s.portActive p = true →
    let x := s.egPort p
    (∀ cur k, x.sending = some cur → s.shortFor p = some k → cur.packet.short = false → x.interrupted = none →
      Completes (.egressStart p) s ((s.setEgPort p { x with sending := none, interrupted := some cur }).startControl p 1568 k)) ∧
    (∀ cur, x.sending = some cur → (s.shortFor p = none ∨ cur.packet.short = true ∨ x.interrupted ≠ none) →
      Completes (.egressStart p) s s) ∧
    (∀ k, x.sending = none → s.shortFor p = some k → Completes (.egressStart p) s (s.startControl p 1568 k)) ∧
    (x.sending = none → s.shortFor p = none →
      (x.interrupted ≠ none → Completes (.egressStart p) s s) ∧
      (x.interrupted = none →
        (∀ q k, s.controlFor p = some (q, k) → Completes (.egressStart p) s (s.startControl p q k)) ∧
        (s.controlFor p = none →
          (∀ q, (s.countGated p).sendable p = some q → Completes (.egressStart p) s ((s.countGated p).startFrom p q)) ∧
          ((s.countGated p).sendable p = none → Completes (.egressStart p) s (s.countGated p)))))) ∧
  (∀ (p : Fin 128) (s : State) (x : Sending), (s.egPort p).sending = some x →
    let t := ((s.setEgPort p { s.egPort p with sending := (s.egPort p).interrupted, interrupted := none }).countLate
      x.packet).decrementAll x.packet.entries
    (x.queue < 1024 → Completes (.egressPacketEnd p) s (t.newHead x.queue)) ∧
    (1024 ≤ x.queue → Completes (.egressPacketEnd p) s t)) ∧
  (∀ (p : Fin 128) (s : State), (s.egPort p).sending = none → Completes (.egressPacketEnd p) s s) ∧
  (∀ (s : State) (q c now : Nat), s.eligibility q c now =
    let back := s.ticksAdd (q / 8) now (-(s.get Od.egr_BURST (q / 8) (q % 8) * 2 ^ 24 / s.rate q : Nat))
    s.ticksAdd (q / 8) (if 0 < s.ticksDiff (q / 8) back (s.shaper q).tPrev then back else (s.shaper q).tPrev)
      (ceilDiv (c * 2 ^ 24) (s.rate q))) ∧
  (∀ (s : State) (q : Nat), s.rate q = 0 → s.headEligible q = true)

/-- R404, R408, R411: a calendar slot makes the queues whose slot has come eligible, one after another; an entry boundary shows the mask in
force and counts the cycle boundaries passed; a pending list comes into force at its start with its base, cycle and first mask, and a
removal opens every gate. A port without a list, or without a change that is due, keeps its state.
Clauses of it rest on the model's choices: log entry 4 (what is not due changes nothing). -/
def Obligations.CalendarAndGates : Prop :=
  (∀ (p : Fin 128) (s : State), Completes (.calendarSlot p) s ((List.range 8).foldl (fun t k =>
    match (t.shaper (8 * p + k)).slot with
    | none => t
    | some i => if 0 ≤ t.ticksDiff p (t.ticksNow p) (i * 4096) then t.place (8 * p + k) else t) s)) ∧
  (∀ (p : Fin 128) (s : State), (∀ k < 8, (s.shaper (8 * p + k)).slot = none) → Completes (.calendarSlot p) s s) ∧
  (∀ (p : Fin 128) (s : State) (i e : Nat), (s.shaper (8 * p)).slot = some i → (s.shaper (8 * p)).elig = some e →
    0 ≤ s.ticksDiff p (s.ticksNow p) (i * 4096) → s.slotReached p e = true → (∀ k < 7, (s.shaper (8 * p + k + 1)).slot = none) →
    Completes (.calendarSlot p) s (s.setShaper (8 * p) { s.shaper (8 * p) with slot := none })) ∧
  (∀ (p : Fin 128) (s : State) (g : List (Nat × Nat)), s.gateSegs p = some g →
    let n := s.gateCycleNo p
    let passed := (signedMod (2 ^ 64) ((n : Int) - (s.egPort p).cycleNo)).toNat
    let t := s.set Od.egr_GATE_STATE p (maskAt g (s.gatePos p))
    (passed = 0 → Completes (.gateEntryBoundary p) s t) ∧
    (passed ≠ 0 → Completes (.gateEntryBoundary p) s
      ((t.setEgPort p { t.egPort p with cycleNo := n }).bumpBy Od.egr_GATE_CYCLES p 0 passed))) ∧
  (∀ (p : Fin 128) (s : State), (s.egPort p).gates = none → Completes (.gateEntryBoundary p) s s) ∧
  (∀ (p : Fin 128) (s : State) (c : GateChange), (s.egPort p).change = some c →
    (s.ticksDiff p (s.ticksNow p) c.startAt < 0 → Completes (.gateChangeStart p) s s) ∧
    (0 ≤ s.ticksDiff p (s.ticksNow p) c.startAt →
      let t := s.set Od.egr_PENDING_AT p 0
      (c.install = none →
        let u := t.setEgPort p { t.egPort p with gates := none, change := none }
        Completes (.gateChangeStart p) s (((((u.set Od.egr_OPER_BASE p 0).set Od.egr_OPER_CYCLE p 0).set Od.egr_GATE_STATE p
          0xFF).setOper p).retestGuard p)) ∧
      (∀ base cyc es, c.install = some (base, cyc, es) →
        let u := ((t.setEgPort p { t.egPort p with gates := some es, change := none, cycleNo := 0 }).set Od.egr_OPER_BASE p
          (RTime.word base)).set Od.egr_OPER_CYCLE p cyc
        let v := u.set Od.egr_GATE_STATE p (maskAt (gateSegments (u.gateCycle p cyc) es) 0)
        let w := v.setEgPort p { v.egPort p with cycleNo := v.gateCycleNo p }
        Completes (.gateChangeStart p) s (((w.bump Od.egr_GATE_CYCLES p).setOper p).retestGuard p)))) ∧
  (∀ (p : Fin 128) (s : State), (s.egPort p).change = none → Completes (.gateChangeStart p) s s)/-! ### Picture memory and stored data (R272–R306) -/

/-- R275–R277, R281, R282: a REGION_CREATE that passes its tests fills the region as its KIND and T say and returns the BASE; the first
test that fails gives the result and nothing else. With the completion the region exists: KIND, T, BASE, SIZE, EXTENT and
CREATED_AT have their values. Bytes outside the region's extent keep their values, a filled one reads as zero, and each page of a
PROTECTED region has the trailer of its zero data. REGION_DELETE of a region that exists and is not used removes it; USERS of one that is used is
answered IN_USE.
Clauses of it rest on the model's choices: log entries 45 (regions), 10, 32 (a command without a ticket). -/
def Obligations.RegionsMadeAndDeleted : Prop :=
  (∀ (region kind t base size : Nat) (s v : State), Taken s 0x20 (regionArgs region kind t base size) v →
    (∀ a, v.regionTests region kind t base size = .inr a →
      let u := v.fillRegion kind t a size
      (kind = 1 ∨ t = 1 → Completes (.regionCreate region kind t base size) s
        (((u.bumpBy Od.hbm_BYTES_WRITTEN 0 0 (extentOf kind size)).cleanGranules fun g => overlaps g 256 a (extentOf kind size)).attach
          0x20 Result.ok (leBytes 8 a))) ∧
      (kind ≠ 1 → t ≠ 1 → Completes (.regionCreate region kind t base size) s (u.attach 0x20 Result.ok (leBytes 8 a)))) ∧
    (∀ r, v.regionTests region kind t base size = .inl r →
      Completes (.regionCreate region kind t base size) s (v.attach 0x20 r []))) ∧
  (∀ (region kind t base size : Nat) (s : State),
    (s.regionExists region = true → s.regionTests region kind t base size = .inl Result.noSuchTarget) ∧
    (region < 256 → s.regionExists region = false → kind = 1 → t ∉ [8, 16, 24, 32, 48, 64] →
      s.regionTests region kind t base size = .inl Result.outOfRange) ∧
    (region < 256 → s.regionExists region = false → kind = 0 → t < 2 → size % 131072 ≠ 0 →
      s.regionTests region kind t base size = .inl Result.alignment) ∧
    (region < 256 → s.regionExists region = false → kind = 0 → t < 2 → size % 131072 = 0 → 0 < size → base % 131072 = 0 →
      s.mem.trainingFailed = false → s.regionTests region kind t base size =
        if s.extentFree base size then .inr base else .inl Result.noSpace)) ∧
  (∀ (region kind t base size b : Nat) (s : State),
    (b < base ∨ base + extentOf kind size ≤ b → (s.fillRegion kind t base size).hbmByte b = s.hbmByte b) ∧
    (kind = 1 ∨ t = 1 → base ≤ b → b < base + size → (s.fillRegion kind t base size).hbmByte b = 0) ∧
    (kind = 1 → region < 256 → t < 256 → ∀ k < size / 4096, (s.makeRegion region kind t base size).trailer region (base + 4096 * k) =
      pageTrailer t (base + 4096 * k) (List.replicate 4096 0#8)) ∧
    (s.nameRegion region kind t base size).hbmByte b = s.hbmByte b) ∧
  (∀ (region kind t base asked size : Nat) (e : CmdEntry) (s : State), region < 256 → kind < 256 → t < 256 → base < 2 ^ 64 →
    size < 2 ^ 64 → e.code = 0x20 → e.args = regionArgs region kind t asked size → e.result = some (Result.ok, leBytes 8 base) →
    s.mem.noPictureReported = false →
    s.endCommand e Result.ok = (((((s.set Od.reg_KIND region kind).set Od.reg_T region t).set Od.reg_BASE region base).set
      Od.reg_SIZE region size).set Od.reg_EXTENT region (extentOf kind size)).set Od.reg_CREATED_AT region (RTime.word (s.now 0))) ∧
  (∀ (region : Nat) (s v : State), Taken s 0x21 (leBytes 1 region) v →
    (v.regionExists region = true → v.regionUsers region = 0 →
      Completes (.regionDelete region) s ((v.dropRegion region).attach 0x21 Result.ok [])) ∧
    (v.regionExists region = true → v.regionUsers region ≠ 0 →
      Completes (.regionDelete region) s (v.attach 0x21 Result.inUse [])) ∧
    (v.regionExists region = false → Completes (.regionDelete region) s (v.attach 0x21 Result.noSuchTarget []))) ∧
  ∀ (region a : Nat) (s : State), (s.dropRegion region).hbmByte a = s.hbmByte a

/-- R275, R278, R279, R283, R284, R286: an access outside every region, or of a master from outside into PICTURE_REGION, changes
nothing; a write of an OPEN region stores its bytes at its address, a write of a PROTECTED one that is not of whole pages
is rejected, counted and reported, and one of whole pages is a page write. Bytes read back as they were written, and bytes
outside the written ones keep their values. A read of an OPEN region gives the stored bytes. A page that was corrected is
written back unless a page write came first.
Clauses of it rest on the model's choices: log entries 46 (HBM3), 67 (poisoned data), 4. -/
def Obligations.AccessesToHbm3 : Prop :=
  let nothing : MemMeet := ⟨[], 0, 0, []⟩
  (∀ (m : Master) (a n : Nat) (data : List Byte) (meet : MemMeet) (s : State),
    ((Master.outside m && s.touchesPicture a data.length) = true → Completes (.hbmWrite m a data meet) s (s.emit (.refused a))) ∧
    ((Master.outside m && s.touchesPicture a n) = true → Completes (.hbmRead m a n meet) s (s.emit (.refused a))) ∧
    ((Master.outside m && s.touchesPicture a data.length) = false →
      (∀ t, s.hbmWrite (Master.code m) a data meet = (t, true) → Completes (.hbmWrite m a data meet) s t) ∧
      (∀ t, s.hbmWrite (Master.code m) a data meet = (t, false) → Completes (.hbmWrite m a data meet) s (t.emit (.refused a)))) ∧
    ((Master.outside m && s.touchesPicture a n) = false →
      (∀ t bs, s.hbmRead (Master.code m) a n meet = (t, .data bs) → Completes (.hbmRead m a n meet) s (t.emit (.answer bs))) ∧
      (∀ t, s.hbmRead (Master.code m) a n meet = (t, .poisoned) → Completes (.hbmRead m a n meet) s (t.emit (.poisoned a n))) ∧
      (∀ t, s.hbmRead (Master.code m) a n meet = (t, .rejected) → Completes (.hbmRead m a n meet) s (t.emit (.refused a))))) ∧
  (∀ (m : Master) (a : Nat) (data : List Byte) (s : State), (Master.outside m && s.touchesPicture a data.length) = false →
    (s.regionAt a data.length = none → Completes (.hbmWrite m a data nothing) s (s.emit (.refused a)) ∧
      Completes (.hbmRead m a data.length nothing) s (s.emit (.refused a))) ∧
    (∀ r, s.regionAt a data.length = some r → s.regionProtected r = false →
      Completes (.hbmWrite m a data nothing) s
        (((s.cleanGranules fun g => decide (a ≤ g ∧ g + 256 ≤ a + data.length)).hbmPut a data).bumpBy Od.hbm_BYTES_WRITTEN 0 0
          data.length)) ∧
    (∀ r, s.regionAt a data.length = some r → s.regionProtected r = true → wholePages a data.length = true →
      Completes (.hbmWrite m a data nothing) s
        ((s.cleanGranules fun g => decide (a ≤ g ∧ g + 256 ≤ a + data.length)).writePages r a data)) ∧
    (∀ r, s.regionAt a data.length = some r → s.regionProtected r = true → wholePages a data.length = false →
      Completes (.hbmWrite m a data nothing) s (((s.bump Od.reg_WRITES_REJECTED r).report (Unit.hbmHalf (halfOf (pageOf a))) 0x12 2
        (Master.code m) (pageOf a)).emit (.refused a)))) ∧
  (∀ (m : Master) (a n r : Nat) (s : State), (Master.outside m && s.touchesPicture a n) = false → s.regionAt a n = some r →
    s.regionProtected r = false → s.granulePoisoned a n = false →
    Completes (.hbmRead m a n nothing) s
      (((s.cleanGranules fun g => overlaps g 256 a n).bumpBy Od.hbm_BYTES_READ 0 0 n).emit (.answer (s.hbmBytes a n)))) ∧
  (∀ (a : Nat) (data : List Byte) (s : State), (s.hbmPut a data).hbmBytes a data.length = data ∧
    ∀ b, b < a ∨ a + data.length ≤ b → (s.hbmPut a data).hbmByte b = s.hbmByte b) ∧
  (∀ (page : Nat) (s : State),
    (page ∉ s.mem.writeBacks ∨ s.regionAt page 4096 = none → Completes (.pageWriteBack page) s s) ∧
    (∀ r, page ∈ s.mem.writeBacks → s.regionAt page 4096 = some r →
      (tget s.mem.flips 0 page ≤ s.get Od.reg_T r →
        Completes (.pageWriteBack page) s (s.writePages r page (s.hbmBytes page 4096))) ∧
      (s.get Od.reg_T r < tget s.mem.flips 0 page →
        Completes (.pageWriteBack page) s ((s.useFrees 4096).writePages r page (s.freeBytes 4096))))) ∧
  ∀ (r a p : Nat) (data : List Byte) (s : State), p ∈ pagesOf a data.length → p ∉ (s.writePages r a data).mem.writeBacks

/-- R287–R292: from a refresh on a stack runs at the interval that REFRESH_X2 shows, and REFRESH_X2 follows the reading against
TEMP_HIGH; 100 °C is reported; both readings stand in TEMP_0 and TEMP_1, 1 ms apart. A pseudo-channel falls due at its interval. One that
is due starts its pause when it is late, or the next one where pauses may be, and not while another pause runs. A retrain that passes
ends its pause and settles it; one that fails keeps it due, and the third in a row is reported. LFSRs are seeded anew from the TRNG
every second (free values).
Clauses of it rest on the model's choices: log entry 46 (HBM3), 8 (the TRNG). -/
def Obligations.RefreshAndRetraining : Prop :=
  (∀ (stack : Fin 2) (s : State), Completes (.refresh stack) s { s with mem := { s.mem with
    refreshHalf := tput s.mem.refreshHalf false stack ((s.get Od.hbm_REFRESH_X2).testBit stack) } }) ∧
  (∀ s : State,
    (s.mem.seededAt + msCycles 1000 ≤ s.cycle → Completes .lfsrReseed s s.seedLfsrs) ∧
    (s.cycle < s.mem.seededAt + msCycles 1000 → Completes .lfsrReseed s s)) ∧
  (∀ (t0 t1 : Int) (s : State),
    (s.tempsDue = true →
      let t : State := { s with mem := { s.mem with tempsAt := some s.cycle } }
      Completes (.hbmTemperatureRead t0 t1) s
        ((((((t.setInt Od.hbm_TEMP_0 0 t0).setInt Od.hbm_TEMP_1 0 t1).stackReads 0 t0).stackReads 1 t1).warmStack 0 t0).warmStack 1 t1)) ∧
    (s.tempsDue = false → Completes (.hbmTemperatureRead t0 t1) s s)) ∧
  (∀ (k : Nat) (t : Int) (s : State), t < 1000 →
    ((s.get Od.hbm_TEMP_HIGH : Int) * 10 < t →
      s.stackReads k t = s.set Od.hbm_REFRESH_X2 0 (setBit (s.get Od.hbm_REFRESH_X2) k)) ∧
    (t ≤ (s.get Od.hbm_TEMP_HIGH : Int) * 10 - 20 →
      s.stackReads k t = s.set Od.hbm_REFRESH_X2 0 (clearBit (s.get Od.hbm_REFRESH_X2) k)) ∧
    ((s.get Od.hbm_TEMP_HIGH : Int) * 10 - 20 < t → t ≤ (s.get Od.hbm_TEMP_HIGH : Int) * 10 → s.stackReads k t = s)) ∧
  (∀ (p : Fin 64) (s : State),
    ((s.pc p).dueAt = none → s.retrainAt p ≤ s.cycle →
      Completes (.retrainDue p) s (s.setPc p { s.pc p with dueAt := some s.cycle, dueTime := s.now 0 })) ∧
    ((s.pc p).dueAt ≠ none ∨ s.cycle < s.retrainAt p → Completes (.retrainDue p) s s)) ∧
  (∀ (p : Fin 64) (s : State),
    ((s.pc p).dueAt = none ∨ s.pauseFree = false → Completes (.retrainPauseStart p) s s) ∧
    (s.mem.pause ≠ none → Completes (.retrainPauseStart p) s s) ∧
    ((s.pc p).dueAt ≠ none → s.pauseFree = true →
      (s.retrainLate p = true → Completes (.retrainPauseStart p) s ((s.bump Od.hbm_RETRAIN_LATE).startPause p)) ∧
      (s.retrainLate p = false → s.retrainNext p = true → (s.retrainAligned = false ∨ s.retrainBlank p = true) →
        Completes (.retrainPauseStart p) s (s.startPause p)) ∧
      (s.retrainLate p = false → (s.retrainNext p = false ∨ s.retrainAligned = true ∧ s.retrainBlank p = false) →
        Completes (.retrainPauseStart p) s s))) ∧
  ∀ (p : Fin 64) (passed : Bool) (ns : Nat) (s : State),
    ((∀ at_, s.mem.pause ≠ some (at_, p.val)) → Completes (.retrainEnd p passed ns) s s) ∧
    ∀ at_, s.mem.pause = some (at_, p.val) →
      let u := ({ s with mem := { s.mem with pause := none } } : State).notePause (min 1500 ns)
      let x := u.pc p
      (passed = true → Completes (.retrainEnd p passed ns) s ((u.bump Od.hbm_RETRAINS).setPc p { x with
        state := 0, fails := 0, last := u.now 0, lastAt := u.cycle, retrained := true, dueAt := none, tempAt := some (u.stackTemp p) })) ∧
      (passed = false → x.fails < 2 → Completes (.retrainEnd p passed ns) s (u.setPc p { x with state := 0, fails := x.fails + 1 })) ∧
      (passed = false → 2 ≤ x.fails → Completes (.retrainEnd p passed ns) s
        ((u.setPc p { x with state := 2, fails := x.fails + 1 }).reportInfo (Unit.hbmHalf (p / 16)) 0x16 p))

/-- R294, R295, R298, R299, R301–R303: SCRUB of whole pages of a PROTECTED region reads them and returns the summary, which
LAST_SCRUB keeps. FUSE_REPAIR needs its supply, a place, a spare and an entry; it burns an entry, and the result says whether it
took; a row's repair waits for a place of its pause. A write-back of a corrected byte makes it good. A lap's step reads a word, and the
last step ends the lap; while the loader writes the bank, the lap waits.
Clauses of it rest on the model's choices: log entries 46 (HBM3 and repairs), 32 (a command without a ticket), 4. -/
def Obligations.ScrubsRepairsAndFulling : Prop :=
  (∀ (base size : Nat) (s v : State), Taken s 0x22 (leBytes 8 base ++ leBytes 8 size) v →
    (base % 4096 ≠ 0 ∨ size % 4096 ≠ 0 ∨ size = 0 → Completes (.scrub base size) s (v.attach 0x22 Result.alignment [])) ∧
    (base % 4096 = 0 → size % 4096 = 0 → 0 < size →
      (v.regionAt base size = none → Completes (.scrub base size) s (v.attach 0x22 Result.noSuchTarget [])) ∧
      (∀ r, v.regionAt base size = some r → v.regionProtected r = false →
        Completes (.scrub base size) s (v.attach 0x22 Result.noSuchTarget [])) ∧
      (∀ r, v.regionAt base size = some r → v.regionProtected r = true →
        let q := v.scrubPages r (pagesOf base size)
        let u : State := { q.1 with mem := { q.1.mem with scrubBad := q.2.bad.take 256, scrubbing := some r } }
        Completes (.scrub base size) s ((u.set Od.reg_LAST_SCRUB r (leNat q.2.bytes)).attach 0x22 Result.ok q.2.bytes)))) ∧
  (∀ (addr : Nat) (found spare back : Bool) (s v : State), Taken s 0x33 (fuseArgs 0 addr) v →
    let i := Instr.fuseRepairSram addr found spare back
    let there := fuseStore addr < 9 ∧ fuseInstance addr < storeInstances (fuseStore addr) ∧ found = true
    let left := v.get Od.sto_FUSE_ENTRIES_LEFT
    (v.sec.efuse = false → Completes i s (v.attach 0x33 Result.noFuseSupply [])) ∧
    (v.sec.efuse = true →
      (¬ there → Completes i s (v.attach 0x33 Result.outOfRange [])) ∧
      (there → (spare = false ∨ left = 0) → Completes i s (v.attach 0x33 Result.fusesExhausted [])) ∧
      (there → spare = true → left ≠ 0 → back = true → Completes i s
        ((v.burnFuse 0 2 addr).attach 0x33 Result.ok (leBytes 1 ((v.burnFuse 0 2 addr).get Od.sto_FUSE_ENTRIES_LEFT)))) ∧
      (there → spare = true → left ≠ 0 → back = false → Completes i s ((v.burnFuse 0 3 addr).attach 0x33 Result.repairFailed [])))) ∧
  (∀ (addr : Nat) (spare passes : Bool) (ns : Nat) (s : State),
    let i := Instr.fuseRepairHbm3Row addr spare passes ns
    let ready := s.sec.efuse = true ∧ addr < hbmEnd ∧ spare = true ∧ s.get Od.sto_FUSE_ENTRIES_LEFT ≠ 0
    (ready → s.repairMayPause = false → Completes i s s) ∧
    ∀ v, Taken s 0x33 (fuseArgs 1 addr) v →
      (s.sec.efuse = false → Completes i s (v.attach 0x33 Result.noFuseSupply [])) ∧
      (s.sec.efuse = true → hbmEnd ≤ addr → Completes i s (v.attach 0x33 Result.outOfRange [])) ∧
      (s.sec.efuse = true → addr < hbmEnd → (spare = false ∨ s.get Od.sto_FUSE_ENTRIES_LEFT = 0) →
        Completes i s (v.attach 0x33 Result.fusesExhausted [])) ∧
      (ready → s.repairMayPause = true →
        let t := ((v.burnFuse 1 (if passes then 1 else 3) addr).notePause (min 40000 ns)).repairPause (min 40000 ns)
        let u := t.setPc (pcOf addr) { t.pc (pcOf addr) with pprUsed := (t.pc (pcOf addr)).pprUsed + 1 }
        (passes = true → Completes i s (u.attach 0x33 Result.ok (leBytes 1 (u.get Od.sto_FUSE_ENTRIES_LEFT)))) ∧
        (passes = false → Completes i s (u.attach 0x33 Result.repairFailed [])))) ∧
  (∀ (target state addr : Nat) (s : State),
    (s.burnFuse target state addr).get Od.sto_FUSE_ENTRIES_LEFT = (s.get Od.sto_FUSE_ENTRIES_LEFT - 1) % 2 ^ 8) ∧
  (∀ (loc : Nat) (s : State),
    ((tfind s.mem.sramWriteBacks loc).isSome = true → Completes (.sramCorrectionWriteback loc) s (s.writeSram loc)) ∧
    (tfind s.mem.sramWriteBacks loc = none → Completes (.sramCorrectionWriteback loc) s s) ∧
    tfind (s.writeSram loc).mem.sram loc = none) ∧
  ∀ (f : Fulled) (flips : List (Nat × Nat)) (s : State),
    let w := (s.lap (fulledLap f)).word
    let t := flips.foldl (fun t e =>
      if e.1 < fulledBytes f then t.flipSram (sramLoc (fulledStore f) (fulledInst f) (w * fulledBytes f + e.1)) e.2 else t) s
    let u := t.fullWord f w
    (s.fullingPaused f w = true → Completes (.fullingStep f flips) s s) ∧
    (s.fullingPaused f w = false → w + 1 < fulledWords f →
      Completes (.fullingStep f flips) s (u.setLap (fulledLap f) { u.lap (fulledLap f) with word := w + 1 })) ∧
    (s.fullingPaused f w = false → fulledWords f ≤ w + 1 → Completes (.fullingStep f flips) s (u.endLap f))

/-! ### Batts, pools and queues (R307–R329) -/

/-- R316: a decrement that finds a REFCOUNT of 0 counts in COUNT_FAULTS and is reported by the queue engine, KIND 0x20, contained
(SEV 2), with the batt as ADDR; the batt is not freed: every list of free batts and every REFCOUNT keeps its value. -/
def Obligations.FreeBattsAreNotFreedAgain : Prop :=
  ∀ (b : Nat) (x : Batt) (s : State), b < 2 ^ 32 → s.batt b = some x → x.refs = 0 →
    let u := (s.bump Od.qg_COUNT_FAULTS 128).reportInfo Unit.queueEngine 0x20 b
    Completes (.battDecrement b) s u ∧ (∀ pool, u.freeBatts pool = s.freeBatts pool) ∧ (∀ c, u.batt c = s.batt c) ∧ kindSev 0x20 = 2

/-- R307, R309, R311–R315, R327: a packet whose batts the pool serves is appended to its queue, an egress one with the queue's PRI, and
one that it refuses is not. A decrement lowers a REFCOUNT; the batt of the last reference returns to its pool in the next cycle, its tag
0 in HBM3; a pinned one stays, and a batt that its pool has not is reported. A refill fills the cache to 32 from the ring, and a spill
leaves the top 32 there and keeps every entry. The copy at the head goes on; a sweep that is not running does nothing, and one that
ends counts again.
Clauses of it rest on the model's choices: log entries 47 (pools and their caches), 4. -/
def Obligations.BattsAndQueues : Prop :=
  (∀ (q : Fin 2048) (w : Writer) (pri : Fin 8) (data : List Byte) (s : State), data ≠ [] →
    let pr := if q.val < 1024 then q.val % 8 else pri.val
    ((s.writerBatts w pr data).2 = none → Completes (.queueAppend q w pri data) s (s.writerBatts w pr data).1) ∧
    (∀ es, (s.writerBatts w pr data).2 = some es → Completes (.queueAppend q w pri data) s
      ((s.writerBatts w pr data).1.append q { pri := pr, entries := es, sid := writerStream w }))) ∧
  (∀ (q : Fin 2048) (w : Writer) (pri : Fin 8) (s : State), Completes (.queueAppend q w pri []) s s) ∧
  (∀ (n : Nat) (x : Batt) (s : State),
    let b := n % 2 ^ 32
    s.batt b = some x →
    (2 ≤ x.refs → x.refs ≠ 255 → Completes (.battDecrement n) s (s.setBatt b { x with refs := x.refs - 1 })) ∧
    (x.refs = 1 →
      let t := s.setBatt b { x with refs := 0 }
      Completes (.battDecrement n) s { t with queues := { t.queues with returning := t.queues.returning ++ [b] } }) ∧
    (x.refs = 255 → Completes (.battDecrement n) s s)) ∧
  (∀ (n : Nat) (s : State), s.batt (n % 2 ^ 32) = none →
    Completes (.battDecrement n) s ((s.bump Od.qg_COUNT_FAULTS 128).reportInfo Unit.queueEngine 0x20 (n % 2 ^ 32))) ∧
  (∀ (b : Nat) (s : State), s.queues.returning = [b] →
    s.returnBatts = ({ s with queues := { s.queues with returning := [] } } : State).freeBatt b) ∧
  (∀ (b : Nat) (x : Batt) (s : State), (s.setBatt b x).hbmBytes (s.tagAddr b) x.tag.length = x.tag) ∧
  (∀ (pool : Fin 16) (s : State), let f := s.freeBatts pool
    (f.refill = true → Completes (.cacheRefillDone pool) s
      (s.setFree pool { f.fill 32 (s.get Od.pool_BATTS pool) with refill := false })) ∧
    (f.refill = false → Completes (.cacheRefillDone pool) s s) ∧
    (f.spill = true → Completes (.cacheSpillDone pool) s
      (s.setFree pool { f with cache := f.cache.take 32, ring := f.ring ++ (f.cache.drop 32).reverse, spill := false })) ∧
    (f.spill = false → Completes (.cacheSpillDone pool) s s)) ∧
  (∀ (n batts : Nat) (f : FreeBatts), f.cache.length ≤ 32 → (f.fill n batts).cache.length ≤ 32) ∧
  (∀ s : State, s.queues.copies = [] → Completes .replicationCopyDone s s) ∧
  (∀ (s : State) (c : PendingCopy) (rest : List PendingCopy), s.queues.copies = c :: rest →
    let t : State := { s with queues := { s.queues with copies := rest } }
    (t.allocate c.pool c.kind c.owner (battsFor c.data.length) 1 = none →
      Completes .replicationCopyDone s (t.bumpBy Od.pool_REPLICATION_DROPS c.pool 0 c.dests.length)) ∧
    (∀ u bs, t.allocate c.pool c.kind c.owner (battsFor c.data.length) 1 = some (u, bs) →
      Completes .replicationCopyDone s ((u.fillBatts bs c.data).1.linkSet (u.fillBatts bs c.data).2 c.dests c.sid c.chaec))) ∧
  (∀ s : State, s.queues.sweep = none → Completes .queueSweepDone s s) ∧
  (∀ (s : State) (bs : List Nat), s.queues.sweep = some bs →
    let t : State := { s with queues := { s.queues with sweep := none, entriesCut := 0 } }
    Completes .queueSweepDone s (bs.foldl (fun u b => u.sweepBatt t.allEntries b) t))/-! ### Streams, rows and cells (R73–R123) -/

/-- R75–R77, R84, R94: STREAM_OPEN, and its dry run, of a CLOSED stream, or with SID 0xFFFF of the lowest CLOSED and STAGED one, whose
STAGED becomes 0: one whose objects do not agree has BAD_ARGS; a stream that merges with a leader becomes its alias where its outputs
fit, and has NO_PORT_CAPACITY where not; another one runs the admission test, which sets ADMIT_SHORTFALL, and opens or has the
first failing reason. The dry run reserves nothing. A stream that is not CLOSED, or does not exist, has NO_SUCH_TARGET, and SID 0xFFFF
without a staged stream NO_CONTEXT. STREAM_CLOSE with MODE 0 leaves a RUNNING stream CLOSING until its swap point, one with aliases
handing its coding state over to the first; it takes an alias out, and closes any other stream at once. With MODE 1 every open stream
closes at once. CLOSED, CLOSING and missing ones have NO_SUCH_TARGET.
Clauses of it rest on the model's choices: log entries 22 and 42 (streams), 32 (a command without a ticket). -/
def Obligations.StreamsOpenAndClose : Prop :=
  (∀ (dry : Bool) (sid flags : Nat) (s v : State), Taken s 0x01 (leBytes 2 sid ++ leBytes 2 (if dry then setBit flags 0 else clearBit flags 0)) v →
    let i : Instr := if dry then .streamOpenDryRun sid flags else .streamOpen sid flags
    (sid = 0xFFFF → v.stagedStream = none → Completes i s (v.attach 0x01 Result.noContext [])) ∧
    (sid ≠ 0xFFFF → 512 ≤ sid ∨ v.streamState sid ≠ stClosed → Completes i s (v.attach 0x01 Result.noSuchTarget [])) ∧
    ∀ x u, (sid = 0xFFFF ∧ v.stagedStream = some x ∧ u = v.set Od.st_STAGED x 0) ∨
        (sid = x ∧ sid < 512 ∧ v.streamState sid = stClosed ∧ u = v) →
      (u.argsOk x = false → Completes i s (u.attach 0x01 Result.badArgs [])) ∧
      (∀ leader, u.argsOk x = true → u.mergeLeader x = some leader →
        let fit := u.set Od.st_ADMIT_SHORTFALL x 0
        (u.aliasTest x = true → Completes i s ((if dry then fit else fit.openAlias x leader).attach 0x01 Result.ok (openReturn x 0))) ∧
        (u.aliasTest x = false → Completes i s ((u.set Od.st_ADMIT_SHORTFALL x 8).attach 0x01 Result.noPortCapacity []))) ∧
      (u.argsOk x = true → u.mergeLeader x = none →
        let t := u.set Od.st_ADMIT_SHORTFALL x (u.admission x).1
        ((u.admission x).2 = 0 →
          Completes i s ((if dry then t else t.openStream x).attach 0x01 Result.ok (openReturn x (t.milliOf x)))) ∧
        ((u.admission x).2 ≠ 0 → Completes i s (t.attach 0x01 (u.admission x).2 [])))) ∧
  (∀ (sid : Nat) (s v : State), Taken s 0x02 (leBytes 2 sid ++ [0#8]) v →
    let st := v.streamState sid
    let i := Instr.streamCloseAtSwap sid
    let closing : Option Nat → State → State := fun a t =>
      (t.setStream sid { t.stream sid with closeAtSwap := true, follows := a }).setStreamState sid stClosing
    (512 ≤ sid ∨ st = stClosed ∨ st = stClosing → Completes i s (v.attach 0x02 Result.noSuchTarget [])) ∧
    (sid < 512 → st = stRunning →
      (v.aliasesOf sid = [] → Completes i s ((closing (v.stream sid).follows v).attach 0x02 Result.ok [])) ∧
      (∀ a rest, v.aliasesOf sid = a :: rest → Completes i s ((closing (some a) (v.aliasTakeover sid)).attach 0x02 Result.ok []))) ∧
    (sid < 512 → st = stAlias → Completes i s ((v.closeAlias sid).attach 0x02 Result.ok [])) ∧
    (sid < 512 → st ≠ stClosed → st ≠ stClosing → st ≠ stRunning → st ≠ stAlias →
      Completes i s ((v.closeStream sid).attach 0x02 Result.ok []))) ∧
  (∀ (sid : Nat) (s v : State), Taken s 0x02 (leBytes 2 sid ++ [1#8]) v →
    let st := v.streamState sid
    let i := Instr.streamCloseAtOnce sid
    (512 ≤ sid ∨ st = stClosed ∨ st = stClosing → Completes i s (v.attach 0x02 Result.noSuchTarget [])) ∧
    (sid < 512 → st = stAlias → Completes i s ((v.closeAlias sid).attach 0x02 Result.ok [])) ∧
    (sid < 512 → st ≠ stClosed → st ≠ stClosing → st ≠ stAlias → Completes i s ((v.closeStream sid).attach 0x02 Result.ok [])))

/-- R96, R97: CLIP_STORE of a free clip number copies a clip that is readable, supported and starts with a random-access point into
CLIP_REGION and returns its size (the index's is a free value, log entry 41); the other cases are refused as the rule says. CLIP_DELETE
frees a clip that no open playlist names, and another one is IN_USE. PLAYLIST_SET of a PLAYOUT stream with starts that rise by the order
of R10, that exist and lie near enough, and with clips that fit takes the place of the playlist, at once or, on an open stream, at
its next swap point; the other cases are refused as the rule says.
Clauses of it rest on the model's choices: log entries 41 (clips), 71 (what is answered at the item), 32 (a command without a ticket). -/
def Obligations.ClipsAndPlaylists : Prop :=
  (∀ (clip source addr length : Nat) (m : ClipMeet) (s v : State),
    let i := Instr.clipStore clip source addr length m
    (2 ≤ source → Completes i s { s with lastStatus := Status.outOfRange }) ∧
    (source < 2 → Taken s 0x50 (clipStoreArgs clip source addr length) v →
      let u := v.useFree
      let r := v.get Od.mil_CLIP_REGION
      let size := length + v.freeValue % 2 ^ 20
      let free := clip < 1024 ∧ tfind v.streams.clips clip = none
      let there := free ∧ r ≠ 255 ∧ v.regionProtected r = true
      (1024 ≤ clip → Completes i s (v.attach 0x50 Result.outOfRange [])) ∧
      (∀ c, clip < 1024 → tfind v.streams.clips clip = some c → Completes i s (v.attach 0x50 Result.noSuchTarget [])) ∧
      (free → (r = 255 ∨ v.regionProtected r = false) → Completes i s (u.attach 0x50 Result.noSpace [])) ∧
      (∀ t e, there → u.copySource source addr length = (t, .inl e) →
        Completes i s (t.attach 0x50 (if e = Result.imageFormat then Result.uncorrectable else e) [])) ∧
      ∀ t bs, there → u.copySource source addr length = (t, .inr bs) →
        (m.readable = false → Completes i s (t.attach 0x50 Result.uncorrectable [])) ∧
        (m.readable = true → clipOk m = false → Completes i s (t.attach 0x50 Result.badArgs [])) ∧
        (m.readable = true → clipOk m = true → t.clipPlace r (roundUp 4096 size) = none →
          Completes i s (t.attach 0x50 Result.noSpace [])) ∧
        (∀ a, m.readable = true → clipOk m = true → t.clipPlace r (roundUp 4096 size) = some a →
          let w := (t.hbmWrite 157 a (padPage bs) { flips := [], severity := 0, parity := 0, acts := [] }).1
          Completes i s (({ w with streams := { w.streams with clips := tset w.streams.clips clip ⟨m, a, size⟩ } } : State).attach 0x50
            Result.ok (leBytes 4 size))))) ∧
  (∀ (clip : Nat) (s v : State), Taken s 0x51 (leBytes 2 clip) v →
    (tfind v.streams.clips clip = none → Completes (.clipDelete clip) s (v.attach 0x51 Result.noSuchTarget [])) ∧
    (∀ c, tfind v.streams.clips clip = some c → v.clipNamed clip = true → Completes (.clipDelete clip) s (v.attach 0x51 Result.inUse [])) ∧
    (∀ c, tfind v.streams.clips clip = some c → v.clipNamed clip = false → Completes (.clipDelete clip) s
      (({ v with streams := { v.streams with clips := tdel v.streams.clips clip } } : State).attach 0x51 Result.ok []))) ∧
  ∀ (sid : Nat) (es : List PlaylistEntry) (s v : State),
    let i := Instr.playlistSet sid es
    (es = [] ∨ 256 < es.length → Completes i s { s with lastStatus := Status.outOfRange }) ∧
    (es ≠ [] → es.length ≤ 256 → Taken s 0x52 (playlistArgs sid es) v →
      let rd := v.streamDomain sid
      let known := sid < 512 ∧ v.streamType sid = 4 ∧ ∀ e ∈ es, (tfind v.streams.clips e.clip).isSome = true
      let fit := ∀ e ∈ es, v.clipFits sid e.clip = true ∧ v.validTime rd e.start = true ∧ v.notTooFar rd e.start = true
      (¬ known → Completes i s (v.attach 0x52 Result.noSuchTarget [])) ∧
      (known → v.risingStarts rd es = false → Completes i s (v.attach 0x52 Result.badArgs [])) ∧
      (known → v.risingStarts rd es = true → ¬ fit → Completes i s (v.attach 0x52 Result.outOfRange [])) ∧
      (known → v.risingStarts rd es = true → fit → v.streamShut sid = true →
        Completes i s ((v.setStream sid { v.stream sid with playlist := es, nextPlaylist := none }).attach 0x52 Result.ok [])) ∧
      (known → v.risingStarts rd es = true → fit → v.streamShut sid = false →
        Completes i s ((v.setStream sid { v.stream sid with nextPlaylist := some es }).attach 0x52 Result.ok [])))

/-- R80, R109, R110, R116–R118, R154, R167: a cell that takes a row starts the one that comes first, and a cell that takes none, or finds none,
does nothing; a row enters on the bank of its picture with its record's number. A row with an error, that waits, or that has not ended is
not handed over; one that is complete is, on its own kind of cell: an encode row as its cell coded it, but after CD(r) its brim row leaves
in its place, and a decode row as decoded, but after G(r) concealed. A row waits until the row above is two blocks ahead of it,
or complete. The mirror of a record enters the ring in HBM3; a fill brings the reference tile and lets the row go on.
Clauses of it rest on the model's choices: log entries 35, 36, 43 and 84 (cells and rows), 4. -/
def Obligations.RowsOnCells : Prop :=
  (∀ (cw : Fin 16) (k : Fin 8) (s : State), let cc := 8 * cw.val + k.val
    (s.takesRow cc = false ∨ s.choice cc = none → Completes (.rowStart cw k) s s) ∧
    (∀ c, s.takesRow cc = true → s.choice cc = some c →
      (c.rerun = true → Completes (.rowStart cw k) s (s.startRerun cc c)) ∧
      (c.rerun = false → 16 ≤ c.stage → Completes (.rowStart cw k) s (s.startEnc cc c)) ∧
      (c.rerun = false → c.stage < 16 → Completes (.rowStart cw k) s (s.startDecRow cc c)))) ∧
  (∀ (s : State) (cc : Nat) (p : Checkpoint) (bank : Nat) (rerun : Bool), let x := (s.enterRow cc p bank rerun).cell cc
    x.bank = bank ∧ x.row.map (fun r => (r.point, r.waitDep, r.depReady)) =
      some ({ p with number := (s.cell cc).records }, decide (s.aboveAtStart p < s.needsAbove p 0), !decide (s.aboveAtStart p < s.needsAbove p 0))) ∧
  (∀ (cw : Fin 16) (k : Fin 8) (s : State), (s.cell (8 * cw.val + k.val)).row = none → Completes (.rowComplete cw k) s s) ∧
  (∀ (cw : Fin 16) (k : Fin 8) (s : State) (r : CellRow), let cc := 8 * cw.val + k.val
    (s.cell cc).row = some r →
    let held := s.rowError cc = true ∨ r.waitDep = true ∨ r.waitMem = true ∨ r.ended = false
    (held → Completes (.rowComplete cw k) s s) ∧
    (¬ held → 16 ≤ r.point.stage →
      let sid := r.point.sid
      (s.encPic sid r.point.index r.point.pic = none → Completes (.rowComplete cw k) s (s.freeCell cc)) ∧
      ∀ p, s.encPic sid r.point.index r.point.pic = some p →
        let w := p.row r.point.row
        let q := s.codeRow sid p r.point.row
        let above := r.point.row = 0 ∨ 2 ≤ (p.row (r.point.row - 1)).state
        let below : State → State := fun t => t.releaseBelow sid r.point.stage r.point.pic r.point.row
        (w.state ≠ 1 → Completes (.rowComplete cw k) s s) ∧
        (w.state = 1 → s.pastCd sid p r.point.row = true →
          Completes (.rowComplete cw k) s (s.rowDeadlineDue sid r.point.index r.point.pic r.point.row)) ∧
        (w.state = 1 → s.pastCd sid p r.point.row = false → w.recover = true →
          let batts := s.rowBatts sid p (s.brimOf sid p r.point.row).2
          (s.battsHeld sid batts = true → Completes (.rowComplete cw k) s (below ((s.brimRow sid p r.point.row).rowDone cc r))) ∧
          (s.battsHeld sid batts = false → Completes (.rowComplete cw k) s s)) ∧
        (w.state = 1 → s.pastCd sid p r.point.row = false → w.recover = false →
          (above ∧ s.battsHeld sid (s.rowBatts sid p q.2.2) = true → Completes (.rowComplete cw k) s
            (below (((s.bumpBy Od.rc_BRIM_BLOCKS sid p.rung q.2.1).settleRow sid p r.point.row q.1 q.2.2 2 q.2.1).rowDone cc r))) ∧
          (¬ (above ∧ s.battsHeld sid (s.rowBatts sid p q.2.2) = true) → Completes (.rowComplete cw k) s s))) ∧
    (¬ held → r.point.stage < 16 →
      let sid := r.point.sid
      (s.decPic sid r.point.stage r.point.pic = none → Completes (.rowComplete cw k) s (s.freeCell cc)) ∧
      ∀ p, s.decPic sid r.point.stage r.point.pic = some p →
        let turn := (p.row r.point.row).state = 2 ∧ (r.point.row = 0 ∨ 3 ≤ (p.row (r.point.row - 1)).state)
        (¬ turn → Completes (.rowComplete cw k) s s) ∧
        (turn → s.pastG sid p r.point.row = true →
          Completes (.rowComplete cw k) s (s.giveUpDue sid r.point.stage r.point.pic r.point.row)) ∧
        (turn → s.pastG sid p r.point.row = false → Completes (.rowComplete cw k) s
          ((((s.takeDecoded sid r.point.stage p r.point.row).rowDone cc r).releaseBelow sid r.point.stage r.point.pic r.point.row).progress
            sid r.point.stage r.point.pic)))) ∧
  (∀ (cc : Fin 128) (blocks : Nat) (s : State),
    ((s.cell cc).row = none → Completes (.depReady cc blocks) s s) ∧
    ∀ r, (s.cell cc).row = some r →
      let on := s.cellWith r.point.sid r.point.stage r.point.pic (r.point.row - 1)
      (∀ d u, on = some d → (s.cell d).row = some u → r.point.row ≠ 0 → Completes (.depReady cc blocks) s (s.releaseTo cc (min blocks u.done))) ∧
      (∀ d, on = some d → r.point.row = 0 → Completes (.depReady cc blocks) s s) ∧
      (on = none → s.aboveEnded r.point = true → Completes (.depReady cc blocks) s (s.releaseTo cc blocks)) ∧
      (on = none → s.aboveEnded r.point = false → Completes (.depReady cc blocks) s s)) ∧
  (∀ (cc n : Nat) (s : State) (r : CellRow), (s.cell cc).row = some r →
    let above := max r.above (min n (s.rowFacts r.point).cols)
    ((s.releaseTo cc n).cell cc).row.map (fun q => (q.above, q.waitDep)) = some (above, decide (above < s.needsAbove r.point r.done))) ∧
  (∀ (cc : Fin 128) (s : State),
    (∀ d k e, s.unmirrored cc = some (d, k) → (s.cell d).reruns[k]? = some e → Completes (.mirrorWriteDone cc) s
      ((s.setCell d { s.cell d with reruns := (s.cell d).reruns.modify k fun e => (e.1, true) }).mirror e.1)) ∧
    (∀ r, s.unmirrored cc = none → (s.cell cc).row = some r → r.mirrored = false → Completes (.mirrorWriteDone cc) s
      ((s.setCell cc { s.cell cc with row := some { r with mirrored := true } }).mirror r.point)) ∧
    (∀ r, s.unmirrored cc = none → (s.cell cc).row = some r → r.mirrored = true → Completes (.mirrorWriteDone cc) s s) ∧
    (s.unmirrored cc = none → (s.cell cc).row = none → Completes (.mirrorWriteDone cc) s s)) ∧
  ∀ (cc : Fin 128) (s : State),
    ((s.cell cc).row = none → Completes (.memoryPortFillDone cc) s s) ∧
    ∀ r, (s.cell cc).row = some r →
      let t := ((s.setCell cc { s.cell cc with row := some { r with waitMem := false, want := none } }).refreshCell cc).bump
        Od.crown_REF_MISSES (cc.val / 8)
      (r.waitMem = false → Completes (.memoryPortFillDone cc) s s) ∧
      (r.waitMem = true → r.want = none → Completes (.memoryPortFillDone cc) s t) ∧
      (∀ pic band index, r.waitMem = true → r.want = some (pic, band, index) →
        Completes (.memoryPortFillDone cc) s (t.fillCache (cc.val / 8) r.point pic band index))

/-- R92, R114, R115, R142: a crown that may be parked loses its cells' power and counts the step down, another one stays; the end of a wake writes
every byte of the cell stores and leaves the crown ACTIVE at 600 MHz; the end of a step takes the new clock and counts it; a
step-down falls due when a lower clock has served for DOWN_HOLD seconds without a break. CROWN_RESET is refused while a cell carries a share
or a MICROCODE_LOAD runs for the crown, and for a crown that does not exist; a waking crown keeps it waiting; another one passes through
RESETTING, its stores are written, its rows taken back, its pictures end and its repairs apply.
Clauses of it rest on the model's choices: log entries 4 (what is not due changes nothing), 42 (a row that a reset ends), 81, 32. -/
def Obligations.CrownsParkWakeAndStep : Prop :=
  (∀ (cw : Fin 16) (s : State),
    (s.mayPark cw = false → Completes (.crownPark cw) s s) ∧
    (s.mayPark cw = true →
      let u := ((s.set Od.crown_POWER_STATE cw 0).bump Od.crown_STEPS_DOWN cw).setCrown cw { s.crown cw with step := none, downDue := false }
      Completes (.crownPark cw) s
        (((u.mapCells cw fun x => { byWrite := x.byWrite, reruns := x.reruns }).restCells cw).lowerVoltages)) ∧
    (s.get Od.crown_POWER_STATE cw = 1 →
      let t := (cellsOf cw).foldl (fun t cc => t.initStore 0 cc) s
      let u := ((t.set Od.crown_POWER_STATE cw 2).set Od.crown_CLOCK_MHZ cw 600).bump Od.crown_STEPS_UP cw
      Completes (.crownWakeDone cw) s (((u.mapCells cw fun x => { x with store := [] }).restCells cw).followForce cw)) ∧
    (s.get Od.crown_POWER_STATE cw ≠ 1 → Completes (.crownWakeDone cw) s s) ∧
    ((s.crown cw).step = none → Completes (.crownStepDone cw) s s) ∧
    ∀ mhz, (s.crown cw).step = some mhz →
      let t := (s.set Od.crown_CLOCK_MHZ cw mhz).setCrown cw { s.crown cw with step := none }
      let up := (t.bump Od.crown_STEPS_UP cw).set Od.sys_STEP_TIME_MAX 0
        (max (t.get Od.sys_STEP_TIME_MAX) (cyclesNs (s.cycle - (s.crown cw).stepAt)))
      (mhz ≤ s.get Od.crown_CLOCK_MHZ cw →
        Completes (.crownStepDone cw) s (((t.bump Od.crown_STEPS_DOWN cw).lowerVoltages).followForce cw)) ∧
      (s.get Od.crown_CLOCK_MHZ cw < mhz → s.power.avsPending = false → Completes (.crownStepDone cw) s (up.followForce cw)) ∧
      (s.get Od.crown_CLOCK_MHZ cw < mhz → s.power.avsPending = true →
        Completes (.crownStepDone cw) s
          ((({ up with power := { up.power with avsPending := false } } : State).readBack).followForce cw))) ∧
  (∀ (cw : Fin 16) (s : State),
    let due := s.get Od.crown_CLOCK_FORCE cw = 0 ∧ (s.crown cw).step = none ∧ s.get Od.crown_POWER_STATE cw = 2 ∧
      s.neededClock cw < s.get Od.crown_CLOCK_MHZ cw ∧ ∃ c, (s.crown cw).lowAt = some c ∧ c + secCycles (s.get Od.mil_DOWN_HOLD) ≤ s.cycle
    (due → Completes (.crownDownHoldExpiry cw) s (s.setCrown cw { s.crown cw with downDue := true })) ∧
    (¬ due → Completes (.crownDownHoldExpiry cw) s s)) ∧
  (∀ (cw pass : Nat) (s v : State), Taken s 0x24 (leBytes 1 cw) v →
    let i := Instr.crownReset cw pass
    let used := ((cellsOf cw).any fun cc => v.sharesOn cc != []) = true ∨ v.loadMask.testBit cw = true
    (15 < cw → Completes i s (v.attach 0x24 Result.noSuchTarget [])) ∧
    (cw ≤ 15 → used → Completes i s (v.attach 0x24 Result.inUse [])) ∧
    (cw ≤ 15 → ¬ used → v.get Od.crown_POWER_STATE cw = 1 → Completes i s v) ∧
    (cw ≤ 15 → ¬ used → v.get Od.crown_POWER_STATE cw ≠ 1 →
      let r := if v.get Od.crown_POWER_STATE cw = 0 then v.set Od.crown_CLOCK_MHZ cw 600 else v
      let t := (r.set Od.crown_POWER_STATE cw 3).setCrown cw { store := [] }
      let u := (cellsOf cw).foldl (fun t cc => (t.takeBack cc).initStore 0 cc) t
      let x := (u.initStore 1 cw).repairsApply fun store inst =>
        decide ((store = 0 ∧ inst / 8 = cw) ∨ (store = 1 ∧ inst = cw))
      let y := x.mapCells cw fun x => { byWrite := x.byWrite, reruns := x.reruns }
      Completes i s (((((((y.retest cw pass).endPictures cw).restCells cw).endDrain cw).turnPasses cw).setVoltages).attach 0x24 Result.ok [])))

/-! ### Microcode and control stores (R124–R149) -/

/-- R126, R129–R136: a cell that may not issue does nothing, the fetch of a fenced word issues nothing, and a word of another operation does not
issue as this one. A word issues its fields and goes on as its operation says: JUMP to NEXT_ADDR; BR2 with the condition, or its inversion,
sampled before the word's effects, in the lowest bit, BR4 with two; CALL pushes NEXT_ADDR and goes to its entry;
RETURN pops; WAIT issues nothing until its condition holds and traps when it has repeated for its limit of 2^(4+2m) cycles; ROW_END ends the row;
TRAP, a CALL that finds the stack full and a RETURN that finds it empty trap. A row starts with its return stack empty and its loop counters
zero. Condition 63 holds always.
Clauses of it rest on the model's choices: log entries 34 and 35 (the vector ALU; a cell around an error and a wait), 84, 4 (a word that is not due). -/
def Obligations.MicrowordsIssue : Prop :=
  let fetched : State → Nat → State → Nat → Nat → Nat → Prop := fun s cc t w op stop =>
    s.mayIssue cc = true ∧ s.fetch cc = (t, some w) ∧ bits (mwSeqOp w) 3 3 = op ∧ mwStop w = stop
  let forms : Fin 128 → Nat → List (Instr × Nat × Nat) := fun cc ext =>
    [(.mwJump cc ext, 0, 0), (.mwBr2 cc ext, 1, 0), (.mwBr4 cc ext, 2, 0), (.mwCall cc ext, 3, 0), (.mwReturn cc ext, 4, 0),
      (.mwWait cc ext, 5, 0), (.waitLimitExpiry ⟨cc, ext⟩, 5, 0), (.mwRowEnd cc ext, 0, 1)]
  (∀ (cc : Fin 128) (ext : Nat) (s : State),
    (s.mayIssue cc = false → Completes (.mwTrap cc) s s ∧ ∀ i ∈ forms cc ext, Completes i.1 s s) ∧
    (∀ t, s.mayIssue cc = true → s.fetch cc = (t, none) → Completes (.mwTrap cc) s t ∧ ∀ i ∈ forms cc ext, Completes i.1 s t) ∧
    ∀ t w, s.mayIssue cc = true → s.fetch cc = (t, some w) →
      (mwStop w ≠ 2 → Completes (.mwTrap cc) s s) ∧
      ∀ i ∈ forms cc ext, ¬ (bits (mwSeqOp w) 3 3 = i.2.1 ∧ mwStop w = i.2.2) → Completes i.1 s s) ∧
  (∀ (cc : Fin 128) (ext : Nat) (s t : State) (w : Nat),
    let u := t.issue cc w ext
    let x := t.cell cc
    let holds : Nat → Nat := fun c => b2n (t.condition cc ext c != (mwSeqOp w).testBit 0)
    let m := bits (mwSeqOp w) 0 3
    (fetched s cc t w 0 0 → Completes (.mwJump cc ext) s ((u.setCell cc ((u.cell cc).countDown m)).goto cc (mwNext w))) ∧
    (fetched s cc t w 1 0 → Completes (.mwBr2 cc ext) s
      ((u.setCell cc ((u.cell cc).countDown (bits (mwSeqOp w) 1 2))).goto cc (mwNext w ||| holds (mwCond w)))) ∧
    (fetched s cc t w 2 0 → Completes (.mwBr4 cc ext) s
      ((u.setCell cc ((u.cell cc).countDown (bits (mwSeqOp w) 1 2))).goto cc (mwNext w ||| (2 * holds (mwCond w + 1) + holds (mwCond w))))) ∧
    (fetched s cc t w 3 0 → x.stack.length < 8 → Completes (.mwCall cc ext) s
      ((u.setCell cc { u.cell cc with stack := mwNext w :: (u.cell cc).stack }).goto cc (bits ((u.bank (u.cellBank cc)).entry (mwCond w)) 0 12))) ∧
    (fetched s cc t w 3 0 → 8 ≤ x.stack.length → Completes (.mwCall cc ext) s (t.trap cc 0x05)) ∧
    (∀ a rest, fetched s cc t w 4 0 → x.stack = a :: rest →
      Completes (.mwReturn cc ext) s ((u.setCell cc { u.cell cc with stack := rest }).goto cc a)) ∧
    (fetched s cc t w 4 0 → x.stack = [] → Completes (.mwReturn cc ext) s (t.trap cc 0x05)) ∧
    (fetched s cc t w 5 0 → t.condition cc ext (mwCond w) = true →
      Completes (.mwWait cc ext) s (t.goto cc (mwNext w)) ∧ Completes (.waitLimitExpiry ⟨cc, ext⟩) s (t.goto cc (mwNext w))) ∧
    (fetched s cc t w 5 0 → t.condition cc ext (mwCond w) = false →
      Completes (.mwWait cc ext) s (t.setCell cc { x with waited := max 1 x.waited }) ∧
      (m = 0 ∨ x.waited < 2 ^ (4 + 2 * m) → Completes (.waitLimitExpiry ⟨cc, ext⟩) s t) ∧
      (m ≠ 0 → 2 ^ (4 + 2 * m) ≤ x.waited → Completes (.waitLimitExpiry ⟨cc, ext⟩) s (t.trap cc 0x04))) ∧
    (∀ r, fetched s cc t w 0 1 → (u.cell cc).row = some r →
      Completes (.mwRowEnd cc ext) s (u.setCell cc { u.cell cc with row := some { r with ended := true } })) ∧
    (∀ op, fetched s cc t w op 2 → Completes (.mwTrap cc) s (t.trap cc 0x03))) ∧
  (∀ (s : State) (cc : Nat) (p : Checkpoint) (bank : Nat) (rerun : Bool), let x := (s.enterRow cc p bank rerun).cell cc
    x.stack = [] ∧ x.lc0 = 0 ∧ x.lc1 = 0 ∧ x.waited = 0) ∧
  (∀ (s : State) (cc ext : Nat), s.condition cc ext 63 = true) ∧
  (∀ x : Cell, x.lc0 = 0 → (x.countDown 1).lc0 = 0) ∧
  ∀ (s : State) (cc kind : Nat), s.trap cc kind = (s.bump Od.cs_TRAPS).report cc kind 0 0xFF (s.cell cc).addr

/-- R126, R144, R147: a fenced word is written again from the shelf copy of its bank's image in HBM3, its fence lifts and RESTORED_WORDS counts; a
word that is not fenced, or without a copy, stays. MICROCODE_LOAD and PATCH_LOAD check their ranges, a load its banks, then the
source, which a flash under way keeps waiting, then the bundle, and complete with the first that fails; a bundle that passes enters the
banks and the shelf, or takes a slot, advances its rollback counter where its FLAGS say so, and returns its version, or the slot.
Clauses of it rest on the model's choices: log entries 8 (signatures), 4, 32 (a command without a ticket). -/
def Obligations.ControlStoresAndPatches : Prop :=
  (∀ (cw : Fin 16) (bank : Fin 2) (addr : Nat) (s : State), let i := 2 * cw.val + bank.val
    let b := s.bank i
    (s.shelfCopy b.imageId b.version = none ∨ addr ∉ b.fenced → Completes (.controlStoreWordRestore cw bank addr) s s) ∧
    (∀ h, s.shelfCopy b.imageId b.version = some h → addr ∈ b.fenced → Completes (.controlStoreWordRestore cw bank addr) s
      (((s.setBank i { b with
          fenced := b.fenced.filter (· ≠ addr),
          words := tput b.words trapWord addr (leNat (s.hbmBytes (s.shelfAddr h.slot addr) 18)) }).wroteRange 2 cw
        (bank * 73728 + addr * 18) 18).bump Od.cs_RESTORED_WORDS))) ∧
  (∀ (mask bank source addr length : Nat) (s v : State), Taken s 0x30 (microcodeLoadArgs mask bank source addr length) v →
    let i := Instr.microcodeLoad mask bank source addr length
    let inRange := mask % 2 ^ 16 ≠ 0 ∧ bank < 2 ∧ source < 2 ∧ 492 ≤ length ∧ length ≤ 74220
    let cws := bitList mask 16
    let free := (cws.all fun cw => v.bankFree cw bank) = true
    (¬ inRange → Completes i s (v.attach 0x30 Result.outOfRange [])) ∧
    (inRange → ¬ free → Completes i s (v.attach 0x30 Result.inUse [])) ∧
    (inRange → free → v.flashBusy source = true → Completes i s v) ∧
    (inRange → free → v.flashBusy source = false →
      (∀ t r, v.copySource source addr length = (t, .inl r) → Completes i s (t.attach 0x30 r [])) ∧
      ∀ t bs, v.copySource source addr length = (t, .inr bs) →
        let b := Bundle.ofBytes bs
        (∀ r, t.bundleTest bs 1 (t.get Od.cs_MICROCODE_ROLLBACK) = some r → Completes i s (t.attach 0x30 r [])) ∧
        (t.bundleTest bs 1 (t.get Od.cs_MICROCODE_ROLLBACK) = none →
          let u := ((cws.foldl (fun t cw => t.loadBank (2 * cw + bank) b 1) t).tidyShelf).shelve b.imageId b.version (wordTab b.wordList)
          Completes i s ((if b.flags.testBit 0 then u.advanceCounter 0 b.rollback else u).attach 0x30 Result.ok (leBytes 4 b.version))))) ∧
  (∀ (source addr length : Nat) (s v : State), Taken s 0x31 (patchLoadArgs source addr length) v →
    let i := Instr.patchLoad source addr length
    let inRange := source < 2 ∧ 508 ≤ length ∧ length ≤ 66028
    (¬ inRange → Completes i s (v.attach 0x31 Result.outOfRange [])) ∧
    (inRange → v.flashBusy source = true → Completes i s v) ∧
    (inRange → v.flashBusy source = false →
      (∀ t r, v.copySource source addr length = (t, .inl r) → Completes i s (t.attach 0x31 r [])) ∧
      ∀ t bs, v.copySource source addr length = (t, .inr bs) →
        let b := Bundle.ofBytes bs
        (∀ r, t.bundleTest bs 2 (t.get Od.img_PATCH_ROLLBACK) = some r → Completes i s (t.attach 0x31 r [])) ∧
        (t.bundleTest bs 2 (t.get Od.img_PATCH_ROLLBACK) = none →
          (∀ u, t.takePatch b = (u, none) → Completes i s (u.attach 0x31 Result.noSlot [])) ∧
          (∀ u k, t.takePatch b = (u, some k) →
            Completes i s ((if b.flags.testBit 0 then u.advanceCounter 1 b.rollback else u).attach 0x31 Result.ok (leBytes 2 k)))))) ∧
  ∀ (w : Nat) (s : State) (i addr : Nat) (b : Bundle) (st : Nat), w = tget (wordTab b.wordList) trapWord addr →
    ((s.loadBank i b st).bank i).state = st ∧ tget ((s.loadBank i b st).bank i).words trapWord addr = w

/-! ### Deadlines, inputs and strips (R82, R160–R270) -/

/-- R82, R167, R180, R194, R222, R225: a LIVE row not complete at CD(r) leaves as its brim row, counted in LATE_ROWS and raised unless it is
under recovery; a complete one, one before CD(r), and a deadline that is not its CD(r), is left alone. The slip of a PACED picture, one frame after its deadline, counts once
and replaces its open rows by brim rows, which count in LATE_ROWS, or conceals them as LATE. A LIVE decode row not finished at
G(r) is concealed as LATE, and the last one closes the picture; at M(r) a damaged one without a decision is
LATE, and an undamaged one is marked. While the stream takes pictures PAT and PMT are due every 100 ms, and a PCR between.
Clauses of it rest on the model's choices: log entries 39 and 60 (concealment and recovery), 28 (times of rows), 4. -/
def Obligations.DeadlinesOfRows : Prop :=
  (∀ (sid : Fin 512) (rung : Fin 8) (pic row cd : Nat) (s : State), let i := Instr.rowCompletionDeadline sid rung pic row cd
    (s.encPic sid rung pic = none → Completes i s s) ∧
    ∀ p, s.encPic sid rung pic = some p →
      let rd := s.streamDomain sid
      let due := cd = RTime.word (s.completionDeadline sid p.frame p.cfg.height row) ∧ s.streamClass sid = 0 ∧
        s.later rd (s.completionDeadline sid p.frame p.cfg.height row) (s.now rd) = false ∧ row < p.rows.length ∧ (p.row row).state < 2
      (¬ due → Completes i s s) ∧
      (due → (p.row row).recover = false →
        Completes i s (((s.lateRow sid rung pic row).bump Od.ss_LATE_ROWS sid).streamEvent sid 5)) ∧
      (due → (p.row row).recover = true → Completes i s (s.lateRow sid rung pic row))) ∧
  (∀ (sid : Fin 512) (encode : Bool) (stage pic : Nat) (s : State), let i := Instr.pacedSlipExpiry sid encode stage pic
    (s.streamClass sid ≠ 1 → Completes i s s) ∧
    (s.streamClass sid = 1 → encode = true → s.encPic sid stage pic = none → Completes i s s) ∧
    (s.streamClass sid = 1 → encode = false → s.decPic sid stage pic = none → Completes i s s) ∧
    (∀ p, s.streamClass sid = 1 → encode = true → s.encPic sid stage pic = some p →
      let slips := s.slipOver sid p.frame (1 + p.cfg.gopB + p.cfg.lookahead)
      let opens := (List.range p.rows.length).filter fun r => decide ((p.row r).state < 2)
      let late := (opens.filter fun r => !(p.row r).recover).length
      let t := ((s.setEncPic sid { p with slipped := true }).bump Od.ss_SLIPS sid).bumpBy Od.ss_LATE_ROWS sid 0 late
      (slips = false → Completes i s s) ∧
      (slips = true → Completes i s (opens.foldl (fun t r => t.lateRow sid stage pic r) (t.streamEvent sid 5)))) ∧
    (∀ p, s.streamClass sid = 1 → encode = false → s.decPic sid stage pic = some p →
      let slips := s.slipOver sid p.frame (1 + p.start.reorder)
      let opens := (List.range p.rows.length).filter fun r => !(p.row r).finished
      let t := (s.mapDec sid stage pic fun q => { q with slipped := true, closed := true }).bump Od.ss_SLIPS sid
      (slips = false → Completes i s s) ∧
      (slips = true → Completes i s
        ((opens.foldl (fun t r => t.concealRow sid stage pic r true) (t.streamEvent sid 5)).progress sid stage pic)))) ∧
  (∀ (sid : Fin 512) (rung : Fin 8) (s : State), let i := Instr.patPmtRepeatTimer sid rung
    let due := ∀ t, (s.rung sid rung).psiAt = some t → t + msCycles 100 ≤ s.cycle
    (s.takesPictures sid = false → Completes i s s) ∧
    (s.takesPictures sid = true → due → Completes i s (s.sendPsi sid rung)) ∧
    (s.takesPictures sid = true → ¬ due → Completes i s (s.sendPcr sid rung))) ∧
  (∀ (sid : Fin 512) (layer : Fin 16) (pic row : Nat) (s : State),
    let g := Instr.decodeGiveup sid layer pic row
    let m := Instr.motionDecisionDeadline sid layer pic row
    (s.decPic sid layer pic = none → Completes g s s ∧ Completes m s s) ∧
    ∀ p, s.decPic sid layer pic = some p →
      let t := if (p.row row).finished then s else s.concealRow sid layer pic row true
      let gone := s.atG sid p row = true ∧ row < p.rows.length
      let open_ := s.atM sid p row = true ∧ row < p.rows.length ∧ (p.row row).finished = false ∧ (p.row row).method = 0
      (¬ gone → Completes g s s) ∧
      (gone → row + 1 = p.rows.length → Completes g s (t.closePic sid layer pic)) ∧
      (gone → row + 1 ≠ p.rows.length → Completes g s (t.progress sid layer pic)) ∧
      (¬ open_ → Completes m s s) ∧
      (open_ → (p.row row).damage ≠ [] → Completes m s ((s.concealRow sid layer pic row true).progress sid layer pic)) ∧
      (open_ → (p.row row).damage = [] →
        Completes m s (s.mapDec sid layer pic fun q => q.withRow row fun w => { w with late := true })))

/-- R211–R217, R237, R252, R265, R268: a packet for no input, or of a stream that takes no pictures, changes nothing; one that
back-pressure discards goes no further; one of another source, or of another elementary stream, only frees its batts; another is put in
order: discarded, used, or used after a discontinuity. A gap that has stood for REORDER_LINES is declared with its damage; another is not.
The input of a RUNNING stream that has been silent for INPUT_TIMEOUT frames is lost. A rotating pass starts on its conditioner's even crown, or
on the odd one while that is under reset, or waits; its strips count only once it has started, its last one ends it, and strips feed the encode.
Clauses of it rest on the model's choices: log entries 39, 40 and 44 (inputs and strips), 4. -/
def Obligations.InputsAndStrips : Prop :=
  let entry : State → Fin 512 → Fin 16 → Option InEntry := fun s sid layer => (s.inputs sid).find? fun e => e.layer % 16 = layer.val
  (∀ (port : Option (Fin 128)) (sid : Fin 512) (layer : Fin 16) (p : InputPacket) (s : State),
    let i := Instr.inputPacketArrival port sid layer p
    (entry s sid layer = none ∨ s.takesPictures sid = false → Completes i s s) ∧
    ∀ e, entry s sid layer = some e → s.takesPictures sid = true →
      let fec := (s.layerCfg sid layer).fec
      let m := seqModulus e.kind fec
      let got := s.takePacket sid layer e.kind (port.map fun f => f.val) p.bytes
      (e.kind = 4 → Completes i s s) ∧
      (∀ t, e.kind ≠ 4 → got = (t, false) → Completes i s t) ∧
      ∀ t, e.kind ≠ 4 → got = (t, true) →
        (∀ u, t.lockSsrc sid layer p.ssrc = (u, false) → Completes i s (u.freeInput sid layer 1)) ∧
        ∀ u, t.lockSsrc sid layer p.ssrc = (u, true) →
          (∀ v, u.aside sid layer e.kind p = some v → Completes i s (v.freeInput sid layer 1)) ∧
          (u.aside sid layer e.kind p = none →
            let v := if p.discont then u.discontinue sid layer else u
            let rd := v.streamDomain sid
            let win := v.get Od.dec_REORDER_WINDOW sid
            let r := (v.layer sid layer).order m (if fec = 0 then win else max win p.fecWindow) p.seq (linear (v.lpf rd) (v.now rd))
              (decide (e.kind = 1 ∧ fec = 0)) (p.recovered && fec != 0) p.errored
            let x := v.setLayer sid layer r.1
            let y := x.discontinue sid layer
            (e.kind = 3 → Completes i s (v.usePacket sid layer m e p)) ∧
            (e.kind ≠ 3 → r.2 = .discard → Completes i s (x.freeInput sid layer 1)) ∧
            (e.kind ≠ 3 → r.2 = .keep → Completes i s (x.usePacket sid layer m e p)) ∧
            (e.kind ≠ 3 → r.2 = .jump →
              Completes i s ((y.setLayer sid layer { y.layer sid layer with highest := some p.seq }).usePacket sid layer m e p)))) ∧
  (∀ (sid : Fin 512) (layer : Fin 16) (seq : Nat) (damage : List Damage) (s : State),
    let l := s.layer sid layer
    let i := Instr.gapDeclareTimeout sid layer seq damage
    (entry s sid layer = none ∨ s.gapDue sid layer seq = false ∨ s.streamClass sid = 2 → Completes i s s) ∧
    (∀ e, entry s sid layer = some e → s.streamClass sid ≠ 2 → s.gapDue sid layer seq = true →
      let m := seqModulus e.kind (s.layerCfg sid layer).fec
      let t := s.setLayer sid layer (l.declare [seq])
      Completes i s
        ((match (l.pics.filter fun q : DecPic => decide (0 ≤ seqDiff m seq q.seq)).getLast? with
          | some q => t.damage sid layer q.pic damage
          | none => t).closeDue sid layer m))) ∧
  (∀ (sid : Fin 512) (layer : Fin 16) (s : State), let i := Instr.inputTimeout sid layer
    let lost := s.streamState sid = stRunning ∧ layer.val ∈ s.decodeLayers sid ∧ s.inputSilent sid layer = true
    (lost → Completes i s (s.setLayer sid layer { s.layer sid layer with inputLost := true })) ∧ (¬ lost → Completes i s s)) ∧
  (∀ (ic : Fin 8) (sid : Fin 512) (pass : Nat) (s : State), let i := Instr.rotationPassStart ic sid pass
    (s.passOn ic sid pass = none → Completes i s s) ∧
    ∀ p, s.passOn ic sid pass = some p →
      let start := fun cw =>
        (s.mapPass sid pass fun q => { q with started := true, crown := cw, stripAt := s.cycle }).set Od.ic_TILE_CROWN ic cw
      let even := s.get Od.crown_POWER_STATE (2 * ic) ≠ 3
      let odd := s.get Od.crown_POWER_STATE (2 * ic + 1) ≠ 3
      (p.rotates = false ∨ p.started = true ∨ ¬ (even ∨ odd) → Completes i s s) ∧
      (p.rotates = true → p.started = false → even → Completes i s (start (2 * ic.val))) ∧
      (p.rotates = true → p.started = false → ¬ even → odd → Completes i s (start (2 * ic.val + 1)))) ∧
  (∀ (ic : Fin 8) (sid : Fin 512) (pass pic strip corrected : Nat) (s : State), let i := Instr.stripWritten ic sid pass pic strip corrected
    (s.passOn ic sid pass = none → Completes i s s) ∧
    ∀ p, s.passOn ic sid pass = some p →
      let c := s.countStrip ic sid pass pic strip p.rotates corrected
      let t := c.mapPass sid pass fun q => { q with stripAt := s.cycle }
      let last := p.rotates = true ∧ (t.passSize sid pass).2 ≤ 64 * (strip + 1)
      let u := if last then t.mapPass sid pass fun q => { q with started := false } else t
      (p.rotates = true → p.started = false → Completes i s s) ∧
      (p.rotates = false ∨ p.started = true →
        (u.encodes sid = true → Completes i s (u.feedStrip sid pass pic strip ic)) ∧
        (u.encodes sid = false → Completes i s (u.rawStrip sid pic strip))))
/-! ### The whole block -/

/-- Every command completes: no step faults and none is refused, whatever the state, and no command does, whatever its operands; the
commands that the spec turns away answer with a status or change nothing (R41, R50, R65). A step of an empty queue lets a cycle pass.
Clauses of it rest on the model's choices: log entries 13 (no command faults), 1 and 4. -/
def Obligations.NoStepFaultsOrIsRefused : Prop :=
  (∀ s : State, ∃ t, step s = .next t) ∧ (∀ (i : Instr) (s : State), ∃ t, exec i s = .next t) ∧
    ∀ s : State, s.pending = [] → step s = .next s.tick.settle

/-- R438, R441: a step leaves no vector ARMED that has a pending source: whatever command runs, a vector whose source is or has
become pending has sent its message, or holds it. It holds of every state that has the property, reached or not. -/
def Obligations.EveryStepSendsTheMessagesDue : Prop :=
  ∀ s t : State, messagesSent s → step s = .next t → messagesSent t

/-- R435, R438: after reset no source is pending, so no message is due. -/
def Obligations.ResetHasNoMessageDue : Prop :=
  messagesSent State.reset ∧ ∀ v, State.reset.pendingOn v = []
end

