-- ==== Sys2Proof/Laws/Tables.lean ====
section
/-! SUPPORT. Sparse tables: what a read finds after a write or a deletion, and that both keep the keys rising. -/

namespace Sys2Proof.Laws

variable {α : Type}

@[simp] theorem tfind_nil (k : Nat) : tfind ([] : Tab α) k = none := rfl

@[simp] theorem tget_nil (d : α) (k : Nat) : tget ([] : Tab α) d k = d := rfl

theorem tfind_cons (t : Tab α) (a : Nat) (v : α) (k : Nat) :
    tfind ((a, v) :: t) k = if a = k then some v else tfind t k := rfl

@[simp] theorem tfind_tset_self (t : Tab α) (k : Nat) (v : α) : tfind (tset t k v) k = some v := by
  induction t with
  | nil => simp [tset, tfind]
  | cons e t ih =>
    obtain ⟨a, w⟩ := e
    by_cases h : k < a
    · simp [tset, h, tfind]
    · by_cases h' : a = k <;> simp [tset, h, h', tfind, ih]

theorem tfind_tset_ne (t : Tab α) {k j : Nat} (v : α) (h : k ≠ j) : tfind (tset t k v) j = tfind t j := by
  induction t with
  | nil => simp [tset, tfind, h]
  | cons e t ih =>
    obtain ⟨a, w⟩ := e
    by_cases h1 : k < a
    · simp [tset, h1, tfind, h]
    · by_cases h2 : a = k
      · simp [tset, h2, tfind, h]
      · simp [tset, h1, h2, tfind, ih]

@[simp] theorem tfind_tdel_self (t : Tab α) (k : Nat) : tfind (tdel t k) k = none := by
  induction t with
  | nil => rfl
  | cons e t ih =>
    obtain ⟨a, w⟩ := e
    by_cases h : a = k <;> simp [tdel, h, tfind, ih]

theorem tfind_tdel_ne (t : Tab α) {k j : Nat} (h : k ≠ j) : tfind (tdel t k) j = tfind t j := by
  induction t with
  | nil => rfl
  | cons e t ih =>
    obtain ⟨a, w⟩ := e
    by_cases h' : a = k
    · simp [tdel, h', tfind, h, ih]
    · simp [tdel, h', tfind, ih]

@[simp] theorem tget_tset_self (t : Tab α) (d : α) (k : Nat) (v : α) : tget (tset t k v) d k = v := by simp [tget]

theorem tget_tset_ne (t : Tab α) (d : α) {k j : Nat} (v : α) (h : k ≠ j) : tget (tset t k v) d j = tget t d j := by
  simp [tget, tfind_tset_ne t v h]

variable [DecidableEq α]

theorem tfind_tput_ne (t : Tab α) (d : α) {k j : Nat} (v : α) (h : k ≠ j) : tfind (tput t d k v) j = tfind t j := by
  unfold tput; split
  · exact tfind_tdel_ne t h
  · exact tfind_tset_ne t v h

@[simp] theorem tget_tput_self (t : Tab α) (d : α) (k : Nat) (v : α) : tget (tput t d k v) d k = v := by
  unfold tput tget; split <;> simp_all

theorem tget_tput_ne (t : Tab α) (d d' : α) {k j : Nat} (v : α) (h : k ≠ j) : tget (tput t d k v) d' j = tget t d' j := by
  simp [tget, tfind_tput_ne t d v h]

/-! ### Keys stay rising -/

/-- Every key of a table is above a bound. -/
def above (b : Nat) (t : Tab α) : Prop := ∀ e ∈ t, b < e.1

omit [DecidableEq α] in
theorem tsorted_cons (e : Nat × α) (t : Tab α) : tsorted (e :: t) = true ↔ above e.1 t ∧ tsorted t = true := by
  induction t generalizing e with
  | nil => simp [tsorted, above]
  | cons f t ih =>
    obtain ⟨k, v⟩ := e; obtain ⟨k', v'⟩ := f
    have := ih (k', v')
    simp only [tsorted, Bool.and_eq_true, decide_eq_true_eq, this, above, List.mem_cons, forall_eq_or_imp]
    constructor
    · rintro ⟨h, h1, h2⟩; exact ⟨⟨h, fun e he => Nat.lt_trans h (h1 e he)⟩, h1, h2⟩
    · rintro ⟨⟨h, _⟩, h1, h2⟩; exact ⟨h, h1, h2⟩

omit [DecidableEq α] in
theorem above_tset {b k : Nat} {t : Tab α} {v : α} (h : b < k) (ht : above b t) : above b (tset t k v) := by
  induction t with
  | nil => simpa [tset, above] using h
  | cons e t ih =>
    obtain ⟨a, w⟩ := e
    simp only [above, List.mem_cons, forall_eq_or_imp] at ht
    unfold tset; split
    · simp only [above, List.mem_cons, forall_eq_or_imp]; exact ⟨h, ht⟩
    · split
      · simp only [above, List.mem_cons, forall_eq_or_imp]; exact ⟨h, ht.2⟩
      · simp only [above, List.mem_cons, forall_eq_or_imp]; exact ⟨ht.1, ih ht.2⟩

omit [DecidableEq α] in
theorem tsorted_tset {t : Tab α} {k : Nat} {v : α} (h : tsorted t = true) : tsorted (tset t k v) = true := by
  induction t with
  | nil => rfl
  | cons e t ih =>
    obtain ⟨a, w⟩ := e
    rw [tsorted_cons] at h
    unfold tset; split
    · rename_i hk
      rw [tsorted_cons, tsorted_cons]
      refine ⟨?_, h⟩
      simp only [above, List.mem_cons, forall_eq_or_imp]
      exact ⟨hk, fun e he => Nat.lt_trans hk (h.1 e he)⟩
    · split
      · rename_i hk; subst hk; rw [tsorted_cons]; exact h
      · rw [tsorted_cons]; exact ⟨above_tset (by simp only; omega) h.1, ih h.2⟩

omit [DecidableEq α] in
theorem mem_tdel {t : Tab α} {k : Nat} {e : Nat × α} (h : e ∈ tdel t k) : e ∈ t := by
  induction t with
  | nil => cases h
  | cons f t ih =>
    obtain ⟨a, w⟩ := f
    unfold tdel at h; split at h
    · exact List.mem_cons_of_mem _ (ih h)
    · rcases List.mem_cons.mp h with h | h
      · exact h ▸ List.mem_cons_self
      · exact List.mem_cons_of_mem _ (ih h)

omit [DecidableEq α] in
theorem tsorted_tdel {t : Tab α} {k : Nat} (h : tsorted t = true) : tsorted (tdel t k) = true := by
  induction t with
  | nil => rfl
  | cons e t ih =>
    obtain ⟨a, w⟩ := e
    rw [tsorted_cons] at h
    unfold tdel; split
    · exact ih h.2
    · rw [tsorted_cons]; exact ⟨fun e he => h.1 e (mem_tdel he), ih h.2⟩

theorem tsorted_tput {t : Tab α} {d : α} {k : Nat} {v : α} (h : tsorted t = true) : tsorted (tput t d k v) = true := by
  unfold tput; split
  · exact tsorted_tdel h
  · exact tsorted_tset h

omit [DecidableEq α] in
theorem tsorted_filter {t : Tab α} (p : Nat × α → Bool) (h : tsorted t = true) : tsorted (t.filter p) = true := by
  induction t with
  | nil => rfl
  | cons e t ih =>
    rw [tsorted_cons] at h
    rw [List.filter_cons]; split
    · rw [tsorted_cons]; exact ⟨fun e he => h.1 e ((List.mem_filter.mp he).1), ih h.2⟩
    · exact ih h.2

omit [DecidableEq α] in
theorem mem_tset {t : Tab α} {k : Nat} {v : α} {e : Nat × α} (h : e ∈ tset t k v) : e = (k, v) ∨ e ∈ t := by
  induction t with
  | nil => simpa [tset] using h
  | cons f t ih =>
    obtain ⟨a, w⟩ := f
    unfold tset at h; split at h
    · simpa using h
    · split at h
      · rcases List.mem_cons.mp h with h | h
        · exact .inl h
        · exact .inr (List.mem_cons_of_mem _ h)
      · rcases List.mem_cons.mp h with h | h
        · exact .inr (h ▸ List.mem_cons_self)
        · exact (ih h).imp id (List.mem_cons_of_mem _)

/-- No write lists the default. -/
theorem mem_tput {t : Tab α} {d : α} {k : Nat} {v : α} {e : Nat × α} (h : e ∈ tput t d k v) : (e = (k, v) ∧ v ≠ d) ∨ e ∈ t := by
  unfold tput at h; split at h
  · exact .inr (mem_tdel h)
  · rename_i hv; exact (mem_tset h).imp (fun h => ⟨h, hv⟩) id

/-! ### Values of keys that follow one another -/

omit [DecidableEq α] in
theorem tfind_append (t u : Tab α) (k : Nat) : tfind (t ++ u) k = (tfind t k).or (tfind u k) := by
  induction t with
  | nil => rfl
  | cons e t ih => obtain ⟨a, v⟩ := e; rw [List.cons_append, tfind_cons, tfind_cons]; split <;> simp [ih]

omit [DecidableEq α] in
theorem tfind_filter (t : Tab α) (p : Nat → Bool) (k : Nat) : tfind (t.filter fun e => p e.1) k = if p k then tfind t k else none := by
  induction t with
  | nil => simp
  | cons e t ih =>
    obtain ⟨a, v⟩ := e
    rw [List.filter_cons, tfind_cons]
    by_cases ha : a = k
    · subst ha; cases hp : p a <;> simp [hp, tfind_cons, ih]
    · simp only [if_neg ha]; split <;> simp [tfind_cons, ha, ih]

theorem mem_trun {d : α} {vs : List α} {k : Nat} {e : Nat × α} (h : e ∈ trun d k vs) : k ≤ e.1 ∧ e.1 < k + vs.length ∧ e.2 ≠ d := by
  induction vs generalizing k with
  | nil => cases h
  | cons v vs ih =>
    rw [List.length_cons]; unfold trun at h; split at h
    · have := ih h; exact ⟨by omega, by omega, this.2.2⟩
    · rename_i hv
      rcases List.mem_cons.mp h with rfl | h
      · exact ⟨Nat.le_refl _, by simp only; omega, hv⟩
      · have := ih h; exact ⟨by omega, by omega, this.2.2⟩

theorem tsorted_trun (d : α) (vs : List α) : ∀ k, tsorted (trun d k vs) = true := by
  induction vs with
  | nil => intro _; rfl
  | cons v vs ih =>
    intro k; unfold trun; split
    · exact ih _
    · rw [tsorted_cons]; exact ⟨fun e he => by have := mem_trun he; simp only; omega, ih _⟩

theorem tfind_trun (d : α) (vs : List α) :
    ∀ k j, tfind (trun d k vs) j = if k ≤ j then (vs[j - k]?).filter (fun v => decide (v ≠ d)) else none := by
  induction vs with
  | nil => intro k j; simp [trun]
  | cons v vs ih =>
    intro k j
    have hc : tfind (trun d k (v :: vs)) j = if k = j ∧ v ≠ d then some v else tfind (trun d (k + 1) vs) j := by
      by_cases hv : v = d
      · simp [trun, hv]
      · simp [trun, hv, tfind_cons]
    rw [hc, ih]
    rcases Nat.lt_trichotomy j k with h | rfl | h
    · rw [if_neg (by omega), if_neg (by omega), if_neg (by omega)]
    · rw [if_neg (show ¬ j + 1 ≤ j by omega)]; by_cases hv : v = d <;> simp [hv, Option.filter]
    · have e : j - k = (j - (k + 1)) + 1 := by omega
      rw [if_neg (by omega), if_pos (by omega), if_pos (by omega), e, List.getElem?_cons_succ]

/-- What keys read as after values are written to keys that follow one another. -/
theorem tget_tputRun (t : Tab α) (d : α) (k : Nat) (vs : List α) (j : Nat) :
    tget (tputRun t d k vs) d j = if k ≤ j ∧ j < k + vs.length then vs.getD (j - k) d else tget t d j := by
  rw [tget, tputRun, tfind_append, tfind_append, tfind_filter t (fun n => decide (n < k)), tfind_filter t (fun n => decide (k + vs.length ≤ n)),
    tfind_trun, tget]
  simp only [decide_eq_true_eq]
  rcases Nat.lt_or_ge j k with h | h
  · rw [if_pos h, if_neg (show ¬ k ≤ j by omega), if_neg (show ¬ k + vs.length ≤ j by omega), if_neg (by omega)]; simp
  · rw [if_neg (show ¬ j < k by omega), if_pos h]
    rcases Nat.lt_or_ge j (k + vs.length) with h1 | h1
    · have : j - k < vs.length := by omega
      rw [if_neg (show ¬ k + vs.length ≤ j by omega), if_pos ⟨h, h1⟩, List.getD_eq_getElem?_getD, List.getElem?_eq_getElem this]
      by_cases hv : vs[j - k] = d <;> simp [hv, Option.filter]
    · rw [if_pos h1, if_neg (by omega), List.getElem?_eq_none (by omega)]; simp

omit [DecidableEq α] in
theorem tsorted_append {t u : Tab α} (ht : tsorted t = true) (hu : tsorted u = true) (h : ∀ e ∈ t, ∀ f ∈ u, e.1 < f.1) : tsorted (t ++ u) = true := by
  induction t with
  | nil => exact hu
  | cons e t ih =>
    rw [tsorted_cons] at ht
    rw [List.cons_append, tsorted_cons]
    refine ⟨fun f hf => ?_, ih ht.2 fun a ha => h a (List.mem_cons_of_mem _ ha)⟩
    rcases List.mem_append.mp hf with hf | hf
    · exact ht.1 f hf
    · exact h e List.mem_cons_self f hf

theorem tsorted_tputRun {t : Tab α} {d : α} {k : Nat} {vs : List α} (h : tsorted t = true) : tsorted (tputRun t d k vs) = true := by
  refine tsorted_append (tsorted_append (tsorted_filter _ h) (tsorted_trun _ _ _) ?_) (tsorted_filter _ h) ?_
  · intro e he f hf
    have := mem_trun hf
    have := (List.mem_filter.mp he).2
    simp at this; omega
  · intro e he f hf
    have h1 := (List.mem_filter.mp hf).2
    simp at h1
    rcases List.mem_append.mp he with he | he
    · have := (List.mem_filter.mp he).2
      simp at this; omega
    · have := mem_trun he; omega

/-- What a written run lists: what stood there before, or a value that is no default. -/
theorem mem_tputRun {t : Tab α} {d : α} {k : Nat} {vs : List α} {e : Nat × α} (h : e ∈ tputRun t d k vs) : e ∈ t ∨ e.2 ≠ d := by
  rcases List.mem_append.mp h with h | h
  · rcases List.mem_append.mp h with h | h
    · exact .inl (List.mem_filter.mp h).1
    · exact .inr (mem_trun h).2.2
  · exact .inl (List.mem_filter.mp h).1

end Sys2Proof.Laws
end

