-- ==== Sys2Proof/Laws/Settle.lean ====
section
/-! SUPPORT. What the end of every meaning may change. -/

namespace Sys2Proof

open Machine

theorem Safety.Settled.refl (s : State) : Safety.Settled s s := ⟨rfl, fun _ _ _ => rfl⟩

theorem Safety.Settled.trans {s t u : State} (h : Safety.Settled s t) (h' : Safety.Settled t u) : Safety.Settled s u := by
  refine ⟨?_, fun src a b => (h'.2 src a b).trans (h.2 src a b)⟩
  rw [h'.1]; rw [h.1]

namespace Machine

open Safety

theorem foldl_settled {α : Type} (f : State → α → State) (hf : ∀ s a, Settled s (f s a)) (l : List α) (s : State) :
    Settled s (l.foldl f s) := by
  induction l generalizing s with
  | nil => exact Settled.refl _
  | cons a l ih => exact (hf s a).trans (ih (f s a))

theorem raise_settled (s : State) (src : Nat) (h : src = 65 ∨ src = 66) : Settled s (s.raise src) := by
  unfold State.raise; split
  · exact Settled.refl _
  · refine ⟨rfl, fun k a b => ?_⟩
    simp only [State.irq, State.setIrq]
    exact Laws.tget_tput_ne _ _ _ _ (by omega)

theorem emit_settled (s : State) (o : Output) : Settled s (s.emit o) := ⟨rfl, fun _ _ _ => rfl⟩

theorem sendWire_settled (s : State) (o : Origin) (frame : List Byte) : Settled s (s.sendWire o frame) := by
  unfold State.sendWire; simp only []
  refine Settled.trans ?_ (foldl_settled _ emit_settled _ _)
  refine Settled.trans ?_ (emit_settled _ _)
  exact ⟨rfl, fun _ _ _ => rfl⟩

theorem setSession_settled (s : State) (x : Session) : Settled s (s.setSession x) := ⟨rfl, fun _ _ _ => rfl⟩

theorem placeResponse_settled (s : State) (f : List Byte) : Settled s (s.placeResponse f) := by
  unfold State.placeResponse; simp only []
  split
  · refine Settled.trans ?_ (raise_settled _ _ (Or.inr rfl)); exact ⟨rfl, fun _ _ _ => rfl⟩
  · refine Settled.trans ?_ (raise_settled _ _ (Or.inl rfl)); exact ⟨rfl, fun _ _ _ => rfl⟩

theorem notifyMailbox_settled (s : State) (f : List Byte) : Settled s (s.notifyMailbox f) := by
  unfold State.notifyMailbox; split
  · exact ⟨rfl, fun _ _ _ => rfl⟩
  · refine Settled.trans ?_ (placeResponse_settled _ _); exact ⟨rfl, fun _ _ _ => rfl⟩

theorem sendNotify_settled (s : State) (id : Nat) (items : List Byte) : Settled s (s.sendNotify id items) := by
  unfold State.sendNotify; split
  · exact Settled.refl _
  · split
    · refine Settled.trans ?_ (notifyMailbox_settled _ _); exact ⟨rfl, fun _ _ _ => rfl⟩
    · refine Settled.trans ?_ (sendWire_settled _ _ _); exact ⟨rfl, fun _ _ _ => rfl⟩

theorem sendItems_settled (s : State) (x : Session) (items : List (List Byte)) : Settled s (s.sendItems x items) :=
  foldl_settled _ (fun t b => sendNotify_settled t _ b) _ _

theorem notifySession_settled (s : State) (f : Subscription → List Byte → Subscription × Bool) (x : Session) :
    Settled s (s.notifySession f x) := by
  unfold State.notifySession; split
  · exact Settled.refl _
  · exact (setSession_settled s _).trans (sendItems_settled _ _ _)

theorem notifyAll_settled (s : State) (f : Subscription → List Byte → Subscription × Bool) : Settled s (s.notifyAll f) :=
  foldl_settled _ (fun t x => notifySession_settled t f x) _ _

/-- The parts of the host interface that sending messages may change. -/
def messagesOnly (h h' : HostState) : Prop :=
  h' = { h with vectors := h'.vectors, messages := h'.messages, heldCount := h'.heldCount, pmeSent := h'.pmeSent, pmeStatus := h'.pmeStatus }

theorem sendOne_messages (ho : HostState × List Output) (v : Nat) : messagesOnly ho.1 (sendOne ho v).1 := by
  unfold sendOne; simp only []
  repeat' split
  all_goals rfl

theorem sendAll_messages (l : List Nat) (ho : HostState × List Output) : messagesOnly ho.1 (l.foldl sendOne ho).1 := by
  induction l generalizing ho with
  | nil => rfl
  | cons v l ih =>
    have h1 := sendOne_messages ho v
    have h2 := ih (sendOne ho v)
    unfold messagesOnly at *
    rw [List.foldl_cons, h2]; rw [h1]

theorem sendMessages_settled (s : State) : Settled s s.sendMessages := by
  have h := sendAll_messages s.dueVectors (s.host, s.out)
  unfold messagesOnly at h
  refine ⟨?_, fun src _ _ => ?_⟩
  · unfold State.sendMessages
    simp only []
    rw [h]
  · unfold State.irq State.sendMessages
    simp only []
    rw [h]

theorem settle_settled (s : State) : Settled s s.settle := by
  have h := (notifyAll_settled s Subscription.look).trans (sendMessages_settled _)
  unfold State.settle State.withOutside State.outside
  refine ⟨?_, h.2⟩
  rw [h.1]

/-- A meaning that ends with u completes in u. -/
theorem completes_of_done {i : Instr} {s u : State} (h : exec i s = done u) : Completes i s u := h

theorem ends_of_done {i : Instr} {s u : State} (h : exec i s = done u) : Ends i s u := ⟨u.settle, h, settle_settled u⟩

end Machine

end Sys2Proof
end

