-- ==== Sys2Proof/Laws/State.lean ====
section
/-! SUPPORT. One lemma per field and update of the state, each true by computation, so that no later proof unfolds a record
update. -/

namespace Sys2Proof.Machine

@[simp] theorem State.put_pending (s : State) (r : Row) (i j v : Nat) : (s.put r i j v).pending = s.pending := rfl
@[simp] theorem State.put_cycle (s : State) (r : Row) (i j v : Nat) : (s.put r i j v).cycle = s.cycle := rfl
@[simp] theorem State.put_shadow (s : State) (r : Row) (i j v : Nat) : (s.put r i j v).shadow = s.shadow := rfl
@[simp] theorem State.put_blobs (s : State) (r : Row) (i j v : Nat) : (s.put r i j v).blobs = s.blobs := rfl
@[simp] theorem State.put_blobsShadow (s : State) (r : Row) (i j v : Nat) : (s.put r i j v).blobsShadow = s.blobsShadow := rfl
@[simp] theorem State.put_raster (s : State) (r : Row) (i j v : Nat) : (s.put r i j v).raster = s.raster := rfl
@[simp] theorem State.put_iop (s : State) (r : Row) (i j v : Nat) : (s.put r i j v).iop = s.iop := rfl
@[simp] theorem State.put_cmds (s : State) (r : Row) (i j v : Nat) : (s.put r i j v).cmds = s.cmds := rfl
@[simp] theorem State.put_streams (s : State) (r : Row) (i j v : Nat) : (s.put r i j v).streams = s.streams := rfl
@[simp] theorem State.put_cells (s : State) (r : Row) (i j v : Nat) : (s.put r i j v).cells = s.cells := rfl
@[simp] theorem State.put_code (s : State) (r : Row) (i j v : Nat) : (s.put r i j v).code = s.code := rfl
@[simp] theorem State.put_mem (s : State) (r : Row) (i j v : Nat) : (s.put r i j v).mem = s.mem := rfl
@[simp] theorem State.put_queues (s : State) (r : Row) (i j v : Nat) : (s.put r i j v).queues = s.queues := rfl
@[simp] theorem State.put_lanes (s : State) (r : Row) (i j v : Nat) : (s.put r i j v).lanes = s.lanes := rfl
@[simp] theorem State.put_fabric (s : State) (r : Row) (i j v : Nat) : (s.put r i j v).fabric = s.fabric := rfl
@[simp] theorem State.put_egress (s : State) (r : Row) (i j v : Nat) : (s.put r i j v).egress = s.egress := rfl
@[simp] theorem State.put_host (s : State) (r : Row) (i j v : Nat) : (s.put r i j v).host = s.host := rfl
@[simp] theorem State.put_faults (s : State) (r : Row) (i j v : Nat) : (s.put r i j v).faults = s.faults := rfl
@[simp] theorem State.put_sec (s : State) (r : Row) (i j v : Nat) : (s.put r i j v).sec = s.sec := rfl
@[simp] theorem State.put_power (s : State) (r : Row) (i j v : Nat) : (s.put r i j v).power = s.power := rfl
@[simp] theorem State.put_live (s : State) (r : Row) (i j v : Nat) : (s.put r i j v).live = s.live := rfl
@[simp] theorem State.put_halted (s : State) (r : Row) (i j v : Nat) : (s.put r i j v).halted = s.halted := rfl
@[simp] theorem State.put_lastStatus (s : State) (r : Row) (i j v : Nat) : (s.put r i j v).lastStatus = s.lastStatus := rfl
@[simp] theorem State.put_freeUsed (s : State) (r : Row) (i j v : Nat) : (s.put r i j v).freeUsed = s.freeUsed := rfl
@[simp] theorem State.put_out (s : State) (r : Row) (i j v : Nat) : (s.put r i j v).out = s.out := rfl

@[simp] theorem State.set_pending (s : State) (r : Row) (i v : Nat) : (s.set r i v).pending = s.pending := rfl
@[simp] theorem State.set_cycle (s : State) (r : Row) (i v : Nat) : (s.set r i v).cycle = s.cycle := rfl
@[simp] theorem State.set_shadow (s : State) (r : Row) (i v : Nat) : (s.set r i v).shadow = s.shadow := rfl
@[simp] theorem State.set_blobs (s : State) (r : Row) (i v : Nat) : (s.set r i v).blobs = s.blobs := rfl
@[simp] theorem State.set_blobsShadow (s : State) (r : Row) (i v : Nat) : (s.set r i v).blobsShadow = s.blobsShadow := rfl
@[simp] theorem State.set_raster (s : State) (r : Row) (i v : Nat) : (s.set r i v).raster = s.raster := rfl
@[simp] theorem State.set_iop (s : State) (r : Row) (i v : Nat) : (s.set r i v).iop = s.iop := rfl
@[simp] theorem State.set_cmds (s : State) (r : Row) (i v : Nat) : (s.set r i v).cmds = s.cmds := rfl
@[simp] theorem State.set_streams (s : State) (r : Row) (i v : Nat) : (s.set r i v).streams = s.streams := rfl
@[simp] theorem State.set_cells (s : State) (r : Row) (i v : Nat) : (s.set r i v).cells = s.cells := rfl
@[simp] theorem State.set_code (s : State) (r : Row) (i v : Nat) : (s.set r i v).code = s.code := rfl
@[simp] theorem State.set_mem (s : State) (r : Row) (i v : Nat) : (s.set r i v).mem = s.mem := rfl
@[simp] theorem State.set_queues (s : State) (r : Row) (i v : Nat) : (s.set r i v).queues = s.queues := rfl
@[simp] theorem State.set_lanes (s : State) (r : Row) (i v : Nat) : (s.set r i v).lanes = s.lanes := rfl
@[simp] theorem State.set_fabric (s : State) (r : Row) (i v : Nat) : (s.set r i v).fabric = s.fabric := rfl
@[simp] theorem State.set_egress (s : State) (r : Row) (i v : Nat) : (s.set r i v).egress = s.egress := rfl
@[simp] theorem State.set_host (s : State) (r : Row) (i v : Nat) : (s.set r i v).host = s.host := rfl
@[simp] theorem State.set_faults (s : State) (r : Row) (i v : Nat) : (s.set r i v).faults = s.faults := rfl
@[simp] theorem State.set_sec (s : State) (r : Row) (i v : Nat) : (s.set r i v).sec = s.sec := rfl
@[simp] theorem State.set_power (s : State) (r : Row) (i v : Nat) : (s.set r i v).power = s.power := rfl
@[simp] theorem State.set_live (s : State) (r : Row) (i v : Nat) : (s.set r i v).live = s.live := rfl
@[simp] theorem State.set_halted (s : State) (r : Row) (i v : Nat) : (s.set r i v).halted = s.halted := rfl
@[simp] theorem State.set_lastStatus (s : State) (r : Row) (i v : Nat) : (s.set r i v).lastStatus = s.lastStatus := rfl
@[simp] theorem State.set_freeUsed (s : State) (r : Row) (i v : Nat) : (s.set r i v).freeUsed = s.freeUsed := rfl
@[simp] theorem State.set_out (s : State) (r : Row) (i v : Nat) : (s.set r i v).out = s.out := rfl

@[simp] theorem State.setInt_pending (s : State) (r : Row) (i : Nat) (v : Int) : (s.setInt r i v).pending = s.pending := rfl
@[simp] theorem State.setInt_cycle (s : State) (r : Row) (i : Nat) (v : Int) : (s.setInt r i v).cycle = s.cycle := rfl
@[simp] theorem State.setInt_shadow (s : State) (r : Row) (i : Nat) (v : Int) : (s.setInt r i v).shadow = s.shadow := rfl
@[simp] theorem State.setInt_blobs (s : State) (r : Row) (i : Nat) (v : Int) : (s.setInt r i v).blobs = s.blobs := rfl
@[simp] theorem State.setInt_blobsShadow (s : State) (r : Row) (i : Nat) (v : Int) : (s.setInt r i v).blobsShadow = s.blobsShadow := rfl
@[simp] theorem State.setInt_raster (s : State) (r : Row) (i : Nat) (v : Int) : (s.setInt r i v).raster = s.raster := rfl
@[simp] theorem State.setInt_iop (s : State) (r : Row) (i : Nat) (v : Int) : (s.setInt r i v).iop = s.iop := rfl
@[simp] theorem State.setInt_cmds (s : State) (r : Row) (i : Nat) (v : Int) : (s.setInt r i v).cmds = s.cmds := rfl
@[simp] theorem State.setInt_streams (s : State) (r : Row) (i : Nat) (v : Int) : (s.setInt r i v).streams = s.streams := rfl
@[simp] theorem State.setInt_cells (s : State) (r : Row) (i : Nat) (v : Int) : (s.setInt r i v).cells = s.cells := rfl
@[simp] theorem State.setInt_code (s : State) (r : Row) (i : Nat) (v : Int) : (s.setInt r i v).code = s.code := rfl
@[simp] theorem State.setInt_mem (s : State) (r : Row) (i : Nat) (v : Int) : (s.setInt r i v).mem = s.mem := rfl
@[simp] theorem State.setInt_queues (s : State) (r : Row) (i : Nat) (v : Int) : (s.setInt r i v).queues = s.queues := rfl
@[simp] theorem State.setInt_lanes (s : State) (r : Row) (i : Nat) (v : Int) : (s.setInt r i v).lanes = s.lanes := rfl
@[simp] theorem State.setInt_fabric (s : State) (r : Row) (i : Nat) (v : Int) : (s.setInt r i v).fabric = s.fabric := rfl
@[simp] theorem State.setInt_egress (s : State) (r : Row) (i : Nat) (v : Int) : (s.setInt r i v).egress = s.egress := rfl
@[simp] theorem State.setInt_host (s : State) (r : Row) (i : Nat) (v : Int) : (s.setInt r i v).host = s.host := rfl
@[simp] theorem State.setInt_faults (s : State) (r : Row) (i : Nat) (v : Int) : (s.setInt r i v).faults = s.faults := rfl
@[simp] theorem State.setInt_sec (s : State) (r : Row) (i : Nat) (v : Int) : (s.setInt r i v).sec = s.sec := rfl
@[simp] theorem State.setInt_power (s : State) (r : Row) (i : Nat) (v : Int) : (s.setInt r i v).power = s.power := rfl
@[simp] theorem State.setInt_live (s : State) (r : Row) (i : Nat) (v : Int) : (s.setInt r i v).live = s.live := rfl
@[simp] theorem State.setInt_halted (s : State) (r : Row) (i : Nat) (v : Int) : (s.setInt r i v).halted = s.halted := rfl
@[simp] theorem State.setInt_lastStatus (s : State) (r : Row) (i : Nat) (v : Int) : (s.setInt r i v).lastStatus = s.lastStatus := rfl
@[simp] theorem State.setInt_freeUsed (s : State) (r : Row) (i : Nat) (v : Int) : (s.setInt r i v).freeUsed = s.freeUsed := rfl
@[simp] theorem State.setInt_out (s : State) (r : Row) (i : Nat) (v : Int) : (s.setInt r i v).out = s.out := rfl

@[simp] theorem State.putShadow_pending (s : State) (r : Row) (i j v : Nat) : (s.putShadow r i j v).pending = s.pending := rfl
@[simp] theorem State.putShadow_cycle (s : State) (r : Row) (i j v : Nat) : (s.putShadow r i j v).cycle = s.cycle := rfl
@[simp] theorem State.putShadow_od (s : State) (r : Row) (i j v : Nat) : (s.putShadow r i j v).od = s.od := rfl
@[simp] theorem State.putShadow_blobs (s : State) (r : Row) (i j v : Nat) : (s.putShadow r i j v).blobs = s.blobs := rfl
@[simp] theorem State.putShadow_blobsShadow (s : State) (r : Row) (i j v : Nat) : (s.putShadow r i j v).blobsShadow = s.blobsShadow := rfl
@[simp] theorem State.putShadow_raster (s : State) (r : Row) (i j v : Nat) : (s.putShadow r i j v).raster = s.raster := rfl
@[simp] theorem State.putShadow_iop (s : State) (r : Row) (i j v : Nat) : (s.putShadow r i j v).iop = s.iop := rfl
@[simp] theorem State.putShadow_cmds (s : State) (r : Row) (i j v : Nat) : (s.putShadow r i j v).cmds = s.cmds := rfl
@[simp] theorem State.putShadow_streams (s : State) (r : Row) (i j v : Nat) : (s.putShadow r i j v).streams = s.streams := rfl
@[simp] theorem State.putShadow_cells (s : State) (r : Row) (i j v : Nat) : (s.putShadow r i j v).cells = s.cells := rfl
@[simp] theorem State.putShadow_code (s : State) (r : Row) (i j v : Nat) : (s.putShadow r i j v).code = s.code := rfl
@[simp] theorem State.putShadow_mem (s : State) (r : Row) (i j v : Nat) : (s.putShadow r i j v).mem = s.mem := rfl
@[simp] theorem State.putShadow_queues (s : State) (r : Row) (i j v : Nat) : (s.putShadow r i j v).queues = s.queues := rfl
@[simp] theorem State.putShadow_lanes (s : State) (r : Row) (i j v : Nat) : (s.putShadow r i j v).lanes = s.lanes := rfl
@[simp] theorem State.putShadow_fabric (s : State) (r : Row) (i j v : Nat) : (s.putShadow r i j v).fabric = s.fabric := rfl
@[simp] theorem State.putShadow_egress (s : State) (r : Row) (i j v : Nat) : (s.putShadow r i j v).egress = s.egress := rfl
@[simp] theorem State.putShadow_host (s : State) (r : Row) (i j v : Nat) : (s.putShadow r i j v).host = s.host := rfl
@[simp] theorem State.putShadow_faults (s : State) (r : Row) (i j v : Nat) : (s.putShadow r i j v).faults = s.faults := rfl
@[simp] theorem State.putShadow_sec (s : State) (r : Row) (i j v : Nat) : (s.putShadow r i j v).sec = s.sec := rfl
@[simp] theorem State.putShadow_power (s : State) (r : Row) (i j v : Nat) : (s.putShadow r i j v).power = s.power := rfl
@[simp] theorem State.putShadow_live (s : State) (r : Row) (i j v : Nat) : (s.putShadow r i j v).live = s.live := rfl
@[simp] theorem State.putShadow_halted (s : State) (r : Row) (i j v : Nat) : (s.putShadow r i j v).halted = s.halted := rfl
@[simp] theorem State.putShadow_lastStatus (s : State) (r : Row) (i j v : Nat) : (s.putShadow r i j v).lastStatus = s.lastStatus := rfl
@[simp] theorem State.putShadow_freeUsed (s : State) (r : Row) (i j v : Nat) : (s.putShadow r i j v).freeUsed = s.freeUsed := rfl
@[simp] theorem State.putShadow_out (s : State) (r : Row) (i j v : Nat) : (s.putShadow r i j v).out = s.out := rfl

@[simp] theorem State.setBlob_pending (s : State) (r : Row) (i : Nat) (v : List Byte) : (s.setBlob r i v).pending = s.pending := rfl
@[simp] theorem State.setBlob_cycle (s : State) (r : Row) (i : Nat) (v : List Byte) : (s.setBlob r i v).cycle = s.cycle := rfl
@[simp] theorem State.setBlob_od (s : State) (r : Row) (i : Nat) (v : List Byte) : (s.setBlob r i v).od = s.od := rfl
@[simp] theorem State.setBlob_shadow (s : State) (r : Row) (i : Nat) (v : List Byte) : (s.setBlob r i v).shadow = s.shadow := rfl
@[simp] theorem State.setBlob_blobsShadow (s : State) (r : Row) (i : Nat) (v : List Byte) : (s.setBlob r i v).blobsShadow = s.blobsShadow := rfl
@[simp] theorem State.setBlob_raster (s : State) (r : Row) (i : Nat) (v : List Byte) : (s.setBlob r i v).raster = s.raster := rfl
@[simp] theorem State.setBlob_iop (s : State) (r : Row) (i : Nat) (v : List Byte) : (s.setBlob r i v).iop = s.iop := rfl
@[simp] theorem State.setBlob_cmds (s : State) (r : Row) (i : Nat) (v : List Byte) : (s.setBlob r i v).cmds = s.cmds := rfl
@[simp] theorem State.setBlob_streams (s : State) (r : Row) (i : Nat) (v : List Byte) : (s.setBlob r i v).streams = s.streams := rfl
@[simp] theorem State.setBlob_cells (s : State) (r : Row) (i : Nat) (v : List Byte) : (s.setBlob r i v).cells = s.cells := rfl
@[simp] theorem State.setBlob_code (s : State) (r : Row) (i : Nat) (v : List Byte) : (s.setBlob r i v).code = s.code := rfl
@[simp] theorem State.setBlob_mem (s : State) (r : Row) (i : Nat) (v : List Byte) : (s.setBlob r i v).mem = s.mem := rfl
@[simp] theorem State.setBlob_queues (s : State) (r : Row) (i : Nat) (v : List Byte) : (s.setBlob r i v).queues = s.queues := rfl
@[simp] theorem State.setBlob_lanes (s : State) (r : Row) (i : Nat) (v : List Byte) : (s.setBlob r i v).lanes = s.lanes := rfl
@[simp] theorem State.setBlob_fabric (s : State) (r : Row) (i : Nat) (v : List Byte) : (s.setBlob r i v).fabric = s.fabric := rfl
@[simp] theorem State.setBlob_egress (s : State) (r : Row) (i : Nat) (v : List Byte) : (s.setBlob r i v).egress = s.egress := rfl
@[simp] theorem State.setBlob_host (s : State) (r : Row) (i : Nat) (v : List Byte) : (s.setBlob r i v).host = s.host := rfl
@[simp] theorem State.setBlob_faults (s : State) (r : Row) (i : Nat) (v : List Byte) : (s.setBlob r i v).faults = s.faults := rfl
@[simp] theorem State.setBlob_sec (s : State) (r : Row) (i : Nat) (v : List Byte) : (s.setBlob r i v).sec = s.sec := rfl
@[simp] theorem State.setBlob_power (s : State) (r : Row) (i : Nat) (v : List Byte) : (s.setBlob r i v).power = s.power := rfl
@[simp] theorem State.setBlob_live (s : State) (r : Row) (i : Nat) (v : List Byte) : (s.setBlob r i v).live = s.live := rfl
@[simp] theorem State.setBlob_halted (s : State) (r : Row) (i : Nat) (v : List Byte) : (s.setBlob r i v).halted = s.halted := rfl
@[simp] theorem State.setBlob_lastStatus (s : State) (r : Row) (i : Nat) (v : List Byte) : (s.setBlob r i v).lastStatus = s.lastStatus := rfl
@[simp] theorem State.setBlob_freeUsed (s : State) (r : Row) (i : Nat) (v : List Byte) : (s.setBlob r i v).freeUsed = s.freeUsed := rfl
@[simp] theorem State.setBlob_out (s : State) (r : Row) (i : Nat) (v : List Byte) : (s.setBlob r i v).out = s.out := rfl

@[simp] theorem State.useFree_pending (s : State) : (s.useFree).pending = s.pending := rfl
@[simp] theorem State.useFree_cycle (s : State) : (s.useFree).cycle = s.cycle := rfl
@[simp] theorem State.useFree_od (s : State) : (s.useFree).od = s.od := rfl
@[simp] theorem State.useFree_shadow (s : State) : (s.useFree).shadow = s.shadow := rfl
@[simp] theorem State.useFree_blobs (s : State) : (s.useFree).blobs = s.blobs := rfl
@[simp] theorem State.useFree_blobsShadow (s : State) : (s.useFree).blobsShadow = s.blobsShadow := rfl
@[simp] theorem State.useFree_raster (s : State) : (s.useFree).raster = s.raster := rfl
@[simp] theorem State.useFree_iop (s : State) : (s.useFree).iop = s.iop := rfl
@[simp] theorem State.useFree_cmds (s : State) : (s.useFree).cmds = s.cmds := rfl
@[simp] theorem State.useFree_streams (s : State) : (s.useFree).streams = s.streams := rfl
@[simp] theorem State.useFree_cells (s : State) : (s.useFree).cells = s.cells := rfl
@[simp] theorem State.useFree_code (s : State) : (s.useFree).code = s.code := rfl
@[simp] theorem State.useFree_mem (s : State) : (s.useFree).mem = s.mem := rfl
@[simp] theorem State.useFree_queues (s : State) : (s.useFree).queues = s.queues := rfl
@[simp] theorem State.useFree_lanes (s : State) : (s.useFree).lanes = s.lanes := rfl
@[simp] theorem State.useFree_fabric (s : State) : (s.useFree).fabric = s.fabric := rfl
@[simp] theorem State.useFree_egress (s : State) : (s.useFree).egress = s.egress := rfl
@[simp] theorem State.useFree_host (s : State) : (s.useFree).host = s.host := rfl
@[simp] theorem State.useFree_faults (s : State) : (s.useFree).faults = s.faults := rfl
@[simp] theorem State.useFree_sec (s : State) : (s.useFree).sec = s.sec := rfl
@[simp] theorem State.useFree_power (s : State) : (s.useFree).power = s.power := rfl
@[simp] theorem State.useFree_live (s : State) : (s.useFree).live = s.live := rfl
@[simp] theorem State.useFree_halted (s : State) : (s.useFree).halted = s.halted := rfl
@[simp] theorem State.useFree_lastStatus (s : State) : (s.useFree).lastStatus = s.lastStatus := rfl
@[simp] theorem State.useFree_out (s : State) : (s.useFree).out = s.out := rfl

@[simp] theorem State.useDraws_pending (s : State) (n : Nat) : (s.useDraws n).pending = s.pending := rfl
@[simp] theorem State.useDraws_cycle (s : State) (n : Nat) : (s.useDraws n).cycle = s.cycle := rfl
@[simp] theorem State.useDraws_od (s : State) (n : Nat) : (s.useDraws n).od = s.od := rfl
@[simp] theorem State.useDraws_shadow (s : State) (n : Nat) : (s.useDraws n).shadow = s.shadow := rfl
@[simp] theorem State.useDraws_blobs (s : State) (n : Nat) : (s.useDraws n).blobs = s.blobs := rfl
@[simp] theorem State.useDraws_blobsShadow (s : State) (n : Nat) : (s.useDraws n).blobsShadow = s.blobsShadow := rfl
@[simp] theorem State.useDraws_raster (s : State) (n : Nat) : (s.useDraws n).raster = s.raster := rfl
@[simp] theorem State.useDraws_iop (s : State) (n : Nat) : (s.useDraws n).iop = s.iop := rfl
@[simp] theorem State.useDraws_cmds (s : State) (n : Nat) : (s.useDraws n).cmds = s.cmds := rfl
@[simp] theorem State.useDraws_streams (s : State) (n : Nat) : (s.useDraws n).streams = s.streams := rfl
@[simp] theorem State.useDraws_cells (s : State) (n : Nat) : (s.useDraws n).cells = s.cells := rfl
@[simp] theorem State.useDraws_code (s : State) (n : Nat) : (s.useDraws n).code = s.code := rfl
@[simp] theorem State.useDraws_mem (s : State) (n : Nat) : (s.useDraws n).mem = s.mem := rfl
@[simp] theorem State.useDraws_queues (s : State) (n : Nat) : (s.useDraws n).queues = s.queues := rfl
@[simp] theorem State.useDraws_lanes (s : State) (n : Nat) : (s.useDraws n).lanes = s.lanes := rfl
@[simp] theorem State.useDraws_fabric (s : State) (n : Nat) : (s.useDraws n).fabric = s.fabric := rfl
@[simp] theorem State.useDraws_egress (s : State) (n : Nat) : (s.useDraws n).egress = s.egress := rfl
@[simp] theorem State.useDraws_host (s : State) (n : Nat) : (s.useDraws n).host = s.host := rfl
@[simp] theorem State.useDraws_faults (s : State) (n : Nat) : (s.useDraws n).faults = s.faults := rfl
@[simp] theorem State.useDraws_power (s : State) (n : Nat) : (s.useDraws n).power = s.power := rfl
@[simp] theorem State.useDraws_live (s : State) (n : Nat) : (s.useDraws n).live = s.live := rfl
@[simp] theorem State.useDraws_halted (s : State) (n : Nat) : (s.useDraws n).halted = s.halted := rfl
@[simp] theorem State.useDraws_lastStatus (s : State) (n : Nat) : (s.useDraws n).lastStatus = s.lastStatus := rfl
@[simp] theorem State.useDraws_freeUsed (s : State) (n : Nat) : (s.useDraws n).freeUsed = s.freeUsed := rfl
@[simp] theorem State.useDraws_out (s : State) (n : Nat) : (s.useDraws n).out = s.out := rfl

@[simp] theorem State.emit_pending (s : State) (o : Output) : (s.emit o).pending = s.pending := rfl
@[simp] theorem State.emit_cycle (s : State) (o : Output) : (s.emit o).cycle = s.cycle := rfl
@[simp] theorem State.emit_od (s : State) (o : Output) : (s.emit o).od = s.od := rfl
@[simp] theorem State.emit_shadow (s : State) (o : Output) : (s.emit o).shadow = s.shadow := rfl
@[simp] theorem State.emit_blobs (s : State) (o : Output) : (s.emit o).blobs = s.blobs := rfl
@[simp] theorem State.emit_blobsShadow (s : State) (o : Output) : (s.emit o).blobsShadow = s.blobsShadow := rfl
@[simp] theorem State.emit_raster (s : State) (o : Output) : (s.emit o).raster = s.raster := rfl
@[simp] theorem State.emit_iop (s : State) (o : Output) : (s.emit o).iop = s.iop := rfl
@[simp] theorem State.emit_cmds (s : State) (o : Output) : (s.emit o).cmds = s.cmds := rfl
@[simp] theorem State.emit_streams (s : State) (o : Output) : (s.emit o).streams = s.streams := rfl
@[simp] theorem State.emit_cells (s : State) (o : Output) : (s.emit o).cells = s.cells := rfl
@[simp] theorem State.emit_code (s : State) (o : Output) : (s.emit o).code = s.code := rfl
@[simp] theorem State.emit_mem (s : State) (o : Output) : (s.emit o).mem = s.mem := rfl
@[simp] theorem State.emit_queues (s : State) (o : Output) : (s.emit o).queues = s.queues := rfl
@[simp] theorem State.emit_lanes (s : State) (o : Output) : (s.emit o).lanes = s.lanes := rfl
@[simp] theorem State.emit_fabric (s : State) (o : Output) : (s.emit o).fabric = s.fabric := rfl
@[simp] theorem State.emit_egress (s : State) (o : Output) : (s.emit o).egress = s.egress := rfl
@[simp] theorem State.emit_host (s : State) (o : Output) : (s.emit o).host = s.host := rfl
@[simp] theorem State.emit_faults (s : State) (o : Output) : (s.emit o).faults = s.faults := rfl
@[simp] theorem State.emit_sec (s : State) (o : Output) : (s.emit o).sec = s.sec := rfl
@[simp] theorem State.emit_power (s : State) (o : Output) : (s.emit o).power = s.power := rfl
@[simp] theorem State.emit_live (s : State) (o : Output) : (s.emit o).live = s.live := rfl
@[simp] theorem State.emit_halted (s : State) (o : Output) : (s.emit o).halted = s.halted := rfl
@[simp] theorem State.emit_lastStatus (s : State) (o : Output) : (s.emit o).lastStatus = s.lastStatus := rfl
@[simp] theorem State.emit_freeUsed (s : State) (o : Output) : (s.emit o).freeUsed = s.freeUsed := rfl

@[simp] theorem State.setDom_pending (s : State) (rd : Nat) (d : RasterDomain) : (s.setDom rd d).pending = s.pending := rfl
@[simp] theorem State.setDom_cycle (s : State) (rd : Nat) (d : RasterDomain) : (s.setDom rd d).cycle = s.cycle := rfl
@[simp] theorem State.setDom_od (s : State) (rd : Nat) (d : RasterDomain) : (s.setDom rd d).od = s.od := rfl
@[simp] theorem State.setDom_shadow (s : State) (rd : Nat) (d : RasterDomain) : (s.setDom rd d).shadow = s.shadow := rfl
@[simp] theorem State.setDom_blobs (s : State) (rd : Nat) (d : RasterDomain) : (s.setDom rd d).blobs = s.blobs := rfl
@[simp] theorem State.setDom_blobsShadow (s : State) (rd : Nat) (d : RasterDomain) : (s.setDom rd d).blobsShadow = s.blobsShadow := rfl
@[simp] theorem State.setDom_iop (s : State) (rd : Nat) (d : RasterDomain) : (s.setDom rd d).iop = s.iop := rfl
@[simp] theorem State.setDom_cmds (s : State) (rd : Nat) (d : RasterDomain) : (s.setDom rd d).cmds = s.cmds := rfl
@[simp] theorem State.setDom_streams (s : State) (rd : Nat) (d : RasterDomain) : (s.setDom rd d).streams = s.streams := rfl
@[simp] theorem State.setDom_cells (s : State) (rd : Nat) (d : RasterDomain) : (s.setDom rd d).cells = s.cells := rfl
@[simp] theorem State.setDom_code (s : State) (rd : Nat) (d : RasterDomain) : (s.setDom rd d).code = s.code := rfl
@[simp] theorem State.setDom_mem (s : State) (rd : Nat) (d : RasterDomain) : (s.setDom rd d).mem = s.mem := rfl
@[simp] theorem State.setDom_queues (s : State) (rd : Nat) (d : RasterDomain) : (s.setDom rd d).queues = s.queues := rfl
@[simp] theorem State.setDom_lanes (s : State) (rd : Nat) (d : RasterDomain) : (s.setDom rd d).lanes = s.lanes := rfl
@[simp] theorem State.setDom_fabric (s : State) (rd : Nat) (d : RasterDomain) : (s.setDom rd d).fabric = s.fabric := rfl
@[simp] theorem State.setDom_egress (s : State) (rd : Nat) (d : RasterDomain) : (s.setDom rd d).egress = s.egress := rfl
@[simp] theorem State.setDom_host (s : State) (rd : Nat) (d : RasterDomain) : (s.setDom rd d).host = s.host := rfl
@[simp] theorem State.setDom_faults (s : State) (rd : Nat) (d : RasterDomain) : (s.setDom rd d).faults = s.faults := rfl
@[simp] theorem State.setDom_sec (s : State) (rd : Nat) (d : RasterDomain) : (s.setDom rd d).sec = s.sec := rfl
@[simp] theorem State.setDom_power (s : State) (rd : Nat) (d : RasterDomain) : (s.setDom rd d).power = s.power := rfl
@[simp] theorem State.setDom_live (s : State) (rd : Nat) (d : RasterDomain) : (s.setDom rd d).live = s.live := rfl
@[simp] theorem State.setDom_halted (s : State) (rd : Nat) (d : RasterDomain) : (s.setDom rd d).halted = s.halted := rfl
@[simp] theorem State.setDom_lastStatus (s : State) (rd : Nat) (d : RasterDomain) : (s.setDom rd d).lastStatus = s.lastStatus := rfl
@[simp] theorem State.setDom_freeUsed (s : State) (rd : Nat) (d : RasterDomain) : (s.setDom rd d).freeUsed = s.freeUsed := rfl
@[simp] theorem State.setDom_out (s : State) (rd : Nat) (d : RasterDomain) : (s.setDom rd d).out = s.out := rfl

@[simp] theorem State.setIrq_pending (s : State) (src : Nat) (q : IrqSource) : (s.setIrq src q).pending = s.pending := rfl
@[simp] theorem State.setIrq_cycle (s : State) (src : Nat) (q : IrqSource) : (s.setIrq src q).cycle = s.cycle := rfl
@[simp] theorem State.setIrq_od (s : State) (src : Nat) (q : IrqSource) : (s.setIrq src q).od = s.od := rfl
@[simp] theorem State.setIrq_shadow (s : State) (src : Nat) (q : IrqSource) : (s.setIrq src q).shadow = s.shadow := rfl
@[simp] theorem State.setIrq_blobs (s : State) (src : Nat) (q : IrqSource) : (s.setIrq src q).blobs = s.blobs := rfl
@[simp] theorem State.setIrq_blobsShadow (s : State) (src : Nat) (q : IrqSource) : (s.setIrq src q).blobsShadow = s.blobsShadow := rfl
@[simp] theorem State.setIrq_raster (s : State) (src : Nat) (q : IrqSource) : (s.setIrq src q).raster = s.raster := rfl
@[simp] theorem State.setIrq_iop (s : State) (src : Nat) (q : IrqSource) : (s.setIrq src q).iop = s.iop := rfl
@[simp] theorem State.setIrq_cmds (s : State) (src : Nat) (q : IrqSource) : (s.setIrq src q).cmds = s.cmds := rfl
@[simp] theorem State.setIrq_streams (s : State) (src : Nat) (q : IrqSource) : (s.setIrq src q).streams = s.streams := rfl
@[simp] theorem State.setIrq_cells (s : State) (src : Nat) (q : IrqSource) : (s.setIrq src q).cells = s.cells := rfl
@[simp] theorem State.setIrq_code (s : State) (src : Nat) (q : IrqSource) : (s.setIrq src q).code = s.code := rfl
@[simp] theorem State.setIrq_mem (s : State) (src : Nat) (q : IrqSource) : (s.setIrq src q).mem = s.mem := rfl
@[simp] theorem State.setIrq_queues (s : State) (src : Nat) (q : IrqSource) : (s.setIrq src q).queues = s.queues := rfl
@[simp] theorem State.setIrq_lanes (s : State) (src : Nat) (q : IrqSource) : (s.setIrq src q).lanes = s.lanes := rfl
@[simp] theorem State.setIrq_fabric (s : State) (src : Nat) (q : IrqSource) : (s.setIrq src q).fabric = s.fabric := rfl
@[simp] theorem State.setIrq_egress (s : State) (src : Nat) (q : IrqSource) : (s.setIrq src q).egress = s.egress := rfl
@[simp] theorem State.setIrq_faults (s : State) (src : Nat) (q : IrqSource) : (s.setIrq src q).faults = s.faults := rfl
@[simp] theorem State.setIrq_sec (s : State) (src : Nat) (q : IrqSource) : (s.setIrq src q).sec = s.sec := rfl
@[simp] theorem State.setIrq_power (s : State) (src : Nat) (q : IrqSource) : (s.setIrq src q).power = s.power := rfl
@[simp] theorem State.setIrq_live (s : State) (src : Nat) (q : IrqSource) : (s.setIrq src q).live = s.live := rfl
@[simp] theorem State.setIrq_halted (s : State) (src : Nat) (q : IrqSource) : (s.setIrq src q).halted = s.halted := rfl
@[simp] theorem State.setIrq_lastStatus (s : State) (src : Nat) (q : IrqSource) : (s.setIrq src q).lastStatus = s.lastStatus := rfl
@[simp] theorem State.setIrq_freeUsed (s : State) (src : Nat) (q : IrqSource) : (s.setIrq src q).freeUsed = s.freeUsed := rfl
@[simp] theorem State.setIrq_out (s : State) (src : Nat) (q : IrqSource) : (s.setIrq src q).out = s.out := rfl

@[simp] theorem State.setVector_pending (s : State) (v : Nat) (x : IrqVector) : (s.setVector v x).pending = s.pending := rfl
@[simp] theorem State.setVector_cycle (s : State) (v : Nat) (x : IrqVector) : (s.setVector v x).cycle = s.cycle := rfl
@[simp] theorem State.setVector_od (s : State) (v : Nat) (x : IrqVector) : (s.setVector v x).od = s.od := rfl
@[simp] theorem State.setVector_shadow (s : State) (v : Nat) (x : IrqVector) : (s.setVector v x).shadow = s.shadow := rfl
@[simp] theorem State.setVector_blobs (s : State) (v : Nat) (x : IrqVector) : (s.setVector v x).blobs = s.blobs := rfl
@[simp] theorem State.setVector_blobsShadow (s : State) (v : Nat) (x : IrqVector) : (s.setVector v x).blobsShadow = s.blobsShadow := rfl
@[simp] theorem State.setVector_raster (s : State) (v : Nat) (x : IrqVector) : (s.setVector v x).raster = s.raster := rfl
@[simp] theorem State.setVector_iop (s : State) (v : Nat) (x : IrqVector) : (s.setVector v x).iop = s.iop := rfl
@[simp] theorem State.setVector_cmds (s : State) (v : Nat) (x : IrqVector) : (s.setVector v x).cmds = s.cmds := rfl
@[simp] theorem State.setVector_streams (s : State) (v : Nat) (x : IrqVector) : (s.setVector v x).streams = s.streams := rfl
@[simp] theorem State.setVector_cells (s : State) (v : Nat) (x : IrqVector) : (s.setVector v x).cells = s.cells := rfl
@[simp] theorem State.setVector_code (s : State) (v : Nat) (x : IrqVector) : (s.setVector v x).code = s.code := rfl
@[simp] theorem State.setVector_mem (s : State) (v : Nat) (x : IrqVector) : (s.setVector v x).mem = s.mem := rfl
@[simp] theorem State.setVector_queues (s : State) (v : Nat) (x : IrqVector) : (s.setVector v x).queues = s.queues := rfl
@[simp] theorem State.setVector_lanes (s : State) (v : Nat) (x : IrqVector) : (s.setVector v x).lanes = s.lanes := rfl
@[simp] theorem State.setVector_fabric (s : State) (v : Nat) (x : IrqVector) : (s.setVector v x).fabric = s.fabric := rfl
@[simp] theorem State.setVector_egress (s : State) (v : Nat) (x : IrqVector) : (s.setVector v x).egress = s.egress := rfl
@[simp] theorem State.setVector_faults (s : State) (v : Nat) (x : IrqVector) : (s.setVector v x).faults = s.faults := rfl
@[simp] theorem State.setVector_sec (s : State) (v : Nat) (x : IrqVector) : (s.setVector v x).sec = s.sec := rfl
@[simp] theorem State.setVector_power (s : State) (v : Nat) (x : IrqVector) : (s.setVector v x).power = s.power := rfl
@[simp] theorem State.setVector_live (s : State) (v : Nat) (x : IrqVector) : (s.setVector v x).live = s.live := rfl
@[simp] theorem State.setVector_halted (s : State) (v : Nat) (x : IrqVector) : (s.setVector v x).halted = s.halted := rfl
@[simp] theorem State.setVector_lastStatus (s : State) (v : Nat) (x : IrqVector) : (s.setVector v x).lastStatus = s.lastStatus := rfl
@[simp] theorem State.setVector_freeUsed (s : State) (v : Nat) (x : IrqVector) : (s.setVector v x).freeUsed = s.freeUsed := rfl
@[simp] theorem State.setVector_out (s : State) (v : Nat) (x : IrqVector) : (s.setVector v x).out = s.out := rfl

@[simp] theorem State.setDma_pending (s : State) (ch : Nat) (x : DmaChannel) : (s.setDma ch x).pending = s.pending := rfl
@[simp] theorem State.setDma_cycle (s : State) (ch : Nat) (x : DmaChannel) : (s.setDma ch x).cycle = s.cycle := rfl
@[simp] theorem State.setDma_od (s : State) (ch : Nat) (x : DmaChannel) : (s.setDma ch x).od = s.od := rfl
@[simp] theorem State.setDma_shadow (s : State) (ch : Nat) (x : DmaChannel) : (s.setDma ch x).shadow = s.shadow := rfl
@[simp] theorem State.setDma_blobs (s : State) (ch : Nat) (x : DmaChannel) : (s.setDma ch x).blobs = s.blobs := rfl
@[simp] theorem State.setDma_blobsShadow (s : State) (ch : Nat) (x : DmaChannel) : (s.setDma ch x).blobsShadow = s.blobsShadow := rfl
@[simp] theorem State.setDma_raster (s : State) (ch : Nat) (x : DmaChannel) : (s.setDma ch x).raster = s.raster := rfl
@[simp] theorem State.setDma_iop (s : State) (ch : Nat) (x : DmaChannel) : (s.setDma ch x).iop = s.iop := rfl
@[simp] theorem State.setDma_cmds (s : State) (ch : Nat) (x : DmaChannel) : (s.setDma ch x).cmds = s.cmds := rfl
@[simp] theorem State.setDma_streams (s : State) (ch : Nat) (x : DmaChannel) : (s.setDma ch x).streams = s.streams := rfl
@[simp] theorem State.setDma_cells (s : State) (ch : Nat) (x : DmaChannel) : (s.setDma ch x).cells = s.cells := rfl
@[simp] theorem State.setDma_code (s : State) (ch : Nat) (x : DmaChannel) : (s.setDma ch x).code = s.code := rfl
@[simp] theorem State.setDma_mem (s : State) (ch : Nat) (x : DmaChannel) : (s.setDma ch x).mem = s.mem := rfl
@[simp] theorem State.setDma_queues (s : State) (ch : Nat) (x : DmaChannel) : (s.setDma ch x).queues = s.queues := rfl
@[simp] theorem State.setDma_lanes (s : State) (ch : Nat) (x : DmaChannel) : (s.setDma ch x).lanes = s.lanes := rfl
@[simp] theorem State.setDma_fabric (s : State) (ch : Nat) (x : DmaChannel) : (s.setDma ch x).fabric = s.fabric := rfl
@[simp] theorem State.setDma_egress (s : State) (ch : Nat) (x : DmaChannel) : (s.setDma ch x).egress = s.egress := rfl
@[simp] theorem State.setDma_faults (s : State) (ch : Nat) (x : DmaChannel) : (s.setDma ch x).faults = s.faults := rfl
@[simp] theorem State.setDma_sec (s : State) (ch : Nat) (x : DmaChannel) : (s.setDma ch x).sec = s.sec := rfl
@[simp] theorem State.setDma_power (s : State) (ch : Nat) (x : DmaChannel) : (s.setDma ch x).power = s.power := rfl
@[simp] theorem State.setDma_live (s : State) (ch : Nat) (x : DmaChannel) : (s.setDma ch x).live = s.live := rfl
@[simp] theorem State.setDma_halted (s : State) (ch : Nat) (x : DmaChannel) : (s.setDma ch x).halted = s.halted := rfl
@[simp] theorem State.setDma_lastStatus (s : State) (ch : Nat) (x : DmaChannel) : (s.setDma ch x).lastStatus = s.lastStatus := rfl
@[simp] theorem State.setDma_freeUsed (s : State) (ch : Nat) (x : DmaChannel) : (s.setDma ch x).freeUsed = s.freeUsed := rfl
@[simp] theorem State.setDma_out (s : State) (ch : Nat) (x : DmaChannel) : (s.setDma ch x).out = s.out := rfl

@[simp] theorem State.runDma_pending (s : State) (ch : Nat) (x : DmaChannel) : (s.runDma ch x).pending = s.pending := rfl
@[simp] theorem State.runDma_cycle (s : State) (ch : Nat) (x : DmaChannel) : (s.runDma ch x).cycle = s.cycle := rfl
@[simp] theorem State.runDma_od (s : State) (ch : Nat) (x : DmaChannel) : (s.runDma ch x).od = s.od := rfl
@[simp] theorem State.runDma_shadow (s : State) (ch : Nat) (x : DmaChannel) : (s.runDma ch x).shadow = s.shadow := rfl
@[simp] theorem State.runDma_blobs (s : State) (ch : Nat) (x : DmaChannel) : (s.runDma ch x).blobs = s.blobs := rfl
@[simp] theorem State.runDma_blobsShadow (s : State) (ch : Nat) (x : DmaChannel) : (s.runDma ch x).blobsShadow = s.blobsShadow := rfl
@[simp] theorem State.runDma_raster (s : State) (ch : Nat) (x : DmaChannel) : (s.runDma ch x).raster = s.raster := rfl
@[simp] theorem State.runDma_iop (s : State) (ch : Nat) (x : DmaChannel) : (s.runDma ch x).iop = s.iop := rfl
@[simp] theorem State.runDma_cmds (s : State) (ch : Nat) (x : DmaChannel) : (s.runDma ch x).cmds = s.cmds := rfl
@[simp] theorem State.runDma_streams (s : State) (ch : Nat) (x : DmaChannel) : (s.runDma ch x).streams = s.streams := rfl
@[simp] theorem State.runDma_cells (s : State) (ch : Nat) (x : DmaChannel) : (s.runDma ch x).cells = s.cells := rfl
@[simp] theorem State.runDma_code (s : State) (ch : Nat) (x : DmaChannel) : (s.runDma ch x).code = s.code := rfl
@[simp] theorem State.runDma_mem (s : State) (ch : Nat) (x : DmaChannel) : (s.runDma ch x).mem = s.mem := rfl
@[simp] theorem State.runDma_queues (s : State) (ch : Nat) (x : DmaChannel) : (s.runDma ch x).queues = s.queues := rfl
@[simp] theorem State.runDma_lanes (s : State) (ch : Nat) (x : DmaChannel) : (s.runDma ch x).lanes = s.lanes := rfl
@[simp] theorem State.runDma_fabric (s : State) (ch : Nat) (x : DmaChannel) : (s.runDma ch x).fabric = s.fabric := rfl
@[simp] theorem State.runDma_egress (s : State) (ch : Nat) (x : DmaChannel) : (s.runDma ch x).egress = s.egress := rfl
@[simp] theorem State.runDma_faults (s : State) (ch : Nat) (x : DmaChannel) : (s.runDma ch x).faults = s.faults := rfl
@[simp] theorem State.runDma_sec (s : State) (ch : Nat) (x : DmaChannel) : (s.runDma ch x).sec = s.sec := rfl
@[simp] theorem State.runDma_power (s : State) (ch : Nat) (x : DmaChannel) : (s.runDma ch x).power = s.power := rfl
@[simp] theorem State.runDma_live (s : State) (ch : Nat) (x : DmaChannel) : (s.runDma ch x).live = s.live := rfl
@[simp] theorem State.runDma_halted (s : State) (ch : Nat) (x : DmaChannel) : (s.runDma ch x).halted = s.halted := rfl
@[simp] theorem State.runDma_lastStatus (s : State) (ch : Nat) (x : DmaChannel) : (s.runDma ch x).lastStatus = s.lastStatus := rfl
@[simp] theorem State.runDma_freeUsed (s : State) (ch : Nat) (x : DmaChannel) : (s.runDma ch x).freeUsed = s.freeUsed := rfl
@[simp] theorem State.runDma_out (s : State) (ch : Nat) (x : DmaChannel) : (s.runDma ch x).out = s.out := rfl

@[simp] theorem State.report_pending (s : State) (unit kind acc master addr : Nat) : (s.report unit kind acc master addr).pending = s.pending := rfl
@[simp] theorem State.report_cycle (s : State) (unit kind acc master addr : Nat) : (s.report unit kind acc master addr).cycle = s.cycle := rfl
@[simp] theorem State.report_od (s : State) (unit kind acc master addr : Nat) : (s.report unit kind acc master addr).od = s.od := rfl
@[simp] theorem State.report_shadow (s : State) (unit kind acc master addr : Nat) : (s.report unit kind acc master addr).shadow = s.shadow := rfl
@[simp] theorem State.report_blobs (s : State) (unit kind acc master addr : Nat) : (s.report unit kind acc master addr).blobs = s.blobs := rfl
@[simp] theorem State.report_blobsShadow (s : State) (unit kind acc master addr : Nat) : (s.report unit kind acc master addr).blobsShadow = s.blobsShadow := rfl
@[simp] theorem State.report_raster (s : State) (unit kind acc master addr : Nat) : (s.report unit kind acc master addr).raster = s.raster := rfl
@[simp] theorem State.report_iop (s : State) (unit kind acc master addr : Nat) : (s.report unit kind acc master addr).iop = s.iop := rfl
@[simp] theorem State.report_cmds (s : State) (unit kind acc master addr : Nat) : (s.report unit kind acc master addr).cmds = s.cmds := rfl
@[simp] theorem State.report_streams (s : State) (unit kind acc master addr : Nat) : (s.report unit kind acc master addr).streams = s.streams := rfl
@[simp] theorem State.report_cells (s : State) (unit kind acc master addr : Nat) : (s.report unit kind acc master addr).cells = s.cells := rfl
@[simp] theorem State.report_code (s : State) (unit kind acc master addr : Nat) : (s.report unit kind acc master addr).code = s.code := rfl
@[simp] theorem State.report_mem (s : State) (unit kind acc master addr : Nat) : (s.report unit kind acc master addr).mem = s.mem := rfl
@[simp] theorem State.report_queues (s : State) (unit kind acc master addr : Nat) : (s.report unit kind acc master addr).queues = s.queues := rfl
@[simp] theorem State.report_lanes (s : State) (unit kind acc master addr : Nat) : (s.report unit kind acc master addr).lanes = s.lanes := rfl
@[simp] theorem State.report_fabric (s : State) (unit kind acc master addr : Nat) : (s.report unit kind acc master addr).fabric = s.fabric := rfl
@[simp] theorem State.report_egress (s : State) (unit kind acc master addr : Nat) : (s.report unit kind acc master addr).egress = s.egress := rfl
@[simp] theorem State.report_host (s : State) (unit kind acc master addr : Nat) : (s.report unit kind acc master addr).host = s.host := rfl
@[simp] theorem State.report_sec (s : State) (unit kind acc master addr : Nat) : (s.report unit kind acc master addr).sec = s.sec := rfl
@[simp] theorem State.report_power (s : State) (unit kind acc master addr : Nat) : (s.report unit kind acc master addr).power = s.power := rfl
@[simp] theorem State.report_live (s : State) (unit kind acc master addr : Nat) : (s.report unit kind acc master addr).live = s.live := rfl
@[simp] theorem State.report_halted (s : State) (unit kind acc master addr : Nat) : (s.report unit kind acc master addr).halted = s.halted := rfl
@[simp] theorem State.report_lastStatus (s : State) (unit kind acc master addr : Nat) : (s.report unit kind acc master addr).lastStatus = s.lastStatus := rfl
@[simp] theorem State.report_freeUsed (s : State) (unit kind acc master addr : Nat) : (s.report unit kind acc master addr).freeUsed = s.freeUsed := rfl
@[simp] theorem State.report_out (s : State) (unit kind acc master addr : Nat) : (s.report unit kind acc master addr).out = s.out := rfl

@[simp] theorem State.reportInfo_pending (s : State) (unit kind addr : Nat) : (s.reportInfo unit kind addr).pending = s.pending := rfl
@[simp] theorem State.reportInfo_cycle (s : State) (unit kind addr : Nat) : (s.reportInfo unit kind addr).cycle = s.cycle := rfl
@[simp] theorem State.reportInfo_od (s : State) (unit kind addr : Nat) : (s.reportInfo unit kind addr).od = s.od := rfl
@[simp] theorem State.reportInfo_shadow (s : State) (unit kind addr : Nat) : (s.reportInfo unit kind addr).shadow = s.shadow := rfl
@[simp] theorem State.reportInfo_blobs (s : State) (unit kind addr : Nat) : (s.reportInfo unit kind addr).blobs = s.blobs := rfl
@[simp] theorem State.reportInfo_blobsShadow (s : State) (unit kind addr : Nat) : (s.reportInfo unit kind addr).blobsShadow = s.blobsShadow := rfl
@[simp] theorem State.reportInfo_raster (s : State) (unit kind addr : Nat) : (s.reportInfo unit kind addr).raster = s.raster := rfl
@[simp] theorem State.reportInfo_iop (s : State) (unit kind addr : Nat) : (s.reportInfo unit kind addr).iop = s.iop := rfl
@[simp] theorem State.reportInfo_cmds (s : State) (unit kind addr : Nat) : (s.reportInfo unit kind addr).cmds = s.cmds := rfl
@[simp] theorem State.reportInfo_streams (s : State) (unit kind addr : Nat) : (s.reportInfo unit kind addr).streams = s.streams := rfl
@[simp] theorem State.reportInfo_cells (s : State) (unit kind addr : Nat) : (s.reportInfo unit kind addr).cells = s.cells := rfl
@[simp] theorem State.reportInfo_code (s : State) (unit kind addr : Nat) : (s.reportInfo unit kind addr).code = s.code := rfl
@[simp] theorem State.reportInfo_mem (s : State) (unit kind addr : Nat) : (s.reportInfo unit kind addr).mem = s.mem := rfl
@[simp] theorem State.reportInfo_queues (s : State) (unit kind addr : Nat) : (s.reportInfo unit kind addr).queues = s.queues := rfl
@[simp] theorem State.reportInfo_lanes (s : State) (unit kind addr : Nat) : (s.reportInfo unit kind addr).lanes = s.lanes := rfl
@[simp] theorem State.reportInfo_fabric (s : State) (unit kind addr : Nat) : (s.reportInfo unit kind addr).fabric = s.fabric := rfl
@[simp] theorem State.reportInfo_egress (s : State) (unit kind addr : Nat) : (s.reportInfo unit kind addr).egress = s.egress := rfl
@[simp] theorem State.reportInfo_host (s : State) (unit kind addr : Nat) : (s.reportInfo unit kind addr).host = s.host := rfl
@[simp] theorem State.reportInfo_sec (s : State) (unit kind addr : Nat) : (s.reportInfo unit kind addr).sec = s.sec := rfl
@[simp] theorem State.reportInfo_power (s : State) (unit kind addr : Nat) : (s.reportInfo unit kind addr).power = s.power := rfl
@[simp] theorem State.reportInfo_live (s : State) (unit kind addr : Nat) : (s.reportInfo unit kind addr).live = s.live := rfl
@[simp] theorem State.reportInfo_halted (s : State) (unit kind addr : Nat) : (s.reportInfo unit kind addr).halted = s.halted := rfl
@[simp] theorem State.reportInfo_lastStatus (s : State) (unit kind addr : Nat) : (s.reportInfo unit kind addr).lastStatus = s.lastStatus := rfl
@[simp] theorem State.reportInfo_freeUsed (s : State) (unit kind addr : Nat) : (s.reportInfo unit kind addr).freeUsed = s.freeUsed := rfl
@[simp] theorem State.reportInfo_out (s : State) (unit kind addr : Nat) : (s.reportInfo unit kind addr).out = s.out := rfl

@[simp] theorem State.setCmdQueue_pending (s : State) (code : Nat) (q : CmdQueue) : (s.setCmdQueue code q).pending = s.pending := rfl
@[simp] theorem State.setCmdQueue_cycle (s : State) (code : Nat) (q : CmdQueue) : (s.setCmdQueue code q).cycle = s.cycle := rfl
@[simp] theorem State.setCmdQueue_od (s : State) (code : Nat) (q : CmdQueue) : (s.setCmdQueue code q).od = s.od := rfl
@[simp] theorem State.setCmdQueue_shadow (s : State) (code : Nat) (q : CmdQueue) : (s.setCmdQueue code q).shadow = s.shadow := rfl
@[simp] theorem State.setCmdQueue_blobs (s : State) (code : Nat) (q : CmdQueue) : (s.setCmdQueue code q).blobs = s.blobs := rfl
@[simp] theorem State.setCmdQueue_blobsShadow (s : State) (code : Nat) (q : CmdQueue) : (s.setCmdQueue code q).blobsShadow = s.blobsShadow := rfl
@[simp] theorem State.setCmdQueue_raster (s : State) (code : Nat) (q : CmdQueue) : (s.setCmdQueue code q).raster = s.raster := rfl
@[simp] theorem State.setCmdQueue_iop (s : State) (code : Nat) (q : CmdQueue) : (s.setCmdQueue code q).iop = s.iop := rfl
@[simp] theorem State.setCmdQueue_streams (s : State) (code : Nat) (q : CmdQueue) : (s.setCmdQueue code q).streams = s.streams := rfl
@[simp] theorem State.setCmdQueue_cells (s : State) (code : Nat) (q : CmdQueue) : (s.setCmdQueue code q).cells = s.cells := rfl
@[simp] theorem State.setCmdQueue_code (s : State) (code : Nat) (q : CmdQueue) : (s.setCmdQueue code q).code = s.code := rfl
@[simp] theorem State.setCmdQueue_mem (s : State) (code : Nat) (q : CmdQueue) : (s.setCmdQueue code q).mem = s.mem := rfl
@[simp] theorem State.setCmdQueue_queues (s : State) (code : Nat) (q : CmdQueue) : (s.setCmdQueue code q).queues = s.queues := rfl
@[simp] theorem State.setCmdQueue_lanes (s : State) (code : Nat) (q : CmdQueue) : (s.setCmdQueue code q).lanes = s.lanes := rfl
@[simp] theorem State.setCmdQueue_fabric (s : State) (code : Nat) (q : CmdQueue) : (s.setCmdQueue code q).fabric = s.fabric := rfl
@[simp] theorem State.setCmdQueue_egress (s : State) (code : Nat) (q : CmdQueue) : (s.setCmdQueue code q).egress = s.egress := rfl
@[simp] theorem State.setCmdQueue_host (s : State) (code : Nat) (q : CmdQueue) : (s.setCmdQueue code q).host = s.host := rfl
@[simp] theorem State.setCmdQueue_faults (s : State) (code : Nat) (q : CmdQueue) : (s.setCmdQueue code q).faults = s.faults := rfl
@[simp] theorem State.setCmdQueue_sec (s : State) (code : Nat) (q : CmdQueue) : (s.setCmdQueue code q).sec = s.sec := rfl
@[simp] theorem State.setCmdQueue_power (s : State) (code : Nat) (q : CmdQueue) : (s.setCmdQueue code q).power = s.power := rfl
@[simp] theorem State.setCmdQueue_live (s : State) (code : Nat) (q : CmdQueue) : (s.setCmdQueue code q).live = s.live := rfl
@[simp] theorem State.setCmdQueue_halted (s : State) (code : Nat) (q : CmdQueue) : (s.setCmdQueue code q).halted = s.halted := rfl
@[simp] theorem State.setCmdQueue_lastStatus (s : State) (code : Nat) (q : CmdQueue) : (s.setCmdQueue code q).lastStatus = s.lastStatus := rfl
@[simp] theorem State.setCmdQueue_freeUsed (s : State) (code : Nat) (q : CmdQueue) : (s.setCmdQueue code q).freeUsed = s.freeUsed := rfl
@[simp] theorem State.setCmdQueue_out (s : State) (code : Nat) (q : CmdQueue) : (s.setCmdQueue code q).out = s.out := rfl

@[simp] theorem State.setStream_pending (s : State) (sid : Nat) (x : Stream) : (s.setStream sid x).pending = s.pending := rfl
@[simp] theorem State.setStream_cycle (s : State) (sid : Nat) (x : Stream) : (s.setStream sid x).cycle = s.cycle := rfl
@[simp] theorem State.setStream_od (s : State) (sid : Nat) (x : Stream) : (s.setStream sid x).od = s.od := rfl
@[simp] theorem State.setStream_shadow (s : State) (sid : Nat) (x : Stream) : (s.setStream sid x).shadow = s.shadow := rfl
@[simp] theorem State.setStream_blobs (s : State) (sid : Nat) (x : Stream) : (s.setStream sid x).blobs = s.blobs := rfl
@[simp] theorem State.setStream_blobsShadow (s : State) (sid : Nat) (x : Stream) : (s.setStream sid x).blobsShadow = s.blobsShadow := rfl
@[simp] theorem State.setStream_raster (s : State) (sid : Nat) (x : Stream) : (s.setStream sid x).raster = s.raster := rfl
@[simp] theorem State.setStream_iop (s : State) (sid : Nat) (x : Stream) : (s.setStream sid x).iop = s.iop := rfl
@[simp] theorem State.setStream_cmds (s : State) (sid : Nat) (x : Stream) : (s.setStream sid x).cmds = s.cmds := rfl
@[simp] theorem State.setStream_cells (s : State) (sid : Nat) (x : Stream) : (s.setStream sid x).cells = s.cells := rfl
@[simp] theorem State.setStream_code (s : State) (sid : Nat) (x : Stream) : (s.setStream sid x).code = s.code := rfl
@[simp] theorem State.setStream_mem (s : State) (sid : Nat) (x : Stream) : (s.setStream sid x).mem = s.mem := rfl
@[simp] theorem State.setStream_queues (s : State) (sid : Nat) (x : Stream) : (s.setStream sid x).queues = s.queues := rfl
@[simp] theorem State.setStream_lanes (s : State) (sid : Nat) (x : Stream) : (s.setStream sid x).lanes = s.lanes := rfl
@[simp] theorem State.setStream_fabric (s : State) (sid : Nat) (x : Stream) : (s.setStream sid x).fabric = s.fabric := rfl
@[simp] theorem State.setStream_egress (s : State) (sid : Nat) (x : Stream) : (s.setStream sid x).egress = s.egress := rfl
@[simp] theorem State.setStream_host (s : State) (sid : Nat) (x : Stream) : (s.setStream sid x).host = s.host := rfl
@[simp] theorem State.setStream_faults (s : State) (sid : Nat) (x : Stream) : (s.setStream sid x).faults = s.faults := rfl
@[simp] theorem State.setStream_sec (s : State) (sid : Nat) (x : Stream) : (s.setStream sid x).sec = s.sec := rfl
@[simp] theorem State.setStream_power (s : State) (sid : Nat) (x : Stream) : (s.setStream sid x).power = s.power := rfl
@[simp] theorem State.setStream_live (s : State) (sid : Nat) (x : Stream) : (s.setStream sid x).live = s.live := rfl
@[simp] theorem State.setStream_halted (s : State) (sid : Nat) (x : Stream) : (s.setStream sid x).halted = s.halted := rfl
@[simp] theorem State.setStream_lastStatus (s : State) (sid : Nat) (x : Stream) : (s.setStream sid x).lastStatus = s.lastStatus := rfl
@[simp] theorem State.setStream_freeUsed (s : State) (sid : Nat) (x : Stream) : (s.setStream sid x).freeUsed = s.freeUsed := rfl
@[simp] theorem State.setStream_out (s : State) (sid : Nat) (x : Stream) : (s.setStream sid x).out = s.out := rfl

@[simp] theorem State.setCell_pending (s : State) (cc : Nat) (x : Cell) : (s.setCell cc x).pending = s.pending := rfl
@[simp] theorem State.setCell_cycle (s : State) (cc : Nat) (x : Cell) : (s.setCell cc x).cycle = s.cycle := rfl
@[simp] theorem State.setCell_od (s : State) (cc : Nat) (x : Cell) : (s.setCell cc x).od = s.od := rfl
@[simp] theorem State.setCell_shadow (s : State) (cc : Nat) (x : Cell) : (s.setCell cc x).shadow = s.shadow := rfl
@[simp] theorem State.setCell_blobs (s : State) (cc : Nat) (x : Cell) : (s.setCell cc x).blobs = s.blobs := rfl
@[simp] theorem State.setCell_blobsShadow (s : State) (cc : Nat) (x : Cell) : (s.setCell cc x).blobsShadow = s.blobsShadow := rfl
@[simp] theorem State.setCell_raster (s : State) (cc : Nat) (x : Cell) : (s.setCell cc x).raster = s.raster := rfl
@[simp] theorem State.setCell_iop (s : State) (cc : Nat) (x : Cell) : (s.setCell cc x).iop = s.iop := rfl
@[simp] theorem State.setCell_cmds (s : State) (cc : Nat) (x : Cell) : (s.setCell cc x).cmds = s.cmds := rfl
@[simp] theorem State.setCell_streams (s : State) (cc : Nat) (x : Cell) : (s.setCell cc x).streams = s.streams := rfl
@[simp] theorem State.setCell_code (s : State) (cc : Nat) (x : Cell) : (s.setCell cc x).code = s.code := rfl
@[simp] theorem State.setCell_mem (s : State) (cc : Nat) (x : Cell) : (s.setCell cc x).mem = s.mem := rfl
@[simp] theorem State.setCell_queues (s : State) (cc : Nat) (x : Cell) : (s.setCell cc x).queues = s.queues := rfl
@[simp] theorem State.setCell_lanes (s : State) (cc : Nat) (x : Cell) : (s.setCell cc x).lanes = s.lanes := rfl
@[simp] theorem State.setCell_fabric (s : State) (cc : Nat) (x : Cell) : (s.setCell cc x).fabric = s.fabric := rfl
@[simp] theorem State.setCell_egress (s : State) (cc : Nat) (x : Cell) : (s.setCell cc x).egress = s.egress := rfl
@[simp] theorem State.setCell_host (s : State) (cc : Nat) (x : Cell) : (s.setCell cc x).host = s.host := rfl
@[simp] theorem State.setCell_faults (s : State) (cc : Nat) (x : Cell) : (s.setCell cc x).faults = s.faults := rfl
@[simp] theorem State.setCell_sec (s : State) (cc : Nat) (x : Cell) : (s.setCell cc x).sec = s.sec := rfl
@[simp] theorem State.setCell_power (s : State) (cc : Nat) (x : Cell) : (s.setCell cc x).power = s.power := rfl
@[simp] theorem State.setCell_live (s : State) (cc : Nat) (x : Cell) : (s.setCell cc x).live = s.live := rfl
@[simp] theorem State.setCell_halted (s : State) (cc : Nat) (x : Cell) : (s.setCell cc x).halted = s.halted := rfl
@[simp] theorem State.setCell_lastStatus (s : State) (cc : Nat) (x : Cell) : (s.setCell cc x).lastStatus = s.lastStatus := rfl
@[simp] theorem State.setCell_freeUsed (s : State) (cc : Nat) (x : Cell) : (s.setCell cc x).freeUsed = s.freeUsed := rfl
@[simp] theorem State.setCell_out (s : State) (cc : Nat) (x : Cell) : (s.setCell cc x).out = s.out := rfl

@[simp] theorem State.setCrown_pending (s : State) (cw : Nat) (x : Crown) : (s.setCrown cw x).pending = s.pending := rfl
@[simp] theorem State.setCrown_cycle (s : State) (cw : Nat) (x : Crown) : (s.setCrown cw x).cycle = s.cycle := rfl
@[simp] theorem State.setCrown_od (s : State) (cw : Nat) (x : Crown) : (s.setCrown cw x).od = s.od := rfl
@[simp] theorem State.setCrown_shadow (s : State) (cw : Nat) (x : Crown) : (s.setCrown cw x).shadow = s.shadow := rfl
@[simp] theorem State.setCrown_blobs (s : State) (cw : Nat) (x : Crown) : (s.setCrown cw x).blobs = s.blobs := rfl
@[simp] theorem State.setCrown_blobsShadow (s : State) (cw : Nat) (x : Crown) : (s.setCrown cw x).blobsShadow = s.blobsShadow := rfl
@[simp] theorem State.setCrown_raster (s : State) (cw : Nat) (x : Crown) : (s.setCrown cw x).raster = s.raster := rfl
@[simp] theorem State.setCrown_iop (s : State) (cw : Nat) (x : Crown) : (s.setCrown cw x).iop = s.iop := rfl
@[simp] theorem State.setCrown_cmds (s : State) (cw : Nat) (x : Crown) : (s.setCrown cw x).cmds = s.cmds := rfl
@[simp] theorem State.setCrown_streams (s : State) (cw : Nat) (x : Crown) : (s.setCrown cw x).streams = s.streams := rfl
@[simp] theorem State.setCrown_code (s : State) (cw : Nat) (x : Crown) : (s.setCrown cw x).code = s.code := rfl
@[simp] theorem State.setCrown_mem (s : State) (cw : Nat) (x : Crown) : (s.setCrown cw x).mem = s.mem := rfl
@[simp] theorem State.setCrown_queues (s : State) (cw : Nat) (x : Crown) : (s.setCrown cw x).queues = s.queues := rfl
@[simp] theorem State.setCrown_lanes (s : State) (cw : Nat) (x : Crown) : (s.setCrown cw x).lanes = s.lanes := rfl
@[simp] theorem State.setCrown_fabric (s : State) (cw : Nat) (x : Crown) : (s.setCrown cw x).fabric = s.fabric := rfl
@[simp] theorem State.setCrown_egress (s : State) (cw : Nat) (x : Crown) : (s.setCrown cw x).egress = s.egress := rfl
@[simp] theorem State.setCrown_host (s : State) (cw : Nat) (x : Crown) : (s.setCrown cw x).host = s.host := rfl
@[simp] theorem State.setCrown_faults (s : State) (cw : Nat) (x : Crown) : (s.setCrown cw x).faults = s.faults := rfl
@[simp] theorem State.setCrown_sec (s : State) (cw : Nat) (x : Crown) : (s.setCrown cw x).sec = s.sec := rfl
@[simp] theorem State.setCrown_power (s : State) (cw : Nat) (x : Crown) : (s.setCrown cw x).power = s.power := rfl
@[simp] theorem State.setCrown_live (s : State) (cw : Nat) (x : Crown) : (s.setCrown cw x).live = s.live := rfl
@[simp] theorem State.setCrown_halted (s : State) (cw : Nat) (x : Crown) : (s.setCrown cw x).halted = s.halted := rfl
@[simp] theorem State.setCrown_lastStatus (s : State) (cw : Nat) (x : Crown) : (s.setCrown cw x).lastStatus = s.lastStatus := rfl
@[simp] theorem State.setCrown_freeUsed (s : State) (cw : Nat) (x : Crown) : (s.setCrown cw x).freeUsed = s.freeUsed := rfl
@[simp] theorem State.setCrown_out (s : State) (cw : Nat) (x : Crown) : (s.setCrown cw x).out = s.out := rfl

@[simp] theorem State.hbmPut_pending (s : State) (a : Nat) (bs : List Byte) : (s.hbmPut a bs).pending = s.pending := rfl
@[simp] theorem State.hbmPut_cycle (s : State) (a : Nat) (bs : List Byte) : (s.hbmPut a bs).cycle = s.cycle := rfl
@[simp] theorem State.hbmPut_od (s : State) (a : Nat) (bs : List Byte) : (s.hbmPut a bs).od = s.od := rfl
@[simp] theorem State.hbmPut_shadow (s : State) (a : Nat) (bs : List Byte) : (s.hbmPut a bs).shadow = s.shadow := rfl
@[simp] theorem State.hbmPut_blobs (s : State) (a : Nat) (bs : List Byte) : (s.hbmPut a bs).blobs = s.blobs := rfl
@[simp] theorem State.hbmPut_blobsShadow (s : State) (a : Nat) (bs : List Byte) : (s.hbmPut a bs).blobsShadow = s.blobsShadow := rfl
@[simp] theorem State.hbmPut_raster (s : State) (a : Nat) (bs : List Byte) : (s.hbmPut a bs).raster = s.raster := rfl
@[simp] theorem State.hbmPut_iop (s : State) (a : Nat) (bs : List Byte) : (s.hbmPut a bs).iop = s.iop := rfl
@[simp] theorem State.hbmPut_cmds (s : State) (a : Nat) (bs : List Byte) : (s.hbmPut a bs).cmds = s.cmds := rfl
@[simp] theorem State.hbmPut_streams (s : State) (a : Nat) (bs : List Byte) : (s.hbmPut a bs).streams = s.streams := rfl
@[simp] theorem State.hbmPut_cells (s : State) (a : Nat) (bs : List Byte) : (s.hbmPut a bs).cells = s.cells := rfl
@[simp] theorem State.hbmPut_code (s : State) (a : Nat) (bs : List Byte) : (s.hbmPut a bs).code = s.code := rfl
@[simp] theorem State.hbmPut_queues (s : State) (a : Nat) (bs : List Byte) : (s.hbmPut a bs).queues = s.queues := rfl
@[simp] theorem State.hbmPut_lanes (s : State) (a : Nat) (bs : List Byte) : (s.hbmPut a bs).lanes = s.lanes := rfl
@[simp] theorem State.hbmPut_fabric (s : State) (a : Nat) (bs : List Byte) : (s.hbmPut a bs).fabric = s.fabric := rfl
@[simp] theorem State.hbmPut_egress (s : State) (a : Nat) (bs : List Byte) : (s.hbmPut a bs).egress = s.egress := rfl
@[simp] theorem State.hbmPut_host (s : State) (a : Nat) (bs : List Byte) : (s.hbmPut a bs).host = s.host := rfl
@[simp] theorem State.hbmPut_faults (s : State) (a : Nat) (bs : List Byte) : (s.hbmPut a bs).faults = s.faults := rfl
@[simp] theorem State.hbmPut_sec (s : State) (a : Nat) (bs : List Byte) : (s.hbmPut a bs).sec = s.sec := rfl
@[simp] theorem State.hbmPut_power (s : State) (a : Nat) (bs : List Byte) : (s.hbmPut a bs).power = s.power := rfl
@[simp] theorem State.hbmPut_live (s : State) (a : Nat) (bs : List Byte) : (s.hbmPut a bs).live = s.live := rfl
@[simp] theorem State.hbmPut_halted (s : State) (a : Nat) (bs : List Byte) : (s.hbmPut a bs).halted = s.halted := rfl
@[simp] theorem State.hbmPut_lastStatus (s : State) (a : Nat) (bs : List Byte) : (s.hbmPut a bs).lastStatus = s.lastStatus := rfl
@[simp] theorem State.hbmPut_freeUsed (s : State) (a : Nat) (bs : List Byte) : (s.hbmPut a bs).freeUsed = s.freeUsed := rfl
@[simp] theorem State.hbmPut_out (s : State) (a : Nat) (bs : List Byte) : (s.hbmPut a bs).out = s.out := rfl

@[simp] theorem State.setPc_pending (s : State) (p : Nat) (x : PseudoChannel) : (s.setPc p x).pending = s.pending := rfl
@[simp] theorem State.setPc_cycle (s : State) (p : Nat) (x : PseudoChannel) : (s.setPc p x).cycle = s.cycle := rfl
@[simp] theorem State.setPc_od (s : State) (p : Nat) (x : PseudoChannel) : (s.setPc p x).od = s.od := rfl
@[simp] theorem State.setPc_shadow (s : State) (p : Nat) (x : PseudoChannel) : (s.setPc p x).shadow = s.shadow := rfl
@[simp] theorem State.setPc_blobs (s : State) (p : Nat) (x : PseudoChannel) : (s.setPc p x).blobs = s.blobs := rfl
@[simp] theorem State.setPc_blobsShadow (s : State) (p : Nat) (x : PseudoChannel) : (s.setPc p x).blobsShadow = s.blobsShadow := rfl
@[simp] theorem State.setPc_raster (s : State) (p : Nat) (x : PseudoChannel) : (s.setPc p x).raster = s.raster := rfl
@[simp] theorem State.setPc_iop (s : State) (p : Nat) (x : PseudoChannel) : (s.setPc p x).iop = s.iop := rfl
@[simp] theorem State.setPc_cmds (s : State) (p : Nat) (x : PseudoChannel) : (s.setPc p x).cmds = s.cmds := rfl
@[simp] theorem State.setPc_streams (s : State) (p : Nat) (x : PseudoChannel) : (s.setPc p x).streams = s.streams := rfl
@[simp] theorem State.setPc_cells (s : State) (p : Nat) (x : PseudoChannel) : (s.setPc p x).cells = s.cells := rfl
@[simp] theorem State.setPc_code (s : State) (p : Nat) (x : PseudoChannel) : (s.setPc p x).code = s.code := rfl
@[simp] theorem State.setPc_queues (s : State) (p : Nat) (x : PseudoChannel) : (s.setPc p x).queues = s.queues := rfl
@[simp] theorem State.setPc_lanes (s : State) (p : Nat) (x : PseudoChannel) : (s.setPc p x).lanes = s.lanes := rfl
@[simp] theorem State.setPc_fabric (s : State) (p : Nat) (x : PseudoChannel) : (s.setPc p x).fabric = s.fabric := rfl
@[simp] theorem State.setPc_egress (s : State) (p : Nat) (x : PseudoChannel) : (s.setPc p x).egress = s.egress := rfl
@[simp] theorem State.setPc_host (s : State) (p : Nat) (x : PseudoChannel) : (s.setPc p x).host = s.host := rfl
@[simp] theorem State.setPc_faults (s : State) (p : Nat) (x : PseudoChannel) : (s.setPc p x).faults = s.faults := rfl
@[simp] theorem State.setPc_sec (s : State) (p : Nat) (x : PseudoChannel) : (s.setPc p x).sec = s.sec := rfl
@[simp] theorem State.setPc_power (s : State) (p : Nat) (x : PseudoChannel) : (s.setPc p x).power = s.power := rfl
@[simp] theorem State.setPc_live (s : State) (p : Nat) (x : PseudoChannel) : (s.setPc p x).live = s.live := rfl
@[simp] theorem State.setPc_halted (s : State) (p : Nat) (x : PseudoChannel) : (s.setPc p x).halted = s.halted := rfl
@[simp] theorem State.setPc_lastStatus (s : State) (p : Nat) (x : PseudoChannel) : (s.setPc p x).lastStatus = s.lastStatus := rfl
@[simp] theorem State.setPc_freeUsed (s : State) (p : Nat) (x : PseudoChannel) : (s.setPc p x).freeUsed = s.freeUsed := rfl
@[simp] theorem State.setPc_out (s : State) (p : Nat) (x : PseudoChannel) : (s.setPc p x).out = s.out := rfl

@[simp] theorem State.setFree_pending (s : State) (p : Nat) (x : FreeBatts) : (s.setFree p x).pending = s.pending := rfl
@[simp] theorem State.setFree_cycle (s : State) (p : Nat) (x : FreeBatts) : (s.setFree p x).cycle = s.cycle := rfl
@[simp] theorem State.setFree_od (s : State) (p : Nat) (x : FreeBatts) : (s.setFree p x).od = s.od := rfl
@[simp] theorem State.setFree_shadow (s : State) (p : Nat) (x : FreeBatts) : (s.setFree p x).shadow = s.shadow := rfl
@[simp] theorem State.setFree_blobs (s : State) (p : Nat) (x : FreeBatts) : (s.setFree p x).blobs = s.blobs := rfl
@[simp] theorem State.setFree_blobsShadow (s : State) (p : Nat) (x : FreeBatts) : (s.setFree p x).blobsShadow = s.blobsShadow := rfl
@[simp] theorem State.setFree_raster (s : State) (p : Nat) (x : FreeBatts) : (s.setFree p x).raster = s.raster := rfl
@[simp] theorem State.setFree_iop (s : State) (p : Nat) (x : FreeBatts) : (s.setFree p x).iop = s.iop := rfl
@[simp] theorem State.setFree_cmds (s : State) (p : Nat) (x : FreeBatts) : (s.setFree p x).cmds = s.cmds := rfl
@[simp] theorem State.setFree_streams (s : State) (p : Nat) (x : FreeBatts) : (s.setFree p x).streams = s.streams := rfl
@[simp] theorem State.setFree_cells (s : State) (p : Nat) (x : FreeBatts) : (s.setFree p x).cells = s.cells := rfl
@[simp] theorem State.setFree_code (s : State) (p : Nat) (x : FreeBatts) : (s.setFree p x).code = s.code := rfl
@[simp] theorem State.setFree_mem (s : State) (p : Nat) (x : FreeBatts) : (s.setFree p x).mem = s.mem := rfl
@[simp] theorem State.setFree_lanes (s : State) (p : Nat) (x : FreeBatts) : (s.setFree p x).lanes = s.lanes := rfl
@[simp] theorem State.setFree_fabric (s : State) (p : Nat) (x : FreeBatts) : (s.setFree p x).fabric = s.fabric := rfl
@[simp] theorem State.setFree_egress (s : State) (p : Nat) (x : FreeBatts) : (s.setFree p x).egress = s.egress := rfl
@[simp] theorem State.setFree_host (s : State) (p : Nat) (x : FreeBatts) : (s.setFree p x).host = s.host := rfl
@[simp] theorem State.setFree_faults (s : State) (p : Nat) (x : FreeBatts) : (s.setFree p x).faults = s.faults := rfl
@[simp] theorem State.setFree_sec (s : State) (p : Nat) (x : FreeBatts) : (s.setFree p x).sec = s.sec := rfl
@[simp] theorem State.setFree_power (s : State) (p : Nat) (x : FreeBatts) : (s.setFree p x).power = s.power := rfl
@[simp] theorem State.setFree_live (s : State) (p : Nat) (x : FreeBatts) : (s.setFree p x).live = s.live := rfl
@[simp] theorem State.setFree_halted (s : State) (p : Nat) (x : FreeBatts) : (s.setFree p x).halted = s.halted := rfl
@[simp] theorem State.setFree_lastStatus (s : State) (p : Nat) (x : FreeBatts) : (s.setFree p x).lastStatus = s.lastStatus := rfl
@[simp] theorem State.setFree_freeUsed (s : State) (p : Nat) (x : FreeBatts) : (s.setFree p x).freeUsed = s.freeUsed := rfl
@[simp] theorem State.setFree_out (s : State) (p : Nat) (x : FreeBatts) : (s.setFree p x).out = s.out := rfl

@[simp] theorem State.setQueue_pending (s : State) (q : Nat) (x : Queue) : (s.setQueue q x).pending = s.pending := rfl
@[simp] theorem State.setQueue_cycle (s : State) (q : Nat) (x : Queue) : (s.setQueue q x).cycle = s.cycle := rfl
@[simp] theorem State.setQueue_od (s : State) (q : Nat) (x : Queue) : (s.setQueue q x).od = s.od := rfl
@[simp] theorem State.setQueue_shadow (s : State) (q : Nat) (x : Queue) : (s.setQueue q x).shadow = s.shadow := rfl
@[simp] theorem State.setQueue_blobs (s : State) (q : Nat) (x : Queue) : (s.setQueue q x).blobs = s.blobs := rfl
@[simp] theorem State.setQueue_blobsShadow (s : State) (q : Nat) (x : Queue) : (s.setQueue q x).blobsShadow = s.blobsShadow := rfl
@[simp] theorem State.setQueue_raster (s : State) (q : Nat) (x : Queue) : (s.setQueue q x).raster = s.raster := rfl
@[simp] theorem State.setQueue_iop (s : State) (q : Nat) (x : Queue) : (s.setQueue q x).iop = s.iop := rfl
@[simp] theorem State.setQueue_cmds (s : State) (q : Nat) (x : Queue) : (s.setQueue q x).cmds = s.cmds := rfl
@[simp] theorem State.setQueue_streams (s : State) (q : Nat) (x : Queue) : (s.setQueue q x).streams = s.streams := rfl
@[simp] theorem State.setQueue_cells (s : State) (q : Nat) (x : Queue) : (s.setQueue q x).cells = s.cells := rfl
@[simp] theorem State.setQueue_code (s : State) (q : Nat) (x : Queue) : (s.setQueue q x).code = s.code := rfl
@[simp] theorem State.setQueue_mem (s : State) (q : Nat) (x : Queue) : (s.setQueue q x).mem = s.mem := rfl
@[simp] theorem State.setQueue_lanes (s : State) (q : Nat) (x : Queue) : (s.setQueue q x).lanes = s.lanes := rfl
@[simp] theorem State.setQueue_fabric (s : State) (q : Nat) (x : Queue) : (s.setQueue q x).fabric = s.fabric := rfl
@[simp] theorem State.setQueue_egress (s : State) (q : Nat) (x : Queue) : (s.setQueue q x).egress = s.egress := rfl
@[simp] theorem State.setQueue_host (s : State) (q : Nat) (x : Queue) : (s.setQueue q x).host = s.host := rfl
@[simp] theorem State.setQueue_faults (s : State) (q : Nat) (x : Queue) : (s.setQueue q x).faults = s.faults := rfl
@[simp] theorem State.setQueue_sec (s : State) (q : Nat) (x : Queue) : (s.setQueue q x).sec = s.sec := rfl
@[simp] theorem State.setQueue_power (s : State) (q : Nat) (x : Queue) : (s.setQueue q x).power = s.power := rfl
@[simp] theorem State.setQueue_live (s : State) (q : Nat) (x : Queue) : (s.setQueue q x).live = s.live := rfl
@[simp] theorem State.setQueue_halted (s : State) (q : Nat) (x : Queue) : (s.setQueue q x).halted = s.halted := rfl
@[simp] theorem State.setQueue_lastStatus (s : State) (q : Nat) (x : Queue) : (s.setQueue q x).lastStatus = s.lastStatus := rfl
@[simp] theorem State.setQueue_freeUsed (s : State) (q : Nat) (x : Queue) : (s.setQueue q x).freeUsed = s.freeUsed := rfl
@[simp] theorem State.setQueue_out (s : State) (q : Nat) (x : Queue) : (s.setQueue q x).out = s.out := rfl

@[simp] theorem State.setLane_pending (s : State) (l : Nat) (x : LaneState) : (s.setLane l x).pending = s.pending := rfl
@[simp] theorem State.setLane_cycle (s : State) (l : Nat) (x : LaneState) : (s.setLane l x).cycle = s.cycle := rfl
@[simp] theorem State.setLane_od (s : State) (l : Nat) (x : LaneState) : (s.setLane l x).od = s.od := rfl
@[simp] theorem State.setLane_shadow (s : State) (l : Nat) (x : LaneState) : (s.setLane l x).shadow = s.shadow := rfl
@[simp] theorem State.setLane_blobs (s : State) (l : Nat) (x : LaneState) : (s.setLane l x).blobs = s.blobs := rfl
@[simp] theorem State.setLane_blobsShadow (s : State) (l : Nat) (x : LaneState) : (s.setLane l x).blobsShadow = s.blobsShadow := rfl
@[simp] theorem State.setLane_raster (s : State) (l : Nat) (x : LaneState) : (s.setLane l x).raster = s.raster := rfl
@[simp] theorem State.setLane_iop (s : State) (l : Nat) (x : LaneState) : (s.setLane l x).iop = s.iop := rfl
@[simp] theorem State.setLane_cmds (s : State) (l : Nat) (x : LaneState) : (s.setLane l x).cmds = s.cmds := rfl
@[simp] theorem State.setLane_streams (s : State) (l : Nat) (x : LaneState) : (s.setLane l x).streams = s.streams := rfl
@[simp] theorem State.setLane_cells (s : State) (l : Nat) (x : LaneState) : (s.setLane l x).cells = s.cells := rfl
@[simp] theorem State.setLane_code (s : State) (l : Nat) (x : LaneState) : (s.setLane l x).code = s.code := rfl
@[simp] theorem State.setLane_mem (s : State) (l : Nat) (x : LaneState) : (s.setLane l x).mem = s.mem := rfl
@[simp] theorem State.setLane_queues (s : State) (l : Nat) (x : LaneState) : (s.setLane l x).queues = s.queues := rfl
@[simp] theorem State.setLane_fabric (s : State) (l : Nat) (x : LaneState) : (s.setLane l x).fabric = s.fabric := rfl
@[simp] theorem State.setLane_egress (s : State) (l : Nat) (x : LaneState) : (s.setLane l x).egress = s.egress := rfl
@[simp] theorem State.setLane_host (s : State) (l : Nat) (x : LaneState) : (s.setLane l x).host = s.host := rfl
@[simp] theorem State.setLane_faults (s : State) (l : Nat) (x : LaneState) : (s.setLane l x).faults = s.faults := rfl
@[simp] theorem State.setLane_sec (s : State) (l : Nat) (x : LaneState) : (s.setLane l x).sec = s.sec := rfl
@[simp] theorem State.setLane_power (s : State) (l : Nat) (x : LaneState) : (s.setLane l x).power = s.power := rfl
@[simp] theorem State.setLane_live (s : State) (l : Nat) (x : LaneState) : (s.setLane l x).live = s.live := rfl
@[simp] theorem State.setLane_halted (s : State) (l : Nat) (x : LaneState) : (s.setLane l x).halted = s.halted := rfl
@[simp] theorem State.setLane_lastStatus (s : State) (l : Nat) (x : LaneState) : (s.setLane l x).lastStatus = s.lastStatus := rfl
@[simp] theorem State.setLane_freeUsed (s : State) (l : Nat) (x : LaneState) : (s.setLane l x).freeUsed = s.freeUsed := rfl
@[simp] theorem State.setLane_out (s : State) (l : Nat) (x : LaneState) : (s.setLane l x).out = s.out := rfl

@[simp] theorem State.setLink_pending (s : State) (p : Nat) (x : PortLink) : (s.setLink p x).pending = s.pending := rfl
@[simp] theorem State.setLink_cycle (s : State) (p : Nat) (x : PortLink) : (s.setLink p x).cycle = s.cycle := rfl
@[simp] theorem State.setLink_od (s : State) (p : Nat) (x : PortLink) : (s.setLink p x).od = s.od := rfl
@[simp] theorem State.setLink_shadow (s : State) (p : Nat) (x : PortLink) : (s.setLink p x).shadow = s.shadow := rfl
@[simp] theorem State.setLink_blobs (s : State) (p : Nat) (x : PortLink) : (s.setLink p x).blobs = s.blobs := rfl
@[simp] theorem State.setLink_blobsShadow (s : State) (p : Nat) (x : PortLink) : (s.setLink p x).blobsShadow = s.blobsShadow := rfl
@[simp] theorem State.setLink_raster (s : State) (p : Nat) (x : PortLink) : (s.setLink p x).raster = s.raster := rfl
@[simp] theorem State.setLink_iop (s : State) (p : Nat) (x : PortLink) : (s.setLink p x).iop = s.iop := rfl
@[simp] theorem State.setLink_cmds (s : State) (p : Nat) (x : PortLink) : (s.setLink p x).cmds = s.cmds := rfl
@[simp] theorem State.setLink_streams (s : State) (p : Nat) (x : PortLink) : (s.setLink p x).streams = s.streams := rfl
@[simp] theorem State.setLink_cells (s : State) (p : Nat) (x : PortLink) : (s.setLink p x).cells = s.cells := rfl
@[simp] theorem State.setLink_code (s : State) (p : Nat) (x : PortLink) : (s.setLink p x).code = s.code := rfl
@[simp] theorem State.setLink_mem (s : State) (p : Nat) (x : PortLink) : (s.setLink p x).mem = s.mem := rfl
@[simp] theorem State.setLink_queues (s : State) (p : Nat) (x : PortLink) : (s.setLink p x).queues = s.queues := rfl
@[simp] theorem State.setLink_fabric (s : State) (p : Nat) (x : PortLink) : (s.setLink p x).fabric = s.fabric := rfl
@[simp] theorem State.setLink_egress (s : State) (p : Nat) (x : PortLink) : (s.setLink p x).egress = s.egress := rfl
@[simp] theorem State.setLink_host (s : State) (p : Nat) (x : PortLink) : (s.setLink p x).host = s.host := rfl
@[simp] theorem State.setLink_faults (s : State) (p : Nat) (x : PortLink) : (s.setLink p x).faults = s.faults := rfl
@[simp] theorem State.setLink_sec (s : State) (p : Nat) (x : PortLink) : (s.setLink p x).sec = s.sec := rfl
@[simp] theorem State.setLink_power (s : State) (p : Nat) (x : PortLink) : (s.setLink p x).power = s.power := rfl
@[simp] theorem State.setLink_live (s : State) (p : Nat) (x : PortLink) : (s.setLink p x).live = s.live := rfl
@[simp] theorem State.setLink_halted (s : State) (p : Nat) (x : PortLink) : (s.setLink p x).halted = s.halted := rfl
@[simp] theorem State.setLink_lastStatus (s : State) (p : Nat) (x : PortLink) : (s.setLink p x).lastStatus = s.lastStatus := rfl
@[simp] theorem State.setLink_freeUsed (s : State) (p : Nat) (x : PortLink) : (s.setLink p x).freeUsed = s.freeUsed := rfl
@[simp] theorem State.setLink_out (s : State) (p : Nat) (x : PortLink) : (s.setLink p x).out = s.out := rfl

@[simp] theorem State.setCard_pending (s : State) (c : CardState) : (s.setCard c).pending = s.pending := rfl
@[simp] theorem State.setCard_cycle (s : State) (c : CardState) : (s.setCard c).cycle = s.cycle := rfl
@[simp] theorem State.setCard_od (s : State) (c : CardState) : (s.setCard c).od = s.od := rfl
@[simp] theorem State.setCard_shadow (s : State) (c : CardState) : (s.setCard c).shadow = s.shadow := rfl
@[simp] theorem State.setCard_blobs (s : State) (c : CardState) : (s.setCard c).blobs = s.blobs := rfl
@[simp] theorem State.setCard_blobsShadow (s : State) (c : CardState) : (s.setCard c).blobsShadow = s.blobsShadow := rfl
@[simp] theorem State.setCard_raster (s : State) (c : CardState) : (s.setCard c).raster = s.raster := rfl
@[simp] theorem State.setCard_iop (s : State) (c : CardState) : (s.setCard c).iop = s.iop := rfl
@[simp] theorem State.setCard_cmds (s : State) (c : CardState) : (s.setCard c).cmds = s.cmds := rfl
@[simp] theorem State.setCard_streams (s : State) (c : CardState) : (s.setCard c).streams = s.streams := rfl
@[simp] theorem State.setCard_cells (s : State) (c : CardState) : (s.setCard c).cells = s.cells := rfl
@[simp] theorem State.setCard_code (s : State) (c : CardState) : (s.setCard c).code = s.code := rfl
@[simp] theorem State.setCard_mem (s : State) (c : CardState) : (s.setCard c).mem = s.mem := rfl
@[simp] theorem State.setCard_queues (s : State) (c : CardState) : (s.setCard c).queues = s.queues := rfl
@[simp] theorem State.setCard_lanes (s : State) (c : CardState) : (s.setCard c).lanes = s.lanes := rfl
@[simp] theorem State.setCard_egress (s : State) (c : CardState) : (s.setCard c).egress = s.egress := rfl
@[simp] theorem State.setCard_host (s : State) (c : CardState) : (s.setCard c).host = s.host := rfl
@[simp] theorem State.setCard_faults (s : State) (c : CardState) : (s.setCard c).faults = s.faults := rfl
@[simp] theorem State.setCard_sec (s : State) (c : CardState) : (s.setCard c).sec = s.sec := rfl
@[simp] theorem State.setCard_power (s : State) (c : CardState) : (s.setCard c).power = s.power := rfl
@[simp] theorem State.setCard_live (s : State) (c : CardState) : (s.setCard c).live = s.live := rfl
@[simp] theorem State.setCard_halted (s : State) (c : CardState) : (s.setCard c).halted = s.halted := rfl
@[simp] theorem State.setCard_lastStatus (s : State) (c : CardState) : (s.setCard c).lastStatus = s.lastStatus := rfl
@[simp] theorem State.setCard_freeUsed (s : State) (c : CardState) : (s.setCard c).freeUsed = s.freeUsed := rfl
@[simp] theorem State.setCard_out (s : State) (c : CardState) : (s.setCard c).out = s.out := rfl

@[simp] theorem State.setEgPort_pending (s : State) (p : Nat) (x : EgressPort) : (s.setEgPort p x).pending = s.pending := rfl
@[simp] theorem State.setEgPort_cycle (s : State) (p : Nat) (x : EgressPort) : (s.setEgPort p x).cycle = s.cycle := rfl
@[simp] theorem State.setEgPort_od (s : State) (p : Nat) (x : EgressPort) : (s.setEgPort p x).od = s.od := rfl
@[simp] theorem State.setEgPort_shadow (s : State) (p : Nat) (x : EgressPort) : (s.setEgPort p x).shadow = s.shadow := rfl
@[simp] theorem State.setEgPort_blobs (s : State) (p : Nat) (x : EgressPort) : (s.setEgPort p x).blobs = s.blobs := rfl
@[simp] theorem State.setEgPort_blobsShadow (s : State) (p : Nat) (x : EgressPort) : (s.setEgPort p x).blobsShadow = s.blobsShadow := rfl
@[simp] theorem State.setEgPort_raster (s : State) (p : Nat) (x : EgressPort) : (s.setEgPort p x).raster = s.raster := rfl
@[simp] theorem State.setEgPort_iop (s : State) (p : Nat) (x : EgressPort) : (s.setEgPort p x).iop = s.iop := rfl
@[simp] theorem State.setEgPort_cmds (s : State) (p : Nat) (x : EgressPort) : (s.setEgPort p x).cmds = s.cmds := rfl
@[simp] theorem State.setEgPort_streams (s : State) (p : Nat) (x : EgressPort) : (s.setEgPort p x).streams = s.streams := rfl
@[simp] theorem State.setEgPort_cells (s : State) (p : Nat) (x : EgressPort) : (s.setEgPort p x).cells = s.cells := rfl
@[simp] theorem State.setEgPort_code (s : State) (p : Nat) (x : EgressPort) : (s.setEgPort p x).code = s.code := rfl
@[simp] theorem State.setEgPort_mem (s : State) (p : Nat) (x : EgressPort) : (s.setEgPort p x).mem = s.mem := rfl
@[simp] theorem State.setEgPort_queues (s : State) (p : Nat) (x : EgressPort) : (s.setEgPort p x).queues = s.queues := rfl
@[simp] theorem State.setEgPort_lanes (s : State) (p : Nat) (x : EgressPort) : (s.setEgPort p x).lanes = s.lanes := rfl
@[simp] theorem State.setEgPort_fabric (s : State) (p : Nat) (x : EgressPort) : (s.setEgPort p x).fabric = s.fabric := rfl
@[simp] theorem State.setEgPort_host (s : State) (p : Nat) (x : EgressPort) : (s.setEgPort p x).host = s.host := rfl
@[simp] theorem State.setEgPort_faults (s : State) (p : Nat) (x : EgressPort) : (s.setEgPort p x).faults = s.faults := rfl
@[simp] theorem State.setEgPort_sec (s : State) (p : Nat) (x : EgressPort) : (s.setEgPort p x).sec = s.sec := rfl
@[simp] theorem State.setEgPort_power (s : State) (p : Nat) (x : EgressPort) : (s.setEgPort p x).power = s.power := rfl
@[simp] theorem State.setEgPort_live (s : State) (p : Nat) (x : EgressPort) : (s.setEgPort p x).live = s.live := rfl
@[simp] theorem State.setEgPort_halted (s : State) (p : Nat) (x : EgressPort) : (s.setEgPort p x).halted = s.halted := rfl
@[simp] theorem State.setEgPort_lastStatus (s : State) (p : Nat) (x : EgressPort) : (s.setEgPort p x).lastStatus = s.lastStatus := rfl
@[simp] theorem State.setEgPort_freeUsed (s : State) (p : Nat) (x : EgressPort) : (s.setEgPort p x).freeUsed = s.freeUsed := rfl
@[simp] theorem State.setEgPort_out (s : State) (p : Nat) (x : EgressPort) : (s.setEgPort p x).out = s.out := rfl

@[simp] theorem State.setShaper_pending (s : State) (q : Nat) (x : ShaperQueue) : (s.setShaper q x).pending = s.pending := rfl
@[simp] theorem State.setShaper_cycle (s : State) (q : Nat) (x : ShaperQueue) : (s.setShaper q x).cycle = s.cycle := rfl
@[simp] theorem State.setShaper_od (s : State) (q : Nat) (x : ShaperQueue) : (s.setShaper q x).od = s.od := rfl
@[simp] theorem State.setShaper_shadow (s : State) (q : Nat) (x : ShaperQueue) : (s.setShaper q x).shadow = s.shadow := rfl
@[simp] theorem State.setShaper_blobs (s : State) (q : Nat) (x : ShaperQueue) : (s.setShaper q x).blobs = s.blobs := rfl
@[simp] theorem State.setShaper_blobsShadow (s : State) (q : Nat) (x : ShaperQueue) : (s.setShaper q x).blobsShadow = s.blobsShadow := rfl
@[simp] theorem State.setShaper_raster (s : State) (q : Nat) (x : ShaperQueue) : (s.setShaper q x).raster = s.raster := rfl
@[simp] theorem State.setShaper_iop (s : State) (q : Nat) (x : ShaperQueue) : (s.setShaper q x).iop = s.iop := rfl
@[simp] theorem State.setShaper_cmds (s : State) (q : Nat) (x : ShaperQueue) : (s.setShaper q x).cmds = s.cmds := rfl
@[simp] theorem State.setShaper_streams (s : State) (q : Nat) (x : ShaperQueue) : (s.setShaper q x).streams = s.streams := rfl
@[simp] theorem State.setShaper_cells (s : State) (q : Nat) (x : ShaperQueue) : (s.setShaper q x).cells = s.cells := rfl
@[simp] theorem State.setShaper_code (s : State) (q : Nat) (x : ShaperQueue) : (s.setShaper q x).code = s.code := rfl
@[simp] theorem State.setShaper_mem (s : State) (q : Nat) (x : ShaperQueue) : (s.setShaper q x).mem = s.mem := rfl
@[simp] theorem State.setShaper_queues (s : State) (q : Nat) (x : ShaperQueue) : (s.setShaper q x).queues = s.queues := rfl
@[simp] theorem State.setShaper_lanes (s : State) (q : Nat) (x : ShaperQueue) : (s.setShaper q x).lanes = s.lanes := rfl
@[simp] theorem State.setShaper_fabric (s : State) (q : Nat) (x : ShaperQueue) : (s.setShaper q x).fabric = s.fabric := rfl
@[simp] theorem State.setShaper_host (s : State) (q : Nat) (x : ShaperQueue) : (s.setShaper q x).host = s.host := rfl
@[simp] theorem State.setShaper_faults (s : State) (q : Nat) (x : ShaperQueue) : (s.setShaper q x).faults = s.faults := rfl
@[simp] theorem State.setShaper_sec (s : State) (q : Nat) (x : ShaperQueue) : (s.setShaper q x).sec = s.sec := rfl
@[simp] theorem State.setShaper_power (s : State) (q : Nat) (x : ShaperQueue) : (s.setShaper q x).power = s.power := rfl
@[simp] theorem State.setShaper_live (s : State) (q : Nat) (x : ShaperQueue) : (s.setShaper q x).live = s.live := rfl
@[simp] theorem State.setShaper_halted (s : State) (q : Nat) (x : ShaperQueue) : (s.setShaper q x).halted = s.halted := rfl
@[simp] theorem State.setShaper_lastStatus (s : State) (q : Nat) (x : ShaperQueue) : (s.setShaper q x).lastStatus = s.lastStatus := rfl
@[simp] theorem State.setShaper_freeUsed (s : State) (q : Nat) (x : ShaperQueue) : (s.setShaper q x).freeUsed = s.freeUsed := rfl
@[simp] theorem State.setShaper_out (s : State) (q : Nat) (x : ShaperQueue) : (s.setShaper q x).out = s.out := rfl

@[simp] theorem State.bumpBy_pending (s : State) (r : Row) (i j n : Nat) : (s.bumpBy r i j n).pending = s.pending := by unfold State.bumpBy; split <;> rfl
@[simp] theorem State.bumpBy_cycle (s : State) (r : Row) (i j n : Nat) : (s.bumpBy r i j n).cycle = s.cycle := by unfold State.bumpBy; split <;> rfl
@[simp] theorem State.bumpBy_shadow (s : State) (r : Row) (i j n : Nat) : (s.bumpBy r i j n).shadow = s.shadow := by unfold State.bumpBy; split <;> rfl
@[simp] theorem State.bumpBy_blobs (s : State) (r : Row) (i j n : Nat) : (s.bumpBy r i j n).blobs = s.blobs := by unfold State.bumpBy; split <;> rfl
@[simp] theorem State.bumpBy_blobsShadow (s : State) (r : Row) (i j n : Nat) : (s.bumpBy r i j n).blobsShadow = s.blobsShadow := by unfold State.bumpBy; split <;> rfl
@[simp] theorem State.bumpBy_raster (s : State) (r : Row) (i j n : Nat) : (s.bumpBy r i j n).raster = s.raster := by unfold State.bumpBy; split <;> rfl
@[simp] theorem State.bumpBy_iop (s : State) (r : Row) (i j n : Nat) : (s.bumpBy r i j n).iop = s.iop := by unfold State.bumpBy; split <;> rfl
@[simp] theorem State.bumpBy_cmds (s : State) (r : Row) (i j n : Nat) : (s.bumpBy r i j n).cmds = s.cmds := by unfold State.bumpBy; split <;> rfl
@[simp] theorem State.bumpBy_streams (s : State) (r : Row) (i j n : Nat) : (s.bumpBy r i j n).streams = s.streams := by unfold State.bumpBy; split <;> rfl
@[simp] theorem State.bumpBy_cells (s : State) (r : Row) (i j n : Nat) : (s.bumpBy r i j n).cells = s.cells := by unfold State.bumpBy; split <;> rfl
@[simp] theorem State.bumpBy_code (s : State) (r : Row) (i j n : Nat) : (s.bumpBy r i j n).code = s.code := by unfold State.bumpBy; split <;> rfl
@[simp] theorem State.bumpBy_mem (s : State) (r : Row) (i j n : Nat) : (s.bumpBy r i j n).mem = s.mem := by unfold State.bumpBy; split <;> rfl
@[simp] theorem State.bumpBy_queues (s : State) (r : Row) (i j n : Nat) : (s.bumpBy r i j n).queues = s.queues := by unfold State.bumpBy; split <;> rfl
@[simp] theorem State.bumpBy_lanes (s : State) (r : Row) (i j n : Nat) : (s.bumpBy r i j n).lanes = s.lanes := by unfold State.bumpBy; split <;> rfl
@[simp] theorem State.bumpBy_fabric (s : State) (r : Row) (i j n : Nat) : (s.bumpBy r i j n).fabric = s.fabric := by unfold State.bumpBy; split <;> rfl
@[simp] theorem State.bumpBy_egress (s : State) (r : Row) (i j n : Nat) : (s.bumpBy r i j n).egress = s.egress := by unfold State.bumpBy; split <;> rfl
@[simp] theorem State.bumpBy_host (s : State) (r : Row) (i j n : Nat) : (s.bumpBy r i j n).host = s.host := by unfold State.bumpBy; split <;> rfl
@[simp] theorem State.bumpBy_faults (s : State) (r : Row) (i j n : Nat) : (s.bumpBy r i j n).faults = s.faults := by unfold State.bumpBy; split <;> rfl
@[simp] theorem State.bumpBy_sec (s : State) (r : Row) (i j n : Nat) : (s.bumpBy r i j n).sec = s.sec := by unfold State.bumpBy; split <;> rfl
@[simp] theorem State.bumpBy_power (s : State) (r : Row) (i j n : Nat) : (s.bumpBy r i j n).power = s.power := by unfold State.bumpBy; split <;> rfl
@[simp] theorem State.bumpBy_live (s : State) (r : Row) (i j n : Nat) : (s.bumpBy r i j n).live = s.live := by unfold State.bumpBy; split <;> rfl
@[simp] theorem State.bumpBy_halted (s : State) (r : Row) (i j n : Nat) : (s.bumpBy r i j n).halted = s.halted := by unfold State.bumpBy; split <;> rfl
@[simp] theorem State.bumpBy_lastStatus (s : State) (r : Row) (i j n : Nat) : (s.bumpBy r i j n).lastStatus = s.lastStatus := by unfold State.bumpBy; split <;> rfl
@[simp] theorem State.bumpBy_out (s : State) (r : Row) (i j n : Nat) : (s.bumpBy r i j n).out = s.out := by unfold State.bumpBy; split <;> rfl

@[simp] theorem State.bump_pending (s : State) (r : Row) (i j : Nat) : (s.bump r i j).pending = s.pending := by simp [State.bump]
@[simp] theorem State.bump_cycle (s : State) (r : Row) (i j : Nat) : (s.bump r i j).cycle = s.cycle := by simp [State.bump]
@[simp] theorem State.bump_shadow (s : State) (r : Row) (i j : Nat) : (s.bump r i j).shadow = s.shadow := by simp [State.bump]
@[simp] theorem State.bump_blobs (s : State) (r : Row) (i j : Nat) : (s.bump r i j).blobs = s.blobs := by simp [State.bump]
@[simp] theorem State.bump_blobsShadow (s : State) (r : Row) (i j : Nat) : (s.bump r i j).blobsShadow = s.blobsShadow := by simp [State.bump]
@[simp] theorem State.bump_raster (s : State) (r : Row) (i j : Nat) : (s.bump r i j).raster = s.raster := by simp [State.bump]
@[simp] theorem State.bump_iop (s : State) (r : Row) (i j : Nat) : (s.bump r i j).iop = s.iop := by simp [State.bump]
@[simp] theorem State.bump_cmds (s : State) (r : Row) (i j : Nat) : (s.bump r i j).cmds = s.cmds := by simp [State.bump]
@[simp] theorem State.bump_streams (s : State) (r : Row) (i j : Nat) : (s.bump r i j).streams = s.streams := by simp [State.bump]
@[simp] theorem State.bump_cells (s : State) (r : Row) (i j : Nat) : (s.bump r i j).cells = s.cells := by simp [State.bump]
@[simp] theorem State.bump_code (s : State) (r : Row) (i j : Nat) : (s.bump r i j).code = s.code := by simp [State.bump]
@[simp] theorem State.bump_mem (s : State) (r : Row) (i j : Nat) : (s.bump r i j).mem = s.mem := by simp [State.bump]
@[simp] theorem State.bump_queues (s : State) (r : Row) (i j : Nat) : (s.bump r i j).queues = s.queues := by simp [State.bump]
@[simp] theorem State.bump_lanes (s : State) (r : Row) (i j : Nat) : (s.bump r i j).lanes = s.lanes := by simp [State.bump]
@[simp] theorem State.bump_fabric (s : State) (r : Row) (i j : Nat) : (s.bump r i j).fabric = s.fabric := by simp [State.bump]
@[simp] theorem State.bump_egress (s : State) (r : Row) (i j : Nat) : (s.bump r i j).egress = s.egress := by simp [State.bump]
@[simp] theorem State.bump_host (s : State) (r : Row) (i j : Nat) : (s.bump r i j).host = s.host := by simp [State.bump]
@[simp] theorem State.bump_faults (s : State) (r : Row) (i j : Nat) : (s.bump r i j).faults = s.faults := by simp [State.bump]
@[simp] theorem State.bump_sec (s : State) (r : Row) (i j : Nat) : (s.bump r i j).sec = s.sec := by simp [State.bump]
@[simp] theorem State.bump_power (s : State) (r : Row) (i j : Nat) : (s.bump r i j).power = s.power := by simp [State.bump]
@[simp] theorem State.bump_live (s : State) (r : Row) (i j : Nat) : (s.bump r i j).live = s.live := by simp [State.bump]
@[simp] theorem State.bump_halted (s : State) (r : Row) (i j : Nat) : (s.bump r i j).halted = s.halted := by simp [State.bump]
@[simp] theorem State.bump_lastStatus (s : State) (r : Row) (i j : Nat) : (s.bump r i j).lastStatus = s.lastStatus := by simp [State.bump]
@[simp] theorem State.bump_out (s : State) (r : Row) (i j : Nat) : (s.bump r i j).out = s.out := by simp [State.bump]

@[simp] theorem State.raise_pending (s : State) (src : Nat) : (s.raise src).pending = s.pending := by unfold State.raise; split <;> rfl
@[simp] theorem State.raise_cycle (s : State) (src : Nat) : (s.raise src).cycle = s.cycle := by unfold State.raise; split <;> rfl
@[simp] theorem State.raise_od (s : State) (src : Nat) : (s.raise src).od = s.od := by unfold State.raise; split <;> rfl
@[simp] theorem State.raise_shadow (s : State) (src : Nat) : (s.raise src).shadow = s.shadow := by unfold State.raise; split <;> rfl
@[simp] theorem State.raise_blobs (s : State) (src : Nat) : (s.raise src).blobs = s.blobs := by unfold State.raise; split <;> rfl
@[simp] theorem State.raise_blobsShadow (s : State) (src : Nat) : (s.raise src).blobsShadow = s.blobsShadow := by unfold State.raise; split <;> rfl
@[simp] theorem State.raise_raster (s : State) (src : Nat) : (s.raise src).raster = s.raster := by unfold State.raise; split <;> rfl
@[simp] theorem State.raise_iop (s : State) (src : Nat) : (s.raise src).iop = s.iop := by unfold State.raise; split <;> rfl
@[simp] theorem State.raise_cmds (s : State) (src : Nat) : (s.raise src).cmds = s.cmds := by unfold State.raise; split <;> rfl
@[simp] theorem State.raise_streams (s : State) (src : Nat) : (s.raise src).streams = s.streams := by unfold State.raise; split <;> rfl
@[simp] theorem State.raise_cells (s : State) (src : Nat) : (s.raise src).cells = s.cells := by unfold State.raise; split <;> rfl
@[simp] theorem State.raise_code (s : State) (src : Nat) : (s.raise src).code = s.code := by unfold State.raise; split <;> rfl
@[simp] theorem State.raise_mem (s : State) (src : Nat) : (s.raise src).mem = s.mem := by unfold State.raise; split <;> rfl
@[simp] theorem State.raise_queues (s : State) (src : Nat) : (s.raise src).queues = s.queues := by unfold State.raise; split <;> rfl
@[simp] theorem State.raise_lanes (s : State) (src : Nat) : (s.raise src).lanes = s.lanes := by unfold State.raise; split <;> rfl
@[simp] theorem State.raise_fabric (s : State) (src : Nat) : (s.raise src).fabric = s.fabric := by unfold State.raise; split <;> rfl
@[simp] theorem State.raise_egress (s : State) (src : Nat) : (s.raise src).egress = s.egress := by unfold State.raise; split <;> rfl
@[simp] theorem State.raise_faults (s : State) (src : Nat) : (s.raise src).faults = s.faults := by unfold State.raise; split <;> rfl
@[simp] theorem State.raise_sec (s : State) (src : Nat) : (s.raise src).sec = s.sec := by unfold State.raise; split <;> rfl
@[simp] theorem State.raise_power (s : State) (src : Nat) : (s.raise src).power = s.power := by unfold State.raise; split <;> rfl
@[simp] theorem State.raise_live (s : State) (src : Nat) : (s.raise src).live = s.live := by unfold State.raise; split <;> rfl
@[simp] theorem State.raise_halted (s : State) (src : Nat) : (s.raise src).halted = s.halted := by unfold State.raise; split <;> rfl
@[simp] theorem State.raise_lastStatus (s : State) (src : Nat) : (s.raise src).lastStatus = s.lastStatus := by unfold State.raise; split <;> rfl
@[simp] theorem State.raise_freeUsed (s : State) (src : Nat) : (s.raise src).freeUsed = s.freeUsed := by unfold State.raise; split <;> rfl
@[simp] theorem State.raise_out (s : State) (src : Nat) : (s.raise src).out = s.out := by unfold State.raise; split <;> rfl

@[simp] theorem State.setPhaseError_pending (s : State) (rd : Nat) (e : Int) : (s.setPhaseError rd e).pending = s.pending := by unfold State.setPhaseError; split <;> rfl
@[simp] theorem State.setPhaseError_cycle (s : State) (rd : Nat) (e : Int) : (s.setPhaseError rd e).cycle = s.cycle := by unfold State.setPhaseError; split <;> rfl
@[simp] theorem State.setPhaseError_shadow (s : State) (rd : Nat) (e : Int) : (s.setPhaseError rd e).shadow = s.shadow := by unfold State.setPhaseError; split <;> rfl
@[simp] theorem State.setPhaseError_blobs (s : State) (rd : Nat) (e : Int) : (s.setPhaseError rd e).blobs = s.blobs := by unfold State.setPhaseError; split <;> rfl
@[simp] theorem State.setPhaseError_blobsShadow (s : State) (rd : Nat) (e : Int) : (s.setPhaseError rd e).blobsShadow = s.blobsShadow := by unfold State.setPhaseError; split <;> rfl
@[simp] theorem State.setPhaseError_raster (s : State) (rd : Nat) (e : Int) : (s.setPhaseError rd e).raster = s.raster := by unfold State.setPhaseError; split <;> rfl
@[simp] theorem State.setPhaseError_iop (s : State) (rd : Nat) (e : Int) : (s.setPhaseError rd e).iop = s.iop := by unfold State.setPhaseError; split <;> rfl
@[simp] theorem State.setPhaseError_cmds (s : State) (rd : Nat) (e : Int) : (s.setPhaseError rd e).cmds = s.cmds := by unfold State.setPhaseError; split <;> rfl
@[simp] theorem State.setPhaseError_streams (s : State) (rd : Nat) (e : Int) : (s.setPhaseError rd e).streams = s.streams := by unfold State.setPhaseError; split <;> rfl
@[simp] theorem State.setPhaseError_cells (s : State) (rd : Nat) (e : Int) : (s.setPhaseError rd e).cells = s.cells := by unfold State.setPhaseError; split <;> rfl
@[simp] theorem State.setPhaseError_code (s : State) (rd : Nat) (e : Int) : (s.setPhaseError rd e).code = s.code := by unfold State.setPhaseError; split <;> rfl
@[simp] theorem State.setPhaseError_mem (s : State) (rd : Nat) (e : Int) : (s.setPhaseError rd e).mem = s.mem := by unfold State.setPhaseError; split <;> rfl
@[simp] theorem State.setPhaseError_queues (s : State) (rd : Nat) (e : Int) : (s.setPhaseError rd e).queues = s.queues := by unfold State.setPhaseError; split <;> rfl
@[simp] theorem State.setPhaseError_lanes (s : State) (rd : Nat) (e : Int) : (s.setPhaseError rd e).lanes = s.lanes := by unfold State.setPhaseError; split <;> rfl
@[simp] theorem State.setPhaseError_fabric (s : State) (rd : Nat) (e : Int) : (s.setPhaseError rd e).fabric = s.fabric := by unfold State.setPhaseError; split <;> rfl
@[simp] theorem State.setPhaseError_egress (s : State) (rd : Nat) (e : Int) : (s.setPhaseError rd e).egress = s.egress := by unfold State.setPhaseError; split <;> rfl
@[simp] theorem State.setPhaseError_host (s : State) (rd : Nat) (e : Int) : (s.setPhaseError rd e).host = s.host := by unfold State.setPhaseError; split <;> rfl
@[simp] theorem State.setPhaseError_faults (s : State) (rd : Nat) (e : Int) : (s.setPhaseError rd e).faults = s.faults := by unfold State.setPhaseError; split <;> rfl
@[simp] theorem State.setPhaseError_sec (s : State) (rd : Nat) (e : Int) : (s.setPhaseError rd e).sec = s.sec := by unfold State.setPhaseError; split <;> rfl
@[simp] theorem State.setPhaseError_power (s : State) (rd : Nat) (e : Int) : (s.setPhaseError rd e).power = s.power := by unfold State.setPhaseError; split <;> rfl
@[simp] theorem State.setPhaseError_live (s : State) (rd : Nat) (e : Int) : (s.setPhaseError rd e).live = s.live := by unfold State.setPhaseError; split <;> rfl
@[simp] theorem State.setPhaseError_halted (s : State) (rd : Nat) (e : Int) : (s.setPhaseError rd e).halted = s.halted := by unfold State.setPhaseError; split <;> rfl
@[simp] theorem State.setPhaseError_lastStatus (s : State) (rd : Nat) (e : Int) : (s.setPhaseError rd e).lastStatus = s.lastStatus := by unfold State.setPhaseError; split <;> rfl
@[simp] theorem State.setPhaseError_out (s : State) (rd : Nat) (e : Int) : (s.setPhaseError rd e).out = s.out := by unfold State.setPhaseError; split <;> rfl

@[simp] theorem State.streamEvent_pending (s : State) (sid b : Nat) : (s.streamEvent sid b).pending = s.pending := by unfold State.streamEvent; split <;> simp
@[simp] theorem State.streamEvent_cycle (s : State) (sid b : Nat) : (s.streamEvent sid b).cycle = s.cycle := by unfold State.streamEvent; split <;> simp
@[simp] theorem State.streamEvent_od (s : State) (sid b : Nat) : (s.streamEvent sid b).od = s.od := by unfold State.streamEvent; split <;> simp
@[simp] theorem State.streamEvent_shadow (s : State) (sid b : Nat) : (s.streamEvent sid b).shadow = s.shadow := by unfold State.streamEvent; split <;> simp
@[simp] theorem State.streamEvent_blobs (s : State) (sid b : Nat) : (s.streamEvent sid b).blobs = s.blobs := by unfold State.streamEvent; split <;> simp
@[simp] theorem State.streamEvent_blobsShadow (s : State) (sid b : Nat) : (s.streamEvent sid b).blobsShadow = s.blobsShadow := by unfold State.streamEvent; split <;> simp
@[simp] theorem State.streamEvent_raster (s : State) (sid b : Nat) : (s.streamEvent sid b).raster = s.raster := by unfold State.streamEvent; split <;> simp
@[simp] theorem State.streamEvent_iop (s : State) (sid b : Nat) : (s.streamEvent sid b).iop = s.iop := by unfold State.streamEvent; split <;> simp
@[simp] theorem State.streamEvent_cmds (s : State) (sid b : Nat) : (s.streamEvent sid b).cmds = s.cmds := by unfold State.streamEvent; split <;> simp
@[simp] theorem State.streamEvent_streams (s : State) (sid b : Nat) : (s.streamEvent sid b).streams = s.streams := by unfold State.streamEvent; split <;> simp
@[simp] theorem State.streamEvent_cells (s : State) (sid b : Nat) : (s.streamEvent sid b).cells = s.cells := by unfold State.streamEvent; split <;> simp
@[simp] theorem State.streamEvent_code (s : State) (sid b : Nat) : (s.streamEvent sid b).code = s.code := by unfold State.streamEvent; split <;> simp
@[simp] theorem State.streamEvent_mem (s : State) (sid b : Nat) : (s.streamEvent sid b).mem = s.mem := by unfold State.streamEvent; split <;> simp
@[simp] theorem State.streamEvent_queues (s : State) (sid b : Nat) : (s.streamEvent sid b).queues = s.queues := by unfold State.streamEvent; split <;> simp
@[simp] theorem State.streamEvent_lanes (s : State) (sid b : Nat) : (s.streamEvent sid b).lanes = s.lanes := by unfold State.streamEvent; split <;> simp
@[simp] theorem State.streamEvent_fabric (s : State) (sid b : Nat) : (s.streamEvent sid b).fabric = s.fabric := by unfold State.streamEvent; split <;> simp
@[simp] theorem State.streamEvent_egress (s : State) (sid b : Nat) : (s.streamEvent sid b).egress = s.egress := by unfold State.streamEvent; split <;> simp
@[simp] theorem State.streamEvent_faults (s : State) (sid b : Nat) : (s.streamEvent sid b).faults = s.faults := by unfold State.streamEvent; split <;> simp
@[simp] theorem State.streamEvent_sec (s : State) (sid b : Nat) : (s.streamEvent sid b).sec = s.sec := by unfold State.streamEvent; split <;> simp
@[simp] theorem State.streamEvent_power (s : State) (sid b : Nat) : (s.streamEvent sid b).power = s.power := by unfold State.streamEvent; split <;> simp
@[simp] theorem State.streamEvent_live (s : State) (sid b : Nat) : (s.streamEvent sid b).live = s.live := by unfold State.streamEvent; split <;> simp
@[simp] theorem State.streamEvent_halted (s : State) (sid b : Nat) : (s.streamEvent sid b).halted = s.halted := by unfold State.streamEvent; split <;> simp
@[simp] theorem State.streamEvent_lastStatus (s : State) (sid b : Nat) : (s.streamEvent sid b).lastStatus = s.lastStatus := by unfold State.streamEvent; split <;> simp
@[simp] theorem State.streamEvent_freeUsed (s : State) (sid b : Nat) : (s.streamEvent sid b).freeUsed = s.freeUsed := by unfold State.streamEvent; split <;> simp
@[simp] theorem State.streamEvent_out (s : State) (sid b : Nat) : (s.streamEvent sid b).out = s.out := by unfold State.streamEvent; split <;> simp

@[simp] theorem State.setStreamState_pending (s : State) (sid st : Nat) : (s.setStreamState sid st).pending = s.pending := by unfold State.setStreamState; split <;> simp
@[simp] theorem State.setStreamState_cycle (s : State) (sid st : Nat) : (s.setStreamState sid st).cycle = s.cycle := by unfold State.setStreamState; split <;> simp
@[simp] theorem State.setStreamState_shadow (s : State) (sid st : Nat) : (s.setStreamState sid st).shadow = s.shadow := by unfold State.setStreamState; split <;> simp
@[simp] theorem State.setStreamState_blobs (s : State) (sid st : Nat) : (s.setStreamState sid st).blobs = s.blobs := by unfold State.setStreamState; split <;> simp
@[simp] theorem State.setStreamState_blobsShadow (s : State) (sid st : Nat) : (s.setStreamState sid st).blobsShadow = s.blobsShadow := by unfold State.setStreamState; split <;> simp
@[simp] theorem State.setStreamState_raster (s : State) (sid st : Nat) : (s.setStreamState sid st).raster = s.raster := by unfold State.setStreamState; split <;> simp
@[simp] theorem State.setStreamState_iop (s : State) (sid st : Nat) : (s.setStreamState sid st).iop = s.iop := by unfold State.setStreamState; split <;> simp
@[simp] theorem State.setStreamState_cmds (s : State) (sid st : Nat) : (s.setStreamState sid st).cmds = s.cmds := by unfold State.setStreamState; split <;> simp
@[simp] theorem State.setStreamState_streams (s : State) (sid st : Nat) : (s.setStreamState sid st).streams = s.streams := by unfold State.setStreamState; split <;> simp
@[simp] theorem State.setStreamState_cells (s : State) (sid st : Nat) : (s.setStreamState sid st).cells = s.cells := by unfold State.setStreamState; split <;> simp
@[simp] theorem State.setStreamState_code (s : State) (sid st : Nat) : (s.setStreamState sid st).code = s.code := by unfold State.setStreamState; split <;> simp
@[simp] theorem State.setStreamState_mem (s : State) (sid st : Nat) : (s.setStreamState sid st).mem = s.mem := by unfold State.setStreamState; split <;> simp
@[simp] theorem State.setStreamState_queues (s : State) (sid st : Nat) : (s.setStreamState sid st).queues = s.queues := by unfold State.setStreamState; split <;> simp
@[simp] theorem State.setStreamState_lanes (s : State) (sid st : Nat) : (s.setStreamState sid st).lanes = s.lanes := by unfold State.setStreamState; split <;> simp
@[simp] theorem State.setStreamState_fabric (s : State) (sid st : Nat) : (s.setStreamState sid st).fabric = s.fabric := by unfold State.setStreamState; split <;> simp
@[simp] theorem State.setStreamState_egress (s : State) (sid st : Nat) : (s.setStreamState sid st).egress = s.egress := by unfold State.setStreamState; split <;> simp
@[simp] theorem State.setStreamState_faults (s : State) (sid st : Nat) : (s.setStreamState sid st).faults = s.faults := by unfold State.setStreamState; split <;> simp
@[simp] theorem State.setStreamState_sec (s : State) (sid st : Nat) : (s.setStreamState sid st).sec = s.sec := by unfold State.setStreamState; split <;> simp
@[simp] theorem State.setStreamState_power (s : State) (sid st : Nat) : (s.setStreamState sid st).power = s.power := by unfold State.setStreamState; split <;> simp
@[simp] theorem State.setStreamState_live (s : State) (sid st : Nat) : (s.setStreamState sid st).live = s.live := by unfold State.setStreamState; split <;> simp
@[simp] theorem State.setStreamState_halted (s : State) (sid st : Nat) : (s.setStreamState sid st).halted = s.halted := by unfold State.setStreamState; split <;> simp
@[simp] theorem State.setStreamState_lastStatus (s : State) (sid st : Nat) : (s.setStreamState sid st).lastStatus = s.lastStatus := by unfold State.setStreamState; split <;> simp
@[simp] theorem State.setStreamState_freeUsed (s : State) (sid st : Nat) : (s.setStreamState sid st).freeUsed = s.freeUsed := by unfold State.setStreamState; split <;> simp
@[simp] theorem State.setStreamState_out (s : State) (sid st : Nat) : (s.setStreamState sid st).out = s.out := by unfold State.setStreamState; split <;> simp

@[simp] theorem State.setSticky_pending (s : State) (u k : Nat) : (s.setSticky u k).pending = s.pending := by rfl
@[simp] theorem State.setSticky_cycle (s : State) (u k : Nat) : (s.setSticky u k).cycle = s.cycle := by rfl
@[simp] theorem State.setSticky_shadow (s : State) (u k : Nat) : (s.setSticky u k).shadow = s.shadow := by rfl
@[simp] theorem State.setSticky_blobs (s : State) (u k : Nat) : (s.setSticky u k).blobs = s.blobs := by rfl
@[simp] theorem State.setSticky_blobsShadow (s : State) (u k : Nat) : (s.setSticky u k).blobsShadow = s.blobsShadow := by rfl
@[simp] theorem State.setSticky_raster (s : State) (u k : Nat) : (s.setSticky u k).raster = s.raster := by rfl
@[simp] theorem State.setSticky_iop (s : State) (u k : Nat) : (s.setSticky u k).iop = s.iop := by rfl
@[simp] theorem State.setSticky_cmds (s : State) (u k : Nat) : (s.setSticky u k).cmds = s.cmds := by rfl
@[simp] theorem State.setSticky_streams (s : State) (u k : Nat) : (s.setSticky u k).streams = s.streams := by rfl
@[simp] theorem State.setSticky_cells (s : State) (u k : Nat) : (s.setSticky u k).cells = s.cells := by rfl
@[simp] theorem State.setSticky_code (s : State) (u k : Nat) : (s.setSticky u k).code = s.code := by rfl
@[simp] theorem State.setSticky_mem (s : State) (u k : Nat) : (s.setSticky u k).mem = s.mem := by rfl
@[simp] theorem State.setSticky_queues (s : State) (u k : Nat) : (s.setSticky u k).queues = s.queues := by rfl
@[simp] theorem State.setSticky_lanes (s : State) (u k : Nat) : (s.setSticky u k).lanes = s.lanes := by rfl
@[simp] theorem State.setSticky_fabric (s : State) (u k : Nat) : (s.setSticky u k).fabric = s.fabric := by rfl
@[simp] theorem State.setSticky_egress (s : State) (u k : Nat) : (s.setSticky u k).egress = s.egress := by rfl
@[simp] theorem State.setSticky_host (s : State) (u k : Nat) : (s.setSticky u k).host = s.host := by rfl
@[simp] theorem State.setSticky_faults (s : State) (u k : Nat) : (s.setSticky u k).faults = s.faults := by rfl
@[simp] theorem State.setSticky_sec (s : State) (u k : Nat) : (s.setSticky u k).sec = s.sec := by rfl
@[simp] theorem State.setSticky_power (s : State) (u k : Nat) : (s.setSticky u k).power = s.power := by rfl
@[simp] theorem State.setSticky_live (s : State) (u k : Nat) : (s.setSticky u k).live = s.live := by rfl
@[simp] theorem State.setSticky_halted (s : State) (u k : Nat) : (s.setSticky u k).halted = s.halted := by rfl
@[simp] theorem State.setSticky_lastStatus (s : State) (u k : Nat) : (s.setSticky u k).lastStatus = s.lastStatus := by rfl
@[simp] theorem State.setSticky_freeUsed (s : State) (u k : Nat) : (s.setSticky u k).freeUsed = s.freeUsed := by rfl
@[simp] theorem State.setSticky_out (s : State) (u k : Nat) : (s.setSticky u k).out = s.out := by rfl

@[simp] theorem State.setLock_pending (s : State) (rd st : Nat) : (s.setLock rd st).pending = s.pending := by simp only [State.setLock]; (repeat' split) <;> simp
@[simp] theorem State.setLock_cycle (s : State) (rd st : Nat) : (s.setLock rd st).cycle = s.cycle := by simp only [State.setLock]; (repeat' split) <;> simp
@[simp] theorem State.setLock_shadow (s : State) (rd st : Nat) : (s.setLock rd st).shadow = s.shadow := by simp only [State.setLock]; (repeat' split) <;> simp
@[simp] theorem State.setLock_blobs (s : State) (rd st : Nat) : (s.setLock rd st).blobs = s.blobs := by simp only [State.setLock]; (repeat' split) <;> simp
@[simp] theorem State.setLock_blobsShadow (s : State) (rd st : Nat) : (s.setLock rd st).blobsShadow = s.blobsShadow := by simp only [State.setLock]; (repeat' split) <;> simp
@[simp] theorem State.setLock_iop (s : State) (rd st : Nat) : (s.setLock rd st).iop = s.iop := by simp only [State.setLock]; (repeat' split) <;> simp
@[simp] theorem State.setLock_cmds (s : State) (rd st : Nat) : (s.setLock rd st).cmds = s.cmds := by simp only [State.setLock]; (repeat' split) <;> simp
@[simp] theorem State.setLock_streams (s : State) (rd st : Nat) : (s.setLock rd st).streams = s.streams := by simp only [State.setLock]; (repeat' split) <;> simp
@[simp] theorem State.setLock_cells (s : State) (rd st : Nat) : (s.setLock rd st).cells = s.cells := by simp only [State.setLock]; (repeat' split) <;> simp
@[simp] theorem State.setLock_code (s : State) (rd st : Nat) : (s.setLock rd st).code = s.code := by simp only [State.setLock]; (repeat' split) <;> simp
@[simp] theorem State.setLock_mem (s : State) (rd st : Nat) : (s.setLock rd st).mem = s.mem := by simp only [State.setLock]; (repeat' split) <;> simp
@[simp] theorem State.setLock_queues (s : State) (rd st : Nat) : (s.setLock rd st).queues = s.queues := by simp only [State.setLock]; (repeat' split) <;> simp
@[simp] theorem State.setLock_lanes (s : State) (rd st : Nat) : (s.setLock rd st).lanes = s.lanes := by simp only [State.setLock]; (repeat' split) <;> simp
@[simp] theorem State.setLock_fabric (s : State) (rd st : Nat) : (s.setLock rd st).fabric = s.fabric := by simp only [State.setLock]; (repeat' split) <;> simp
@[simp] theorem State.setLock_egress (s : State) (rd st : Nat) : (s.setLock rd st).egress = s.egress := by simp only [State.setLock]; (repeat' split) <;> simp
@[simp] theorem State.setLock_sec (s : State) (rd st : Nat) : (s.setLock rd st).sec = s.sec := by simp only [State.setLock]; (repeat' split) <;> simp
@[simp] theorem State.setLock_power (s : State) (rd st : Nat) : (s.setLock rd st).power = s.power := by simp only [State.setLock]; (repeat' split) <;> simp
@[simp] theorem State.setLock_live (s : State) (rd st : Nat) : (s.setLock rd st).live = s.live := by simp only [State.setLock]; (repeat' split) <;> simp
@[simp] theorem State.setLock_halted (s : State) (rd st : Nat) : (s.setLock rd st).halted = s.halted := by simp only [State.setLock]; (repeat' split) <;> simp
@[simp] theorem State.setLock_lastStatus (s : State) (rd st : Nat) : (s.setLock rd st).lastStatus = s.lastStatus := by simp only [State.setLock]; (repeat' split) <;> simp
@[simp] theorem State.setLock_out (s : State) (rd st : Nat) : (s.setLock rd st).out = s.out := by simp only [State.setLock]; (repeat' split) <;> simp

@[simp] theorem State.misuseBar0_pending (s : State) : (s.misuseBar0).pending = s.pending := by rfl
@[simp] theorem State.misuseBar0_cycle (s : State) : (s.misuseBar0).cycle = s.cycle := by rfl
@[simp] theorem State.misuseBar0_od (s : State) : (s.misuseBar0).od = s.od := by rfl
@[simp] theorem State.misuseBar0_shadow (s : State) : (s.misuseBar0).shadow = s.shadow := by rfl
@[simp] theorem State.misuseBar0_blobs (s : State) : (s.misuseBar0).blobs = s.blobs := by rfl
@[simp] theorem State.misuseBar0_blobsShadow (s : State) : (s.misuseBar0).blobsShadow = s.blobsShadow := by rfl
@[simp] theorem State.misuseBar0_raster (s : State) : (s.misuseBar0).raster = s.raster := by rfl
@[simp] theorem State.misuseBar0_iop (s : State) : (s.misuseBar0).iop = s.iop := by rfl
@[simp] theorem State.misuseBar0_cmds (s : State) : (s.misuseBar0).cmds = s.cmds := by rfl
@[simp] theorem State.misuseBar0_streams (s : State) : (s.misuseBar0).streams = s.streams := by rfl
@[simp] theorem State.misuseBar0_cells (s : State) : (s.misuseBar0).cells = s.cells := by rfl
@[simp] theorem State.misuseBar0_code (s : State) : (s.misuseBar0).code = s.code := by rfl
@[simp] theorem State.misuseBar0_mem (s : State) : (s.misuseBar0).mem = s.mem := by rfl
@[simp] theorem State.misuseBar0_queues (s : State) : (s.misuseBar0).queues = s.queues := by rfl
@[simp] theorem State.misuseBar0_lanes (s : State) : (s.misuseBar0).lanes = s.lanes := by rfl
@[simp] theorem State.misuseBar0_fabric (s : State) : (s.misuseBar0).fabric = s.fabric := by rfl
@[simp] theorem State.misuseBar0_egress (s : State) : (s.misuseBar0).egress = s.egress := by rfl
@[simp] theorem State.misuseBar0_faults (s : State) : (s.misuseBar0).faults = s.faults := by rfl
@[simp] theorem State.misuseBar0_sec (s : State) : (s.misuseBar0).sec = s.sec := by rfl
@[simp] theorem State.misuseBar0_power (s : State) : (s.misuseBar0).power = s.power := by rfl
@[simp] theorem State.misuseBar0_live (s : State) : (s.misuseBar0).live = s.live := by rfl
@[simp] theorem State.misuseBar0_halted (s : State) : (s.misuseBar0).halted = s.halted := by rfl
@[simp] theorem State.misuseBar0_lastStatus (s : State) : (s.misuseBar0).lastStatus = s.lastStatus := by rfl
@[simp] theorem State.misuseBar0_freeUsed (s : State) : (s.misuseBar0).freeUsed = s.freeUsed := by rfl
@[simp] theorem State.misuseBar0_out (s : State) : (s.misuseBar0).out = s.out := by rfl

end Sys2Proof.Machine
end

