-- ==== Sys2Proof/Laws/Commands.lean ====
section
/-! SUPPORT. What the shared operations of commands, writes and the clock do: one lemma per operation, for the provers to cite. -/

namespace Sys2Proof.Laws

open Sys2Proof.Machine Sys2Proof.Safety

theorem ends_settled {i : Instr} {s u v : State} (h : exec i s = done v) (h' : Settled u v) : Ends i s u :=
  ⟨v.settle, h, h'.trans (settle_settled v)⟩

theorem runCommand_running {s : State} {code : Nat} {args : List Byte} {body} (h : Running s code args) :
    s.runCommand code args body = match body s with
      | (s', some (r, d)) => s'.attach code r d
      | (s', none) => s' := by
  obtain ⟨e, h1, h2, h3⟩ := h
  simp only [State.runCommand, h1, h2, h3, and_self, if_true] <;> (generalize body s = p; obtain ⟨a, _ | ⟨r, d⟩⟩ := p <;> rfl)

theorem runCommand_answer {s u : State} {code : Nat} {args : List Byte} {body} {r : Nat} {d : List Byte} (h : Running s code args)
    (hb : body s = (u, some (r, d))) : s.runCommand code args body = u.attach code r d := by
  rw [runCommand_running h, hb]

theorem runCommand_goes {s u : State} {code : Nat} {args : List Byte} {body} (h : Running s code args)
    (hb : body s = (u, none)) : s.runCommand code args body = u := by
  rw [runCommand_running h, hb]

theorem runCommand_taken {s u : State} {code : Nat} {args : List Byte} {body} (h : Taken s code args u) :
    s.runCommand code args body = match body u with
      | (s', some (r, d)) => s'.attach code r d
      | (s', none) => s' := by
  obtain ⟨h, rfl⟩ | ⟨h1, h2, h3, h4, rfl⟩ := h
  · exact runCommand_running h
  · have hr : (s.cmdQueue code).running = none := by
      simp only [State.mayStart, Bool.and_eq_true, Option.isNone_iff_eq_none] at h3; exact h3.1
    rw [State.runCommand]
    simp only [hr]
    rw [if_neg (by simp [h1]), if_neg (by rcases h2 with h2 | h2 <;> simp [h2]), if_pos (by simp [h3, h4])]
    all_goals
      generalize body (s.acceptCommand code 0 args none) = p
      obtain ⟨a, _ | ⟨r, d⟩⟩ := p <;> rfl

theorem runCommand_taken_answer {s u v : State} {code : Nat} {args : List Byte} {body} {r : Nat} {d : List Byte}
    (h : Taken s code args u) (hb : body u = (v, some (r, d))) : s.runCommand code args body = v.attach code r d := by
  rw [runCommand_taken h, hb]

theorem runCommand_taken_goes {s u v : State} {code : Nat} {args : List Byte} {body} (h : Taken s code args u)
    (hb : body u = (v, none)) : s.runCommand code args body = v := by
  rw [runCommand_taken h, hb]

theorem get_set_self (s : State) (r : Row) (i v : Nat) : (s.set r i v).get r i = v % r.modulus := Laws.tget_tput_self _ _ _ _

theorem get_setDom (s : State) (rd : Nat) (d : RasterDomain) (r : Row) (i j : Nat) : (s.setDom rd d).get r i j = s.get r i j := rfl

theorem get_set_ne (s : State) (r r' : Row) (i j v i' : Nat) (h : r.key i 0 ≠ r'.key i' j) : (s.set r i v).get r' i' j = s.get r' i' j := by
  simp only [State.get, State.set, State.put]; exact Laws.tget_tput_ne _ _ _ _ h

theorem get_bump_ne (s : State) (r r' : Row) (h : r.key 0 0 ≠ r'.key 0 0) : (s.bump r).get r' = s.get r' := by
  simp only [State.bump, State.bumpBy]; split
  · simp only [State.get, State.put]; exact Laws.tget_tput_ne _ _ _ _ h
  · simp only [State.get, State.put, State.useFree]; exact Laws.tget_tput_ne _ _ _ _ h

theorem foldl_keeps {α β : Type} (f : State → α → State) (g : State → β) (hf : ∀ s a, g (f s a) = g s) (l : List α) (s : State) :
    g (l.foldl f s) = g s := by
  induction l generalizing s with
  | nil => rfl
  | cons a l ih => rw [List.foldl_cons, ih, hf]

theorem pair_inj {K : Nat} {a b : Nat × Nat} (hk : 0 < K) (h2 : a.2 < K) (h3 : b.2 < K) (h : b.1 * K + b.2 = a.1 * K + a.2) : b = a := by
  have e1 : (b.1 * K + b.2) / K = b.1 := by rw [Nat.mul_comm, Nat.mul_add_div hk, Nat.div_eq_of_lt h3, Nat.add_zero]
  have e2 : (a.1 * K + a.2) / K = a.1 := by rw [Nat.mul_comm, Nat.mul_add_div hk, Nat.div_eq_of_lt h2, Nat.add_zero]
  have e3 : b.1 = a.1 := by rw [← e1, ← e2, h]
  have e4 : b.2 = a.2 := by rw [e3] at h; exact Nat.add_left_cancel h
  exact Prod.ext e3 e4

theorem emRaw_inj {a b : Nat × Nat} (h2 : a.2 < 2 ^ 72) (h3 : b.2 < 2 ^ 72) (h : emRaw b = emRaw a) : b = a :=
  pair_inj (Nat.pow_pos (by decide)) h2 h3 h

theorem leNat_leBytes (n v : Nat) (h : v < 256 ^ n) : leNat (leBytes n v) = v := by
  induction n generalizing v with
  | zero => simp at h; subst h; rfl
  | succ n ih =>
    have h1 : v / 256 < 256 ^ n := by rw [Nat.div_lt_iff_lt_mul (by decide)]; rwa [← Nat.pow_succ]
    simp only [leBytes, leNat, ih _ h1, BitVec.toNat_ofNat]
    omega

theorem write_accepted {s : State} {role : Role} {r : Row} {i : Nat} {v : List Byte} (h : Accepted s role r i v) (hc : r.acc ≠ .cmd) :
    s.writeObject (roleRank role) ⟨r.base + i, r.sub, r.ty.code, v⟩ = { s.commitWrites [writingOf r i v] with lastStatus := Status.ok } := by
  obtain ⟨h1, h2, h3⟩ := h
  rw [State.writeObject, if_neg (by simp [h1])]
  simp only [h2]
  rw [if_neg (by simpa [writingOf] using hc), if_pos h3, h3]

theorem write_num {s : State} {role : Role} {r : Row} {i v : Nat} (h : AcceptedNum s role r i v) (hc : r.acc ≠ .cmd) :
    s.writeRow role r i v = { s.commitWrites [writingOf r i (leBytes r.ty.size v)] with lastStatus := Status.ok } := by
  rw [State.writeRow, valueBytes, if_pos h.1, write_accepted h.2 hc]

theorem writing_num {r : Row} {i v : Nat} (h : v < r.modulus) : (writingOf r i (leBytes r.ty.size v)).num = v := leNat_leBytes _ _ h

theorem commit_one (s : State) (w : Writing) : s.commitWrites [w] = State.follow s (s.stage s w) w := rfl

theorem leNat_value {r : Row} {v : Nat} (h : v < r.modulus) : leNat (leBytes r.ty.size v) = v := leNat_leBytes _ _ h

theorem stage_shadow (s : State) (r : Row) (i v : Nat) (h : v < r.modulus) (h1 : r.acc = .rws) (h2 : r ∉ actionRows) (h3 : r.ty ≠ .domain)
    (h4 : s.direct (r.base + i) = false) :
    s.stage s (writingOf r i (leBytes r.ty.size v)) = s.putShadow r i 0 (unreservedNum r v) := by
  have hn : (writingOf r i (leBytes r.ty.size v)).num = v := leNat_value h
  rw [State.stage, if_neg (by simp [writingOf, h1, h2]),
    if_neg (show ¬ (writingOf r i (leBytes r.ty.size v)).row.ty = .domain from h3)]
  simp only [hn]
  rw [if_pos ⟨h1, by show ¬ s.direct (r.base + i) = true; simp [h4]⟩]
  rfl

theorem foldl_clear_get (l : List Nat) (s : State) (u : Nat) (h : u ∈ l ∨ s.get Od.unit_STICKY u = 0) :
   (l.foldl (fun t u => if t.get Od.unit_STICKY u = 0 then t else t.set Od.unit_STICKY u 0) s).get Od.unit_STICKY u = 0 := by
  induction l generalizing s with
  | nil => simpa using h
  | cons a l ih =>
    rw [List.foldl_cons]; apply ih
    by_cases hl : u ∈ l
    · exact Or.inl hl
    · right
      have hs : ∀ v, v = u → (s.set Od.unit_STICKY v 0).get Od.unit_STICKY u = 0 := by
        rintro v rfl; simp only [State.get, State.set, State.put]; rw [Laws.tget_tput_self]; rfl
      rcases h with h | h
      · rcases List.mem_cons.mp h with rfl | h
        · split
          · assumption
          · exact hs _ rfl
        · exact absurd h hl
      · split
        · exact h
        · by_cases ha : a = u
          · exact hs _ ha
          · rw [get_set_ne]; exact h; simp [Row.key, Od.unit_STICKY]; omega

theorem foldl_clear_frame (l : List Nat) (s : State) (r : Row) (i j : Nat) (h : ∀ u ∈ l, r.key i j ≠ Od.unit_STICKY.key u 0) :
   (l.foldl (fun t u => if t.get Od.unit_STICKY u = 0 then t else t.set Od.unit_STICKY u 0) s).get r i j = s.get r i j := by
  induction l generalizing s with
  | nil => rfl
  | cons a l ih =>
    rw [List.foldl_cons, ih _ (fun u hu => h u (List.mem_cons_of_mem _ hu))]
    split
    · rfl
    · simp only [State.get, State.set, State.put]; exact Laws.tget_tput_ne _ _ _ _ (Ne.symm (h a (by simp)))

end Sys2Proof.Laws
end

