-- ==== Sys2Proof/Laws/Memory.lean ====
section
/-! SUPPORT. HBM3 and flash: what bytes read after a write and after a span is cleared, that every operation that writes them
keeps their canonical form, and the plain lemmas about regions. -/

namespace Sys2Proof.Laws

open Sys2Proof.Machine Sys2Proof.Safety

/-! ### Reading -/

theorem tget_filter_keep (t : Tab Byte) (p : Nat × Byte → Bool) (k : Nat) (h : ∀ v, p (k, v) = true) : tget (t.filter p) 0#8 k = tget t 0#8 k := by
  have : tfind (t.filter p) k = tfind t k := by
    induction t with
    | nil => rfl
    | cons e t ih =>
      obtain ⟨a, v⟩ := e
      by_cases ha : a = k
      · subst ha; rw [List.filter_cons, if_pos (h v), tfind_cons, tfind_cons]; simp
      · rw [List.filter_cons]; split
        · rw [tfind_cons, tfind_cons, ih]
        · rw [tfind_cons, ih]; simp [ha]
  rw [tget, tget, this]

theorem tget_filter_drop (t : Tab Byte) (p : Nat × Byte → Bool) (k : Nat) (h : ∀ v, p (k, v) = false) : tget (t.filter p) 0#8 k = 0#8 := by
  have : tfind (t.filter p) k = none := by
    induction t with
    | nil => rfl
    | cons e t ih =>
      obtain ⟨a, v⟩ := e
      by_cases ha : a = k
      · subst ha; rw [List.filter_cons, if_neg (by simp [h v]), ih]
      · rw [List.filter_cons]; split
        · rw [tfind_cons, ih]; simp [ha]
        · rw [ih]
  rw [tget, this]; rfl

theorem putBytes_outside (bs : List Byte) (t : Tab Byte) (a b : Nat) (h : b < a ∨ a + bs.length ≤ b) :
    tget (putBytes t a bs) 0#8 b = tget t 0#8 b := by
  rw [putBytes, tget_tputRun, if_neg (by omega)]

theorem putBytes_inside (bs : List Byte) (t : Tab Byte) (a k : Nat) (h : k < bs.length) : tget (putBytes t a bs) 0#8 (a + k) = bs[k] := by
  rw [putBytes, tget_tputRun, if_pos (by omega), Nat.add_sub_cancel_left, List.getD_eq_getElem?_getD, List.getElem?_eq_getElem h]; rfl

/-! ### Regions -/

theorem nameRegion_mem (s : State) (region kind t base size : Nat) : (s.nameRegion region kind t base size).mem = s.mem := by
  rw [State.nameRegion, State.set_mem, State.set_mem, State.set_mem, State.set_mem, State.set_mem, State.set_mem]

theorem makeRegion_mem (s : State) (region kind t base size : Nat) : (s.makeRegion region kind t base size).mem = (s.fillRegion kind t base size).mem := by
  rw [State.makeRegion, nameRegion_mem]

theorem fillRegion_noPicture (s : State) (kind t base size : Nat) : (s.fillRegion kind t base size).mem.noPictureReported = s.mem.noPictureReported := by
  rw [State.fillRegion]; split <;> rfl

theorem cleanGranules_noPicture (s : State) (f : Nat → Bool) : (s.cleanGranules f).mem.noPictureReported = s.mem.noPictureReported := rfl

/-! ### Canonical form -/

/-- Keys rising, and no entry listed that an unlisted key reads as. -/
def Canonical (d : Byte) (t : Tab Byte) : Prop := tsorted t = true ∧ ∀ e ∈ t, e.2 ≠ d

theorem memoryForm_iff (s : State) : memoryForm s = true ↔ Canonical 0#8 s.mem.bytes := by
  simp [memoryForm, Canonical]

theorem canonical_nil (d : Byte) : Canonical d [] := ⟨rfl, fun _ h => absurd h List.not_mem_nil⟩

theorem canonical_tput {d : Byte} {t : Tab Byte} (k : Nat) (v : Byte) (h : Canonical d t) : Canonical d (tput t d k v) := by
  refine ⟨tsorted_tput h.1, fun e he => ?_⟩
  rcases mem_tput he with ⟨rfl, hv⟩ | he
  · exact hv
  · exact h.2 e he

theorem canonical_filter {d : Byte} {t : Tab Byte} (p : Nat × Byte → Bool) (h : Canonical d t) : Canonical d (t.filter p) :=
  ⟨tsorted_filter p h.1, fun e he => h.2 e (List.mem_filter.mp he).1⟩

theorem canonical_tputRun {d : Byte} {t : Tab Byte} (a : Nat) (bs : List Byte) (h : Canonical d t) : Canonical d (tputRun t d a bs) :=
  ⟨tsorted_tputRun h.1, fun e he => (mem_tputRun he).elim (h.2 e) id⟩

theorem canonical_putBytes (bs : List Byte) {t : Tab Byte} (a : Nat) (h : Canonical 0#8 t) : Canonical 0#8 (putBytes t a bs) :=
  canonical_tputRun a bs h

theorem canonical_putFlash (bs : List Byte) {t : Tab Byte} (a : Nat) (h : Canonical 0xFF#8 t) : Canonical 0xFF#8 (putFlash t a bs) :=
  canonical_tputRun a bs h

theorem reset_memoryForm : memoryForm State.reset = true := (memoryForm_iff _).mpr (canonical_nil _)

theorem memoryForm_of_mem {s t : State} (h : t.mem = s.mem) (hs : memoryForm s = true) : memoryForm t = true := by
  rw [memoryForm_iff] at hs ⊢; rw [h]; exact hs

theorem memoryForm_of_bytes {s t : State} (h : t.mem.bytes = s.mem.bytes) (hs : memoryForm s = true) : memoryForm t = true := by
  rw [memoryForm_iff] at hs ⊢; rw [h]; exact hs

theorem hbmPut_memoryForm {s : State} (a : Nat) (bs : List Byte) (h : memoryForm s = true) : memoryForm (s.hbmPut a bs) = true := by
  rw [memoryForm_iff] at h ⊢; exact canonical_putBytes bs a h

theorem hbmZero_memoryForm {s : State} (a n : Nat) (h : memoryForm s = true) : memoryForm (s.hbmZero a n) = true := by
  rw [memoryForm_iff] at h ⊢; exact canonical_filter _ h

theorem writePages_memoryForm {s : State} (r a : Nat) (data : List Byte) (h : memoryForm s = true) :
    memoryForm (s.writePages r a data) = true := by
  rw [State.writePages]; simp only []
  exact memoryForm_of_bytes (by rw [State.bumpBy_mem]) (hbmPut_memoryForm a data h)

theorem fillRegion_memoryForm {s : State} (kind t base size : Nat) (h : memoryForm s = true) :
    memoryForm (s.fillRegion kind t base size) = true := by
  rw [State.fillRegion]; simp only []
  split
  · exact hbmZero_memoryForm _ _ (memoryForm_of_bytes rfl h)
  · exact memoryForm_of_bytes rfl h

theorem makeRegion_memoryForm {s : State} (region kind t base size : Nat) (h : memoryForm s = true) :
    memoryForm (s.makeRegion region kind t base size) = true :=
  memoryForm_of_mem (makeRegion_mem s region kind t base size) (fillRegion_memoryForm kind t base size h)

theorem dropRegion_memoryForm {s : State} (region : Nat) (h : memoryForm s = true) : memoryForm (s.dropRegion region) = true :=
  memoryForm_of_bytes rfl h

theorem addFlips_memoryForm {s : State} (fs : List (Nat × Nat)) (h : memoryForm s = true) : memoryForm (s.addFlips fs) = true :=
  memoryForm_of_bytes rfl h

theorem demandAct_memoryForm {s : State} (a : DemandAct) (h : memoryForm s = true) : memoryForm (s.demandAct a) = true := by
  rw [State.demandAct]; simp only []
  split
  · exact memoryForm_of_bytes (by rw [State.bumpBy_mem]) h
  · exact memoryForm_of_bytes rfl h

theorem demandActs_memoryForm {s : State} (acts : List DemandAct) (h : memoryForm s = true) :
    memoryForm (s.demandActs acts) = true := by
  rw [State.demandActs]; split
  · exact h
  · generalize (List.range 64).flatMap _ = l
    induction l generalizing s with
    | nil => exact h
    | cons a l ih => rw [List.foldl_cons]; exact ih (demandAct_memoryForm a h)

theorem parityRetries_mem (s : State) (n : Nat) : (s.parityRetries n).mem = s.mem := by
  rw [State.parityRetries]; split
  · exact State.bump_mem _ _ _ _
  · rfl

theorem cleanGranules_memoryForm {s : State} (p : Nat → Bool) (h : memoryForm s = true) : memoryForm (s.cleanGranules p) = true :=
  memoryForm_of_bytes rfl h

theorem spoilt_memoryForm {s : State} (n a unit kind acc master addr : Nat) (h : memoryForm s = true) :
    memoryForm (((s.useFrees n).poisonGranule a).report unit kind acc master addr) = true :=
  memoryForm_of_bytes (by rw [State.report_mem]; rfl) h

/-- A write by a master keeps HBM3's bytes in canonical form, accepted or not. -/
theorem hbmWrite_memoryForm {s : State} (master a : Nat) (data : List Byte) (m : MemMeet) (h : memoryForm s = true) :
    memoryForm (s.hbmWrite master a data m).1 = true := by
  have h1 := demandActs_memoryForm m.acts (addFlips_memoryForm m.flips h)
  rw [State.hbmWrite]; simp only []
  split
  · exact h1
  · rename_i r _
    split
    · exact memoryForm_of_mem (by rw [State.report_mem, State.bump_mem]) h1
    · have h2 := memoryForm_of_mem (parityRetries_mem _ m.parity) h1
      have h3 : ∀ u : State, memoryForm u = true → ∀ bs, memoryForm (if u.regionProtected r = true then (u.writePages r a bs, true)
          else ((u.hbmPut a bs).bumpBy Od.hbm_BYTES_WRITTEN 0 0 data.length, true)).1 = true := by
        intro u hu bs; split
        · exact writePages_memoryForm _ _ _ hu
        · exact memoryForm_of_mem (State.bumpBy_mem _ _ _ _ _) (hbmPut_memoryForm _ _ hu)
      generalize ((s.addFlips m.flips).demandActs m.acts).parityRetries m.parity = u at h2 ⊢
      split
      · exact h3 _ (spoilt_memoryForm _ _ _ _ _ _ _ h2) _
      · exact h3 _ (cleanGranules_memoryForm _ h2) _

/-- Programming keeps the flash in canonical form against erased bytes. -/
theorem programFlash_canonical {s : State} (h : Canonical 0xFF#8 s.sec.flash) : Canonical 0xFF#8 s.programFlash.sec.flash :=
  canonical_putFlash _ _ (canonical_filter _ h)

end Sys2Proof.Laws
end

