-- ==== Sys2Proof/Laws/Messages.lean ====
section
/-! SUPPORT. Interrupt messages: what sending them leaves, so that after every meaning no vector with a pending source is
still armed. -/

namespace Sys2Proof.Laws

open Sys2Proof.Machine Sys2Proof.Safety

theorem sendOne_vector (ho : HostState × List Output) (v w : Nat) :
    (tget (sendOne ho v).1.vectors {} w).sent = (decide (v = w) || (tget ho.1.vectors {} w).sent) := by
  have h : ∀ x : IrqVector, x.sent = true → (tget (tput ho.1.vectors {} v x) {} w).sent = (decide (v = w) || (tget ho.1.vectors {} w).sent) := by
    intro x hx
    by_cases hv : v = w
    · subst hv; rw [tget_tput_self]; simp [hx]
    · rw [tget_tput_ne _ _ _ _ hv]; simp [hv]
  unfold sendOne; simp only []
  repeat' split
  all_goals first | exact h { tget ho.1.vectors {} v with sent := true, held := true } rfl | exact h { tget ho.1.vectors {} v with sent := true, held := false } rfl

theorem sendAll_vector (l : List Nat) (ho : HostState × List Output) (w : Nat) :
    (tget (l.foldl sendOne ho).1.vectors {} w).sent = (decide (w ∈ l) || (tget ho.1.vectors {} w).sent) := by
  induction l generalizing ho with
  | nil => simp
  | cons v l ih =>
    rw [List.foldl_cons, ih, sendOne_vector]
    by_cases h : v = w
    · subst h; simp
    · have h' : ¬ w = v := fun e => h e.symm
      simp [h, h']

theorem sendMessages_sent (s : State) : messagesSent s.sendMessages := by
  intro v hv hp
  have hm := sendAll_messages s.dueVectors (s.host, s.out)
  unfold messagesOnly at hm
  have hp' : s.pendingOn v ≠ [] := by
    have : s.sendMessages.pendingOn v = s.pendingOn v := by
      have h1 : s.sendMessages.host.sources = s.host.sources := (congrArg HostState.sources hm).trans rfl
      have h2 : s.sendMessages.host.srcCfg = s.host.srcCfg := (congrArg HostState.srcCfg hm).trans rfl
      unfold State.pendingOn State.srcCfg
      rw [h1, h2]
    rwa [this] at hp
  show (tget (s.dueVectors.foldl sendOne (s.host, s.out)).1.vectors {} v).sent = true
  rw [sendAll_vector]
  by_cases hs : (s.vector v).sent = true
  · simp only [State.vector] at hs; simp [hs]
  · have : v ∈ s.dueVectors := by
      unfold State.dueVectors
      rw [if_pos]
      · simp [hv, hs, hp']
      · unfold State.pendingOn at hp'
        rw [List.any_eq_true]
        obtain ⟨e, he⟩ := List.exists_mem_of_ne_nil _ hp'
        simp only [List.mem_map, List.mem_filter, Bool.and_eq_true] at he
        obtain ⟨a, ⟨h1, h2, _⟩, _⟩ := he
        exact ⟨a, h1, h2⟩
    simp [this]

theorem settle_sent (s : State) : messagesSent s.settle := by
  have h := sendMessages_sent (s.notifyAll Subscription.look)
  intro v hv hp; exact h v hv hp

theorem sent_of_none {s : State} (h : ∀ e ∈ s.host.sources, e.2.pending = false) : messagesSent s := by
  intro v hv hp
  exfalso; apply hp
  unfold State.pendingOn
  rw [List.map_eq_nil_iff, List.filter_eq_nil_iff]
  intro e he; simp [h e he]

theorem sent_of_host {s t : State} (h : t.host = s.host) (hs : messagesSent s) : messagesSent t := by
  intro v hv hp
  have h1 : t.pendingOn v = s.pendingOn v := by unfold State.pendingOn State.srcCfg; rw [h]
  have h2 : t.vector v = s.vector v := by unfold State.vector; rw [h]
  rw [h2]; exact hs v hv (h1 ▸ hp)

end Sys2Proof.Laws
end

