-- ==== Sys2Proof/Laws/Operations.lean ====
section
/-! SUPPORT. What the shared operations of frames, fault messages, table compares and microwords do, one lemma each. -/

namespace Sys2Proof.Laws

open Sys2Proof.Machine Sys2Proof.Safety

/-! ### Frames -/

theorem receiveFrame_framed (o : Origin) (f : List Byte) (s : State) (ty : Nat) (h : s.live = true) (h1 : s.transportOpen o = true) (h2 : Framed f ty) (h3 : ty ∈ clientTypes) :
    s.receiveFrame o f f.length = if ty = 1 then s.hello o f else if ty = 3 then s.prove o f else s.forSession o f := by
  obtain ⟨a, b, c, d⟩ := h2
  rw [State.receiveFrame, if_neg (by simp [h]), if_neg (by simp [h1]), if_neg (by simp [a]; omega), if_neg (by simp [c]), if_neg (by simp [d, h3])]
  simp only [d]

theorem takeFrame_framed (o : Origin) (f : List Byte) (s : State) (ty : Nat) (p : Nat → Bool) (h : s.live = true) (h1 : s.transportOpen o = true) (h2 : Framed f ty) (h3 : ty ∈ clientTypes) (h4 : p ty = true) (h5 : Free o s) :
    s.takeFrame o f p =
      let t := beforeFrame o s
      afterFrame o (if ty = 1 then t.hello o f else if ty = 3 then t.prove o f else t.forSession o f) := by
  have hl : (beforeFrame o s).live = true := by unfold beforeFrame; split <;> exact h
  have ht : (beforeFrame o s).transportOpen o = true := by unfold beforeFrame; split <;> exact h1
  have hr := receiveFrame_framed o f (beforeFrame o s) ty hl ht h2 h3
  rw [State.takeFrame, h2.2.2.2, if_pos h4]; simp only []; rw [← hr]
  by_cases hm : o = .mailbox
  · rw [if_pos hm, if_neg (by simp [h5 hm]), beforeFrame, if_pos hm, afterFrame, if_pos hm]
  · rw [if_neg hm, beforeFrame, if_neg hm, afterFrame, if_neg hm]

/-! ### Fault messages -/

theorem mergeEntry_none (s : State) (m : FaultMsg) (l : List LogEntry) (h : ∀ e ∈ l, s.repeats m e = false) : s.mergeEntry m l = none := by
  induction l with
  | nil => rfl
  | cons e l ih => rw [State.mergeEntry, if_neg (by simp [h e]), ih (fun x hx => h x (List.mem_cons_of_mem _ hx))]; rfl

/-! ### Comparing a table copy -/

theorem emSeen_same (c c' : TableCopy) (slot : Nat) (h : tget c.em (0, 0) slot = tget c'.em (0, 0) slot) :
    (emSeen c slot 0 != emRaw (tget c'.em (0, 0) slot)) = false := by
  rw [emSeen, h, Nat.xor_zero, bne_self_eq_false]

theorem emSeen_differs (c c' : TableCopy) (slot : Nat) (h : tget c.em (0, 0) slot ≠ tget c'.em (0, 0) slot)
    (h2 : (tget c'.em (0, 0) slot).2 < 2 ^ 72) (h3 : (tget c.em (0, 0) slot).2 < 2 ^ 72) :
    (emSeen c slot 0 != emRaw (tget c'.em (0, 0) slot)) = true := by
  rw [emSeen, Nat.xor_zero]; exact bne_iff_ne.mpr (fun he => h (emRaw_inj h2 h3 he))

theorem compareLap_same (t : State) (slot : Nat) : t.compareLap true slot = t := by
  rw [State.compareLap, if_neg (by simp)]

/-! ### Cells and microwords -/

theorem cell_refreshCell (s : State) (a b : Nat) : (s.refreshCell a).cell b = s.cell b := by
  unfold State.refreshCell; split
  · split <;> simp [State.cell]
  · rfl

theorem issueWord_not_due {s : State} {cc op stop : Nat} {f} (h : s.mayIssue cc = false) : s.issueWord cc op stop f = s := by
  rw [State.issueWord, if_neg (by simp [h])]

theorem issueWord_no_word {s t : State} {cc op stop : Nat} {f} (h : s.mayIssue cc = true) (h1 : s.fetch cc = (t, none)) : s.issueWord cc op stop f = t := by
  rw [State.issueWord, if_pos h, h1]

theorem issueWord_word {s t : State} {cc op stop w : Nat} {f} (h : s.mayIssue cc = true ∧ s.fetch cc = (t, some w) ∧ bits (mwSeqOp w) 3 3 = op ∧ mwStop w = stop) : s.issueWord cc op stop f = f t w := by
  rw [State.issueWord, if_pos h.1, h.2.1]; simp only []; rw [if_pos h.2.2]

/-! ### Reads of the on-chip stores (R293, R126) -/

/-- A location whose stored word is as it was written reads clean, and nothing else happens. -/
theorem readSram_clean (s : State) (loc acc master : Nat) (h : tget s.mem.sram 0 loc = 0) :
    s.readSram loc acc master = (s, .clean) := by
  have hd : (hammingDecode 0).1 = .clean := by decide
  unfold State.readSram
  simp only [h, hd]

/-- A microword's read of a store without changed bits is clean. -/
theorem readWord_clean (s : State) (cw bank addr acc master : Nat) (h : s.mem.sram = []) :
    s.readWord cw bank addr acc master = (s, false) := by
  have hs (l : Nat) : tget s.mem.sram 0 l = 0 := by rw [h]; rfl
  have hl (ks : List Nat) : ks.foldl (fun (q : State × Bool) k =>
      let r := q.1.readSram (sramLoc 2 cw (bank * 73728 + addr * 18 + k)) acc master
      (r.1, q.2 || decide (r.2 = .uncorrectable))) (s, false) = (s, false) := by
    induction ks with
    | nil => rfl
    | cons k ks ih => rw [List.foldl_cons, readSram_clean s _ _ _ (hs _)]; exact ih
  exact hl _

theorem fetch_clean (s : State) (cc : Nat) (h : s.mem.sram = []) (hf : (s.cell cc).addr ∉ (s.bank (s.cellBank cc)).fenced) :
    s.fetch cc = (s, some (tget (s.bank (s.cellBank cc)).words trapWord (s.cell cc).addr)) := by
  unfold State.fetch
  simp only [readWord_clean s _ _ _ _ _ h]
  simp [hf]

/-! ### Access to HBM3: what a demand access counts moves no region -/

theorem regionAt_demandAct (s : State) (act : DemandAct) (a n : Nat) : (s.demandAct act).regionAt a n = s.regionAt a n := by
  have g (t : State) (r : Row) (i k : Nat) (hr : r.base + i ≠ 0x5100 ∨ r.sub ≠ 0x0A) (h1 : r.sub < 256) :
      (t.bumpBy Od.hbm_NR_ACTIVATES 0 0 k).get r i = t.get r i := by
    have h : Od.hbm_NR_ACTIVATES.key 0 0 ≠ r.key i 0 := by simp [Row.key, Od.hbm_NR_ACTIVATES]; omega
    simp only [State.bumpBy]; split
    · simp only [State.get, State.put]; exact Laws.tget_tput_ne _ _ _ _ h
    · simp only [State.get, State.put, State.useFree]; exact Laws.tget_tput_ne _ _ _ _ h
  rw [State.demandAct]; simp only []
  split
  · simp only [State.regionAt, State.inRegion, State.regionExists]
    simp only [g _ Od.reg_KIND _ _ (Or.inr (by decide)) (by decide), g _ Od.reg_BASE _ _ (Or.inr (by decide)) (by decide),
      g _ Od.reg_SIZE _ _ (Or.inr (by decide)) (by decide)]
    rfl
  · rfl

theorem regionAt_demandActs (s : State) (acts : List DemandAct) (a n : Nat) : (s.demandActs acts).regionAt a n = s.regionAt a n := by
  rw [State.demandActs]; split
  · rfl
  · exact foldl_keeps State.demandAct (fun t => t.regionAt a n) (fun t x => regionAt_demandAct t x a n) _ _

/-- A read within a region is answered, with data or poisoned: it is never turned away (R286). -/
theorem hbmRead_answers (s : State) (master a len : Nat) (m : MemMeet) (h : (s.regionAt a len).isNone = false) :
    (s.hbmRead master a len m).2 ≠ .rejected := by
  have h1 : ((s.addFlips m.flips).demandActs m.acts).regionAt a len = s.regionAt a len := regionAt_demandActs _ _ _ _
  rw [State.hbmRead]; simp only [h1]
  cases hr : s.regionAt a len with
  | none => rw [hr] at h; cases h
  | some r =>
    simp only []
    repeat' split
    all_goals simp

end Sys2Proof.Laws
end

