-- ==== Sys2Proof/Machine/Package.lean ====
section
/-! DEFINITION. The package: names of balls (R513), the balls of lanes (R515), the counts of signals and of supply balls (R514,
R516, R520), and what the output pins drive (R519). -/

namespace Sys2Proof.Machine

/-! ### Balls (R513–R516, R520) -/

/-- Letters of ball rows, in their order. -/
def rowLetters : List Char := "ABCDEFGHJKLMNPTUVWY".toList

/-- Names of the 52 ball rows: single letters, then AA to AY, then BA to BP. -/
def ballRows : List (List Char) :=
  ((rowLetters.map fun c => [c]) ++ (rowLetters.map fun c => ['A', c]) ++ rowLetters.map fun c => ['B', c]).take 52

/-- A ball: its row and column, both counted from 1. -/
structure Ball where
  row    : Nat
  column : Nat
  deriving DecidableEq, Repr

/-- The name of a ball: its row, then its column (R513). -/
def Ball.name (b : Ball) : String := String.ofList (ballRows.getD (b.row - 1) []) ++ toString b.column

/-- The four wires of a lane. -/
inductive LaneWire where
  | txP | txN | rxP | rxN
  deriving DecidableEq, Repr

/-- Place of a wire within its carrying column, counted from the package edge: the first lane's and the second lane's transmit
pair, then their receive pairs. -/
def LaneWire.place (w : LaneWire) (second : Bool) : Nat :=
  (match w with
    | .txP => 0
    | .txN => 1
    | .rxP => 4
    | .rxN => 5) + if second then 2 else 0

/-- The ball of a lane's wire (R515): quads 0 to 15 in North, 16 to 31 in South. -/
def laneBall (lane : Nat) (w : LaneWire) : Ball :=
  let q := lane / 4
  let column := 3 * (q % 16) + 3 + if lane % 4 < 2 then 0 else 2
  let n := w.place (lane % 2 == 1)
  ⟨if q < 16 then 1 + n else 52 - n, column⟩

/-- Supply of a ball in the middle column of a quad, by its place from the package edge (R515). -/
def quadSupply (place : Nat) : String :=
  if place = 2 then "VDDH_LANE" else if place = 4 ∨ place = 5 then "VDDA_LANE" else "VSS"

/-- Balls of the signal groups (R516). -/
def signalBalls : List (String × Nat) :=
  [("Lanes", 512), ("Lane clocks", 8), ("Lane calibration", 4), ("PCIe", 32), ("PCIe clock and reset", 3), ("PCIe calibration", 1),
   ("System clock", 2), ("Management port", 4), ("PHY management", 2), ("Core sense", 2), ("Quad-SPI", 6), ("Frame sync", 4),
   ("Resets", 2), ("Fault", 1), ("Boot mode", 2), ("AVSBus", 3), ("JTAG", 5), ("Thermal diode", 2), ("Reserved", 25)]

/-- Supply balls by rail (R520). -/
def supplyBalls : List (String × Nat) :=
  [("VSS", 1070), ("VDD_CORE", 420), ("VDD_SOC", 180), ("VDD_SRAM", 90), ("VDDA_LANE", 130), ("VDDH_LANE", 64), ("VDD_HBM", 48),
   ("VDDQ_HBM", 40), ("VDD_PCIE", 12), ("VDD_IO", 12), ("VPP_HBM", 8), ("VDDH_PCIE", 4), ("VDD_AON", 4), ("VDD_EFUSE", 2)]

/-- Regions of the ball array: rows, columns and signals (R514). -/
def ballRegions : List (String × Nat × Nat × Nat) :=
  [("North", 8, 52, 256), ("South", 8, 52, 256), ("West", 36, 4, 45), ("East", 36, 4, 63), ("Centre", 36, 44, 0)]

/-! ### Output pins (R519) -/

/-- Output pins of the table of R519. -/
inductive OutputPin where
  | faultN
  | lane (l : Fin 128)
  | management
  | pcie
  | qspiCs
  | slowClocks
  | avsData
  | tdo
  deriving DecidableEq, Repr

/-- What a pin drives: `idle` is electrical idle, `driven` the unit's own signal. -/
inductive PinState where
  | low | high | released | idle | highZ | driven
  deriving DecidableEq, Repr

/-- The engine is under a reset: PORST_N is low, or the monitor network holds it in warm reset. -/
def State.inReset (s : State) : Bool := !s.power.porst || s.power.held

/-- What an output pin drives (R456, R519). A lane's transmitter is idle until its port is brought up; TDO drives in shifts
alone, which the model does not hold. -/
def State.pin (s : State) (p : OutputPin) : PinState :=
  match p with
  | .faultN => if s.faultN then .low else .released
  | .lane l =>
    let port := s.portOf l
    if s.inReset || !s.quadOn (l / 4) || !(s.portActive port || decide (0 < (s.link port).stage)) then .idle else .driven
  | .management => if s.inReset then .idle else .driven
  | .pcie => if s.inReset || !s.pciePowered then .idle else .driven
  | .qspiCs => if s.inReset then .high else .driven
  | .slowClocks => if s.inReset then .low else .driven
  | .avsData => if s.inReset then .high else .driven
  | .tdo => .highZ

end Sys2Proof.Machine
end

