-- ==== Sys2Proof/WellFormed.lean ====
section
/-! DEFINITION. Well-formed commands: every operand fits the field, register or frame that carries it (R37, R48, R68). The
numbers of instances are bounded by the operand types already. -/

namespace Sys2Proof

/-- A raster time fits its word (R8). -/
def RTime.wf (t : RTime) : Bool := decide (t.frame < 2 ^ 40) && decide (t.line < 2 ^ 16) && decide (t.phase < 2 ^ 16)

/-- Every operand of a command fits the field that carries it. -/
def Instr.wf : Instr → Bool
  | .frameStart _ => true
  | .lineMatch _ => true
  | .rasterEventDue _ => true
  | .refFrameEdge _ _ => true
  | .edgeWindowClose _ => true
  | .ptpMessage u => decide (u.port < 256) && decide (u.domain < 256) && decide (u.mech < 2) && decide (u.state < 5) && decide (u.gm < 2 ^ 64)
  | .ptpStateLeavesSlave newState => decide (newState < 5)
  | .holdoverTimeout _ => true
  | .rasterJump _ refFrame => decide (refFrame < 2 ^ 40)
  | .domainEnableWrite _ _ v => decide (v < 2 ^ 64)
  | .swapPoint _ => true
  | .swapNow scope => decide (scope < 2 ^ 16)
  | .hello _ frame => decide (frame.length < 2 ^ 24)
  | .prove _ frame => decide (frame.length < 2 ^ 24)
  | .request _ frame => decide (frame.length < 2 ^ 24)
  | .notifyAck _ frame => decide (frame.length < 2 ^ 24)
  | .close _ frame => decide (frame.length < 2 ^ 24)
  | .handshakeTimeout session => decide (session < 2 ^ 32)
  | .idleTimeout session => decide (session < 2 ^ 32)
  | .notifyResendTimeout session seq => decide (session < 2 ^ 32) && decide (seq < 2 ^ 32)
  | .commandResponseTimeout code => decide (code < 256)
  | .commandCompletion code => decide (code < 256)
  | .objectWrite _ => true
  | .stickyClear _ index sub => decide (index < 2 ^ 16) && decide (sub < 256)
  | .streamOpen sid flags => decide (sid < 2 ^ 16) && decide (flags < 2 ^ 16)
  | .streamOpenDryRun sid flags => decide (sid < 2 ^ 16) && decide (flags < 2 ^ 16)
  | .streamCloseAtSwap sid => decide (sid < 2 ^ 16)
  | .streamCloseAtOnce sid => decide (sid < 2 ^ 16)
  | .crownMaskWrite _ _ v => decide (v < 2 ^ 64)
  | .clipStore clip source addr length _ => decide (clip < 2 ^ 16) && decide (source < 256) && decide (addr < 2 ^ 64) && decide (length < 2 ^ 32)
  | .clipDelete clip => decide (clip < 2 ^ 16)
  | .playlistSet sid entries => decide (sid < 2 ^ 16) && decide (entries.length < 2 ^ 16) && entries.all (fun e => decide (e.clip < 2 ^ 16) && e.start.wf)
  | .rowStart _ _ => true
  | .rowComplete _ _ => true
  | .depReady _ blocks => decide (blocks < 2 ^ 16)
  | .rapRequest _ _ v => decide (v < 2 ^ 64)
  | .rowCompletionDeadline _ _ pic row cd => decide (pic < 2 ^ 24) && decide (row < 68) && decide (cd < 2 ^ 72)
  | .pacedSlipExpiry _ encode stage pic => decide (stage < 16) && (!encode || decide (stage < 8)) && decide (pic < 2 ^ 24)
  | .patPmtRepeatTimer _ _ => true
  | .mirrorWriteDone _ => true
  | .memoryPortFillDone _ => true
  | .cellOutOfService _ _ v => decide (v < 2 ^ 64)
  | .clockForceWrite _ _ v => decide (v < 2 ^ 64)
  | .crownPark _ => true
  | .crownWakeDone _ => true
  | .crownStepDone _ => true
  | .crownDownHoldExpiry _ => true
  | .crownReset cw bistPass => decide (cw < 256) && decide (bistPass < 256)
  | .mwJump _ ext => decide (ext < 2 ^ 80)
  | .mwBr2 _ ext => decide (ext < 2 ^ 80)
  | .mwBr4 _ ext => decide (ext < 2 ^ 80)
  | .mwCall _ ext => decide (ext < 2 ^ 80)
  | .mwReturn _ ext => decide (ext < 2 ^ 80)
  | .mwWait _ ext => decide (ext < 2 ^ 80)
  | .waitLimitExpiry e => decide (e.ext < 2 ^ 80)
  | .mwRowEnd _ ext => decide (ext < 2 ^ 80)
  | .mwTrap _ => true
  | .controlStoreWordRestore _ _ addr => decide (addr < 4096)
  | .bankSelectWrite _ v => decide (v < 2 ^ 64)
  | .microcodeLoad cwMask bank source addr length => decide (cwMask < 2 ^ 16) && decide (bank < 256) && decide (source < 256) && decide (addr < 2 ^ 64) && decide (length < 2 ^ 32)
  | .patchLoad source addr length => decide (source < 256) && decide (addr < 2 ^ 64) && decide (length < 2 ^ 32)
  | .inputPacketArrival _ _ _ p => decide (p.seq < 2 ^ 32) && decide (p.pid < 2 ^ 13)
  | .gapDeclareTimeout _ _ seq _ => decide (seq < 2 ^ 32)
  | .decodeGiveup _ _ pic row => decide (pic < 2 ^ 24) && decide (row < 68)
  | .motionDecisionDeadline _ _ pic row => decide (pic < 2 ^ 24) && decide (row < 68)
  | .inputTimeout _ _ => true
  | .rotationPassStart _ _ pass => decide (pass < 17)
  | .stripWritten _ _ pass pic strip _ => decide (pass < 17) && decide (pic < 2 ^ 24) && decide (strip < 68)
  | .conditionerOutOfService _ _ v => decide (v < 2 ^ 64)
  | .regionCreate region kind t base size => decide (region < 256) && decide (kind < 256) && decide (t < 256) && decide (base < 2 ^ 64) && decide (size < 2 ^ 64)
  | .regionDelete region => decide (region < 256)
  | .scrub base size => decide (base < 2 ^ 64) && decide (size < 2 ^ 64)
  | .fuseRepairSram addr _ _ _ => decide (addr < 2 ^ 64)
  | .fuseRepairHbm3Row addr _ _ ns => decide (addr < 2 ^ 64) && decide (ns < 2 ^ 32)
  | .hbmWrite _ addr data _ => decide (addr < 2 ^ 40) && decide (data.length < 2 ^ 24)
  | .hbmRead _ addr len _ => decide (addr < 2 ^ 40) && decide (len < 2 ^ 32)
  | .pageWriteBack page => decide (page < 2 ^ 40)
  | .refresh _ => true
  | .lfsrReseed => true
  | .hbmTemperatureRead _ _ => true
  | .retrainDue _ => true
  | .retrainPauseStart _ => true
  | .retrainEnd _ _ ns => decide (ns < 2 ^ 32)
  | .sramCorrectionWriteback loc => decide (loc < 2 ^ 64)
  | .fullingStep _ _ => true
  | .pictureRegionWrite _ v => decide (v < 2 ^ 64)
  | .poolEnableWrite _ _ v => decide (v < 2 ^ 64)
  | .minimumWrite _ _ _ v => decide (v < 2 ^ 64)
  | .queueAppend _ _ _ data => decide (data.length < 2 ^ 24)
  | .battDecrement batt => decide (batt < 2 ^ 32)
  | .cacheRefillDone _ => true
  | .cacheSpillDone _ => true
  | .replicationCopyDone => true
  | .queueFlush _ _ mask => decide (mask < 2 ^ 64)
  | .queueSweepDone => true
  | .receiverDetectStep _ _ => true
  | .linkStagePass _ => true
  | .linkStageTimeout _ => true
  | .linkRetryBackoffExpiry _ => true
  | .trainingFrame _ f => decide (f.frame.index < 4) && decide (f.frame.requests.length = 3) && f.frame.requests.all (fun r => decide (r < 3)) &&
    decide (f.frame.status.length = 3) && f.frame.status.all (fun r => decide (r < 3))
  | .alignBlock _ index width skew => decide (index < 4) && decide (width < 5) && decide (skew < 2 ^ 16)
  | .capabilityPacket _ c => decide (c.serial < 2 ^ 128) && decide (c.port < 128) && decide (c.width < 5) && decide (c.sealMode < 3)
  | .fomMeasurement _ _ => true
  | .blockLockLoss _ _ => true
  | .blockLockGained _ => true
  | .neighbourIdleTimeout _ => true
  | .pauseBlock _ mask => decide (mask < 256)
  | .pauseExpiry _ => true
  | .pauseRefreshTimer _ => true
  | .timingSendTimer _ => true
  | .timingPacket _ t => decide (t.rts.length = 8)
  | .chaecPacketReceive _ packet => decide (packet.length < 2 ^ 24)
  | .ethernetFrameReceive _ frame => decide (frame.length < 2 ^ 24)
  | .rekeyTimer _ => true
  | .rekeyMessage _ _ => true
  | .rekeyTimeout _ => true
  | .oldKeyExpiry _ => true
  | .linkRetrain port => decide (port < 256)
  | .linkRetrainTimeout _ => true
  | .quadReset qd power => decide (qd < 256) && decide (power < 256)
  | .mgmtStateChange _ speed ipv4 => decide (speed < 2 ^ 16) && decide (ipv4 < 2 ^ 32)
  | .fabricSwap at_ => at_.wf
  | .snapshot at_ set => at_.wf && decide (set < 256)
  | .broadcast at_ items => at_.wf && decide (items.length < 2 ^ 24)
  | .cardStart mode => decide (mode < 256)
  | .cardRestart _ epoch => decide (epoch < 2 ^ 32)
  | .cardOffer _ _ => true
  | .offerSendTimer => true
  | .cardChild _ epoch serial => decide (epoch < 2 ^ 32) && decide (serial < 2 ^ 128)
  | .cardCount _ _ => true
  | .cardQuietExpiry => true
  | .cardAssign _ _ => true
  | .cardJoin _ serial => decide (serial < 2 ^ 128)
  | .cardGraft _ _ => true
  | .graftWaitExpiry _ => true
  | .heartbeatTick => true
  | .heartbeatMiss => true
  | .cardTimeoutExpiry => true
  | .learnApply => true
  | .agePass => true
  | .shadowCompareStep _ slot _ => decide (slot < 66560)
  | .tableSyncInsert table base count => decide (table < 256) && decide (base < 2 ^ 64) && decide (count < 2 ^ 32)
  | .tableSyncDelete table base count => decide (table < 256) && decide (base < 2 ^ 64) && decide (count < 2 ^ 32)
  | .tableSyncReplaceAll table base count => decide (table < 256) && decide (base < 2 ^ 64) && decide (count < 2 ^ 32)
  | .tableSyncDump table base count => decide (table < 256) && decide (base < 2 ^ 64) && decide (count < 2 ^ 32)
  | .globalAnnounce _ _ => true
  | .globalOpAct opId => decide (opId < 2 ^ 32)
  | .globalConfirm _ opId applied => decide (opId < 2 ^ 32) && decide (applied < 2 ^ 16)
  | .globalOpTimeout opId => decide (opId < 2 ^ 32)
  | .egressStart _ => true
  | .egressPacketEnd _ => true
  | .calendarSlot _ => true
  | .gateEntryBoundary _ => true
  | .gateApplyInstall _ _ => true
  | .gateApplyRemove _ _ => true
  | .gateChangeStart _ => true
  | .pcieFunctionReset => true
  | .pcieRequestsBlocked _ => true
  | .pcieRequestsAllowed _ => true
  | .d0Return => true
  | .msixUnmask _ => true
  | .bar2Access offset read write _ => decide (offset < 2 ^ 32) && (read.all fun n => decide (n ≤ 4096)) && decide (write.length < 2 ^ 24)
  | .windowBaseWrite v => decide (v < 2 ^ 64)
  | .bar0MisuseAccess offset size => decide (offset < 2 ^ 32) && decide (size < 2 ^ 32)
  | .mbxDoorbell length buffer => decide (length < 8192) && decide (buffer.length < 2 ^ 24)
  | .mbxCopyDone => true
  | .mbxRelease => true
  | .dmaRun _ => true
  | .dmaStop _ => true
  | .dmaClearError _ => true
  | .dmaDoorbell _ => true
  | .dmaDescriptorFetched _ _ hostData _ => decide (hostData.length < 2 ^ 24)
  | .dmaReadbackDone _ => true
  | .dmaHostReadError _ received => decide (received.length < 2 ^ 24)
  | .dmaQueuePacketReady _ => true
  | .dmaBattAvailable _ => true
  | .coalesceTimerExpiry _ => true
  | .claim _ => true
  | .complete _ src => decide (src < 2 ^ 32)
  | .fastClaim => true
  | .fastComplete src => decide (src < 2 ^ 32)
  | .srcCfgWrite _ v => decide (v < 2 ^ 64)
  | .streamEvtClear _ mask => decide (mask < 2 ^ 32)
  | .faultMessage _ => true
  | .rowWatchdogExpiry _ => true
  | .cpWatchdogExpiry => true
  | .captureClear _ => true
  | .stickyWrite _ _ v => decide (v < 2 ^ 64)
  | .clearAll _ v => decide (v < 2 ^ 64)
  | .attest nonce => decide (nonce.length = 64)
  | .debugToken _ token => decide (token.length < 2 ^ 16)
  | .debugSeal _ v => decide (v < 2 ^ 64)
  | .ownerKeyHashWrite _ hash => decide (hash.length < 2 ^ 16)
  | .flashProgram _ v => decide (v < 2 ^ 64)
  | .flashProgramDone _ => true
  | .islandWatchdogExpiry => true
  | .trngHealthFailure => true
  | .islandMonitorExcursion => true
  | .porstN _ _ => true
  | .wrstN lowNs => decide (lowNs < 2 ^ 32)
  | .warmReset => true
  | .warmResetDelayExpiry => true
  | .railExcursion _ => true
  | .pllLockLoss _ => true
  | .railsBackWithinTolerance => true
  | .startUpStep _ => true
  | .avsReadbackTimeout readMv => decide (readMv < 2 ^ 16)
  | .thermalReading temps => decide (temps.length ≤ 72)
  | .conditionerHalfPowerUpDone _ => true
  | .conditionerHalfIdleExpiry _ => true

end Sys2Proof
end

