-- ==== Sys2Proof/Tests/Slice0.lean ====
section
/-! SUPPORT. The model's own tests: the checks of well-formedness, a few steps against numbers of the spec, and for every
statement with hypotheses a witness, state and operands, that meets all of them together. -/

namespace Sys2Proof.Tests

open Sys2Proof.Machine Sys2Proof.Safety

set_option maxRecDepth 20000
set_option Elab.async false

/-- A state with some objects set: row, instance and value. -/
def objs (l : List (Row × Nat × Nat)) (s : State := {}) : State := l.foldl (fun t e => t.set e.1 e.2.1 e.2.2) s

/-- A state in which a command runs. -/
def running (code : Nat) (args : List Byte) (s : State := {}) : State :=
  s.setCmdQueue code { running := some { ticket := 1, code := code, session := 0, args := plainArgs code args, at_ := 0 } }

theorem running_running (code : Nat) (args : List Byte) (s : State) : Running (running code args s) code args :=
  ⟨{ ticket := 1, code := code, session := 0, args := plainArgs code args, at_ := 0 }, by
    simp [State.cmdQueue, running, State.setCmdQueue], rfl, rfl⟩

/-- The command is taken where it runs. -/
theorem taken (code : Nat) (args : List Byte) (s : State := {}) : Taken (running code args s) code args (running code args s) :=
  Or.inl ⟨running_running code args s, rfl⟩

/-- The other way to be taken: nothing runs, and the command takes a ticket. -/
theorem witness_Taken : ∃ (s u : State), s.live = true ∧ s.mayStart 0x02 = true ∧ Taken s 0x02 [0#8, 0#8, 1#8] u :=
  ⟨{ live := true }, State.acceptCommand { live := true } 0x02 0 [0#8, 0#8, 1#8] none, by decide, by decide,
    Or.inr ⟨by decide, by decide, by decide, by decide, rfl⟩⟩

/-! ### Ill-formed commands: one for each check -/

theorem test_wf_raster : ((
    [.ptpStateLeavesSlave 5, .rasterJump 0 (2 ^ 40), .domainEnableWrite .admin 0 (2 ^ 64), .swapNow (2 ^ 16),
     .ptpMessage ⟨256, 0, .udp4, false, 0, 0, 0, 0, none⟩, .ptpMessage ⟨0, 256, .udp4, false, 0, 0, 0, 0, none⟩,
     .ptpMessage ⟨0, 0, .udp4, false, 2, 0, 0, 0, none⟩, .ptpMessage ⟨0, 0, .udp4, false, 0, 5, 0, 0, none⟩,
     .ptpMessage ⟨0, 0, .udp4, false, 0, 0, 0, 2 ^ 64, none⟩] : List Instr).all fun i => !i.wf) = true := by decide +kernel

theorem test_wf_iop : ((
    [.handshakeTimeout (2 ^ 32), .idleTimeout (2 ^ 32), .notifyResendTimeout (2 ^ 32) 0, .notifyResendTimeout 0 (2 ^ 32),
     .commandResponseTimeout 256, .commandCompletion 256, .stickyClear .admin (2 ^ 16) 0,
     .stickyClear .admin 0 256] : List Instr).all fun i => !i.wf) = true := by decide +kernel

theorem test_wf_streams : ((
    [.streamOpen (2 ^ 16) 0, .streamOpen 0 (2 ^ 16), .streamOpenDryRun (2 ^ 16) 0, .streamOpenDryRun 0 (2 ^ 16),
     .streamCloseAtSwap (2 ^ 16), .streamCloseAtOnce (2 ^ 16), .crownMaskWrite .admin 0 (2 ^ 64),
     .clipStore (2 ^ 16) 0 0 0 ⟨true, 0, 0, 0, 0, 0, 0, 0, []⟩, .clipStore 0 256 0 0 ⟨true, 0, 0, 0, 0, 0, 0, 0, []⟩,
     .clipStore 0 0 (2 ^ 64) 0 ⟨true, 0, 0, 0, 0, 0, 0, 0, []⟩, .clipStore 0 0 0 (2 ^ 32) ⟨true, 0, 0, 0, 0, 0, 0, 0, []⟩,
     .clipDelete (2 ^ 16), .playlistSet (2 ^ 16) [], .depReady 0 (2 ^ 16), .playlistSet 0 [⟨2 ^ 16, ⟨0, 0, 0⟩⟩],
     .playlistSet 0 [⟨0, ⟨2 ^ 40, 0, 0⟩⟩]] : List Instr).all fun i => !i.wf) = true := by decide +kernel

theorem test_wf_encoding : ((
    [.rapRequest .admin 0 (2 ^ 64), .rowCompletionDeadline 0 0 (2 ^ 24) 0 0, .rowCompletionDeadline 0 0 0 68 0,
     .rowCompletionDeadline 0 0 0 0 (2 ^ 72), .pacedSlipExpiry 0 true 16 0, .pacedSlipExpiry 0 true 8 0,
     .pacedSlipExpiry 0 true 0 (2 ^ 24)] : List Instr).all fun i => !i.wf) = true := by decide +kernel

theorem test_wf_crowns : ((
    [.cellOutOfService .admin 0 (2 ^ 64), .clockForceWrite .admin 0 (2 ^ 64), .crownReset 256 0,
     .crownReset 0 256] : List Instr).all fun i => !i.wf) = true := by decide +kernel

theorem test_wf_microcode : ((
    [.mwJump 0 (2 ^ 80), .mwBr2 0 (2 ^ 80), .mwBr4 0 (2 ^ 80), .mwCall 0 (2 ^ 80), .mwReturn 0 (2 ^ 80), .mwWait 0 (2 ^ 80),
     .mwRowEnd 0 (2 ^ 80), .controlStoreWordRestore 0 0 4096, .bankSelectWrite .admin (2 ^ 64), .microcodeLoad (2 ^ 16) 0 0 0 0,
     .microcodeLoad 0 256 0 0 0, .microcodeLoad 0 0 256 0 0, .microcodeLoad 0 0 0 (2 ^ 64) 0, .microcodeLoad 0 0 0 0 (2 ^ 32),
     .patchLoad 256 0 0, .patchLoad 0 (2 ^ 64) 0, .patchLoad 0 0 (2 ^ 32),
     .waitLimitExpiry ⟨0, 2 ^ 80⟩] : List Instr).all fun i => !i.wf) = true := by decide +kernel

theorem test_wf_decoding : ((
    [.gapDeclareTimeout 0 0 (2 ^ 32) [], .decodeGiveup 0 0 (2 ^ 24) 0, .decodeGiveup 0 0 0 68, .motionDecisionDeadline 0 0 (2 ^ 24) 0,
     .motionDecisionDeadline 0 0 0 68, .inputPacketArrival none 0 0 { seq := 2 ^ 32 },
     .inputPacketArrival none 0 0 { seq := 0, pid := 2 ^ 13 }] : List Instr).all fun i => !i.wf) = true := by decide +kernel

theorem test_wf_conditioning : ((
    [.rotationPassStart 0 0 17, .stripWritten 0 0 17 0 0 0, .stripWritten 0 0 0 (2 ^ 24) 0 0, .stripWritten 0 0 0 0 68 0,
     .conditionerOutOfService .admin 0 (2 ^ 64)] : List Instr).all fun i => !i.wf) = true := by decide +kernel

theorem test_wf_memory : ((
    [.regionCreate 256 0 0 0 0, .regionCreate 0 256 0 0 0, .regionCreate 0 0 256 0 0, .regionCreate 0 0 0 (2 ^ 64) 0,
     .regionCreate 0 0 0 0 (2 ^ 64), .regionDelete 256, .scrub (2 ^ 64) 0, .scrub 0 (2 ^ 64), .fuseRepairSram (2 ^ 64) true true true,
     .fuseRepairHbm3Row (2 ^ 64) true true 0, .fuseRepairHbm3Row 0 true true (2 ^ 32),
     .hbmWrite .queueEngine (2 ^ 40) [] ⟨[], 0, 0, []⟩, .hbmRead .queueEngine (2 ^ 40) 0 ⟨[], 0, 0, []⟩,
     .hbmRead .queueEngine 0 (2 ^ 32) ⟨[], 0, 0, []⟩, .pageWriteBack (2 ^ 40), .retrainEnd 0 true (2 ^ 32),
     .sramCorrectionWriteback (2 ^ 64),
     .pictureRegionWrite .admin (2 ^ 64)] : List Instr).all fun i => !i.wf) = true := by decide +kernel

theorem test_wf_queues : ((
    [.poolEnableWrite .admin 0 (2 ^ 64), .minimumWrite .admin true 0 (2 ^ 64), .battDecrement (2 ^ 32),
     .queueFlush .admin 0 (2 ^ 64)] : List Instr).all fun i => !i.wf) = true := by decide +kernel

theorem test_wf_lanes : ((
    [.alignBlock 0 4 0 0, .alignBlock 0 0 5 0, .alignBlock 0 0 0 (2 ^ 16), .pauseBlock 0 256, .linkRetrain 256, .quadReset 256 0,
     .quadReset 0 256, .mgmtStateChange true (2 ^ 16) 0, .mgmtStateChange true 0 (2 ^ 32),
     .trainingFrame 0 ⟨⟨4, [0, 0, 0], [0, 0, 0], false, false⟩, false⟩,
     .trainingFrame 0 ⟨⟨0, [0, 0], [0, 0, 0], false, false⟩, false⟩,
     .trainingFrame 0 ⟨⟨0, [0, 0, 3], [0, 0, 0], false, false⟩, false⟩,
     .trainingFrame 0 ⟨⟨0, [0, 0, 0], [0, 0], false, false⟩, false⟩,
     .trainingFrame 0 ⟨⟨0, [0, 0, 0], [0, 3, 0], false, false⟩, false⟩, .capabilityPacket 0 ⟨2 ^ 128, 0, 0, 0, none⟩,
     .capabilityPacket 0 ⟨0, 128, 0, 0, none⟩, .capabilityPacket 0 ⟨0, 0, 5, 0, none⟩, .capabilityPacket 0 ⟨0, 0, 0, 3, none⟩,
     .timingPacket 0 ⟨0, 0, 0, 0, []⟩] : List Instr).all fun i => !i.wf) = true := by decide +kernel

theorem test_wf_fabric : ((
    [.snapshot ⟨0, 0, 0⟩ 256, .cardStart 256, .cardRestart 0 (2 ^ 32), .cardChild 0 (2 ^ 32) 0, .cardChild 0 0 (2 ^ 128),
     .cardJoin 0 (2 ^ 128), .shadowCompareStep true 66560 ⟨0, 0, false, false, false⟩, .tableSyncInsert 256 0 0,
     .tableSyncInsert 0 (2 ^ 64) 0, .tableSyncInsert 0 0 (2 ^ 32), .tableSyncDelete 256 0 0, .tableSyncDelete 0 (2 ^ 64) 0,
     .tableSyncDelete 0 0 (2 ^ 32), .tableSyncReplaceAll 256 0 0, .tableSyncReplaceAll 0 (2 ^ 64) 0,
     .tableSyncReplaceAll 0 0 (2 ^ 32), .tableSyncDump 256 0 0, .tableSyncDump 0 (2 ^ 64) 0, .tableSyncDump 0 0 (2 ^ 32),
     .globalOpAct (2 ^ 32), .globalConfirm 0 (2 ^ 32) 0, .globalConfirm 0 0 (2 ^ 16), .globalOpTimeout (2 ^ 32),
     .fabricSwap ⟨2 ^ 40, 0, 0⟩, .fabricSwap ⟨0, 2 ^ 16, 0⟩, .fabricSwap ⟨0, 0, 2 ^ 16⟩, .snapshot ⟨2 ^ 40, 0, 0⟩ 0,
     .broadcast ⟨2 ^ 40, 0, 0⟩ []] : List Instr).all fun i => !i.wf) = true := by decide +kernel

theorem test_wf_host : ((
    [.bar2Access (2 ^ 32) none [] ⟨[], 0, 0, []⟩, .windowBaseWrite (2 ^ 64), .bar0MisuseAccess (2 ^ 32) 0,
     .bar0MisuseAccess 0 (2 ^ 32), .mbxDoorbell 8192 [], .complete 0 (2 ^ 32), .fastComplete (2 ^ 32), .srcCfgWrite 0 (2 ^ 64),
     .streamEvtClear 0 (2 ^ 32),
     .bar2Access 0 (some 4097) [] ⟨[], 0, 0, []⟩] : List Instr).all fun i => !i.wf) = true := by decide +kernel

theorem test_wf_faults : ((
    [.stickyWrite .admin 0 (2 ^ 64), .clearAll .admin (2 ^ 64)] : List Instr).all fun i => !i.wf) = true := by decide +kernel

theorem test_wf_security : ((
    [.debugSeal .admin (2 ^ 64), .flashProgram .admin (2 ^ 64),
     .attest (List.replicate 63 0#8)] : List Instr).all fun i => !i.wf) = true := by decide +kernel

theorem test_wf_power : ((
    [.wrstN (2 ^ 32), .avsReadbackTimeout (2 ^ 16),
     .thermalReading (List.replicate 73 0)] : List Instr).all fun i => !i.wf) = true := by decide +kernel

/-- Byte strings longer than any frame. -/
theorem test_wf_long (bs : List Byte) (h : 2 ^ 24 ≤ bs.length) :
    (.hello .mailbox bs : Instr).wf = false ∧
    (.prove .mailbox bs : Instr).wf = false ∧
    (.request .mailbox bs : Instr).wf = false ∧
    (.notifyAck .mailbox bs : Instr).wf = false ∧
    (.close .mailbox bs : Instr).wf = false ∧
    (.hbmWrite .queueEngine 0 bs ⟨[], 0, 0, []⟩ : Instr).wf = false ∧
    (.queueAppend 0 .dma 0 bs : Instr).wf = false ∧
    (.chaecPacketReceive 0 bs : Instr).wf = false ∧
    (.ethernetFrameReceive none bs : Instr).wf = false ∧
    (.broadcast ⟨0, 0, 0⟩ bs : Instr).wf = false ∧
    (.bar2Access 0 none bs ⟨[], 0, 0, []⟩ : Instr).wf = false ∧
    (.mbxDoorbell 0 bs : Instr).wf = false ∧
    (.dmaDescriptorFetched 0 none bs ⟨[], 0, 0, []⟩ : Instr).wf = false ∧
    (.dmaHostReadError 0 bs : Instr).wf = false := by
  have e : decide (bs.length < 2 ^ 24) = false := decide_eq_false (Nat.not_lt.mpr h)
  simp only [-Nat.reducePow, Instr.wf, e, Bool.and_false, and_self]

theorem test_wf_tokens (bs : List Byte) (h : 2 ^ 16 ≤ bs.length) :
    (.debugToken .admin bs : Instr).wf = false ∧
    (.ownerKeyHashWrite .admin bs : Instr).wf = false := by
  have e : decide (bs.length < 2 ^ 16) = false := decide_eq_false (Nat.not_lt.mpr h)
  simp only [-Nat.reducePow, Instr.wf, e, and_self]

theorem test_wf_playlist (es : List PlaylistEntry) (h : 2 ^ 16 ≤ es.length) : (.playlistSet 0 es : Instr).wf = false := by
  have e : decide (es.length < 2 ^ 16) = false := decide_eq_false (Nat.not_lt.mpr h)
  simp only [-Nat.reducePow, Instr.wf, e, Bool.and_false, Bool.false_and]

/-- A well-formed command of each of three shapes is accepted. -/
theorem test_wf_accepts : ([.swapNow (2 ^ 16 - 1), .timingPacket 0 ⟨0, 0, 0, 0, List.replicate 8 ⟨0, 0, 0⟩⟩, .crownPark 15] : List Instr).all Instr.wf = true := by
  decide +kernel

/-! ### Witnesses: the queue, the clock and raster time -/

theorem witness_StepRunsTheFrontCommand :
    (∃ (c : Instr) (rest : List Instr) (s : State), s.pending = c :: rest) ∧ (∃ s : State, s.pending = []) ∧
    (∃ s : State, s.power.porst = true) ∧ (∃ s : State, s.power.porst = false) :=
  ⟨⟨.heartbeatTick, [], { pending := [.heartbeatTick] }, rfl⟩, ⟨{}, rfl⟩, ⟨{}, rfl⟩, ⟨{ power := { porst := false } }, rfl⟩⟩

theorem witness_FrameAndLineEvents :
    (∃ (rd : Fin 8) (s : State), s.enabled rd = true ∧ notYet (s.dom rd).startedTo 1 = true ∧ notYet (s.dom rd).matchedTo 0 = true) ∧
    (∃ (rd : Fin 8) (s : State), s.enabled rd = true ∧ notYet (s.dom rd).startedTo 1 = false ∧ notYet (s.dom rd).matchedTo 0 = false) ∧
    (∃ (rd : Fin 8) (s : State), s.enabled rd = false) ∧ (∃ a b : Nat, a < 2 ^ 40 ∧ b < 2 ^ 40 ∧ notYet (some b) a = true) ∧
    (∃ rd : Nat, rd = 7) :=
  ⟨⟨0, {}, by decide⟩, ⟨0, { raster := { domains := [(0, { startedTo := some 1, matchedTo := some 0 })] } }, by decide⟩, ⟨7, {}, by decide⟩,
    ⟨0, 2 ^ 40 - 1, by decide⟩, ⟨7, rfl⟩⟩

theorem witness_ScheduledEvents :
    (∃ (s : State) (t : RTime), s.lpf 0 ≤ t.line) ∧ (∃ (s : State) (t : RTime), t.line + 1 = s.lpf 0) ∧
    (∃ (rd : Fin 8) (s : State) (e : Sched) (scope : Nat), s.nextSched rd = some e ∧
      s.later rd (s.occursAt rd e.at_) (s.now rd) = false ∧ e.kind = .swapNow scope) ∧
    (∃ (rd : Fin 8) (s : State) (e : Sched) (id : Nat), s.nextSched rd = some e ∧
      s.later rd (s.occursAt rd e.at_) (s.now rd) = false ∧ e.kind = .globalOp id) ∧
    (∃ (rd : Fin 8) (s : State) (e : Sched), s.nextSched rd = some e ∧ s.later rd (s.occursAt rd e.at_) (s.now rd) = true) ∧
    (∃ (rd : Fin 8) (s : State), s.nextSched rd = none) ∧
    (∃ (scope : Nat) (s u : State), Taken s 0x10 (leBytes 2 scope) u ∧ scope = 127 ∧ u.enabled (u.portDomain scope) = true) ∧
    (∃ (scope : Nat) (s u : State), Taken s 0x10 (leBytes 2 scope) u ∧ scope = 127 ∧ u.enabled (u.portDomain scope) = false) ∧
    (∃ (scope : Nat) (s u : State), Taken s 0x10 (leBytes 2 scope) u ∧ scope = 0xFFFF ∧ u.enabled 0 = true) ∧
    (∃ scope : Nat, scope = 128 ∧ scope ≠ 0xFFFF) :=
  ⟨⟨{}, ⟨1, 1125, 0⟩, by decide⟩, ⟨{}, ⟨1, 1124, 0⟩, by decide⟩,
    ⟨0, { raster := { sched := [⟨0, ⟨0, 0, 0⟩, .swapNow 0⟩] } }, ⟨0, ⟨0, 0, 0⟩, .swapNow 0⟩, 0, by decide⟩,
    ⟨0, { raster := { sched := [⟨0, ⟨0, 0, 0⟩, .globalOp 1⟩] } }, ⟨0, ⟨0, 0, 0⟩, .globalOp 1⟩, 1, by decide⟩,
    ⟨0, { raster := { sched := [⟨0, ⟨0, 0, 1⟩, .swapNow 0⟩] } }, ⟨0, ⟨0, 0, 1⟩, .swapNow 0⟩, by decide⟩, ⟨0, {}, by decide⟩,
    ⟨127, _, _, taken 0x10 (leBytes 2 127), rfl, by decide⟩,
    ⟨127, _, _, taken 0x10 (leBytes 2 127) (objs [(Od.port_DOMAIN, 127, 1)]), rfl, by decide⟩,
    ⟨0xFFFF, _, _, taken 0x10 (leBytes 2 0xFFFF), rfl, by decide⟩, ⟨128, by decide⟩⟩

/-- RD_0 locked to a reference pin, with some runs of misses. -/
def refState (seen : Bool) (misses : Nat) : State :=
  objs [(Od.rd_LOCK_STATE, 0, 2)] { raster := { domains := [(0, { src := 1, edgeSeen := seen, misses := misses })] } }

theorem witness_ReferenceEdges :
    (∃ (rd : Fin 8) (s : State), s.enabled rd = true ∧ (s.dom rd).src = 1 ∧ (s.dom rd).edgeSeen = true) ∧
    (∃ (rd : Fin 8) (s : State), s.enabled rd = true ∧ (s.dom rd).src = 1 ∧ (s.dom rd).edgeSeen = false ∧
      (s.dom rd).misses + 1 < s.get Od.rd_MISS_LIMIT rd) ∧
    (∃ (rd : Fin 8) (s : State), s.enabled rd = true ∧ (s.dom rd).src = 1 ∧ (s.dom rd).edgeSeen = false ∧
      s.get Od.rd_MISS_LIMIT rd = (s.dom rd).misses + 1 ∧ s.get Od.rd_LOCK_STATE rd = 2) ∧
    (∃ (rd : Fin 8) (s : State), s.enabled rd = true ∧ (s.dom rd).src ≠ 1) ∧ (∃ (rd : Fin 8) (s : State), s.enabled rd = false) :=
  ⟨⟨0, refState true 0, by decide⟩, ⟨0, refState false 0, by decide⟩,
    ⟨0, refState false ((({} : State).get Od.rd_MISS_LIMIT 0) - 1), by decide⟩, ⟨0, {}, by decide⟩, ⟨1, {}, by decide⟩⟩

/-- The PTP instance is on, and RD_0 in HOLDOVER since cycle 0. -/
def ptpState (cycle : Nat) : State :=
  objs [(Od.ptp_PTP_ENABLE, 0, 1), (Od.ptp_PTP_STATE, 0, 3), (Od.rd_LOCK_STATE, 0, 3), (Od.rd_FALLBACK, 0, 2)] { cycle := cycle }

theorem witness_PtpAndHoldover :
    (∃ (u : PtpUpdate) (s : State), s.flag Od.ptp_PTP_ENABLE = true ∧ u.port = s.get Od.ptp_PTP_PORT ∧
      u.domain = s.get Od.ptp_PTP_DOMAIN ∧ u.mech = s.get Od.ptp_DELAY_MECH ∧ (u.port < 128 → s.isBand u.port = false) ∧ u.state = 4 ∧
      u.timeNs = none) ∧
    (∃ (u : PtpUpdate) (s : State) (t : Nat), s.flag Od.ptp_PTP_ENABLE = true ∧ u.port = s.get Od.ptp_PTP_PORT ∧
      u.domain = s.get Od.ptp_PTP_DOMAIN ∧ u.mech = s.get Od.ptp_DELAY_MECH ∧ (u.port < 128 → s.isBand u.port = false) ∧ u.state < 5 ∧
      u.timeNs = some t) ∧
    (∃ (u : PtpUpdate) (s : State), s.flag Od.ptp_PTP_ENABLE = true ∧ u.domain ≠ s.get Od.ptp_PTP_DOMAIN) ∧
    (∃ (st : Nat) (s : State), s.flag Od.ptp_PTP_ENABLE = true ∧ s.get Od.ptp_PTP_STATE = 3 ∧ st < 5 ∧ st ≠ 3) ∧
    (∃ (st : Nat) (s : State), s.flag Od.ptp_PTP_ENABLE = true ∧ s.get Od.ptp_PTP_STATE = 3 ∧ st % 5 = 3) ∧
    (∃ (rd : Fin 8) (s : State), s.enabled rd = true ∧ s.get Od.rd_LOCK_STATE rd = 3 ∧ s.get Od.rd_FALLBACK rd ≠ 0 ∧
      s.cycle = (s.dom rd).holdoverAt + secCycles (s.get Od.rd_HOLDOVER_TIME rd)) ∧
    (∃ (rd : Fin 8) (s : State), s.enabled rd = true ∧ s.get Od.rd_LOCK_STATE rd = 3 ∧
      s.cycle + 1 = (s.dom rd).holdoverAt + secCycles (s.get Od.rd_HOLDOVER_TIME rd)) :=
  ⟨⟨⟨255, 127, .udp4, false, 0, 4, 0, 0, none⟩, objs [(Od.ptp_PTP_PORT, 0, 255)] (ptpState 0), by decide⟩,
    ⟨⟨255, 127, .udp6, true, 0, 3, -5, 7, some 9⟩, objs [(Od.ptp_PTP_PORT, 0, 255)] (ptpState 0), 9, by decide⟩,
    ⟨⟨255, 1, .udp4, false, 0, 4, 0, 0, none⟩, ptpState 0, by decide⟩, ⟨4, ptpState 0, by decide⟩, ⟨3, ptpState 0, by decide⟩,
    ⟨0, ptpState (60 * 1200000000), by decide +kernel⟩, ⟨0, ptpState (60 * 1200000000 - 1), by decide +kernel⟩⟩

theorem witness_JumpsAndSwapPoints :
    (∃ (rd : Fin 8) (s : State), s.enabled rd = true ∧ (s.dom rd).jumpDue = true ∧ s.get Od.rd_LOCK_STATE rd = 1) ∧
    (∃ (rd : Fin 8) (s : State), s.enabled rd = true ∧ (s.dom rd).jumpDue = true ∧ s.get Od.rd_LOCK_STATE rd ≠ 1) ∧
    (∃ (rd : Fin 8) (refFrame : Nat) (s : State), s.enabled rd = true ∧ (s.dom rd).jumpDue = true ∧ s.get Od.rd_LOCK_STATE rd = 1 ∧
      refFrame ≠ s.jumpFrame rd) ∧
    (∃ (rd : Nat) (s : State) (landing : RTime), s.later rd landing (s.now rd) = false) ∧
    (∃ (sc : SwapScope) (s : State), s.swaps sc = true) ∧ (∃ (sc : SwapScope) (s : State), s.swaps sc = false) :=
  ⟨⟨0, objs [(Od.rd_LOCK_STATE, 0, 1)] { raster := { domains := [(0, { jumpDue := true })] } }, by decide⟩,
    ⟨0, objs [(Od.rd_LOCK_STATE, 0, 2)] { raster := { domains := [(0, { jumpDue := true })] } }, by decide⟩,
    ⟨0, 1, objs [(Od.rd_LOCK_STATE, 0, 1)] { raster := { domains := [(0, { jumpDue := true })] } }, by decide⟩,
    ⟨0, {}, ⟨0, 0, 0⟩, by decide⟩, ⟨.domain 0, {}, by decide⟩, ⟨.domain 1, {}, by decide⟩⟩

/-! ### Witnesses: the fabric -/

/-- Port 0 is an ACTIVE band. -/
def band (l : List (Row × Nat × Nat) := []) (s : State := {}) : State :=
  objs ([(Od.port_MODE, 0, 1), (Od.port_PORT_STATE, 0, 2)] ++ l) s

/-- The neighbour on port 0. -/
def neighbour (epoch : Nat) : CardNeighbour := ⟨0, ⟨epoch, 1, 0, 0, 0xFFFF, 0, 1⟩⟩

theorem witness_CardingEpochs :
    (∃ (p : Fin 128) (e : Nat) (s : State), s.cardBand p = true ∧ s.get Od.card_EPOCH + 1 = e) ∧
    (∃ (e : Nat) (s : State), e = s.get Od.card_EPOCH) ∧ (∃ (p : Fin 128) (s : State), s.cardBand p = false) ∧
    (∃ s x : State, Taken s 0x41 [0#8] x) ∧ (∃ (mode : Nat) (s x : State), mode ≠ 0 ∧ Taken s 0x41 (leBytes 1 mode) x) ∧
    (∃ s : State, s.get Od.card_CARD_STATE = 2 ∧ s.get Od.card_DEPTH ≠ 0 ∧ s.card.grafting = false ∧
      s.card.hbAt + msCycles (10 * s.get Od.card_HEARTBEAT_MISS) = s.cycle) ∧
    (∃ s : State, s.get Od.card_CARD_STATE = 2 ∧ s.get Od.card_DEPTH ≠ 0 ∧
      s.cycle + 1 = s.card.hbAt + msCycles (10 * s.get Od.card_HEARTBEAT_MISS)) ∧
    (∃ s : State, s.get Od.card_CARD_STATE = 2 ∧ s.get Od.card_DEPTH = 0 ∧ ∀ a, s.card.tickAt = some a → a + msCycles 10 ≤ s.cycle) ∧
    (∃ s : State, s.get Od.card_CARD_STATE = 2 ∧ s.get Od.card_DEPTH = 0 ∧ ∃ a, s.card.tickAt = some a ∧ s.cycle < a + msCycles 10) ∧
    (∃ s : State, s.get Od.card_CARD_STATE = 1 ∧ s.card.epochAt + msCycles (s.get Od.card_CARD_TIMEOUT) ≤ s.cycle ∧ s.card.joining = true) ∧
    (∃ s : State, s.get Od.card_CARD_STATE = 1 ∧ s.card.epochAt + msCycles (s.get Od.card_CARD_TIMEOUT) ≤ s.cycle ∧
      s.card.joining = false ∧ s.card.starting = false) ∧
    (∃ s : State, s.get Od.card_CARD_STATE = 1 ∧ s.card.epochAt + msCycles (s.get Od.card_CARD_TIMEOUT) ≤ s.cycle ∧
      s.card.joining = false ∧ s.card.starting = true) ∧
    (∃ s : State, s.get Od.card_CARD_STATE = 1 ∧ s.cycle < s.card.epochAt + msCycles (s.get Od.card_CARD_TIMEOUT)) :=
  ⟨⟨0, 1, band, by decide⟩, ⟨0, {}, by decide⟩, ⟨0, {}, by decide⟩, ⟨_, _, taken 0x41 [0#8]⟩, ⟨255, _, _, by decide, taken 0x41 (leBytes 1 255)⟩,
    ⟨objs [(Od.card_CARD_STATE, 0, 2), (Od.card_DEPTH, 0, 1)] { cycle := msCycles (10 * (({} : State).get Od.card_HEARTBEAT_MISS)) }, by decide +kernel⟩,
    ⟨objs [(Od.card_CARD_STATE, 0, 2), (Od.card_DEPTH, 0, 1)]
      { cycle := msCycles (10 * (({} : State).get Od.card_HEARTBEAT_MISS)) - 1 }, by decide +kernel⟩,
    ⟨objs [(Od.card_CARD_STATE, 0, 2)], by decide, by decide, fun a h => nomatch h⟩,
    ⟨objs [(Od.card_CARD_STATE, 0, 2)] { fabric := { card := { tickAt := some 0 } } }, by decide, by decide, 0, rfl, by decide +kernel⟩,
    ⟨objs [(Od.card_CARD_STATE, 0, 1)] { cycle := 2 ^ 60, fabric := { card := { joining := true } } }, by decide +kernel⟩,
    ⟨objs [(Od.card_CARD_STATE, 0, 1)] { cycle := 2 ^ 60 }, by decide +kernel⟩,
    ⟨objs [(Od.card_CARD_STATE, 0, 1)] { cycle := 2 ^ 60, fabric := { card := { starting := true } } }, by decide +kernel⟩,
    ⟨objs [(Od.card_CARD_STATE, 0, 1)], by decide +kernel⟩⟩

theorem witness_OffersChildrenCounts :
    (∃ (p : Fin 128) (o : CardOffer) (s : State), s.cardBand p = true ∧ o.addr = 0xFFFF ∧ o.epoch = s.get Od.card_EPOCH ∧
      s.get Od.card_CARD_STATE ≠ 2) ∧
    (∃ (p : Fin 128) (o : CardOffer) (s : State), s.cardBand p = true ∧ o.addr = 0xFFFF ∧ o.epoch = s.get Od.card_EPOCH ∧
      s.get Od.card_CARD_STATE = 2 ∧ s.get Od.card_PARENT_PORT = p) ∧
    (∃ (p : Fin 128) (o : CardOffer) (s : State), s.cardBand p = true ∧ o.addr = 0xFFFF ∧ o.epoch = s.get Od.card_EPOCH ∧
      s.get Od.card_CARD_STATE = 2 ∧ s.get Od.card_PARENT_PORT ≠ p) ∧
    (∃ (p : Fin 128) (o : CardOffer) (s : State), s.cardBand p = true ∧ s.get Od.card_CARD_STATE = 2 ∧ o.addr ≠ 0xFFFF ∧
      o.epoch ≠ s.get Od.card_EPOCH) ∧
    (∃ (p : Fin 128) (o : CardOffer) (s : State), s.cardBand p = true ∧ s.get Od.card_CARD_STATE ≠ 2 ∧ s.get Od.card_EPOCH + 1 = o.epoch) ∧
    (∃ (p : Fin 128) (o : CardOffer) (s : State), s.cardBand p = true ∧ s.get Od.card_CARD_STATE ≠ 2 ∧ o.epoch + 1 = s.get Od.card_EPOCH) ∧
    (∃ (p : Fin 128) (s : State), s.cardBand p = false) ∧
    (∃ s : State, s.get Od.card_CARD_STATE ≠ 0 ∧ ∀ a, s.card.offerAt = some a → a + msCycles 1 ≤ s.cycle) ∧
    (∃ s : State, s.get Od.card_CARD_STATE = 1 ∧ ∃ a, s.card.offerAt = some a ∧ s.cycle < a + msCycles 1) ∧
    (∃ (p : Fin 128) (serial : Nat) (s : State), s.cardBand p = true ∧ (s.card.children.find? fun c => c.serial = serial) = none) ∧
    (∃ (p : Fin 128) (serial : Nat) (s : State) (c : CardChildState), s.cardBand p = true ∧
      (s.card.children.find? fun c => c.serial = serial) = some c ∧ p.val < c.port) ∧
    (∃ (p : Fin 128) (serial : Nat) (s : State) (c : CardChildState), s.cardBand p = true ∧
      (s.card.children.find? fun c => c.serial = serial) = some c ∧ c.port = p.val) ∧
    (∃ (e : Nat) (s : State), e ≠ s.get Od.card_EPOCH) ∧ (∃ (c : CardCounts) (s : State), c.epoch = s.get Od.card_EPOCH) ∧
    (∃ (c : CardCounts) (s : State), c.epoch ≠ s.get Od.card_EPOCH) :=
  ⟨⟨0, ⟨0, 1, 0, 0, 0xFFFF, 0, 1⟩, band, by decide⟩,
    ⟨0, ⟨0, 1, 0, 0, 0xFFFF, 0, 1⟩, band [(Od.card_CARD_STATE, 0, 2), (Od.card_PARENT_PORT, 0, 0)], by decide⟩,
    ⟨0, ⟨0, 1, 0, 0, 0xFFFF, 0, 1⟩, band [(Od.card_CARD_STATE, 0, 2), (Od.card_PARENT_PORT, 0, 1)], by decide⟩,
    ⟨0, ⟨1, 1, 0, 0, 0xFFFE, 0, 1⟩, band [(Od.card_CARD_STATE, 0, 2)], by decide⟩,
    ⟨0, ⟨1, 1, 0, 0, 0xFFFF, 0, 1⟩, band, by decide⟩, ⟨0, ⟨0, 1, 0, 0, 0xFFFF, 0, 1⟩, band [(Od.card_EPOCH, 0, 1)], by decide⟩,
    ⟨0, {}, by decide⟩, ⟨objs [(Od.card_CARD_STATE, 0, 1)], by decide, fun a h => nomatch h⟩,
    ⟨objs [(Od.card_CARD_STATE, 0, 1)] { fabric := { card := { offerAt := some 0 } } }, by decide, 0, rfl, by decide +kernel⟩,
    ⟨0, 5, band, by decide⟩, ⟨0, 5, band [] { fabric := { card := { children := [⟨1, 5, none⟩] } } }, ⟨1, 5, none⟩, by decide⟩,
    ⟨0, 5, band [] { fabric := { card := { children := [⟨0, 5, none⟩] } } }, ⟨0, 5, none⟩, by decide⟩,
    ⟨1, {}, by decide⟩, ⟨⟨0, 1, 1, 0, 0⟩, {}, by decide⟩, ⟨⟨1, 1, 1, 0, 0⟩, {}, by decide⟩⟩

/-- A device with the root's block, CARDED or not. -/
def carded (st block : Nat) (c : CardState := {}) (cycle : Nat := 0) : State :=
  band [(Od.card_CARD_STATE, 0, st), (Od.card_BLOCK, 0, block), (Od.card_OWN_ADDR, 0, 0)] { cycle := cycle, fabric := { card := c } }

/-- What a device counts of its children. -/
def rootCount (s : State) : CardCounts := countsOf (s.get Od.card_EPOCH) (s.card.children.filterMap fun k => k.counts)

/-- The depth that a graft over a band gives the fabric. -/
def graftSum (s : State) (b : GraftBand) : Nat :=
  let u := s.setCard { s.card with grafting := false, hbAt := s.cycle }
  b.farDist + 1 + b.depth + (u.card.counts.map fun c => c.height).getD 0 + u.get Od.card_MAX_DEPTH

theorem witness_AssignmentsJoinsAndGrafts :
    (∃ (s : State) (n : CardNeighbour), s.get Od.card_CARD_STATE = 1 ∧ s.card.counts = none ∧ (∀ c ∈ s.card.children, c.counts ≠ none) ∧
      s.cardIsQuiet = true ∧ s.card.parent = some n) ∧
    (∃ s : State, s.get Od.card_CARD_STATE = 1 ∧ s.card.counts = none ∧ (∀ c ∈ s.card.children, c.counts ≠ none) ∧
      s.cardIsQuiet = true ∧ s.card.parent = none ∧ (rootCount s).devices ≤ 4096 ∧ (rootCount s).diam ≤ 12 ∧ (rootCount s).need ≤ 32768) ∧
    (∃ s : State, s.get Od.card_CARD_STATE = 1 ∧ s.card.counts = none ∧ (∀ c ∈ s.card.children, c.counts ≠ none) ∧
      s.cardIsQuiet = true ∧ s.card.parent = none ∧ 4096 < (rootCount s).devices) ∧
    (∃ s : State, s.get Od.card_CARD_STATE = 1 ∧ s.card.counts = none ∧ (∀ c ∈ s.card.children, c.counts ≠ none) ∧
      s.cardIsQuiet = true ∧ s.card.parent = none ∧ (rootCount s).devices ≤ 4096 ∧ 12 < (rootCount s).diam) ∧
    (∃ s : State, s.get Od.card_CARD_STATE = 1 ∧ s.card.counts = none ∧ (∀ c ∈ s.card.children, c.counts ≠ none) ∧
      s.cardIsQuiet = true ∧ s.card.parent = none ∧ (rootCount s).devices ≤ 4096 ∧ (rootCount s).diam ≤ 12 ∧ 32768 < (rootCount s).need) ∧
    (∃ s : State, s.get Od.card_CARD_STATE ≠ 1) ∧ (∃ cs : List CardCounts, cs ≠ []) ∧
    (∃ (p : Fin 128) (a : CardAssign) (s : State), a.epoch = s.get Od.card_EPOCH ∧ s.get Od.card_PARENT_PORT = p ∧
      s.get Od.card_CARD_STATE = 1) ∧
    (∃ (a : CardAssign) (s : State), a.epoch ≠ s.get Od.card_EPOCH) :=
  ⟨⟨carded 1 0 { parent := some (neighbour 0) } (2 ^ 60), neighbour 0, by decide +kernel⟩, ⟨carded 1 0 {} (2 ^ 60), by decide +kernel⟩,
    ⟨carded 1 0 { children := [⟨0, 1, some ⟨0, 1, 4096, 0, 0⟩⟩] } (2 ^ 60), by decide +kernel⟩,
    ⟨carded 1 0 { children := [⟨0, 1, some ⟨0, 1, 1, 12, 0⟩⟩] } (2 ^ 60), by decide +kernel⟩,
    ⟨carded 1 0 { children := [⟨0, 1, some ⟨0, 32768, 1, 0, 0⟩⟩] } (2 ^ 60), by decide +kernel⟩, ⟨{}, by decide⟩,
    ⟨[⟨0, 1, 1, 0, 0⟩], by decide⟩,
    ⟨0, ⟨0, 4, 1, 2, 1, 1⟩, objs [(Od.card_PARENT_PORT, 0, 0)] (carded 1 0), by decide⟩, ⟨⟨1, 4, 1, 2, 1, 1⟩, {}, by decide⟩⟩

theorem witness_JoinsAndGrafts :
    (∃ (p : Fin 128) (s : State), s.get Od.card_CARD_STATE = 2 ∧ s.cardBand p = true ∧ s.get Od.card_DEPTH + 1 + s.get Od.card_MAX_DEPTH = 13) ∧
    (∃ (p : Fin 128) (a : Nat) (s : State), s.get Od.card_CARD_STATE = 2 ∧ s.cardBand p = true ∧
      s.get Od.card_DEPTH + 1 + s.get Od.card_MAX_DEPTH = 12 ∧ s.freeAddress = some a) ∧
    (∃ (p : Fin 128) (s : State) (n : CardNeighbour), s.get Od.card_CARD_STATE = 2 ∧ s.cardBand p = true ∧
      s.get Od.card_DEPTH + 1 + s.get Od.card_MAX_DEPTH ≤ 12 ∧ s.freeAddress = none ∧ s.card.parent = some n) ∧
    (∃ (p : Fin 128) (s : State), s.get Od.card_CARD_STATE = 2 ∧ s.cardBand p = true ∧
      s.get Od.card_DEPTH + 1 + s.get Od.card_MAX_DEPTH ≤ 12 ∧ s.freeAddress = none ∧ s.card.parent = none) ∧
    (∃ s : State, s.get Od.card_CARD_STATE ≠ 2) ∧ (∃ (g : CardGraft) (s : State), g.epoch ≠ s.get Od.card_EPOCH) ∧
    (∃ (p : Fin 128) (g : CardGraft) (s : State), g.epoch = s.get Od.card_EPOCH ∧ s.cardBand p = true ∧ g.role = 0 ∧ s.ownAddr = 0xFFFF) ∧
    (∃ (p : Fin 128) (g : CardGraft) (s : State), g.epoch = s.get Od.card_EPOCH ∧ s.cardBand p = true ∧ g.role = 0 ∧
      s.ownAddr ≠ 0xFFFF ∧ s.card.joinPorts = [7]) ∧
    (∃ (p : Fin 128) (g : CardGraft) (s : State), g.epoch = s.get Od.card_EPOCH ∧ s.cardBand p = true ∧ g.role = 1 ∧
      inBlock g.block g.plen s.ownAddr = true) ∧
    (∃ (p : Fin 128) (g : CardGraft) (s : State), g.epoch = s.get Od.card_EPOCH ∧ s.cardBand p = true ∧ g.role = 1 ∧
      inBlock g.block g.plen s.ownAddr = false ∧
      inBlock (bits (s.get Od.card_BLOCK) 16 16) (16 - bits (s.get Od.card_BLOCK) 0 8) g.block = true) ∧
    (∃ (p : Fin 128) (g : CardGraft) (s : State), g.epoch = s.get Od.card_EPOCH ∧ s.cardBand p = true ∧ g.role = 1 ∧
      inBlock g.block g.plen s.ownAddr = false ∧
      inBlock (bits (s.get Od.card_BLOCK) 16 16) (16 - bits (s.get Od.card_BLOCK) 0 8) g.block = false) ∧
    (∃ (p : Fin 128) (s : State), s.cardBand p = true ∧ ∀ role ∈ [2, 3], ∃ g : CardGraft, g.epoch = s.get Od.card_EPOCH ∧ g.role = role) ∧
    (∃ (bands : List GraftBand) (s : State), s.card.grafting = true ∧ s.card.graftAt + msCycles (s.get Od.card_GRAFT_WAIT) ≤ s.cycle ∧
      bestGraft bands = none) ∧
    (∃ (bands : List GraftBand) (b : GraftBand) (s : State), s.card.grafting = true ∧
      s.card.graftAt + msCycles (s.get Od.card_GRAFT_WAIT) ≤ s.cycle ∧ bestGraft bands = some b ∧ graftSum s b = 12 ∧ b.depth = 0) ∧
    (∃ (bands : List GraftBand) (b : GraftBand) (s : State), s.card.grafting = true ∧
      s.card.graftAt + msCycles (s.get Od.card_GRAFT_WAIT) ≤ s.cycle ∧ bestGraft bands = some b ∧ graftSum s b = 12 ∧ b.depth ≠ 0) ∧
    (∃ (bands : List GraftBand) (b : GraftBand) (s : State), s.card.grafting = true ∧
      s.card.graftAt + msCycles (s.get Od.card_GRAFT_WAIT) ≤ s.cycle ∧ bestGraft bands = some b ∧ graftSum s b = 13) ∧
    (∃ s : State, s.cycle < s.card.graftAt + msCycles (s.get Od.card_GRAFT_WAIT)) :=
  ⟨⟨0, objs [(Od.card_DEPTH, 0, 6), (Od.card_MAX_DEPTH, 0, 6)] (carded 2 1), by decide⟩,
    ⟨0, 1, objs [(Od.card_DEPTH, 0, 5), (Od.card_MAX_DEPTH, 0, 6)] (carded 2 1), by decide⟩,
    ⟨0, carded 2 0 { parent := some (neighbour 0) }, neighbour 0, by decide⟩, ⟨0, carded 2 0, by decide⟩, ⟨{}, by decide⟩,
    ⟨⟨1, 3, 16, 0, 255⟩, {}, by decide⟩, ⟨0, ⟨0, 3, 16, 0, 255⟩, band, by decide⟩,
    ⟨0, ⟨0, 3, 16, 0, 255⟩, carded 2 0 { joinPorts := [7] }, by decide⟩, ⟨0, ⟨0, 0, 16, 1, 255⟩, carded 2 0, by decide⟩,
    ⟨0, ⟨0, 1, 16, 1, 255⟩, carded 2 16, by decide⟩, ⟨0, ⟨0, 1, 16, 1, 255⟩, carded 2 0, by decide⟩,
    ⟨0, band, by decide, fun role _ => ⟨⟨0, 3, 16, role, 255⟩, by rfl, rfl⟩⟩,
    ⟨[], { cycle := 2 ^ 60, fabric := { card := { grafting := true } } }, by decide +kernel⟩,
    ⟨[⟨11, 1, 2, 0, 0, 0⟩], ⟨11, 1, 2, 0, 0, 0⟩, { cycle := 2 ^ 60, fabric := { card := { grafting := true } } }, by decide +kernel⟩,
    ⟨[⟨10, 1, 2, 1, 0, 0⟩], ⟨10, 1, 2, 1, 0, 0⟩, { cycle := 2 ^ 60, fabric := { card := { grafting := true } } }, by decide +kernel⟩,
    ⟨[⟨12, 1, 2, 0, 0, 0⟩], ⟨12, 1, 2, 0, 0, 0⟩, { cycle := 2 ^ 60, fabric := { card := { grafting := true } } }, by decide +kernel⟩,
    ⟨{}, by decide +kernel⟩⟩

/-- A learn waits, and both tables hold one entry of its key. -/
def learnState (w0 w1 : Nat) (l : Learn) : State :=
  { fabric := { learnQ := [l], copy0 := { em := [(0, (w0, w1))] }, copy1 := { em := [(0, (w0, w1))] } } }

/-- MAC 1 in VLAN 0. -/
def learnKey : Nat := 2 ^ 18

theorem tfind_all {l : List Nat} {e : Nat × Nat} {k : Nat} (h : k ∈ l) : tfind (l.map fun i => (i, e)) k = some e := by
  induction l with
  | nil => cases h
  | cons a l ih =>
    rw [List.map_cons, Laws.tfind_cons]
    split
    · rfl
    · rename_i ha
      rcases List.mem_cons.mp h with h | h
      · exact absurd h.symm ha
      · exact ih h

/-- STATIC entries in the slots of a list. -/
def staticTable (l : List Nat) : TableCopy := { em := l.map fun i => (i, (2 ^ 71 + 2 ^ 70, 0)) }

theorem staticTable_lookup (l : List Nat) : (staticTable l).lookup learnKey = none := by
  rw [TableCopy.lookup, List.find?_eq_none]
  intro e he
  obtain ⟨i, _, rfl⟩ := List.mem_map.mp he
  have : (emValid (2 ^ 71 + 2 ^ 70, 0) && decide (keyOf (2 ^ 71 + 2 ^ 70) = learnKey)) = false := by decide
  simpa using this

theorem staticTable_oldest (l : List Nat) (s : State) (is : List Nat) (h : ∀ i ∈ is, i ∈ l) :
    s.oldest (staticTable l) is = none := by
  induction is with
  | nil => rfl
  | cons i is ih =>
    have e : tfind (staticTable l).em i = some (2 ^ 71 + 2 ^ 70, 0) := tfind_all (h i (by simp))
    have n : emLearned (2 ^ 71 + 2 ^ 70, 0) = false := by decide
    rw [State.oldest, e, ih fun j hj => h j (List.mem_cons_of_mem _ hj)]
    show (if emLearned (2 ^ 71 + 2 ^ 70, 0) = true then some (i, s.ageOf _) else none) = none
    rw [n]; rfl

theorem slots_below (seed key : Nat) : ∀ i ∈ slotsFor seed key, i < 66560 := by
  intro i hi
  have hb : bucketOf seed key < 2 ^ 14 := Nat.mod_lt _ (by decide)
  simp only [slotsFor, List.mem_append, List.mem_map, List.mem_range] at hi
  rcases hi with ⟨k, hk, rfl⟩ | ⟨k, hk, rfl⟩ <;> omega

theorem full_insert (l : List Nat) (hl : ∀ i < 66560, i ∈ l) (s : State) (w1 : Nat) (hc : s.fabric.copy0 = staticTable l) :
    s.insertEntry (2 ^ 71 + learnKey) w1 = none := by
  have hk : keyOf (2 ^ 71 + learnKey) = learnKey := by decide
  have n : emLearned (2 ^ 71 + 2 ^ 70, 0) = false := by decide
  have hf : ∀ i ∈ slotsFor (s.get Od.tab_HASH_SEED) learnKey, tfind (staticTable l).em i = some (2 ^ 71 + 2 ^ 70, 0) :=
    fun i hi => tfind_all (hl i (slots_below _ _ i hi))
  have h2 : (staticTable l).freeSlot (s.get Od.tab_HASH_SEED) learnKey = none := by
    rw [TableCopy.freeSlot, List.find?_eq_none]; intro i hi; rw [hf i hi]; simp
  have h3 : s.victim (staticTable l) learnKey = none := by
    have hs : ∀ i, i ∈ (List.range 4).map (fun k => 4 * bucketOf (s.get Od.tab_HASH_SEED) learnKey + k) →
        i ∈ slotsFor (s.get Od.tab_HASH_SEED) learnKey := fun i hi => List.mem_append_left _ hi
    rw [State.victim]
    rw [if_pos, staticTable_oldest]
    · rfl
    · intro i hi
      obtain ⟨k, hk, rfl⟩ := List.mem_map.mp hi
      exact hl _ (by have := List.mem_range.mp hk; omega)
    · rw [List.filter_eq_nil_iff]; intro i hi; rw [hf i (hs i hi)]
      exact (by rw [n]; decide : ¬ emLearned (2 ^ 71 + 2 ^ 70, 0) = true)
  rw [State.insertEntry]; simp only [hc, hk]
  rw [staticTable_lookup]; simp only []
  rw [h2]; simp only []
  rw [h3]

theorem witness_LearningOneEntry_full : ∃ (l : Learn) (ls : List Learn) (s : State), s.fabric.learnQ = l :: ls ∧
    (({ s with fabric := { s.fabric with learnQ := ls } }).bump Od.tab_LEARNS).fabric.copy0.lookup l.key = none ∧
    ∀ w1, (({ s with fabric := { s.fabric with learnQ := ls } }).bump Od.tab_LEARNS).insertEntry (2 ^ 71 + l.key) w1 = none := by
  have hl : ∀ i < 66560, i ∈ List.range 66560 := fun i hi => List.mem_range.mpr hi
  generalize List.range 66560 = r at hl
  have hc : ∀ q, ((({ fabric := { learnQ := q, copy0 := staticTable r } } : State)).bump Od.tab_LEARNS).fabric.copy0 = staticTable r := by
    intro q; rw [State.bump_fabric]
  refine ⟨⟨learnKey, 0, 0, 0⟩, [], { fabric := { learnQ := [⟨learnKey, 0, 0, 0⟩], copy0 := staticTable r } }, rfl, ?_, fun w1 => ?_⟩
  · rw [State.bump_fabric]; exact staticTable_lookup r
  · exact full_insert r hl _ w1 (hc [])

theorem witness_LearningOneEntry :
    (∃ s : State, s.fabric.learnQ = []) ∧
    (∃ (l : Learn) (s : State), s.fabric.learnQ = [l] ∧ s.fabric.copy0.lookup l.key = none ∧
      (s.insertEntry (2 ^ 71 + l.key) (emWord l.port l.target s.secondsClock 0xFF 0)).isSome) ∧
    (∃ (l : Learn) (s : State) (i : Nat) (e : Nat × Nat), s.fabric.learnQ = [l] ∧ s.fabric.copy0.lookup l.key = some (i, e) ∧
      emLearned e = true ∧ emPort e = l.port ∧ l.port = 0xFC ∧ emTarget e = l.target ∧ emStatic e = false) ∧
    (∃ (l : Learn) (s : State) (i : Nat) (e : Nat × Nat), s.fabric.learnQ = [l] ∧ s.fabric.copy0.lookup l.key = some (i, e) ∧
      emLearned e = true ∧ emPort e ≠ l.port ∧ emCand e ≠ l.port) ∧
    (∃ (l : Learn) (s : State) (i : Nat) (e : Nat × Nat), s.fabric.learnQ = [l] ∧ s.fabric.copy0.lookup l.key = some (i, e) ∧
      emLearned e = true ∧ emPort e ≠ l.port ∧ emCand e = l.port ∧ l.port ≠ 0xFC ∧
      s.get Od.tab_MOVE_HOLD ≤ (s.microClock + 2 ^ 24 - emCandTime e) % 2 ^ 24) ∧
    (∃ (l : Learn) (s : State) (i : Nat) (e : Nat × Nat), s.fabric.learnQ = [l] ∧ s.fabric.copy0.lookup l.key = some (i, e) ∧
      emLearned e = true ∧ emPort e ≠ l.port ∧ emCand e = l.port ∧ l.port ≠ 0xFC ∧
      (s.microClock + 2 ^ 24 - emCandTime e) % 2 ^ 24 < s.get Od.tab_MOVE_HOLD) ∧
    (∃ (l : Learn) (s : State) (i : Nat) (e : Nat × Nat), s.fabric.learnQ = [l] ∧ s.fabric.copy0.lookup l.key = some (i, e) ∧
      emLearned e = false) :=
  ⟨⟨{}, rfl⟩, ⟨⟨learnKey, 3, 0, 0⟩, { fabric := { learnQ := [⟨learnKey, 3, 0, 0⟩] } }, by decide⟩,
    ⟨⟨learnKey, 0xFC, 7, 0⟩, learnState (2 ^ 71 + learnKey) (emWord 0xFC 7 0 0xFF 0) ⟨learnKey, 0xFC, 7, 0⟩, 0, _, rfl, rfl, by decide⟩,
    ⟨⟨learnKey, 3, 0, 0⟩, learnState (2 ^ 71 + learnKey) (emWord 4 0 0 0xFF 0) ⟨learnKey, 3, 0, 0⟩, 0, _, rfl, rfl, by decide⟩,
    ⟨⟨learnKey, 3, 0, 0⟩, learnState (2 ^ 71 + learnKey) (emWord 4 0 0 3 (2 ^ 24 - 1000)) ⟨learnKey, 3, 0, 0⟩, 0, _, rfl, rfl, by decide⟩,
    ⟨⟨learnKey, 3, 0, 0⟩, learnState (2 ^ 71 + learnKey) (emWord 4 0 0 3 (2 ^ 24 - 999)) ⟨learnKey, 3, 0, 0⟩, 0, _, rfl, rfl, by decide⟩,
    ⟨⟨learnKey, 3, 0, 0⟩, learnState (2 ^ 71 + 2 ^ 70 + learnKey) 0 ⟨learnKey, 3, 0, 0⟩, 0, _, rfl, rfl, by decide⟩⟩

/-- Slot 5 of one copy differs from the shadow. -/
def tables (sh c0 : Nat × Nat) : State := { fabric := { shadow := { em := [(5, sh)] }, copy0 := { em := [(5, c0)] } } }

theorem witness_AgeingAndCompare :
    (∃ s : State, s.get Od.tab_AGE_TIME ≠ 0) ∧ (∃ s : State, s.get Od.tab_AGE_TIME = 0) ∧
    (∃ (slot : Nat) (m : CompareMeet) (s : State), slot = 66559 ∧ m.badShadow = false ∧
      (emSeen s.fabric.copy0 slot m.flip0 != emRaw (tget s.fabric.shadow.em (0, 0) slot) || m.bad0) = false ∧
      (emSeen s.fabric.copy1 slot m.flip1 != emRaw (tget s.fabric.shadow.em (0, 0) slot) || m.bad1) = false) ∧
    (∃ (slot : Nat) (m : CompareMeet) (s : State), slot < 66560 ∧ m.badShadow = false ∧
      (emSeen s.fabric.copy0 slot m.flip0 != emRaw (tget s.fabric.shadow.em (0, 0) slot) || m.bad0) = true ∧
      emLearned (tget s.fabric.shadow.em (0, 0) slot) = true) ∧
    (∃ (slot : Nat) (m : CompareMeet) (s : State), slot < 66560 ∧ m.badShadow = false ∧
      (emSeen s.fabric.copy0 slot m.flip0 != emRaw (tget s.fabric.shadow.em (0, 0) slot) || m.bad0) = true ∧
      emLearned (tget s.fabric.shadow.em (0, 0) slot) = false) ∧
    (∃ (slot : Nat) (m : CompareMeet), slot = 4095 ∧ m.badShadow = true ∧ m.bad0 = true) ∧
    (∃ (slot : Nat) (m : CompareMeet), slot = 4095 ∧ m.badShadow = true ∧ m.bad0 = false) ∧
    (∃ (slot : Nat) (m : CompareMeet) (s : State), slot = 4095 ∧ m.badShadow = false ∧ m.bad0 = false ∧ m.bad1 = false ∧
      m.flip0 = 0 ∧ m.flip1 = 0 ∧ s.fabric.shadow.lpm = [] ∧ s.fabric.copy0.lpm = [] ∧ s.fabric.copy1.lpm = []) ∧
    (∃ (slot : Nat) (m : CompareMeet), slot = 4095 ∧ m.badShadow = false ∧ m.bad1 = true) ∧ (∃ slot : Nat, 66560 ≤ slot) :=
  ⟨⟨{}, by decide⟩, ⟨objs [(Od.tab_AGE_TIME, 0, 0)], by decide⟩, ⟨66559, ⟨0, 0, false, false, false⟩, {}, by decide⟩,
    ⟨5, ⟨0, 0, false, false, false⟩, tables (2 ^ 71 + learnKey, 1) (2 ^ 71 + learnKey, 2 ^ 72 - 1), by decide⟩,
    ⟨5, ⟨0, 0, false, false, false⟩, tables (2 ^ 71 + 2 ^ 70, 1) (2 ^ 71 + 2 ^ 70, 0), by decide⟩,
    ⟨4095, ⟨0, 0, true, false, true⟩, by decide⟩, ⟨4095, ⟨0, 0, false, false, true⟩, by decide⟩,
    ⟨4095, ⟨0, 0, false, false, false⟩, {}, by decide⟩, ⟨4095, ⟨0, 0, false, true, false⟩, by decide⟩, ⟨66560, by decide⟩⟩

/-- An OPEN region of 1 MiB at address 0, which is not PICTURE_REGION. -/
def openRegion : State := objs [(Od.reg_KIND, 1, 0), (Od.reg_SIZE, 1, 2 ^ 20), (Od.mil_PICTURE_REGION, 0, 9)]

/-- Arguments of TABLE_SYNC. -/
def syncBlock (mode table base count : Nat) : List Byte := leBytes 1 table ++ leBytes 1 mode ++ leBytes 8 base ++ leBytes 4 count

/-- A command of TABLE_SYNC runs over the region. -/
def syncState (mode table base count : Nat) (s : State := openRegion) : State := running 0x40 (syncBlock mode table base count) s

theorem witness_TableSync :
    (∃ (mode table base count : Nat) (s u t : State) (bs : List Byte), mode < 3 ∧ table < 3 ∧ count < 2 ^ 32 ∧
      Taken s 0x40 (syncBlock mode table base count) u ∧ u.syncSource base (count * recordSize table) = (t, .inr bs) ∧
      (∀ b ∈ pieces (recordSize table) bs, recordOk table b = true) ∧
      (t.applyAll (t.fabric.staged ++ (if mode = 2 then [stagedClear table] else []) ++
        (pieces (recordSize table) bs).map (stagedOf table (decide (mode = 1))))).isSome) ∧
    (∃ (mode table base count : Nat) (s u t : State) (bs : List Byte), mode = 0 ∧ table = 2 ∧ count < 2 ^ 32 ∧
      Taken s 0x40 (syncBlock mode table base count) u ∧ u.syncSource base (count * recordSize table) = (t, .inr bs) ∧
      ∃ b ∈ pieces (recordSize table) bs, recordOk table b = false) ∧
    (∃ (mode table base count : Nat) (s u t : State) (r : Nat), mode < 3 ∧ table < 3 ∧ count < 2 ^ 32 ∧
      Taken s 0x40 (syncBlock mode table base count) u ∧ u.syncSource base (count * recordSize table) = (t, .inl r)) ∧
    (∃ (mode table base count : Nat) (s u : State), mode = 3 ∧ table = 2 ∧ base % 4096 = 4095 ∧ Taken s 0x40 (syncBlock mode table base count) u) ∧
    (∃ (table base count : Nat) (s u : State), table < 3 ∧ count < 2 ^ 32 ∧ base % 4096 = 0 ∧ Taken s 0x40 (syncBlock 3 table base count) u ∧
      (u.regionAt base (roundUp 4096 (count * recordSize table))).isSome ∧
      u.touchesPicture base (roundUp 4096 (count * recordSize table)) = false ∧
      (padPage ((u.tableRecords table).take count).flatten).length ≠ 0) ∧
    (∃ (table base count : Nat) (s u : State), table < 3 ∧ count < 2 ^ 32 ∧ base % 4096 = 0 ∧ Taken s 0x40 (syncBlock 3 table base count) u ∧
      (u.regionAt base (roundUp 4096 (count * recordSize table))).isSome ∧
      u.touchesPicture base (roundUp 4096 (count * recordSize table)) = false ∧
      padPage ((u.tableRecords table).take count).flatten = []) ∧
    (∃ (table base count : Nat) (s u : State), table < 3 ∧ count < 2 ^ 32 ∧ base % 4096 = 0 ∧ Taken s 0x40 (syncBlock 3 table base count) u ∧
      u.regionAt base (roundUp 4096 (count * recordSize table)) = none) ∧ (∃ table : Nat, table = 3) :=
  ⟨⟨0, 0, 0, 1, _, syncState 0 0 0 1, ((syncState 0 0 0 1).syncSource 0 18).1, List.replicate 18 0#8, by decide, by decide, by decide,
      taken _ _ _, Prod.ext rfl (by decide), by decide, by decide⟩,
    ⟨0, 2, 0, 1, _, syncState 0 2 0 1, ((syncState 0 2 0 1).syncSource 0 512).1, List.replicate 512 0#8, rfl, rfl, by decide, taken _ _ _,
      Prod.ext rfl (by decide +kernel), List.replicate 512 0#8, by decide +kernel, by decide +kernel⟩,
    ⟨0, 0, 2 ^ 20, 1, _, syncState 0 0 (2 ^ 20) 1, _, Result.noSuchTarget, by decide, by decide, by decide, taken _ _ _, by rfl⟩,
    ⟨3, 2, 4095, 1, _, _, rfl, rfl, rfl, taken 0x40 (syncBlock 3 2 4095 1)⟩,
    ⟨0, 0, 1, _, syncState 3 0 0 1 { openRegion with fabric := { copy0 := { em := [(5, (2 ^ 71, 0))] } } }, by decide, by decide, by decide,
      taken _ _ _, by decide, by decide, by decide +kernel⟩,
    ⟨0, 0, 1, _, syncState 3 0 0 1, by decide, by decide, by decide, taken _ _ _, by decide, by decide, by decide⟩,
    ⟨0, 2 ^ 20, 1, _, syncState 3 0 (2 ^ 20) 1, by decide, by decide, by decide, taken _ _ _, by decide⟩, ⟨3, rfl⟩⟩

/-- A device with an operation of OP_ID 1 at the first frame start. -/
def opState (o : GlobalOp) (s : State := {}) : State := { s with fabric := { s.fabric with ops := [o] } }

theorem witness_IssuingGlobalOperations :
    (∃ (at_ : RTime) (s u : State), Taken s 0x11 (leBytes 9 (RTime.word at_)) u ∧ at_.line = 0 ∧ at_.phase = 0 ∧
      u.validTime 0 (u.globalAt at_) = true ∧ u.notTooFar 0 (u.globalAt at_) = true ∧
      u.leadTooShort (u.globalAt at_) (u.get Od.card_FABRIC_DIAMETER * 800) = false) ∧
    (∃ (at_ : RTime) (s u : State), Taken s 0x11 (leBytes 9 (RTime.word at_)) u ∧ at_.line = 0 ∧ at_.phase = 1) ∧
    (∃ (at_ : RTime) (s u : State), Taken s 0x11 (leBytes 9 (RTime.word at_)) u ∧ at_.line = 0 ∧ at_.phase = 0 ∧
      u.notTooFar 0 (u.globalAt at_) = false) ∧
    (∃ (at_ : RTime) (set : Nat) (s u : State), set = 3 ∧ Taken s 0x12 (leBytes 9 (RTime.word at_) ++ leBytes 1 set) u ∧
      u.validTime 0 (u.globalAt at_) = true ∧ u.notTooFar 0 (u.globalAt at_) = true ∧
      u.leadTooShort (u.globalAt at_) (u.get Od.card_FABRIC_DIAMETER * 800) = false) ∧
    (∃ (at_ : RTime) (set : Nat) (s u : State), set < 4 ∧ Taken s 0x12 (leBytes 9 (RTime.word at_) ++ leBytes 1 set) u ∧
      u.validTime 0 (u.globalAt at_) = true ∧ u.notTooFar 0 (u.globalAt at_) = true ∧
      u.leadTooShort (u.globalAt at_) (u.get Od.card_FABRIC_DIAMETER * 800) = true) ∧
    (∃ (at_ : RTime) (items : List Byte) (s u : State), items.length ≤ 3072 ∧ broadcastItems items = true ∧
      Taken s 0x13 (leBytes 9 (RTime.word at_) ++ items) u ∧ u.validTime 0 (u.globalAt at_) = true ∧
      u.notTooFar 0 (u.globalAt at_) = true ∧ u.leadTooShort (u.globalAt at_) (u.get Od.card_FABRIC_DIAMETER * 12000) = false) ∧
    (∃ (at_ : RTime) (items : List Byte) (s u : State), items.length ≤ 3072 ∧ broadcastItems items = false ∧
      Taken s 0x13 (leBytes 9 (RTime.word at_) ++ items) u) ∧
    (∃ set : Nat, set = 4) ∧ (∃ items : List Byte, 3072 < items.length) :=
  ⟨⟨⟨0, 0, 0⟩, _, _, taken 0x11 (leBytes 9 (RTime.word ⟨0, 0, 0⟩)), by decide⟩,
    ⟨⟨0, 0, 1⟩, _, _, taken 0x11 (leBytes 9 (RTime.word ⟨0, 0, 1⟩)), by decide⟩,
    ⟨⟨2 ^ 38, 0, 0⟩, _, _, taken 0x11 (leBytes 9 (RTime.word ⟨2 ^ 38, 0, 0⟩)), by decide⟩,
    ⟨⟨1, 0, 0⟩, 3, _, _, rfl, taken 0x12 (leBytes 9 (RTime.word ⟨1, 0, 0⟩) ++ leBytes 1 3), by decide⟩,
    ⟨⟨0, 0, 1⟩, 0, _, _, by decide, taken 0x12 (leBytes 9 (RTime.word ⟨0, 0, 1⟩) ++ leBytes 1 0) (objs [(Od.card_FABRIC_DIAMETER, 0, 12)]), by decide⟩,
    ⟨⟨0, 0, 0⟩, [], _, _, by decide, by decide, taken 0x13 (leBytes 9 (RTime.word ⟨0, 0, 0⟩) ++ []), by decide⟩,
    ⟨⟨0, 0, 0⟩, [0#8], _, _, by decide, by decide, taken 0x13 (leBytes 9 (RTime.word ⟨0, 0, 0⟩) ++ [0#8])⟩, ⟨4, rfl⟩,
    ⟨List.replicate 3073 0#8, by rw [List.length_replicate]; decide⟩⟩

theorem witness_GlobalOperationsRun :
    (∃ (p : Fin 128) (a : Announcement) (s : State), s.cardBand p = true ∧ s.forwards = true ∧ s.foreignBand p = false ∧
      s.globalOp a.opId = none ∧ rdiff (s.lpf 0) a.at_ (s.now 0) = 1 ∧ s.globalReady = true) ∧
    (∃ (p : Fin 128) (a : Announcement) (s : State), s.cardBand p = true ∧ s.forwards = true ∧ s.foreignBand p = false ∧
      s.globalOp a.opId = none ∧ 0 < rdiff (s.lpf 0) a.at_ (s.now 0) ∧ s.globalReady = false) ∧
    (∃ (p : Fin 128) (a : Announcement) (s : State), s.cardBand p = true ∧ s.forwards = true ∧ s.foreignBand p = false ∧
      s.globalOp a.opId = none ∧ rdiff (s.lpf 0) a.at_ (s.now 0) = 0) ∧
    (∃ (a : Announcement) (s : State), (s.globalOp a.opId).isSome) ∧
    (∃ (id : Nat) (s : State) (o : GlobalOp), s.globalOp id = some o ∧ s.later 0 o.at_ (s.now 0) = false) ∧
    (∃ (id : Nat) (s : State) (o : GlobalOp), s.globalOp id = some o ∧ s.later 0 o.at_ (s.now 0) = true) ∧
    (∃ (id : Nat) (s : State), s.globalOp id = none) ∧
    (∃ (p : Fin 128) (id : Nat) (s : State) (o : GlobalOp), s.globalOp id = some o ∧ s.forwards = true ∧ p.val ∈ o.waiting) ∧
    (∃ (p : Fin 128) (id : Nat) (s : State) (o : GlobalOp), s.globalOp id = some o ∧ s.forwards = true ∧ p.val ∉ o.waiting) ∧
    (∃ (id : Nat) (s : State) (o : GlobalOp), s.globalOp id = some o ∧ o.from_ = none ∧ o.confirmed = false ∧ s.msSince o.at_ = true) ∧
    (∃ (id : Nat) (s : State) (o : GlobalOp), s.globalOp id = some o ∧ s.msSince o.at_ = false) :=
  ⟨⟨0, ⟨1, ⟨0, 0, 1⟩, .fabricSwap⟩, carded 2 0, by decide⟩,
    ⟨0, ⟨1, ⟨0, 0, 1⟩, .fabricSwap⟩, objs [(Od.card_PARENT_PORT, 0, 1)] (carded 2 0), by decide⟩,
    ⟨0, ⟨1, ⟨0, 0, 0⟩, .fabricSwap⟩, carded 2 0, by decide⟩,
    ⟨⟨1, ⟨0, 0, 1⟩, .fabricSwap⟩, opState { opId := 1, at_ := ⟨1, 0, 0⟩, kind := .fabricSwap }, by decide⟩,
    ⟨1, opState { opId := 1, at_ := ⟨0, 0, 0⟩, kind := .fabricSwap }, _, rfl, by decide⟩,
    ⟨1, opState { opId := 1, at_ := ⟨0, 0, 1⟩, kind := .fabricSwap }, _, rfl, by decide⟩, ⟨0, {}, rfl⟩,
    ⟨5, 1, opState { opId := 1, at_ := ⟨1, 0, 0⟩, kind := .fabricSwap, waiting := [5] } (carded 2 0), _, rfl, by decide, by decide⟩,
    ⟨5, 1, opState { opId := 1, at_ := ⟨1, 0, 0⟩, kind := .fabricSwap, waiting := [4] } (carded 2 0), _, rfl, by decide, by decide⟩,
    ⟨1, opState { opId := 1, at_ := ⟨0, 0, 0⟩, kind := .snapshot 0 } { raster := { domains := [(0, { pos := ⟨60, 0, 0⟩ })] } }, _, rfl, rfl, rfl,
      by decide⟩,
    ⟨1, opState { opId := 1, at_ := ⟨1, 0, 0⟩, kind := .snapshot 0 }, _, rfl, by decide⟩⟩

/-! ### Witnesses: resets, power, the island -/

theorem witness_Resets :
    (∃ s : State, s.power.porst = true) ∧
    (∃ (s : State) (k : Nat), s.sec.debugSealFuse = false ∧ fusedRow (k / 256) (k % 256) = false) ∧
    (∃ k : Nat, k / 256 = 0x2000) ∧
    (∃ s : State, s.sec.debugSealFuse = false) ∧ (∃ s : State, s.power.porst = false) ∧
    (∃ (ns : Nat) (s : State), s.power.porst = true ∧ 1000 = ns) ∧
    (∃ (b : Bool) (s : State), s.power.porst = b ∧ b = true) ∧ (∃ (b : Bool) (s : State), s.power.porst = b ∧ b = false) ∧
    (∃ ns : Nat, ns < 500 ∧ 500 = ns + 1) ∧
    (∃ (ns : Nat) (s : State), s.power.porst = true ∧ 500 = ns ∧ ns < 1000) ∧
    (∃ (ns : Nat) (s : State), s.power.porst = true ∧ 500 ≤ ns ∧ ns + 1 = 1000) ∧
    (∃ s u : State, Taken s 0x70 [] u) ∧
    (∃ s : State, s.power.warmDelay = true ∧ s.power.warmAt + msCycles 1 = s.cycle) ∧
    (∃ s : State, s.power.warmDelay = false) ∧ (∃ s : State, s.power.warmDelay = true ∧ s.cycle + 1 = s.power.warmAt + msCycles 1) ∧
    (∃ cause : Nat, cause < 5) :=
  ⟨⟨{}, rfl⟩, ⟨{}, 0x2100 * 256 + 8, by decide⟩, ⟨0x2000 * 256 + 255, by decide⟩, ⟨{}, rfl⟩, ⟨{ power := { porst := false } }, rfl⟩,
    ⟨1000, {}, rfl, rfl⟩, ⟨true, {}, rfl, rfl⟩, ⟨false, { power := { porst := false } }, rfl, rfl⟩, ⟨499, by decide⟩,
    ⟨500, {}, by decide⟩, ⟨999, {}, by decide⟩, ⟨_, _, taken 0x70 []⟩,
    ⟨{ power := { warmDelay := true, warmAt := 7 }, cycle := 7 + msCycles 1 }, rfl, rfl⟩, ⟨{}, rfl⟩,
    ⟨{ power := { warmDelay := true, warmAt := 7 }, cycle := 6 + msCycles 1 }, by decide⟩, ⟨4, by decide⟩⟩

theorem witness_MonitorsAndStartUp :
    (∃ (rail : Fin 13) (s : State), s.power.porst = true ∧ rail.val ≠ 0 ∧ rail.val ≠ 12 ∧ rail.val ∉ s.power.railsOut) ∧
    (∃ rail : Fin 13, rail.val = 0) ∧ (∃ rail : Fin 13, rail.val = 12) ∧ (∃ s : State, s.power.porst = false) ∧
    (∃ (pll : Fin 4) (s : State), s.power.porst = true ∧ pll.val ≠ 2) ∧ (∃ s : State, s.power.porst = true) ∧
    (∃ s : State, s.power.held = false) ∧ (∃ s : State, s.power.held = true) ∧ (∃ s : State, s.stepMayEnd = true) ∧
    (∃ s : State, s.stepMayEnd = false) ∧ (∃ s : State, s.power.step = 3) ∧ (∃ s : State, s.power.step = 2) ∧
    (∃ (mv : Nat) (s : State), s.power.avsPending = true ∧ s.power.avsAt + usCycles 200 = s.cycle ∧
      s.get Od.sys_VDD_CORE_TARGET = mv + 10 ∧ mv ≤ s.get Od.sys_VDD_CORE_TARGET + 10) ∧
    (∃ (mv : Nat) (s : State), s.power.avsPending = true ∧ s.power.avsAt + usCycles 200 ≤ s.cycle ∧
      s.get Od.sys_VDD_CORE_TARGET + 10 + 1 = mv) ∧
    (∃ s : State, s.power.avsPending = false) ∧
    (∃ s : State, s.power.avsPending = true ∧ s.cycle + 1 = s.power.avsAt + usCycles 200) ∧
    (∃ (half : Fin 2) (s : State), s.half half = 2) ∧ (∃ (half : Fin 2) (s : State), s.half half ≠ 2) ∧
    (∃ (half : Fin 2) (s : State), s.half half = 1 ∧ s.heldLow (tget s.power.halfIdle none half) = true ∧
      (∀ e ∈ s.streams.streams, ∀ p ∈ e.2.passes, p.ic < 8 → p.ic / 4 ≠ half)) ∧
    (∃ (half : Fin 2) (s : State), s.halfUsed half = true) ∧ (∃ (half : Fin 2) (s : State), s.half half ≠ 1) ∧
    (∃ (half : Fin 2) (s : State), s.half half = 1 ∧ s.heldLow (tget s.power.halfIdle none half) = false) :=
  ⟨⟨1, {}, by decide⟩, ⟨0, rfl⟩, ⟨12, rfl⟩, ⟨{ power := { porst := false } }, rfl⟩, ⟨3, {}, by decide⟩, ⟨{}, rfl⟩, ⟨{}, rfl⟩,
    ⟨{ power := { held := true } }, rfl⟩, ⟨{}, by decide⟩, ⟨{ power := { held := true } }, by decide⟩,
    ⟨{ power := { step := 3 } }, rfl⟩, ⟨{ power := { step := 2 } }, rfl⟩,
    ⟨740, objs [(Od.sys_VDD_CORE_TARGET, 0, 750)] { power := { avsPending := true, avsAt := 5 }, cycle := 5 + usCycles 200 }, by
      decide⟩,
    ⟨761, objs [(Od.sys_VDD_CORE_TARGET, 0, 750)] { power := { avsPending := true, avsAt := 5 }, cycle := 5 + usCycles 200 }, by
      decide⟩,
    ⟨{}, rfl⟩, ⟨{ power := { avsPending := true, avsAt := 5 }, cycle := 4 + usCycles 200 }, by decide⟩,
    ⟨1, { power := { halves := [(1, 2)] } }, by decide⟩, ⟨1, { power := { halves := [(1, 1)] } }, by decide⟩,
    ⟨0, { power := { halves := [(0, 1)], halfIdle := [(0, some 0)] }, cycle := 10 ^ 13 }, by decide⟩,
    ⟨1, { streams := { streams := [(3, { passes := [⟨0, 4, 1, false, false, 0, 0⟩] })] } }, by decide⟩,
    ⟨1, { power := { halves := [(1, 2)] } }, by decide⟩, ⟨0, { power := { halves := [(0, 1)] } }, by decide⟩⟩

/-- Readings in which domains 0 and 1 differ by 30 °C, by 25 °C, or by less. -/
def warm (a b : Int) (p : PowerState := {}) : State := { power := { p with temps := [a, b] } }

theorem witness_Temperatures :
    (∃ (temps : List Int) (d : Nat) (t : Int), hottest temps = some (d, t)) ∧ (∃ temps : List Int, hottest temps = none) ∧
    (∃ (s : State) (t : Int), (s.get Od.th_TJ_HIGH * 10 : Nat) + 1 = t ∧ s.power.highReported = false) ∧
    (∃ (s : State) (t : Int), (s.get Od.th_TJ_HIGH * 10 : Nat) < t ∧ s.power.highReported = true) ∧
    (∃ (s : State) (t : Int), t = (s.get Od.th_TJ_HIGH * 10 : Nat) - 20) ∧
    (∃ (s : State) (t : Int), (s.get Od.th_TJ_TRIP * 10 : Nat) = t ∧ s.power.tripRun = 1 ∧ s.power.tripped = false) ∧
    (∃ (s : State) (t : Int), t + 1 = (s.get Od.th_TJ_TRIP * 10 : Nat)) ∧
    (∃ (s : State) (p : Nat × Nat) (before : List (Nat × Nat)), 300 = s.pairDiff p ∧ p ∈ before ∧ p ∉ s.power.gradientReported) ∧
    (∃ (s : State) (p : Nat × Nat), s.pairDiff p + 1 = 250) ∧
    (∃ (s : State) (p : Nat × Nat) (before : List (Nat × Nat)), 300 ≤ s.pairDiff p ∧ p ∉ before) ∧
    (∃ (s : State) (p : Nat × Nat), 300 ≤ s.pairDiff p ∧ p ∈ s.power.gradientReported) ∧
    (∃ (s : State) (p : Nat × Nat), 250 = s.pairDiff p ∧ s.pairDiff p < 300) :=
  ⟨⟨[400, 410], 1, 410, by decide⟩, ⟨[], by decide⟩,
    ⟨{}, _, rfl, rfl⟩, ⟨{ power := { highReported := true } }, 2000, by decide⟩, ⟨{}, _, rfl⟩,
    ⟨{ power := { tripRun := 1 } }, _, rfl, rfl, rfl⟩, ⟨{}, (({} : State).get Od.th_TJ_TRIP * 10 : Nat) - 1, by decide⟩,
    ⟨warm 400 700, (0, 1), [(0, 1)], by decide⟩, ⟨warm 400 649, (0, 1), by decide⟩, ⟨warm 400 701, (0, 1), [], by decide⟩,
    ⟨warm 400 701 { gradientReported := [(0, 1)] }, (0, 1), by decide⟩, ⟨warm 400 650, (0, 1), by decide⟩⟩

/-- The dictionary is live. -/
def liveState (l : List (Row × Nat × Nat) := []) (s : State := {}) : State := objs l { s with live := true }

/-- A live state in which VDD_EFUSE is present. -/
def fuseState (l : List (Row × Nat × Nat) := []) : State := liveState l { sec := { efuse := true } }

theorem witness_AttestationAndIsland :
    (∃ (nonce : List Byte) (s u : State), nonce.length = 64 ∧ Taken s 0x32 nonce u) ∧ (∃ nonce : List Byte, nonce.length + 1 = 64) ∧
    (∃ (role : Role) (s : State), AcceptedNum s role Od.sec_DEBUG_SEAL 0 1 ∧ s.sec.efuse = true) ∧
    (∃ (role : Role) (hash : List Byte) (s : State), Accepted s role Od.sec_OWNER_KEY_HASH 0 hash) ∧
    (∃ (role : Role) (s : State), AcceptedNum s role Od.sec_FLASH_PROGRAM 0 1) ∧
    (∃ s : State, s.get Od.sec_FLASH_STATE = 1) ∧ (∃ s : State, s.get Od.sec_FLASH_STATE ≠ 1) ∧
    (∃ s : State, s.get Od.sec_OWNER_KEY_HASH ≠ 0) :=
  ⟨⟨List.replicate 64 7#8, _, _, by decide, taken 0x32 (List.replicate 64 7#8)⟩, ⟨List.replicate 63 0#8, by decide⟩,
    ⟨.admin, fuseState, ⟨by decide, by decide, by decide, by decide⟩, rfl⟩,
    ⟨.admin, List.replicate 64 7#8, fuseState, by decide, by decide, by decide⟩,
    ⟨.admin, fuseState [(Od.sec_FLASH_SIZE, 0, 2 ^ 24), (Od.sec_ACTIVE_DIR, 0, 255)], by decide, by decide, by decide, by decide⟩,
    ⟨objs [(Od.sec_FLASH_STATE, 0, 1)], by decide⟩, ⟨{}, by decide⟩, ⟨objs [(Od.sec_OWNER_KEY_HASH, 0, 1)], by decide⟩⟩

/-- A token for a device of serial number 0 and challenge 0. -/
def token : List Byte := [0x42#8, 0x56#8, 0x44#8, 0x54#8] ++ List.replicate 349 0#8

/-- A token is accepted where its key hashes to the vendor's and its signature verifies. -/
theorem witness_AttestationAndIsland_token (hash : ∀ m, Config.sha512 m = List.replicate 64 0#8)
    (verify : ∀ k d sig, Config.ecdsaVerify k d sig = true) : Accepted (liveState) .admin Od.sec_DEBUG_TOKEN 0 token := by
  have h : (liveState).tokenOk token = true := by
    simp only [State.tokenOk, hash, verify, Bool.and_true]; decide
  refine ⟨by decide, by decide, ?_⟩
  have hr : (liveState).rangeOk ((liveState).stage (liveState) (writingOf Od.sec_DEBUG_TOKEN 0 token)) (writingOf Od.sec_DEBUG_TOKEN 0 token) =
      (liveState).tokenOk token := rfl
  rw [State.lateTest, if_neg (by simp [hr, h]), if_neg (by decide)]

/-! ### Witnesses: faults and writes of objects -/

/-- A message of a unit, kind and severity. -/
def msg (unit kind sev : Nat) : FaultMsg := ⟨unit, kind, sev, 0, 0xFF, 0, 0xF⟩

theorem witness_LowestUnitIsAcceptedFirst :
    (∃ ms : List FaultMsg, ms ≠ []) ∧ nextHeld [msg 5 1 1, msg 3 1 1, msg 3 2 2] = some (msg 3 1 1) :=
  ⟨⟨[msg 0 1 1], by decide⟩, by decide⟩

/-- An entry of the fault log. -/
def logged (m : FaultMsg) (n : Nat := 0) : LogEntry :=
  { seq := n, msg := m, action := 0, repeats := 0, at_ := ⟨0, 0, 0⟩, uptime := 0 }

theorem witness_AcceptingFaultMessages :
    (∃ (s : State) (m : FaultMsg), nextHeld s.faults.held = some m) ∧ (∃ s : State, s.faults.held = []) ∧
    (∃ m : FaultMsg, m.kind = 0x60) ∧ (∃ m : FaultMsg, m.kind ≠ 0x60) ∧
    (∃ m : FaultMsg, unitListed m.unit = true ∧ unitBit m.kind = none ∧ 128 ≤ m.unit) ∧
    (∃ (s : State) (m : FaultMsg) (top : List LogEntry) (n : Nat), s.mergeEntry m (s.faults.log.take 16) = some (top, n)) ∧
    (∃ (s : State) (m : FaultMsg) (e : LogEntry), s.repeats m e = true) ∧
    (∃ (s : State) (m : FaultMsg), (∀ e ∈ s.faults.log.take 16, s.repeats m e = false) ∧ s.faults.log.length = 256) ∧
    (∃ (s : State) (m : FaultMsg), (∀ e ∈ s.faults.log.take 16, s.repeats m e = false) ∧ s.faults.log.length + 1 = 256) ∧
    (∃ (s : State) (m : FaultMsg), m.sev + 1 = s.get Od.fc_CAPTURE_SEV) ∧
    (∃ (s : State) (m : FaultMsg), s.get Od.fc_CAPTURE_SEV = m.sev ∧ s.flag Od.cap_VALID = false) :=
  ⟨⟨{ faults := { held := [msg 3 1 1] } }, msg 3 1 1, by decide⟩, ⟨{}, rfl⟩, ⟨msg 290 0x60 2, rfl⟩, ⟨msg 3 1 1, by decide⟩,
    ⟨msg 295 0x70 3, by decide⟩, ⟨{ faults := { log := [logged (msg 3 1 1) 7] } }, msg 3 1 1, _, _, rfl⟩,
    ⟨{}, msg 3 1 1, logged (msg 3 1 1), by decide⟩,
    ⟨{ faults := { log := List.replicate 256 (logged (msg 4 1 1)) } }, msg 3 1 1, by decide, by decide⟩,
    ⟨{ faults := { log := List.replicate 255 (logged (msg 4 1 1)) } }, msg 3 1 1, by decide, by decide⟩,
    ⟨objs [(Od.fc_CAPTURE_SEV, 0, 2)], msg 3 1 1, by decide⟩, ⟨objs [(Od.fc_CAPTURE_SEV, 0, 2)], msg 3 2 2, by decide⟩⟩

theorem witness_MergingIntoTheCapture :
    ∃ (s : State) (m : FaultMsg), s.get Od.fc_CAPTURE_SEV = m.sev ∧ s.flag Od.cap_VALID = true :=
  ⟨objs [(Od.fc_CAPTURE_SEV, 0, 2), (Od.cap_VALID, 0, 1)], msg 3 2 2, by decide⟩

/-- A row of stream 0 on cell 0. -/
def rowOn (st : Nat := 16) (sid : Nat := 0) : CellRow :=
  { point := { sid := sid, stage := st, index := 0, pic := 0, row := 0, format := 0, preset := 0, cls := 0, rap := false, cell := 0, deadline := 0 },
    startAt := 0 }

/-- A pass of stream 3 on conditioner 4. -/
def passing : State := { streams := { streams := [(3, { passes := [⟨0, 4, 1, false, false, 0, 9⟩] })] } }

theorem witness_FaultActions :
    (∃ m : FaultMsg, m.kind = 0x07 ∧ m.unit = 127) ∧ (∃ m : FaultMsg, m.kind = 0x40) ∧
    (∀ k ∈ [0x52, 0x61, 0x70], ∃ m : FaultMsg, m.kind = k) ∧
    (∃ (s : State) (m : FaultMsg), m.kind ≠ 0x70 ∧ s.halted = false) ∧
    (∃ (cc : Fin 128) (sid : Fin 512) (s : State) (r : CellRow), (s.cell cc).row = some r ∧ r.point.sid = sid ∧
      16 * s.rowTime r.point.sid r.point.stage + 1 = r.busy) ∧
    (∃ (cc : Fin 128) (sid : Fin 512) (s : State) (r : CellRow), (s.cell cc).row = some r ∧ r.point.sid = sid ∧
      r.busy = 16 * s.rowTime r.point.sid r.point.stage) ∧
    (∃ (cc : Fin 128) (sid : Fin 512) (s : State) (r : CellRow), (s.cell cc).row = some r ∧ r.point.sid ≠ sid) ∧
    (∃ (cc : Fin 128) (s : State), (s.cell cc).row = none) ∧
    (∃ (ic : Fin 8) (sid : Fin 512) (s : State), ∃ p ∈ (s.stream sid).passes, p.ic = ic.val ∧
      p.stripAt + 16 * s.stripCycles sid p + 1 = s.cycle) ∧
    (∃ (ic : Fin 8) (sid : Fin 512) (s : State), ∀ p ∈ (s.stream sid).passes, p.ic = ic.val →
      s.cycle = p.stripAt + 16 * s.stripCycles sid p) :=
  ⟨⟨msg 127 0x07 2, by decide⟩, ⟨msg 0 0x40 0, rfl⟩, fun k _ => ⟨msg 0 k 4, rfl⟩, ⟨{}, msg 0 0x61 4, by decide⟩,
    ⟨0, 0, { cells := { cells := [(0, { row := some { rowOn with busy := 16 * State.rowTime {} 0 16 + 1 } })] } },
      { rowOn with busy := 16 * State.rowTime {} 0 16 + 1 }, rfl, rfl, by decide⟩,
    ⟨0, 0, { cells := { cells := [(0, { row := some { rowOn with busy := 16 * State.rowTime {} 0 16 } })] } },
      { rowOn with busy := 16 * State.rowTime {} 0 16 }, rfl, rfl, by decide⟩,
    ⟨0, 1, { cells := { cells := [(0, { row := some rowOn })] } }, rowOn, rfl, by decide⟩, ⟨127, {}, rfl⟩,
    ⟨4, 3, { passing with cycle := 10 + 16 * State.stripCycles passing 3 ⟨0, 4, 1, false, false, 0, 9⟩ },
      ⟨0, 4, 1, false, false, 0, 9⟩, by decide, rfl, by decide⟩,
    ⟨4, 3, { passing with cycle := 9 + 16 * State.stripCycles passing 3 ⟨0, 4, 1, false, false, 0, 9⟩ }, by decide⟩⟩

theorem witness_ClearingFaults :
    (∃ (role : Role) (s : State), AcceptedNum s role Od.cap_VALID 0 0) ∧
    (∃ (role : Role) (unit : Fin 1024) (v : Nat) (s : State), AcceptedNum s role Od.unit_STICKY unit v) ∧
    (∃ (role : Role) (s : State), AcceptedNum s role Od.fc_CLEAR_ALL 0 1) ∧ (∃ u : Nat, u < 1024 ∧ u + 1 = 1024) ∧
    (∃ (r : Row), ∀ u < 1024, r.key 0 0 ≠ Od.unit_STICKY.key u 0) ∧
    (∀ r ∈ [Od.fc_LOG_LOST, Od.egr_QUEUE_EGRESS, Od.lane_FOM_LOW], ∃ (role : Role) (index sub i j : Nat) (s : State),
      lookUp index sub = .inr (r, i, j) ∧ r.acc = .roClear ∧ s.live = true ∧
      let w : Writing := ⟨r, i, j, leBytes (if r.ty = .domain then (s.value r i j false).length else r.ty.size) 0⟩
      plainTest (roleRank role) false ⟨index, sub, r.ty.code, w.value⟩ = .inr w ∧ s.lateTest s w = Status.ok) ∧
    (∃ index sub st : Nat, lookUp index sub = .inl st) ∧
    (∃ r : Row, r ∉ [Od.lane_FOM_LOW, Od.pool_LOW_SHARED_FREE, Od.irq_HELD, Od.irq_PME_SENT, Od.egr_QUEUE_EGRESS, Od.th_GRADIENT_MAX]) :=
  ⟨⟨.admin, liveState, by decide, by decide, by decide, by decide⟩,
    ⟨.admin, 298, 0xFFFF, liveState, by decide, by decide, by decide, by decide⟩,
    ⟨.admin, liveState, by decide, by decide, by decide, by decide⟩, ⟨1023, by decide⟩,
    ⟨Od.fc_CAPTURE_SEV, fun u hu => by simp [Row.key, Od.fc_CAPTURE_SEV, Od.unit_STICKY]; omega⟩,
    fun r h => by
      simp only [List.mem_cons, List.not_mem_nil, or_false] at h
      obtain rfl | rfl | rfl := h
      · exact ⟨.admin, Od.fc_LOG_LOST.base, Od.fc_LOG_LOST.sub, 0, 0, liveState, by decide, by decide, by decide, by decide, by decide⟩
      · exact ⟨.admin, Od.egr_QUEUE_EGRESS.base + 127, Od.egr_QUEUE_EGRESS.sub, 127, 0, liveState, by decide, by decide, by decide,
          by decide +kernel, by decide +kernel⟩
      · exact ⟨.admin, Od.lane_FOM_LOW.base + 5, Od.lane_FOM_LOW.sub, 5, 0, liveState, by decide, by decide, by decide, by decide,
          by decide⟩,
    ⟨0, 1, Status.noObject, by decide⟩, ⟨Od.fc_LOG_LOST, by decide⟩⟩

theorem witness_WritesAreTested :
    (∃ s : State, s.live = false) ∧
    (∃ (index sub : Nat) (s : State) (st : Nat), s.live = true ∧ lookUp index sub = .inl st ∧ st ≠ Status.denied) ∧
    (∃ (index sub : Nat) (r : Row) (i j : Nat), lookUp index sub = .inr (r, i, j) ∧ r.acc = .ro) ∧
    (∃ (role : Role) (index sub : Nat) (r : Row) (i j : Nat), lookUp index sub = .inr (r, i, j) ∧ r.acc ≠ .ro ∧ r.acc ≠ .cmd ∧
      roleRank role < writeRole index sub) ∧
    (∃ (role : Role) (index sub ty : Nat) (v : List Byte) (r : Row) (i j : Nat), lookUp index sub = .inr (r, i, j) ∧ r.acc ≠ .ro ∧
      r.acc ≠ .cmd ∧ writeRole index sub ≤ roleRank role ∧ ty ≠ r.ty.code ∧ lengthOk r v.length = false) ∧
    (∃ (role : Role) (index sub : Nat) (v : List Byte) (s : State) (r : Row) (i j : Nat), s.live = true ∧
      lookUp index sub = .inr (r, i, j) ∧ r.acc ≠ .ro ∧ r.acc ≠ .cmd ∧ writeRole index sub ≤ roleRank role ∧
      lengthOk r v.length = true ∧ s.rangeOk (s.stage s ⟨r, i, j, v⟩) ⟨r, i, j, v⟩ = false ∧ r ≠ Od.sec_DEBUG_TOKEN) ∧
    (∃ (role : Role) (index sub : Nat) (v : List Byte) (s : State) (r : Row) (i j : Nat), s.live = true ∧
      lookUp index sub = .inr (r, i, j) ∧ r.acc ≠ .ro ∧ r.acc ≠ .cmd ∧ writeRole index sub ≤ roleRank role ∧
      lengthOk r v.length = true ∧ s.rangeOk (s.stage s ⟨r, i, j, v⟩) ⟨r, i, j, v⟩ = true ∧
      s.bindingOk (s.stage s ⟨r, i, j, v⟩) ⟨r, i, j, v⟩ = false ∧ r ≠ Od.sec_DEBUG_TOKEN ∧ isSetting ⟨r, i, j, v⟩ = false) ∧
    (∃ (role : Role) (index sub : Nat) (v : List Byte) (s : State) (r : Row) (i j : Nat), s.live = true ∧
      lookUp index sub = .inr (r, i, j) ∧ r.acc ≠ .ro ∧ r.acc ≠ .cmd ∧ writeRole index sub ≤ roleRank role ∧
      lengthOk r v.length = true ∧ s.rangeOk (s.stage s ⟨r, i, j, v⟩) ⟨r, i, j, v⟩ = true ∧
      s.bindingOk (s.stage s ⟨r, i, j, v⟩) ⟨r, i, j, v⟩ = true) ∧
    (∃ (s : State) (w : Writing), s.lateTest (s.stage s w) w ≠ Status.ok) ∧
    (∃ (ch : Fin 32) (s : State), (s.dma ch).state = dmaStopped) ∧ (∃ (ch : Fin 32) (s : State), (s.dma ch).state ≠ dmaStopped) :=
  ⟨⟨{}, rfl⟩, ⟨0, 1, liveState, Status.noObject, by decide⟩, ⟨0x2200, 0x00, Od.rd_ENTRIES, 0, 0, by decide⟩,
    ⟨.observer, 0x2201, 0x01, Od.rd_ENABLE, 1, 0, by decide⟩,
    ⟨.admin, 0x2201, 0x01, 5, [], Od.rd_ENABLE, 1, 0, by decide⟩,
    ⟨.admin, 0x2201, 0x01, [2#8], liveState, Od.rd_ENABLE, 1, 0, by decide⟩,
    ⟨.admin, 0x2201, 0x01, [1#8], { (liveState) with halted := true }, Od.rd_ENABLE, 1, 0, by decide⟩,
    ⟨.admin, 0x2201, 0x01, [1#8], liveState, Od.rd_ENABLE, 1, 0, by decide⟩, ⟨{}, ⟨Od.rd_ENABLE, 1, 0, [2#8]⟩, by decide⟩,
    ⟨31, {}, by decide⟩, ⟨31, { host := { dma := [(31, { state := dmaStopped + 1 })] } }, by decide⟩⟩

theorem witness_WritesOfUnits :
    (∃ (role : Role) (rd : Fin 8) (s : State), AcceptedNum s role Od.rd_ENABLE rd 1 ∧ s.enabled rd = false) ∧
    (∃ (role : Role) (rd : Fin 8) (s : State), AcceptedNum s role Od.rd_ENABLE rd 0 ∧ s.enabled rd = true) ∧
    (∃ (role : Role) (cc : Fin 128) (s : State), AcceptedNum s role Od.cell_OUT_OF_SERVICE cc 1 ∧
      (stored s Od.cell_OUT_OF_SERVICE cc 1).cellState cc ≠ cellRetired) ∧
    (∃ (role : Role) (cc : Fin 128) (s : State), AcceptedNum s role Od.cell_OUT_OF_SERVICE cc 0 ∧
      (stored s Od.cell_OUT_OF_SERVICE cc 0).cellState cc = cellDraining) ∧
    (∃ (role : Role) (ic : Fin 8) (s : State), AcceptedNum s role Od.ic_OUT_OF_SERVICE ic 1) ∧
    (∃ (role : Role) (ic : Fin 8) (s : State), AcceptedNum s role Od.ic_OUT_OF_SERVICE ic 0 ∧ ic.val ∉ s.faults.conditioners) ∧
    (∃ (role : Role) (sid : Fin 512) (s : State), AcceptedNum s role Od.enc_RAP_REQUEST sid 1 ∧ s.streamShut sid = false) ∧
    (∃ (role : Role) (cw : Fin 16) (v : Nat) (s : State), AcceptedNum s role Od.crown_CLOCK_FORCE cw v) ∧
    (∃ (role : Role) (v : Nat) (s : State), AcceptedNum s role Od.cs_BANK_SELECT 0 v) ∧
    (∃ (role : Role) (v : Nat) (s : State), AcceptedNum s role Od.mil_PICTURE_REGION 0 v) :=
  ⟨⟨.admin, 7, liveState, ⟨by decide, by decide, by decide, by decide⟩, by decide⟩,
    ⟨.admin, 7, liveState [(Od.rd_ENABLE, 7, 1)], ⟨by decide, by decide, by decide, by decide⟩, by decide⟩,
    ⟨.admin, 127, liveState, ⟨by decide, by decide, by decide, by decide⟩, by decide⟩,
    ⟨.admin, 127, liveState [(Od.cell_STATE, 127, cellDraining)], ⟨by decide, by decide, by decide, by decide⟩, by decide⟩,
    ⟨.admin, 7, liveState, by decide, by decide, by decide, by decide⟩,
    ⟨.admin, 7, liveState, ⟨by decide, by decide, by decide, by decide⟩, by decide⟩,
    ⟨.admin, 0, liveState [(Od.st_STATE, 0, stRunning)], ⟨by decide, by decide, by decide, by decide⟩, by decide⟩,
    ⟨.admin, 15, 0, liveState, by decide, by decide, by decide, by decide⟩,
    ⟨.admin, 0, { (liveState) with code := { banks := (List.range 32).map fun i => (i, { state := 2 }) } }, by decide, by decide, by decide,
      by decide⟩,
    ⟨.admin, 255, liveState [(Od.reg_KIND, 255, 0)], by decide, by decide, by decide, by decide⟩⟩

/-- Pool 1 is on, or off, over an OPEN region. -/
def poolState (on : Nat) : State :=
  liveState [(Od.reg_KIND, 1, 0), (Od.reg_SIZE, 1, 2 ^ 32), (Od.pool_REGION, 1, 1), (Od.pool_BATTS, 1, 1024), (Od.pool_ENABLE, 1, on)]

theorem witness_WritesOfQueuesAndGates :
    (∃ (role : Role) (sid : Fin 512) (v : Nat) (s : State), AcceptedNum s role Od.st_CROWN_MASK sid v ∧ s.streamShut sid = true) ∧
    (∃ (role : Role) (p : Fin 16) (s : State) (a : Nat), AcceptedNum s role Od.pool_ENABLE p 1 ∧ s.poolOn p = false ∧
      s.poolSpot p = some a) ∧
    (∃ (role : Role) (p : Fin 16) (s : State), AcceptedNum s role Od.pool_ENABLE p 0 ∧ s.poolOn p = true) ∧
    (∃ (role : Role) (p : Fin 128) (v : Nat) (s : State), AcceptedNum s role Od.pool_HOST_MIN p v) ∧
    (∃ (role : Role) (g : Fin 128) (v : Nat) (s : State), AcceptedNum s role Od.qg_INGEST_MIN g v) ∧
    (∃ (role : Role) (g : Fin 256) (mask : Nat) (s : State), AcceptedNum s role Od.qg_FLUSH g mask) ∧
    (∃ (role : Role) (p : Fin 128) (s : State), AcceptedNum s role Od.egr_GATE_APPLY p 1) ∧
    (∃ (role : Role) (p : Fin 128) (s : State), AcceptedNum s role Od.egr_GATE_APPLY p 2) :=
  ⟨⟨.admin, 511, 1, liveState, ⟨by decide, by decide, by decide, by decide⟩, by decide⟩,
    ⟨.admin, 1, poolState 0, 0, ⟨by decide, by decide, by decide, by decide⟩, by decide, by decide⟩,
    ⟨.admin, 1, poolState 1, ⟨by decide, by decide, by decide, by decide⟩, by decide⟩,
    ⟨.admin, 1, 0, poolState 1, by decide, by decide, by decide, by decide⟩,
    ⟨.admin, 127, 0, poolState 1, by decide, by decide, by decide, by decide⟩,
    ⟨.admin, 255, 255, liveState, by decide, by decide, by decide, by decide⟩,
    ⟨.admin, 127, (liveState).setBlob Od.egr_ADMIN_LIST 127 [255#8, 0#8, 0#8, 0#8, 0#8, 4#8, 0#8, 0#8], by decide, by decide, by decide,
      by decide⟩,
    ⟨.admin, 127, liveState, by decide, by decide, by decide, by decide⟩⟩

/-! ### Witnesses: the service, the function, interrupts -/

theorem framed (f : List Byte) (ty : Nat) (h : decide (f.take 3 = [0x49#8, 0x4F#8, 0x01#8] ∧ 16 ≤ f.length ∧ leAt f 6 2 = f.length ∧
    leAt f 3 1 = ty) = true) : Framed f ty := by
  unfold Framed; exact of_decide_eq_true h

/-- A frame of the service (R49), whose HMAC, where its flags say it has one, is its last 64 bytes. -/
def iopFrame (ty flags session seq : Nat) (body : List Byte) : List Byte :=
  [0x49#8, 0x4F#8, 0x01#8] ++ leBytes 1 ty ++ leBytes 2 flags ++ leBytes 2 (16 + body.length) ++ leBytes 4 session ++ leBytes 4 seq ++ body

/-- An open session 7 over UDP. -/
def openSession : Session := { id := 7, origin := .udp 0, role := 3, auth := true, keptSeq := 5, keptAnswer := [0#8] }

def sessionState (x : Session := openSession) : State := liveState [] { iop := { sessions := [x] } }

/-- The shortest HELLO frame that is long enough, and longer ones. -/
def helloFrame (n : Nat := 512) : List Byte := iopFrame 1 0 0 0 (List.replicate (n - 16) 0#8)

/-- A state that knows the client's key. -/
def keyed (l : List (Row × Nat × Nat) := []) (i : IopState := {}) : State :=
  liveState l { sec := { clientKeys := [⟨List.replicate 8 0#8, 3, []⟩] }, iop := i }

theorem witness_Handshakes :
    (∃ (o : Origin) (f : List Byte) (s : State), s.live = true ∧ s.transportOpen o = true ∧ Framed f 0x01 ∧ Free o s ∧
      (beforeFrame o s).takeHello = none) ∧
    (∃ (o : Origin) (f : List Byte) (s t : State), s.live = true ∧ s.transportOpen o = true ∧ Framed f 0x01 ∧ Free o s ∧
      (beforeFrame o s).takeHello = some t ∧ t.sec.sealedOff = true) ∧
    (∃ (o : Origin) (f : List Byte) (s t : State), s.live = true ∧ s.transportOpen o = true ∧ Framed f 0x01 ∧ Free o s ∧
      (beforeFrame o s).takeHello = some t ∧ t.sec.sealedOff = false ∧ f.length + 1 = 512) ∧
    (∃ (o : Origin) (f : List Byte) (s t : State), s.live = true ∧ s.transportOpen o = true ∧ Framed f 0x01 ∧ Free o s ∧
      (beforeFrame o s).takeHello = some t ∧ t.sec.sealedOff = false ∧ 512 = f.length ∧
      t.clientKey (((f.drop 16).drop 165).take 8) = none) :=
  ⟨⟨.udp 0, iopFrame 1 0 0 0 [], liveState [(Od.iop_HELLO_RATE, 0, 1)] { iop := { helloCount := 1 } }, by decide, by decide,
      framed _ _ rfl, fun _ => rfl, by decide⟩,
    ⟨.udp 0, helloFrame, liveState [] { sec := { sealedOff := true } }, _, by decide, by decide, framed _ _ rfl, fun _ => rfl, rfl, by decide⟩,
    ⟨.udp 0, helloFrame 511, liveState, _, by decide, by decide, framed _ _ rfl, fun _ => rfl, rfl, by decide, by decide⟩,
    ⟨.mailbox, helloFrame, liveState, _, by decide, by decide, framed _ _ rfl, fun _ => rfl, rfl, by decide, by decide, by decide⟩⟩

/-- The client's key is known. -/
theorem witness_Handshakes_key :
    (∃ (o : Origin) (f : List Byte) (s t : State) (k : ClientKey), s.live = true ∧ s.transportOpen o = true ∧ Framed f 0x01 ∧
      Free o s ∧ (beforeFrame o s).takeHello = some t ∧ t.sec.sealedOff = false ∧ 512 = f.length ∧
      t.clientKey (((f.drop 16).drop 165).take 8) = some k ∧ o ≠ .mailbox ∧ t.get Od.iop_SESSION_MAX = t.sessionsOpen) ∧
    (∃ (o : Origin) (f : List Byte) (s t : State) (k : ClientKey), s.live = true ∧ s.transportOpen o = true ∧ Framed f 0x01 ∧
      Free o s ∧ (beforeFrame o s).takeHello = some t ∧ t.sec.sealedOff = false ∧ f.length = 4097 ∧
      t.clientKey (((f.drop 16).drop 165).take 8) = some k ∧ o = .mailbox ∧ t.get Od.iop_SESSION_MAX = t.sessionsOpen) ∧
    (∃ (o : Origin) (f : List Byte) (s t : State) (k : ClientKey), s.live = true ∧ s.transportOpen o = true ∧ Framed f 0x01 ∧
      Free o s ∧ (beforeFrame o s).takeHello = some t ∧ t.sec.sealedOff = false ∧ f.length = 4096 ∧
      t.clientKey (((f.drop 16).drop 165).take 8) = some k ∧ t.sessionsOpen < t.get Od.iop_SESSION_MAX) :=
  ⟨⟨.udp 0, helloFrame, keyed [(Od.iop_SESSION_MAX, 0, 1)] { sessions := [openSession] }, _, ⟨List.replicate 8 0#8, 3, []⟩,
      by decide, by decide, framed _ _ rfl, fun _ => rfl, rfl, by decide, by decide, by decide, by decide, by decide⟩,
    ⟨.mailbox, helloFrame 4097, keyed [(Od.iop_SESSION_MAX, 0, 1)] { sessions := [openSession] }, _, ⟨List.replicate 8 0#8, 3, []⟩,
      by decide, by decide, framed _ _ (by decide +kernel), fun _ => rfl, rfl, by decide, by decide +kernel, by decide +kernel, rfl, by decide⟩,
    ⟨.udp 0, helloFrame 4096, keyed, _, ⟨List.replicate 8 0#8, 3, []⟩, by decide, by decide, framed _ _ (by decide +kernel), fun _ => rfl,
      rfl, by decide, by decide +kernel, by decide +kernel, by decide⟩⟩

theorem witness_Handshakes_idle :
    (∃ (o : Origin) (f : List Byte) (s : State), s.live = true ∧ s.transportOpen o = true ∧ Framed f 0x03 ∧ Free o s ∧
      ((beforeFrame o s).iop.handshakes.find? fun h => h.session = leAt f 8 4 ∧ h.origin = o) = none) ∧
    (∃ (id : Nat) (s : State), s.session id = none) ∧
    (∃ (id : Nat) (s : State) (x : Session), s.session id = some x ∧ x.auth = false) ∧
    (∃ (id : Nat) (s : State) (x : Session), s.session id = some x ∧ s.cycle + 1 = x.lastValid + secCycles x.idleTimeout) ∧
    (∃ (id : Nat) (s : State) (x : Session), s.session id = some x ∧ x.lastValid = s.cycle) ∧
    (∃ (id : Nat) (s : State) (x : Session), s.session id = some x ∧ x.auth = true ∧
      x.lastValid + secCycles x.idleTimeout = s.cycle ∧ x.lastValid ≠ s.cycle ∧ id = 0) ∧
    (∃ (id : Nat) (s : State) (x : Session), s.session id = some x ∧ x.auth = true ∧
      x.lastValid + secCycles x.idleTimeout = s.cycle ∧ x.lastValid ≠ s.cycle ∧ id ≠ 0) :=
  ⟨⟨.mailbox, iopFrame 3 0 9 0 [], liveState, by decide, by decide, framed _ _ rfl, fun _ => rfl, by decide⟩, ⟨7, {}, by decide⟩,
    ⟨7, sessionState { openSession with auth := false }, { openSession with auth := false }, by decide, by decide⟩,
    ⟨7, { sessionState { openSession with idleTimeout := 1 } with cycle := secCycles 1 - 1 }, { openSession with idleTimeout := 1 }, by
      decide, by decide⟩,
    ⟨7, sessionState, openSession, by decide, by decide⟩,
    ⟨0, { sessionState { openSession with idleTimeout := 1, id := 0 } with cycle := secCycles 1 },
      { openSession with idleTimeout := 1, id := 0 }, by decide, by decide, by decide, by decide, rfl⟩,
    ⟨7, { sessionState { openSession with idleTimeout := 1 } with cycle := secCycles 1 }, { openSession with idleTimeout := 1 },
      by decide, by decide, by decide, by decide, by decide⟩⟩

/-- A handshake over UDP. -/
def handshake : Handshake :=
  { session := 9, origin := .udp 0, hello := [], answer := [], role := 3, frameMax := 512, keyId := [], pubkey := [], ephDraw := 0, startAt := 0 }

/-- A PROVE whose signature fails. -/
theorem witness_Handshakes_forged (verify : ∀ k d sig, Config.ecdsaVerify k d sig = false) :
    ∃ (o : Origin) (f : List Byte) (s : State) (h : Handshake), s.live = true ∧ s.transportOpen o = true ∧ Framed f 0x03 ∧ Free o s ∧
      ((beforeFrame o s).iop.handshakes.find? fun h => h.session = leAt f 8 4 ∧ h.origin = o) = some h ∧
      Config.ecdsaVerify h.pubkey (Config.sha512 (h.hello ++ h.answer)) ((f.drop 16).take 132) = false :=
  ⟨.udp 0, iopFrame 3 1 9 0 (List.replicate 196 0#8), liveState [] { iop := { handshakes := [handshake] } }, handshake,
    by decide, by decide, framed _ _ rfl, fun _ => rfl, by decide, verify _ _ _⟩

/-- A PROVE whose signature verifies, of n bytes after its head, and what its HMAC gives. -/
def Proves (good : Bool) (n : Nat) : Prop :=
  ∃ (o : Origin) (f : List Byte) (s : State) (h : Handshake), s.live = true ∧ s.transportOpen o = true ∧ Framed f 0x03 ∧ Free o s ∧
    ((beforeFrame o s).iop.handshakes.find? fun h => h.session = leAt f 8 4 ∧ h.origin = o) = some h ∧
    Config.ecdsaVerify h.pubkey (Config.sha512 (h.hello ++ h.answer)) ((f.drop 16).take 132) = true ∧
    hmacOk (Handshake.keys h).1 f = good ∧ f.length = 16 + n

theorem proves (verify : ∀ k d sig, Config.ecdsaVerify k d sig = true) (good : Bool) (n : Nat) (b : Byte)
    (hs : leAt (iopFrame 3 1 9 0 (List.replicate n b)) 8 4 = 9)
    (hf : Framed (iopFrame 3 1 9 0 (List.replicate n b)) 3)
    (hh : hmacOk (Handshake.keys handshake).1 (iopFrame 3 1 9 0 (List.replicate n b)) = good)
    (hl : (iopFrame 3 1 9 0 (List.replicate n b)).length = 16 + n) : Proves good n :=
  ⟨.udp 0, iopFrame 3 1 9 0 (List.replicate n b), liveState [] { iop := { handshakes := [handshake] } }, handshake, rfl, rfl, hf,
    fun _ => rfl, by simp only [hs]; decide, verify _ _ _, hh, hl⟩

/-- The HMAC fails, or verifies at the longest length and beyond it. -/
theorem witness_Handshakes_prove (verify : ∀ k d sig, Config.ecdsaVerify k d sig = true)
    (hmac : ∀ k m, Config.hmac k m = List.replicate 64 0#8) : Proves false 196 ∧ Proves true 4080 ∧ Proves true 4081 := by
  refine ⟨proves verify _ _ 1#8 ?_ ?_ ?_ ?_, proves verify _ _ 0#8 ?_ ?_ ?_ ?_, proves verify _ _ 0#8 ?_ ?_ ?_ ?_⟩
  all_goals first
    | exact framed _ _ (by decide +kernel)
    | decide +kernel
    | (simp only [hmacOk, hmac]; decide +kernel)

/-- Frames that no session takes: while a request is outstanding, before the dictionary is live, over a closed transport, or with
a bad head. -/
theorem witness_SessionFrames_refused :
    (∃ (o : Origin) (f : List Byte) (j : Instr), j ∈ [Instr.hello o f, .prove o f, .request o f, .notifyAck o f, .close o f] ∧
      j ≠ frameCommand o f) ∧
    (∃ (o : Origin) (s : State), o = .mailbox ∧ s.host.outstanding = true) ∧
    (∃ (o : Origin) (s : State), Free o s ∧ s.live = false ∧ o = .mailbox) ∧
    (∃ (o : Origin) (s : State), Free o s ∧ s.live = false ∧ o ≠ .mailbox) ∧
    (∃ (o : Origin) (s : State), Free o s ∧ s.live = true ∧ s.transportOpen o = false) ∧
    (∃ (o : Origin) (f : List Byte) (s : State), Free o s ∧ s.live = true ∧ s.transportOpen o = true ∧
      f.take 3 ≠ [0x49#8, 0x4F#8, 0x01#8]) ∧
    (∃ (o : Origin) (f : List Byte) (s : State), Free o s ∧ s.live = true ∧ s.transportOpen o = true ∧ f.length + 1 = 16) ∧
    (∃ (o : Origin) (f : List Byte) (s : State), Free o s ∧ s.live = true ∧ s.transportOpen o = true ∧
      f.take 3 = [0x49#8, 0x4F#8, 0x01#8] ∧ 16 = f.length ∧ leAt f 6 2 + 1 = f.length) ∧
    (∃ (o : Origin) (f : List Byte) (s : State), Free o s ∧ s.live = true ∧ s.transportOpen o = true ∧
      f.take 3 = [0x49#8, 0x4F#8, 0x01#8] ∧ 16 = f.length ∧ leAt f 6 2 = f.length ∧ leAt f 3 1 ∉ clientTypes) :=
  ⟨⟨.mailbox, [], .hello .mailbox [], by decide, by decide⟩, ⟨.mailbox, { host := { reqBusy := true } }, rfl, rfl⟩,
    ⟨.mailbox, {}, fun _ => rfl, rfl, rfl⟩, ⟨.udp 0, {}, fun _ => rfl, rfl, by decide⟩,
    ⟨.fabric 0, liveState [(Od.iop_FABRIC_IOP, 0, 0)], fun _ => rfl, rfl, by decide⟩,
    ⟨.mailbox, [0x49#8, 0x4F#8, 0x02#8], liveState, fun _ => rfl, rfl, rfl, by decide⟩,
    ⟨.mailbox, (iopFrame 1 0 0 0 []).take 15, liveState, fun _ => rfl, rfl, rfl, by decide⟩,
    ⟨.udp 0, [0x49#8, 0x4F#8, 1#8, 1#8, 0#8, 0#8, 15#8] ++ List.replicate 9 0#8, liveState, fun _ => rfl, rfl, rfl, by decide⟩,
    ⟨.udp 0, iopFrame 2 0 0 0 [], liveState, fun _ => rfl, rfl, rfl, by decide⟩⟩

/-- A frame of a TYPE that reaches a session and is its own. -/
def Heard (x : Session) (ty : Nat) (p : List Byte → Prop) : Prop :=
  ∃ (o : Origin) (f : List Byte) (s : State), s.live = true ∧ s.transportOpen o = true ∧ Free o s ∧
    (beforeFrame o s).session (leAt f 8 4) = some x ∧ (o = .mailbox ↔ x.id = 0) ∧
    (x.auth = true ∧ hmacOk x.c2e f = true ∨ x.auth = false ∧ (leAt f 4 2).testBit 0 = false) ∧ Framed f ty ∧ p f

theorem witness_SessionFrames (hmac : ∀ k m, Config.hmac k m = List.replicate 64 0#8) :
    Heard openSession 0x10 (fun f => leAt f 12 4 = openSession.keptSeq + 1) ∧
    Heard openSession 0x10 (fun f => leAt f 12 4 = openSession.keptSeq ∧ openSession.keptAnswer ≠ []) ∧
    (∃ x, Heard x 0x10 fun f => leAt f 12 4 = x.keptSeq ∧ x.keptAnswer = []) ∧
    Heard openSession 0x10 (fun f => leAt f 12 4 + 1 = openSession.keptSeq) ∧
    (∀ ty ∈ [0x21, 0x30], (∃ x, Heard x ty fun f => f.length = x.frameMax) ∧ ∃ x, Heard x ty fun f => f.length = x.frameMax + 1) ∧
    ∃ x, x.auth = false ∧ Heard x 0x10 fun _ => x.keptSeq < 1 := by
  have h (ty seq : Nat) (hl : decide (80 ≤ (iopFrame ty 1 7 seq (List.replicate 64 0#8)).length) = true)
      (hb : (leAt (iopFrame ty 1 7 seq (List.replicate 64 0#8)) 4 2).testBit 0 = true)
      (hd : (iopFrame ty 1 7 seq (List.replicate 64 0#8)).drop ((iopFrame ty 1 7 seq (List.replicate 64 0#8)).length - 64) =
        List.replicate 64 0#8) (k : List Byte) : hmacOk k (iopFrame ty 1 7 seq (List.replicate 64 0#8)) = true := by
    simp only [hmacOk, hmac, hd, hl, hb]; decide
  have g (x : Session) (ty seq : Nat) (p : List Byte → Prop) (hs : (sessionState x).session 7 = some x) (hx : x.id = 7)
      (ha : x.auth = true) (hi : leAt (iopFrame ty 1 7 seq (List.replicate 64 0#8)) 8 4 = 7)
      (hh : hmacOk x.c2e (iopFrame ty 1 7 seq (List.replicate 64 0#8)) = true)
      (hf : Framed (iopFrame ty 1 7 seq (List.replicate 64 0#8)) ty) (hp : p (iopFrame ty 1 7 seq (List.replicate 64 0#8))) :
      Heard x ty p :=
    ⟨.udp 0, _, sessionState x, rfl, rfl, fun _ => rfl, by rw [hi]; exact hs, by simp [hx], Or.inl ⟨ha, hh⟩, hf, hp⟩
  refine ⟨g _ 0x10 6 _ rfl rfl rfl (by decide) (h _ _ (by decide) (by decide) (by decide) _) (framed _ _ rfl) (by decide),
    g _ 0x10 5 _ rfl rfl rfl (by decide) (h _ _ (by decide) (by decide) (by decide) _) (framed _ _ rfl) (by decide),
    ⟨{ openSession with keptAnswer := [] }, g _ 0x10 5 _ rfl rfl rfl (by decide) (h _ _ (by decide) (by decide) (by decide) _)
      (framed _ _ rfl) (by decide)⟩,
    g _ 0x10 4 _ rfl rfl rfl (by decide) (h _ _ (by decide) (by decide) (by decide) _) (framed _ _ rfl) (by decide), fun ty hty => ?_,
    ⟨{ openSession with auth := false, keptSeq := 0 }, rfl, .udp 0, iopFrame 0x10 0 7 1 [],
      sessionState { openSession with auth := false, keptSeq := 0 }, rfl, rfl, fun _ => rfl, by decide, by decide,
      Or.inr ⟨rfl, by decide⟩, framed _ _ rfl, by decide⟩⟩
  simp only [List.mem_cons, List.not_mem_nil, or_false] at hty
  obtain rfl | rfl := hty <;>
    exact ⟨⟨{ openSession with frameMax := 80 }, g _ _ 0 _ rfl rfl rfl (by decide) (h _ _ (by decide) (by decide) (by decide) _)
        (framed _ _ rfl) (by decide)⟩,
      ⟨{ openSession with frameMax := 79 }, g _ _ 0 _ rfl rfl rfl (by decide) (h _ _ (by decide) (by decide) (by decide) _)
        (framed _ _ rfl) (by decide)⟩⟩

/-- Frames that a session does not take for its own, for each of the three commands. -/
theorem witness_SessionFrames_bad :
    ∀ ty ∈ [0x10, 0x21, 0x30], ∃ (f g : List Byte) (o : Origin), Framed f ty ∧ Framed g ty ∧ o ≠ .mailbox ∧ (leAt g 4 2).testBit 0 = true ∧
      (∃ s : State, s.live = true ∧ s.transportOpen o = true ∧ Free o s ∧ (beforeFrame o s).session (leAt f 8 4) = none) ∧
      (∃ (s : State) (x : Session), s.live = true ∧ s.transportOpen .mailbox = true ∧ Free .mailbox s ∧
        (beforeFrame .mailbox s).session (leAt f 8 4) = some x ∧ ¬ (Origin.mailbox = .mailbox ↔ x.id = 0)) ∧
      (∃ (s : State) (x : Session), s.live = true ∧ s.transportOpen o = true ∧ Free o s ∧
        (beforeFrame o s).session (leAt g 8 4) = some x ∧ (o = .mailbox ↔ x.id = 0) ∧ x.auth = false) ∧
      (∀ n : Nat, ∃ (s : State) (x : Session), s.live = true ∧ s.transportOpen o = true ∧ Free o s ∧
        (beforeFrame o s).session (leAt f 8 4) = some x ∧ (o = .mailbox ↔ x.id = 0) ∧ x.auth = true ∧ hmacOk x.c2e f = false ∧
        x.id ≠ 0 ∧ x.badRun = n) := by
  intro ty h
  refine ⟨iopFrame ty 0 7 6 [], iopFrame ty 1 7 6 [], .udp 0, ?_, ?_, by decide, ?_, ⟨liveState, rfl, rfl, fun _ => rfl, ?_⟩,
    ⟨sessionState, openSession, rfl, rfl, fun _ => rfl, ?_, by decide⟩,
    ⟨sessionState { openSession with auth := false }, { openSession with auth := false }, rfl, rfl, fun _ => rfl, ?_, by decide, rfl⟩,
    fun n => ⟨sessionState { openSession with badRun := n }, { openSession with badRun := n }, rfl, rfl, fun _ => rfl, ?_, by
      simp [openSession], rfl, ?_, (by decide : (7 : Nat) ≠ 0), rfl⟩⟩
  all_goals
    simp only [List.mem_cons, List.not_mem_nil, or_false] at h
    obtain rfl | rfl | rfl := h
    all_goals first
      | exact framed _ _ rfl
      | rfl
      | decide

/-- A NOTIFY of session 7 that was sent, and sent again n times. -/
def notify (n : Nat) : InFlight := { session := 7, seq := 1, frame := [], resends := n, placed := some 0 }

theorem witness_SessionFrames_notify :
    (∃ (id seq : Nat) (s : State), (s.iop.inFlight.find? fun f => f.session = id ∧ f.seq = seq) = none) ∧
    (∃ (id : Nat) (s : State), s.session id = none) ∧
    ∀ n : Nat, (∃ (id seq : Nat) (s : State) (g : InFlight) (x : Session),
        (s.iop.inFlight.find? fun f => f.session = id ∧ f.seq = seq) = some g ∧ s.session id = some x ∧ s.resendDue g = false) ∧
      (∃ (id seq : Nat) (s : State) (g : InFlight) (x : Session), (s.iop.inFlight.find? fun f => f.session = id ∧ f.seq = seq) = some g ∧
        s.session id = some x ∧ s.resendDue g = true ∧ g.resends = n ∧ id = 0) ∧
      ∃ (id seq : Nat) (s : State) (g : InFlight) (x : Session), (s.iop.inFlight.find? fun f => f.session = id ∧ f.seq = seq) = some g ∧
        s.session id = some x ∧ s.resendDue g = true ∧ g.resends = n ∧ id ≠ 0 :=
  ⟨⟨7, 1, {}, by decide⟩, ⟨7, {}, by decide⟩, fun n =>
    ⟨⟨7, 1, { iop := { sessions := [openSession], inFlight := [notify n] }, cycle := msCycles 100 - 1 }, notify n, openSession, rfl, rfl, rfl⟩,
      ⟨0, 1, { iop := { sessions := [{ openSession with id := 0 }], inFlight := [{ notify n with session := 0 }] }, cycle := msCycles 100 },
        { notify n with session := 0 }, { openSession with id := 0 }, rfl, rfl, rfl, rfl, rfl⟩,
      ⟨7, 1, { iop := { sessions := [openSession], inFlight := [notify n] }, cycle := msCycles 100 }, notify n, openSession, rfl, rfl, rfl,
        rfl, by decide⟩⟩⟩

/-- An entry of command 0x10 that has ended, or not. -/
def entry (r : Option (Nat × List Byte)) (held : Option HeldResponse := none) : CmdEntry :=
  { ticket := 1, code := 0x10, session := 7, args := [], at_ := 0, result := r, held := held }

def entryState (e : CmdEntry) : State := ({} : State).setCmdQueue 0x10 { running := some e }

theorem witness_CommandsRunInTicketOrder :
    (∃ (s : State) (code : Nat), s.mayStart code = true ∧ (s.cmdQueue code).waiting = []) ∧
    (∃ (s : State) (code : Nat), s.mayStart code = false) ∧ (∃ (s : State) (code : Nat), (s.cmdQueue code).waiting ≠ []) ∧
    (∃ e : CmdEntry, e.code ≠ 0x33) ∧ (∃ e : CmdEntry, e.code = 0x33 ∧ leAt e.args 0 1 = 1) ∧
    (∃ (code : Nat) (s : State), (s.cmdQueue code).running = none) ∧
    (∃ (code : Nat) (s : State) (e : CmdEntry) (r : Nat) (data : List Byte), (s.cmdQueue code).running = some e ∧
      e.result = some (r, data) ∧ e.session ≠ bootSession) ∧
    (∃ (code : Nat) (s : State) (e : CmdEntry) (r : Nat) (data : List Byte), (s.cmdQueue code).running = some e ∧
      e.result = some (r, data) ∧ e.session = bootSession) ∧
    (∃ (code : Nat) (s : State) (e : CmdEntry), (s.cmdQueue code).running = some e ∧ e.result = none) ∧
    (let asks : State → CmdEntry → Bool := fun s e =>
       e.held.isSome && !e.pending && e.result.isNone && decide (e.at_ + msCycles 1 ≤ s.cycle)
     (∃ (code : Nat) (s : State) (e : CmdEntry), (s.cmdQueue code).running = some e ∧ s.cycle + 1 = e.at_ + msCycles 1 ∧
       ∀ x ∈ (s.cmdQueue code).running.toList ++ (s.cmdQueue code).waiting, asks s x = false) ∧
     (∃ (code : Nat) (s : State) (e : CmdEntry) (h : HeldResponse), ((s.cmdQueue code).running.toList ++
       (s.cmdQueue code).waiting).find? (asks s) = some e ∧ e.held = some h ∧ s.cycle = e.at_ + msCycles 1)) :=
  ⟨⟨{}, 0x10, by decide, by decide⟩, ⟨entryState (entry none), 0x10, by decide⟩,
    ⟨({} : State).setCmdQueue 0x10 { running := some (entry none), waiting := [entry none] }, 0x10, by decide⟩,
    ⟨entry none, by decide⟩, ⟨{ entry none with code := 0x33, args := [1#8] }, by decide⟩, ⟨0x10, {}, by decide⟩,
    ⟨0x10, entryState (entry (some (0, []))), entry (some (0, [])), 0, [], by decide, by decide, by decide⟩,
    ⟨0x10, entryState { entry (some (0, [])) with session := bootSession }, { entry (some (0, [])) with session := bootSession }, 0, [],
      by decide, by decide, by decide⟩,
    ⟨0x10, entryState (entry none), entry none, by decide, by decide⟩,
    ⟨0x10, { entryState (entry none (some ⟨7, 1, []⟩)) with cycle := msCycles 1 - 1 }, entry none (some ⟨7, 1, []⟩), by decide, by decide,
      by decide⟩,
    ⟨0x10, { entryState (entry none (some ⟨7, 1, []⟩)) with cycle := msCycles 1 }, entry none (some ⟨7, 1, []⟩), ⟨7, 1, []⟩, by decide,
      by decide, by decide⟩⟩

theorem witness_MailboxRequests :
    (∃ s : State, s.host.outstanding = false) ∧ (∃ s : State, s.host.outstanding = true) ∧ (∃ s : State, s.host.reqBusy = true) ∧
    (∃ s : State, s.host.reqBusy = false) ∧
    (∃ (s : State) (f : List Byte), s.host.respReady = true ∧ s.host.respWaiting = some f) ∧
    (∃ (s : State) (f : List Byte) (fs : List (List Byte)), s.host.respReady = true ∧ s.host.respWaiting = none ∧
      s.host.notifyWaiting = f :: fs) ∧
    (∃ s : State, s.host.respReady = true ∧ s.host.respWaiting = none ∧ s.host.notifyWaiting = []) ∧
    (∃ s : State, s.host.respReady = false) :=
  ⟨⟨{}, rfl⟩, ⟨{ host := { reqBusy := true } }, rfl⟩, ⟨{ host := { reqBusy := true } }, rfl⟩, ⟨{}, rfl⟩,
    ⟨{ host := { respReady := true, respWaiting := some [] } }, [], rfl, rfl⟩,
    ⟨{ host := { respReady := true, notifyWaiting := [[], []] } }, [], [[]], rfl, rfl, rfl⟩,
    ⟨{ host := { respReady := true } }, rfl, rfl, rfl⟩, ⟨{}, rfl⟩⟩

/-- Region 1 is OPEN, of 4 GiB at address 0. -/
def regionState (l : List (Row × Nat × Nat) := []) (s : State := {}) : State := objs l (objs [(Od.reg_KIND, 1, 0), (Od.reg_SIZE, 1, 2 ^ 32)] s)

theorem witness_PcieFunctionAndBars :
    (∃ s : State, s.get Od.sys_BOOT_MODE ≠ 1) ∧ (∃ s : State, s.get Od.sys_BOOT_MODE = 1) ∧ (∃ s : State, s.pciePowered = false) ∧
    (∃ s : State, s.pciePowered = true) ∧
    (∃ o n : Nat, 0x1000 ≤ o ∧ o + n = 0x2000) ∧ (∃ o n : Nat, 0x2000 ≤ o ∧ o + n = 0x3000 ∧ 0 < n) ∧
    (∃ o n : Nat, bar0Misused o n = true) ∧
    (∀ v ∈ [0, 62, 63], ∃ o n : Nat, bar0Misused o n = false ∧ ¬ (0x1000 ≤ o ∧ o + n ≤ 0x2000) ∧ ¬ (0x2000 ≤ o ∧ o + n ≤ 0x3000) ∧
      claimAt o = some v) ∧
    (∃ o n : Nat, bar0Misused o n = false ∧ ¬ (0x1000 ≤ o ∧ o + n ≤ 0x2000) ∧ ¬ (0x2000 ≤ o ∧ o + n ≤ 0x3000) ∧
      claimAt o = none ∧ bar0Listed o = true) ∧
    (∃ o n : Nat, bar0Misused o n = false ∧ ¬ (0x1000 ≤ o ∧ o + n ≤ 0x2000) ∧ ¬ (0x2000 ≤ o ∧ o + n ≤ 0x3000) ∧
      claimAt o = none ∧ bar0Listed o = false) ∧
    (∃ (o n : Nat) (s : State), s.bar2Bad (s.host.windowBase + o) n = true) ∧
    (∃ (o n : Nat) (bs : List Byte) (m : MemMeet) (s t : State), s.bar2Bad (s.host.windowBase + o) n = false ∧
      s.hbmRead 156 (s.host.windowBase + o) n m = (t, .data bs)) ∧
    (∃ (o n : Nat) (m : MemMeet) (s t : State), s.bar2Bad (s.host.windowBase + o) n = false ∧
      s.hbmRead 156 (s.host.windowBase + o) n m = (t, .poisoned)) ∧
    (∃ (o : Nat) (w : List Byte) (m : MemMeet) (s t : State), s.bar2Bad (s.host.windowBase + o) w.length = false ∧
      s.hbmWrite 156 (s.host.windowBase + o) w m = (t, true)) ∧
    (∃ (o : Nat) (w : List Byte) (m : MemMeet) (s t : State), s.bar2Bad (s.host.windowBase + o) w.length = false ∧
      s.hbmWrite 156 (s.host.windowBase + o) w m = (t, false)) :=
  ⟨⟨{}, by decide⟩, ⟨objs [(Od.sys_BOOT_MODE, 0, 1)], by decide⟩, ⟨{ power := { porst := false } }, by decide⟩,
    ⟨{ power := { step := 4 } }, by decide⟩, ⟨0x1000, 0x1000, by decide⟩, ⟨0x2FFF, 1, by decide⟩, ⟨0, 1, by decide⟩,
    fun v h => by
      simp only [List.mem_cons, List.not_mem_nil, or_false] at h
      obtain rfl | rfl | rfl := h
      · exact ⟨0x21000, 4, by decide⟩
      · exact ⟨0x211F0, 4, by decide⟩
      · exact ⟨0x21200, 4, by decide⟩,
    ⟨0, 4, by decide⟩, ⟨0x30, 4, by decide⟩, ⟨0, 1, {}, by decide⟩,
    ⟨2 ^ 32 - 1, 1, [5#8], ⟨[], 0, 0, []⟩, regionState [] { mem := { bytes := [(2 ^ 32 - 1, 5#8)] } }, _, by decide,
      Prod.ext rfl (by decide)⟩,
    ⟨255, 2, ⟨[], 0, 0, []⟩, regionState [] { mem := { poisoned := [256] } }, _, by decide, Prod.ext rfl (by decide)⟩,
    ⟨2 ^ 32 - 1, [1#8], ⟨[], 0, 0, []⟩, regionState, _, by decide, Prod.ext rfl (by decide)⟩,
    ⟨2 ^ 32 - 1, [1#8], ⟨[], 0, 0, []⟩, regionState [(Od.reg_KIND, 1, 1)], _, by decide, Prod.ext rfl (by decide)⟩⟩

/-- Channel 31 in a state, host requests allowed. -/
def dmaState (x : DmaChannel) (l : List (Row × Nat × Nat) := []) : State :=
  (objs l { host := { busMaster := true, d3hot := false, linkUp := true } }).setDma 31 x

/-- A descriptor that the host owns, both addresses in the host's memory. -/
def descriptor (control count : Nat) : Descriptor := ⟨control, count, 0, 0, 0⟩

theorem witness_DmaChannels :
    (∃ (ch : Fin 32) (s : State), (s.dma ch).state = dmaStopped ∧ s.halted = false ∧ s.host.allowed = true) ∧
    (∃ (ch : Fin 32) (s : State), (s.dma ch).state = dmaStopped ∧ s.halted = false ∧ s.host.allowed = false) ∧
    (∃ (ch : Fin 32) (s : State), (s.dma ch).state ≠ dmaStopped) ∧ (∃ s : State, s.halted = true) ∧
    (∃ (ch : Fin 32) (s : State), (s.dma ch).state = dmaStopped) ∧ (∃ (ch : Fin 32) (s : State), (s.dma ch).state = dmaError) ∧
    (∃ (ch : Fin 32) (s : State), (s.dma ch).state = dmaRunning ∧ s.dmaAtBoundary ch = false) ∧
    (∃ (ch : Fin 32) (s : State), (s.dma ch).state = dmaIdle ∧ s.dmaAtBoundary ch = true ∧ (s.dma ch).packet = none) ∧
    (∃ (ch : Fin 32) (s : State), (s.dma ch).state = dmaRunning ∧ s.dmaAtBoundary ch = true ∧ (s.dma ch).packet ≠ none) ∧
    (∃ (ch : Fin 32) (s : State), (s.dma ch).state ≠ dmaError) ∧
    (∃ (ch : Fin 32) (s : State), (s.dma ch).state = dmaIdle ∧ s.host.allowed = true) ∧
    (∃ (ch : Fin 32) (s : State), (s.dma ch).state = dmaIdle ∧ s.host.allowed = false) ∧
    (∃ (ch : Fin 32) (s : State), (s.dma ch).state ≠ dmaIdle) ∧
    (∃ (ch : Fin 32) (d : Descriptor) (s : State), (s.dma ch).state = dmaRunning ∧ (s.dma ch).desc = none ∧ d.control.testBit 31 = false ∧
      (s.dma ch).doorbell = true) ∧
    (∃ (ch : Fin 32) (d : Descriptor) (s : State), (s.dma ch).state = dmaRunning ∧ (s.dma ch).desc = none ∧ d.control.testBit 31 = false ∧
      (s.dma ch).doorbell = false) ∧
    (∃ (ch : Fin 32) (s : State), (s.dma ch).state ≠ dmaRunning) ∧ (∃ (ch : Fin 32) (s : State), (s.dma ch).desc ≠ none) :=
  ⟨⟨31, dmaState {}, by decide⟩, ⟨31, {}, by decide⟩, ⟨31, dmaState { state := dmaError }, by decide⟩, ⟨{ halted := true }, rfl⟩,
    ⟨31, {}, by decide⟩, ⟨31, dmaState { state := dmaError }, by decide⟩,
    ⟨31, dmaState { state := dmaRunning, desc := some (descriptor 0 1) }, by decide⟩, ⟨31, dmaState { state := dmaIdle }, by decide⟩,
    ⟨31, dmaState { state := dmaRunning, packet := some ({ pri := 0, entries := [] }, []) }, by decide⟩,
    ⟨31, dmaState { state := dmaIdle }, by decide⟩,
    ⟨31, dmaState { state := dmaIdle }, by decide⟩, ⟨31, ({} : State).setDma 31 { state := dmaIdle }, by decide⟩,
    ⟨31, dmaState { state := dmaRunning }, by decide⟩,
    ⟨31, descriptor (2 ^ 31 - 1) 1, dmaState { state := dmaRunning, doorbell := true }, by decide⟩,
    ⟨31, descriptor (2 ^ 31 - 1) 1, dmaState { state := dmaRunning }, by decide⟩, ⟨31, {}, by decide⟩,
    ⟨31, dmaState { state := dmaRunning, desc := some (descriptor 0 1) }, by decide⟩⟩

theorem witness_DmaDescriptors :
    (∃ (ch : Fin 32) (d : Descriptor) (s : State), (s.dma ch).state = dmaRunning ∧ (s.dma ch).desc = none ∧ d.control.testBit 31 = true ∧
      s.checkDescriptor (s.get Od.dma_MODE ch) d = 0) ∧
    (∃ (ch : Fin 32) (d : Descriptor) (s : State), (s.dma ch).state = dmaRunning ∧ (s.dma ch).desc = none ∧ d.control.testBit 31 = true ∧
      s.checkDescriptor (s.get Od.dma_MODE ch) d ≠ 0) ∧
    (∃ d : Descriptor, d.count = 0) ∧
    (∃ (ch : Fin 32) (s : State), (s.dma ch).desc = none) ∧ (∃ (ch : Fin 32) (s : State), (s.dma ch).readback = false) ∧
    (∃ (ch : Fin 32) (s : State), (s.dma ch).state ≠ dmaRunning) ∧
    (∃ (ch : Fin 32) (s : State) (d : Descriptor), (s.dma ch).desc = some d ∧ (s.dma ch).readback = true ∧
      (s.dma ch).state = dmaRunning ∧ s.get Od.dma_MODE ch ≠ 1) ∧
    (∃ (ch : Fin 32) (s : State) (d : Descriptor), (s.dma ch).desc = some d ∧ (s.dma ch).readback = true ∧
      (s.dma ch).state = dmaRunning ∧ s.get Od.dma_MODE ch = 1 ∧ (s.dma ch).status = 0 ∧ (s.dma ch).eop = false ∧ d.next = 0) :=
  ⟨⟨31, descriptor (2 ^ 31) 1, dmaState { state := dmaRunning } [(Od.dma_MODE, 31, 1)], by decide⟩,
    ⟨31, descriptor (2 ^ 31) 0, dmaState { state := dmaRunning }, by decide⟩, ⟨descriptor 0 0, rfl⟩, ⟨31, {}, by decide⟩,
    ⟨31, {}, by decide⟩, ⟨31, {}, by decide⟩,
    ⟨31, dmaState { state := dmaRunning, desc := some (descriptor 0 1), readback := true }, descriptor 0 1, by decide⟩,
    ⟨31, dmaState { state := dmaRunning, desc := some (descriptor 0 1), readback := true } [(Od.dma_MODE, 31, 1)], descriptor 0 1, by
      decide⟩⟩

/-- The host's layer 0 on channel 31 and its pool 0, at a level of back-pressure. -/
def hostLayered (level : Nat) (x : DmaChannel) (s : State := {}) : State :=
  (objs [(Od.dma_MODE, 31, 2), (Od.pool_WARN_STATE, 0, level)]
    { (s.setBlob Od.st_INPUTS 0 ([3#8, 0#8] ++ leBytes 2 0 ++ leBytes 4 31 ++ List.replicate 16 0#8)) with
      queues := { s.queues with inputOwner := [(0, some (0, 0))] } }).setDma 31 x

theorem witness_DmaDescriptors_data :
    (∃ (ch : Fin 32) (s : State), (s.dma ch).readback = true) ∧ (∃ (ch : Fin 32) (s : State), s.get Od.dma_MODE ch = 1) ∧
    (∃ (ch : Fin 32) (s : State) (d : Descriptor), (s.dma ch).desc = some d ∧ (s.dma ch).state = dmaRunning ∧
      (s.dma ch).readback = false ∧ s.get Od.dma_MODE ch ≠ 1 ∧ d.control.testBit 17 = true) ∧
    (∃ (ch : Fin 32) (s : State) (d : Descriptor), (s.dma ch).desc = some d ∧ (s.dma ch).state = dmaRunning ∧
      (s.dma ch).readback = false ∧ d.control.testBit 17 = false ∧ s.get Od.dma_MODE ch = 0) ∧
    (∃ (ch : Fin 32) (s : State) (d : Descriptor), (s.dma ch).desc = some d ∧ (s.dma ch).state = dmaRunning ∧
      (s.dma ch).readback = false ∧ d.control.testBit 17 = false ∧ s.get Od.dma_MODE ch = 2) ∧
    (∃ (ch : Fin 32) (s : State), (s.dma ch).desc ≠ none ∧ (s.dma ch).state = dmaWaiting ∧
      s.get Od.dma_MODE ch = 1 ∧ (s.dma ch).packet = none ∧ (s.queue (1536 + ch)).packets ≠ []) ∧
    (∃ (ch : Fin 32) (s : State), (s.dma ch).state ≠ dmaWaiting) ∧ (∃ (ch : Fin 32) (s : State), (s.dma ch).desc = none) ∧
    (∃ (ch : Fin 32) (s : State), s.get Od.dma_MODE ch = 0) ∧ (∃ (ch : Fin 32) (s : State), (s.dma ch).packet ≠ none) ∧
    (∃ (ch : Fin 32) (s : State), (s.queue (1536 + ch)).packets = []) ∧
    (∃ (ch : Fin 32) (s : State), (s.dma ch).state = dmaWaiting ∧ (s.dma ch).desc ≠ none ∧ s.get Od.dma_MODE ch = 2 ∧
      s.hostPaused ch = false ∧
      ((((s.setDma ch { s.dma ch with state := dmaRunning }).moveChunk ch).dma ch).state ≠ dmaWaiting)) ∧
    (∃ (ch : Fin 32) (s : State), (s.dma ch).state = dmaWaiting ∧ (s.dma ch).desc ≠ none ∧ s.get Od.dma_MODE ch = 2 ∧
      0 < (s.dma ch).moved ∧
      ((((s.setDma ch { s.dma ch with state := dmaRunning }).moveChunk ch).dma ch).state = dmaWaiting)) ∧
    (∃ (ch : Fin 32) (s : State), (s.dma ch).moved = 0 ∧ s.hostPaused ch = true) :=
  ⟨⟨31, dmaState { readback := true }, by decide⟩, ⟨31, dmaState {} [(Od.dma_MODE, 31, 1)], by decide⟩,
    ⟨31, dmaState { state := dmaRunning, desc := some (descriptor (2 ^ 17) 1) }, descriptor (2 ^ 17) 1, by decide⟩,
    ⟨31, dmaState { state := dmaRunning, desc := some (descriptor 0 1) }, descriptor 0 1, by decide⟩,
    ⟨31, dmaState { state := dmaRunning, desc := some (descriptor 0 1) } [(Od.dma_MODE, 31, 2)], descriptor 0 1, by decide⟩,
    ⟨31, (dmaState { state := dmaWaiting, desc := some (descriptor 0 1) } [(Od.dma_MODE, 31, 1)]).setQueue 1567
      { packets := [{ pri := 0, entries := [] }] }, by decide⟩,
    ⟨31, {}, by decide⟩, ⟨31, {}, by decide⟩, ⟨31, {}, by decide⟩,
    ⟨31, dmaState { packet := some ({ pri := 0, entries := [] }, []) }, by decide⟩, ⟨31, {}, by decide⟩,
    ⟨31, (hostLayered 0 { state := dmaWaiting, desc := some (descriptor 0 2), source := [0#8, 0#8] }).setFree 0 { cache := [31] }, by
      decide +kernel⟩,
    ⟨31, dmaState { state := dmaWaiting, desc := some (descriptor 0 2), source := [0#8], moved := 1 }
      [(Od.dma_MODE, 31, 2), (Od.pool_ENABLE, 0, 0)], by decide +kernel⟩,
    ⟨31, hostLayered 3 {}, by decide⟩⟩

/-- Equal priorities: the claim names the lower number, wherever it stands. -/
theorem witness_ClaimTakesTheBestSource :
    (∃ l : List (Nat × Nat), l ≠ []) ∧ bestSource [(9, 3), (4, 3), (200, 2)] = some (4, 3) := ⟨⟨[(1, 1)], by decide⟩, by decide⟩

/-- Source 511 with its state, of priority 15 on vector 0 or 63. -/
def sourceState (src : Nat) (x : IrqSource) (cfg : Nat := 15) : State :=
  ({ host := { srcCfg := [(src, cfg)] } } : State).setIrq src x

theorem witness_InterruptSources :
    (∃ src : Nat, 0 < src ∧ src < 256 ∧ src + 1 = 256) ∧
    (∃ (q : IrqSource) (c : Nat), cfgPriority c ≠ 0 ∧ q.pending = false ∧ q.active = false ∧ q.count + 2 = cfgCount c ∧
      q.timer = false) ∧
    (∃ (q : IrqSource) (c : Nat), cfgPriority c ≠ 0 ∧ q.pending = false ∧ q.active = false ∧ q.count + 1 = cfgCount c) ∧
    (∃ (i : Instr) (v : Nat), (∃ w : Fin 63, i = .claim w ∧ v = w.val) ∨ i = .fastClaim ∧ v = 63) ∧
    (∀ v ∈ [0, 62, 63], (∃ (s : State) (src pri : Nat), bestSource (s.pendingOn v) = some (src, pri)) ∧ ∃ s : State, s.pendingOn v = []) ∧
    (∃ (i : Instr) (v n : Nat), (∃ w : Fin 63, i = .complete w n ∧ v = w.val) ∨ i = .fastComplete n ∧ v = 63) ∧
    (∀ v ∈ [0, 62, 63], ∃ (src : Nat) (s : State), src < 512 ∧ (s.irq src).active = true ∧ (s.irq src).vector = v) ∧
    (∃ (src : Nat) (s : State), src < 512 ∧ (s.irq src).active = false) ∧
    (∃ (src v : Nat) (s : State), src < 512 ∧ (s.irq src).vector ≠ v ∧ v < 64) :=
  ⟨⟨255, by decide⟩, ⟨{}, 15 + 2 * 128, by decide⟩, ⟨{ count := 1 }, 15 + 2 * 128, by decide⟩, ⟨.fastClaim, 63, Or.inr ⟨rfl, rfl⟩⟩,
    fun v h => by
      simp only [List.mem_cons, List.not_mem_nil, or_false] at h
      obtain rfl | rfl | rfl := h
      · exact ⟨⟨sourceState 9 { pending := true } 15, 9, 15, by decide⟩, {}, by decide⟩
      · exact ⟨⟨sourceState 9 { pending := true } (15 + 62 * 2 ^ 25), 9, 15, by decide⟩, {}, by decide⟩
      · exact ⟨⟨sourceState 9 { pending := true } (15 + 2 ^ 31), 9, 15, by decide⟩, {}, by decide⟩,
    ⟨.complete 62 511, 62, 511, Or.inl ⟨62, rfl, rfl⟩⟩, fun v _ => ⟨511, sourceState 511 { active := true, vector := v }, by decide, rfl, rfl⟩,
    ⟨511, {}, by decide⟩, ⟨511, 1, sourceState 511 { active := true }, by decide⟩⟩

theorem witness_InterruptSources_timers :
    (∃ (src : Fin 512) (s : State), (s.irq src).timer = true ∧ (s.irq src).since + cfgTime (s.srcCfg src) = s.cycle ∧
      (s.irq src).active = false) ∧
    (∃ (src : Fin 512) (s : State), (s.irq src).timer = true ∧ (s.irq src).since + cfgTime (s.srcCfg src) = s.cycle ∧
      (s.irq src).active = true) ∧
    (∃ (src : Fin 512) (s : State), (s.irq src).timer = false) ∧
    (∃ (src : Fin 512) (s : State), (s.irq src).timer = true ∧ s.cycle + 1 = (s.irq src).since + cfgTime (s.srcCfg src)) ∧
    (∃ src : Fin 512, src.val = 0) ∧ (∃ src : Fin 512, 256 = src.val) ∧
    (∃ (src : Fin 512) (v : Nat), 0 < src.val ∧ src.val < 256 ∧ cfgPriority (setBits (v % 2 ^ 32) 4 3 0) = 0) ∧
    (∃ (src : Fin 512) (v : Nat) (s : State), 0 < src.val ∧ src.val + 1 = 256 ∧ cfgPriority (setBits (v % 2 ^ 32) 4 3 0) ≠ 0 ∧
      (s.irq src).timer = true ∧ cfgCount (setBits (v % 2 ^ 32) 4 3 0) = (s.irq src).count) ∧
    (∃ (src : Fin 512) (v : Nat) (s : State), 0 < src.val ∧ src.val < 256 ∧ cfgPriority (setBits (v % 2 ^ 32) 4 3 0) ≠ 0 ∧
      (s.irq src).timer = false) ∧
    (∃ (src : Fin 512) (v : Nat) (s : State), 0 < src.val ∧ src.val < 256 ∧ cfgPriority (setBits (v % 2 ^ 32) 4 3 0) ≠ 0 ∧
      (s.irq src).timer = true ∧ (s.irq src).count + 1 = cfgCount (setBits (v % 2 ^ 32) 4 3 0)) :=
  ⟨⟨511, { sourceState 511 { timer := true } with cycle := usCycles 1 }, by decide⟩,
    ⟨511, { sourceState 511 { timer := true, active := true } with cycle := usCycles 1 }, by decide⟩, ⟨511, {}, by decide⟩,
    ⟨511, { sourceState 511 { timer := true } with cycle := usCycles 1 - 1 }, by decide⟩, ⟨0, rfl⟩, ⟨256, rfl⟩,
    ⟨255, 2 ^ 32 - 16, by decide⟩, ⟨255, 15 + 2 * 128, sourceState 255 { timer := true, count := 2 }, by decide⟩,
    ⟨255, 15, {}, by decide⟩, ⟨255, 15 + 2 * 128, sourceState 255 { timer := true, count := 1 }, by decide⟩⟩

/-! ### Witnesses: lanes, links and egress -/

/-- Port 124 is a band of four lanes with a link; its lanes have the indices 0 to 3 and the given state. -/
def bandState (k : PortLink := {}) (x : LaneState := {}) (l : List (Row × Nat × Nat) := []) : State :=
  let s := objs ([(Od.port_MODE, 124, 1), (Od.port_WIDTH, 124, 4), (Od.lane_LANE_INDEX, 124, 0), (Od.lane_LANE_INDEX, 125, 1),
    (Od.lane_LANE_INDEX, 126, 2), (Od.lane_LANE_INDEX, 127, 3)] ++ l)
  ([124, 125, 126, 127].foldl (fun t n => t.setLane n x) s).setLink 124 k

/-- The same band in ACTIVE. -/
def activeState (k : PortLink := {}) (x : LaneState := {}) (l : List (Row × Nat × Nat) := []) : State :=
  bandState { k with stage := 5, inUse := [0, 1, 2, 3] } x ((Od.port_PORT_STATE, 124, 2) :: l)

theorem witness_BringUpOfBands :
    (∃ (l : Fin 128) (s : State), s.get Od.lane_LINK_STATE l = 1) ∧ (∃ (l : Fin 128) (s : State), s.get Od.lane_LINK_STATE l ≠ 1) ∧
    (∃ (p : Fin 128) (s : State), s.isBand p = true ∧ s.stageCondition p = true ∧ (s.nextStage p).portActive p = false) ∧
    (∃ (p : Fin 128) (s : State), s.isBand p = true ∧ s.stageCondition p = true ∧ (s.nextStage p).portActive p = true) ∧
    (∃ (p : Fin 128) (s : State), s.isBand p = false) ∧ (∃ (p : Fin 128) (s : State), s.stageCondition p = false) ∧
    (∃ (p : Nat) (s : State), (s.link p).stage = 2) ∧
    (∃ (p : Fin 128) (s : State), (s.link p).detectAt + secCycles 1 = s.cycle) ∧
    (∃ (p : Fin 128) (s : State), s.cycle + 1 = (s.link p).detectAt + secCycles 1) ∧
    (∃ (l : Fin 128) (s : State), s.get Od.lane_LINK_STATE l ≠ 2) ∧ (∃ (l : Fin 128) (s : State), s.get Od.lane_LINK_STATE l = 2) ∧
    (∀ st ∈ [0, 1, 2, 4, 5, 6, 7, 8], ∃ (l : Fin 128) (s : State), s.get Od.lane_LINK_STATE l = st) ∧
    (∃ (l : Fin 128) (s : State), s.get Od.port_MODE (s.portOf l) ≠ 2) ∧
    (∃ (l : Fin 128) (s : State), s.get Od.port_PORT_STATE (s.portOf l) ≠ 1) ∧
    (∃ (l : Fin 128) (s : State), s.get Od.port_MODE (s.portOf l) = 2 ∧ s.get Od.port_PORT_STATE (s.portOf l) = 1) :=
  ⟨⟨127, objs [(Od.lane_LINK_STATE, 127, 1)], by decide⟩, ⟨127, {}, by decide⟩,
    ⟨124, bandState { stage := 2 } { ownReady := true, peerReady := true }, by decide, by decide, by decide⟩,
    ⟨124, bandState { stage := 4, accepted := true, inUse := [0, 1, 2, 3] }, by decide, by decide, by decide +kernel⟩,
    ⟨127, {}, by decide⟩, ⟨127, {}, by decide⟩, ⟨124, bandState { stage := 2 }, by decide⟩,
    ⟨127, { cycle := secCycles 1 }, by decide⟩, ⟨127, { cycle := secCycles 1 - 1 }, by decide⟩, ⟨127, {}, by decide⟩,
    ⟨127, objs [(Od.lane_LINK_STATE, 127, 2)], by decide⟩,
    fun st h => ⟨127, objs [(Od.lane_LINK_STATE, 127, st)], by
      simp only [List.mem_cons, List.not_mem_nil, or_false] at h
      obtain rfl | rfl | rfl | rfl | rfl | rfl | rfl | rfl := h <;> decide⟩,
    ⟨127, bandState, by decide⟩, ⟨127, {}, by decide⟩, ⟨127, objs [(Od.port_MODE, 127, 2), (Od.port_PORT_STATE, 127, 1)], by decide⟩⟩

theorem witness_BringUpOfBands_timeout :
    let due (p : Fin 128) (s : State) : Prop :=
      s.isBand p = true ∧ 2 ≤ (s.link p).stage ∧ (s.link p).stage ≤ 4 ∧ (s.link p).stageAt + s.stageTime p ≤ s.cycle
    (∃ (p : Fin 128) (s : State), ¬ due p s ∧ s.isBand p = true ∧ s.cycle + 1 = (s.link p).stageAt + s.stageTime p) ∧
    (∃ (p : Fin 128) (s : State), ¬ due p s ∧ s.isBand p = false) ∧
    (∃ (p : Fin 128) (s : State), due p s ∧ s.stageCondition p = true) ∧
    (∃ (p : Fin 128) (s : State), due p s ∧ s.stageCondition p = false ∧ (s.link p).stage = 3) ∧
    (∃ (p : Fin 128) (s : State), due p s ∧ s.stageCondition p = false ∧ (s.link p).stage = 4) ∧
    (∃ (p : Fin 128) (s : State) (ix : List Nat), due p s ∧ s.stageCondition p = false ∧ (s.link p).stage = 2 ∧ s.narrowTo p = some ix) ∧
    (∃ (p : Fin 128) (s : State), due p s ∧ s.stageCondition p = false ∧ (s.link p).stage = 2 ∧ s.narrowTo p = none ∧
      (s.link p).retraining = false) ∧
    (∃ (p : Fin 128) (s : State), due p s ∧ s.stageCondition p = false ∧ (s.link p).stage = 2 ∧ s.narrowTo p = none ∧
      (s.link p).retraining = true) :=
  ⟨⟨124, { bandState { stage := 2, stageAt := 7 } with cycle := 6 + msCycles 500 }, by decide⟩, ⟨127, {}, by decide⟩,
    ⟨124, { bandState { stage := 2 } { ownReady := true, peerReady := true } with cycle := msCycles 500 }, by decide⟩,
    ⟨124, { bandState { stage := 3, inUse := [0] } with cycle := msCycles 5 }, by decide⟩,
    ⟨124, { bandState { stage := 4 } with cycle := msCycles 20 }, by decide⟩,
    ⟨124, { (bandState { stage := 2 } { ownReady := true, peerReady := true } [(Od.port_NARROW_OK, 124, 1)]).setLane 127 {} with
      cycle := msCycles 500 }, [0, 1], by decide⟩,
    ⟨124, { bandState { stage := 2 } with cycle := msCycles 500 }, by decide⟩,
    ⟨124, { bandState { stage := 2, retraining := true } with cycle := msCycles 500 }, by decide⟩⟩

/-- EXCHANGE in the band, with its SEAL_MODE. -/
def exchange (mode : Nat) : State := bandState { stage := 4, inUse := [0, 1] } {} [(Od.port_SEAL_MODE, 124, mode)]

theorem witness_BringUpOfBands_capability :
    (∃ (p : Fin 128) (s : State), s.isBand p = false) ∧ (∃ (p : Fin 128) (s : State), (s.link p).stage ≠ 4) ∧
    (∃ (p : Fin 128) (c : Capability) (s : State), s.isBand p = true ∧ (s.link p).stage = 4 ∧ c.width ≠ (s.ownCapability p).width) ∧
    (∀ own theirs : Nat, own < 3 → theirs < 3 → ∃ (p : Fin 128) (c : Capability) (s : State), s.isBand p = true ∧ (s.link p).stage = 4 ∧
      c.width = (s.ownCapability p).width ∧ c.sealing = none ∧ (s.ownCapability p).sealMode = own ∧ c.sealMode = theirs) := by
  refine ⟨⟨127, {}, by decide⟩, ⟨127, {}, by decide⟩, ⟨124, ⟨0, 0, 1, 0, none⟩, exchange 0, by decide⟩, fun own theirs ho _ =>
    ⟨124, ⟨0, 0, 2, theirs, none⟩, exchange own, ?_⟩⟩
  have : own = 0 ∨ own = 1 ∨ own = 2 := by omega
  obtain rfl | rfl | rfl := this <;> exact ⟨by decide, by decide, rfl, rfl, by decide, rfl⟩

/-- An offer is accepted where its root hashes to the vendor's and its signatures verify, else not. -/
theorem witness_BringUpOfBands_offer (good : Bool) (hash : ∀ m, Config.sha512 m = List.replicate 64 0#8)
    (verify : ∀ k d sig, Config.ecdsaVerify k d sig = good) (own theirs : Nat) (ho : own < 3) (ht : theirs < 3) :
    ∃ (p : Fin 128) (c : Capability) (o : SealOffer) (s : State), s.isBand p = true ∧ (s.link p).stage = 4 ∧
      c.width = (s.ownCapability p).width ∧ c.sealing = some o ∧ (s.ownCapability p).sealMode = own ∧ c.sealMode = theirs ∧
      (let t := ((s.set Od.port_PEER_SERIAL p c.serial).set Od.port_PEER_PORT p c.port).setLink p
         { s.link p with peer := some c, loopback := decide (c.serial = s.serial) }
       t.acceptsPeer (s.ownCapability p) c (s.link p).ephDraw o = good) := by
  refine ⟨124, ⟨0, 0, 2, theirs, some ⟨[], [], [], []⟩⟩, ⟨[], [], [], []⟩, exchange own, ?_⟩
  have : own = 0 ∨ own = 1 ∨ own = 2 := by omega
  have h : theirs = 0 ∨ theirs = 1 ∨ theirs = 2 := by omega
  obtain rfl | rfl | rfl := this <;> obtain rfl | rfl | rfl := h <;>
    exact ⟨by decide, by decide, by decide, rfl, by decide, rfl, by
      simp only [State.acceptsPeer, hash, verify]; cases good
      · simp
      · decide⟩

/-- Keys of a sealed band. -/
def sealKeys (at_ : Option Nat) : SealState := { tx := ⟨[], 0, false⟩, rx := ⟨[], 0, false⟩, rekeyAt := at_ }

theorem witness_LeavingActive :
    (∃ (l : Fin 128) (s : State), s.isBand (s.portOf l) = false) ∧
    (∃ (l : Fin 128) (skew : Nat) (s : State), s.isBand (s.portOf l) = true ∧ s.portActive (s.portOf l) = true ∧
      l.val ∈ s.lanesInUse (s.portOf l) ∧ 33 = skew) ∧
    (∃ (l : Fin 128) (s : State), s.isBand (s.portOf l) = true ∧ s.portActive (s.portOf l) = false) ∧
    (∃ (l : Fin 128) (s : State), s.isBand (s.portOf l) = true ∧ l.val ∉ s.lanesInUse (s.portOf l)) ∧
    (∃ (l : Fin 128) (index width skew : Nat) (s : State), s.isBand (s.portOf l) = true ∧ index = s.get Od.lane_LANE_INDEX l ∧
      width = (s.link (s.portOf l)).inUse.length ∧ skew = 32) ∧
    (∀ hiBer : Bool, ∃ (l : Fin 128) (s : State),
      let t := (s.setLane l { s.lane l with blockLock := false }).bumpBy Od.lane_BLOCK_ERRORS l 0 16
      let u := if hiBer then t else t.bump Od.lane_LOCK_LOSSES l
      u.portActive (s.portOf l) = true ∧ l.val ∈ u.lanesInUse (s.portOf l)) ∧
    (∀ hiBer : Bool, ∃ (l : Fin 128) (s : State),
      let t := (s.setLane l { s.lane l with blockLock := false }).bumpBy Od.lane_BLOCK_ERRORS l 0 16
      let u := if hiBer then t else t.bump Od.lane_LOCK_LOSSES l
      u.portActive (s.portOf l) = false) ∧
    (∃ (p l fom : Nat) (s : State), fom + 1 = s.get Od.port_FOM_DROP p ∧ 2 = (s.lane l).lowRun) ∧
    (∃ (p l fom : Nat) (s : State), fom + 1 = s.get Od.port_FOM_DROP p ∧ 1 = (s.lane l).lowRun) ∧
    (∃ (p : Fin 128) (s : State), s.isBand p = true) ∧
    (∃ (p : Fin 128) (s : State) (k : SealState) (a : Nat), (s.link p).keys = some k ∧ k.rekeyAt = some a ∧ a + msCycles 200 = s.cycle) ∧
    (∃ (p : Fin 128) (s : State) (k : SealState) (a : Nat), (s.link p).keys = some k ∧ k.rekeyAt = some a ∧
      s.cycle + 1 = a + msCycles 200) ∧
    (∃ (p : Nat) (s u : State), Taken s 0x42 (leBytes 1 p) u ∧ p = 127 ∧ u.portMode p ≠ 0 ∧ u.portMode p ≠ 3 ∧
      u.quadOn (p / 4) = true) ∧
    (∃ (p : Nat) (s u : State), Taken s 0x42 (leBytes 1 p) u ∧ 128 = p) ∧
    (∀ m ∈ [0, 3], ∃ (p : Nat) (s u : State), Taken s 0x42 (leBytes 1 p) u ∧ u.portMode p = m) ∧
    (∃ (p : Nat) (s u : State), Taken s 0x42 (leBytes 1 p) u ∧ u.quadOn (p / 4) = false) ∧
    (∃ (p : Fin 128) (s : State), (s.link p).retraining = true ∧ (s.link p).retrainAt + secCycles 2 = s.cycle) ∧
    (∃ (p : Fin 128) (s : State), (s.link p).retraining = false) ∧
    (∃ (p : Fin 128) (s : State), s.cycle + 1 = (s.link p).retrainAt + secCycles 2) ∧
    (∃ (s : State) (p : Nat), s.portActive p = false) :=
  ⟨⟨127, {}, by decide⟩, ⟨127, 33, activeState, by decide, by decide, by decide, rfl⟩, ⟨127, bandState, by decide⟩,
    ⟨127, bandState, by decide⟩, ⟨127, 3, 4, 32, activeState, by decide⟩,
    fun b => ⟨127, activeState, by cases b <;> decide⟩, fun b => ⟨127, bandState, by cases b <;> decide⟩,
    ⟨124, 127, _, bandState {} { lowRun := 2 } [(Od.port_FOM_DROP, 124, 64)], (by decide : 63 + 1 = _), by decide⟩,
    ⟨124, 127, _, bandState {} { lowRun := 1 } [(Od.port_FOM_DROP, 124, 64)], (by decide : 63 + 1 = _), by decide⟩,
    ⟨124, bandState, by decide⟩,
    ⟨127, { ({} : State).setLink 127 { keys := some (sealKeys (some 9)) } with cycle := 9 + msCycles 200 }, sealKeys (some 9), 9, by decide⟩,
    ⟨127, { ({} : State).setLink 127 { keys := some (sealKeys (some 9)) } with cycle := 8 + msCycles 200 }, sealKeys (some 9), 9, by decide⟩,
    ⟨127, _, _, taken 0x42 (leBytes 1 127) (objs [(Od.port_MODE, 127, 1)] { lanes := { quadOn := [(31, true)] } }), rfl,
      by decide, by decide, by decide⟩,
    ⟨128, _, _, taken 0x42 (leBytes 1 128), rfl⟩,
    fun m h => ⟨127, _, _, taken 0x42 (leBytes 1 127) (objs [(Od.port_MODE, 127, m)]), by
      simp only [List.mem_cons, List.not_mem_nil, or_false] at h
      obtain rfl | rfl := h <;> decide⟩,
    ⟨127, _, _, taken 0x42 (leBytes 1 127), by decide⟩,
    ⟨127, { ({} : State).setLink 127 { retraining := true, retrainAt := 3 } with cycle := 3 + secCycles 2 }, by decide⟩,
    ⟨127, {}, by decide⟩, ⟨127, { ({} : State).setLink 127 { retrainAt := 3 } with cycle := 2 + secCycles 2 }, by decide⟩,
    ⟨{}, 0, by decide⟩⟩

theorem witness_QuadsAndManagement :
    (∃ power : Nat, 2 = power) ∧
    (∃ (q power : Nat) (s v : State), power + 1 = 2 ∧ Taken s 0x44 (leBytes 1 q ++ leBytes 1 power) v ∧ 32 = q) ∧
    (∃ (q power : Nat) (s v : State), q = 31 ∧ power = 1 ∧ Taken s 0x44 (leBytes 1 q ++ leBytes 1 power) v ∧
      (∀ k < 4, v.portBound (4 * q + k) = false)) ∧
    (∃ (q power k : Nat) (s v : State), q = 31 ∧ power = 0 ∧ k = 3 ∧ Taken s 0x44 (leBytes 1 q ++ leBytes 1 power) v ∧
      v.portBound (4 * q + k) = true) ∧
    (∃ s : State, s.get Od.mgmt_MGMT_IPV4 = 0) ∧ (∃ s : State, s.get Od.mgmt_MGMT_IPV4 ≠ 0) :=
  ⟨⟨2, rfl⟩, ⟨32, 1, _, _, rfl, taken 0x44 (leBytes 1 32 ++ leBytes 1 1), rfl⟩,
    ⟨31, 1, _, _, rfl, rfl, taken 0x44 (leBytes 1 31 ++ leBytes 1 1) (objs [(Od.ptp_PTP_PORT, 0, 0)]), by decide +kernel⟩,
    ⟨31, 0, 3, _, _, rfl, rfl, rfl, taken 0x44 (leBytes 1 31 ++ leBytes 1 0) (objs [(Od.ptp_PTP_PORT, 0, 127)]), by decide +kernel⟩,
    ⟨objs [(Od.mgmt_MGMT_IPV4, 0, 0)], by decide⟩, ⟨objs [(Od.mgmt_MGMT_IPV4, 0, 1)], by decide⟩⟩

/-- Empty TIMING. -/
def timing : TimingPayload := ⟨0, 0, 0, 0, List.replicate 8 ⟨0, 0, 0⟩⟩

theorem witness_PausesTimingAndKeys :
    (∃ (p : Fin 128) (mask : Nat) (s : State), s.activeBand p = true ∧ mask = 31) ∧
    (∃ (p : Fin 128) (mask : Nat) (s : State), s.activeBand p = true ∧ mask = 0) ∧ (∃ (p : Fin 128) (s : State), s.activeBand p = false) ∧
    (∃ (p : Fin 128) (s : State) (a : Nat), (s.link p).pausedAt = some a ∧ a + usCycles 40 = s.cycle) ∧
    (∃ (p : Fin 128) (s : State) (a : Nat), (s.link p).pausedAt = some a ∧ s.cycle + 1 = a + usCycles 40) ∧
    (∃ (p : Fin 128) (s : State), s.activeBand p = true ∧ s.pauseWanted p ≠ 0 ∧ (s.link p).sentAt + usCycles 10 = s.cycle) ∧
    (∃ (p : Fin 128) (s : State), s.activeBand p = true ∧ s.pauseWanted p ≠ 0 ∧ s.cycle + 1 = (s.link p).sentAt + usCycles 10) ∧
    (∃ (p : Fin 128) (s : State), s.activeBand p = true ∧ s.timingDue p = true) ∧ (∃ (p : Fin 128) (s : State), s.timingDue p = false) ∧
    (∃ (p : Fin 128) (t : TimingPayload) (s : State), s.activeBand p = true ∧
      ∀ rd < 8, ((s.takeTiming p t).locksTo rd 3 && decide ((s.takeTiming p t).fabricPort rd = p.val)) = false) ∧
    (∃ (p : Fin 128) (s : State), (s.link p).keys = none) :=
  ⟨⟨124, 31, activeState, by decide⟩, ⟨124, 0, activeState, by decide⟩, ⟨127, {}, by decide⟩,
    ⟨127, { ({} : State).setLink 127 { pausedAt := some 5 } with cycle := 5 + usCycles 40 }, 5, by decide⟩,
    ⟨127, { ({} : State).setLink 127 { pausedAt := some 5 } with cycle := 4 + usCycles 40 }, 5, by decide⟩,
    ⟨124, { activeState { sentAt := 5 } {} [(Od.pool_WARN_STATE, 0, 1)] with cycle := 5 + usCycles 10 }, by decide⟩,
    ⟨124, { activeState { sentAt := 5 } {} [(Od.pool_WARN_STATE, 0, 1)] with cycle := 4 + usCycles 10 }, by decide⟩,
    ⟨124, activeState, by decide⟩, ⟨124, activeState { timing := { dueAt := some 0 } }, by decide⟩,
    ⟨124, timing, activeState, by decide, by decide⟩, ⟨127, {}, by decide⟩⟩

theorem witness_PausesTimingAndKeys_keys :
    (∃ (p : Fin 128) (s : State) (k : SealState), (s.link p).keys = some k ∧ s.activeBand p = true ∧ k.rekeyAt = none ∧
      s.rekeyDue p k = true) ∧
    (∃ (p : Fin 128) (s : State) (k : SealState), (s.link p).keys = some k ∧ s.activeBand p = true ∧ k.rekeyAt = none ∧
      s.rekeyDue p k = false) ∧
    (∃ (p : Fin 128) (s : State) (k : SealState), (s.link p).keys = some k ∧ s.activeBand p = true ∧ k.rekeyAt ≠ none) ∧
    (∃ (p : Fin 128) (s : State) (k : SealState), (s.link p).keys = some k ∧ s.activeBand p = false) ∧
    (∃ (p : Fin 128) (s : State) (k : SealState), (s.link p).keys = some k ∧ k.oldAt + msCycles 100 = s.cycle) ∧
    (∃ (p : Fin 128) (s : State) (k : SealState), (s.link p).keys = some k ∧ s.cycle + 1 = k.oldAt + msCycles 100) :=
  ⟨⟨124, { activeState { keys := some (sealKeys none) } {} [(Od.port_REKEY_INTERVAL, 124, 1)] with cycle := secCycles 1 }, sealKeys none,
      by decide⟩,
    ⟨124, { activeState { keys := some (sealKeys none) } {} [(Od.port_REKEY_INTERVAL, 124, 1)] with cycle := secCycles 1 - 1 },
      sealKeys none, by decide⟩,
    ⟨124, activeState { keys := some (sealKeys (some 0)) }, sealKeys (some 0), by decide⟩,
    ⟨127, ({} : State).setLink 127 { keys := some (sealKeys none) }, sealKeys none, by decide⟩,
    ⟨127, { ({} : State).setLink 127 { keys := some (sealKeys none) } with cycle := msCycles 100 }, sealKeys none, by decide⟩,
    ⟨127, { ({} : State).setLink 127 { keys := some (sealKeys none) } with cycle := msCycles 100 - 1 }, sealKeys none, by decide⟩⟩

/-- A neighbour's offer is accepted where its root hashes to the vendor's and its signatures verify, else not. -/
theorem witness_PausesTimingAndKeys_rekey (good : Bool) (hash : ∀ m, Config.sha512 m = List.replicate 64 0#8)
    (verify : ∀ k d sig, Config.ecdsaVerify k d sig = good) :
    ∃ (p : Fin 128) (o : SealOffer) (s : State) (k : SealState) (c : Capability), (s.link p).keys = some k ∧ s.activeBand p = true ∧
      k.rekeyAt ≠ none ∧ (s.link p).peer = some c ∧ s.acceptsPeer (s.ownCapability p) c (s.link p).ephDraw o = good :=
  ⟨124, ⟨[], [], [], []⟩, activeState { keys := some (sealKeys (some 0)), peer := some ⟨0, 0, 4, 2, none⟩ }, sealKeys (some 0),
    ⟨0, 0, 4, 2, none⟩, by decide, by decide, by decide, by decide, by
      simp only [State.acceptsPeer, hash, verify]; cases good
      · simp
      · decide⟩

/-- A Chaec packet without a payload: FLAGS, a header check and a trailer that are right, or not. -/
def chaecPacket (flags : Nat) (head trail : Nat := 0) : List Byte :=
  let h := leBytes 1 flags ++ List.replicate 26 0#8
  let t := List.replicate 7 0#8
  let b := h ++ leBytes 2 (crc16 (h ++ [0#8, 0#8] ++ t) ^^^ head) ++ t ++ List.replicate (if flags.testBit 0 then 16 else 0) 0#8
  b ++ leBytes 4 (crc32c (b.drop 36) ^^^ trail)

/-- An Ethernet frame of 64 bytes of a type, with its FCS. -/
def frame64 (etype : Nat) (dst : List Byte := List.replicate 6 0#8) (bad : Nat := 0) : List Byte :=
  let b := dst ++ List.replicate 6 0#8 ++ (leBytes 2 etype).reverse ++ List.replicate 46 0#8
  b ++ leBytes 4 (crc32 b ^^^ bad)

/-- Port 127 is an Ethernet port in ACTIVE. -/
def ethState : State := objs [(Od.port_MODE, 127, 2), (Od.port_PORT_STATE, 127, 2)]

theorem witness_ReceivedPackets :
    (∃ (p : Fin 128) (s : State), s.isBand p = true ∧ s.portActive p = true ∧ (s.link p).keys = none ∧
      (∃ bs, hcrcOk bs = false) ∧ (∃ bs, hcrcOk bs = true ∧ trailerOk bs = false) ∧
      (∃ bs, hcrcOk bs = true ∧ trailerOk bs = true ∧ (ChHeader.ofBytes bs).flags.testBit 0 = false ∧
        ∃ t m, s.openPacket p bs = (t, some m)) ∧
      ∃ bs, hcrcOk bs = true ∧ trailerOk bs = true ∧ (ChHeader.ofBytes bs).flags.testBit 0 = true ∧
        ∃ t, s.openPacket p bs = (t, none)) ∧
    (∃ (p : Fin 128) (s : State), s.isBand p = false) ∧ (∃ (p : Fin 128) (s : State), s.portActive p = false) ∧
    (∃ (p : Fin 128) (s : State), s.get Od.port_MODE p ≠ 2) ∧
    (∃ (p : Fin 128) (s : State), s.get Od.port_MODE p = 2 ∧ s.portActive p = true ∧
      (∃ bs, frameOk (s.get Od.port_MAX_FRAME p) bs = false) ∧
      (∃ bs, frameOk (s.get Od.port_MAX_FRAME p) bs = true ∧ (EthFrame.ofBytes (bs.take (bs.length - 4))).etype = 0x8808) ∧
      ∃ bs, frameOk (s.get Od.port_MAX_FRAME p) bs = true ∧ (EthFrame.ofBytes (bs.take (bs.length - 4))).etype ≠ 0x8808) ∧
    (∃ (bs : List Byte) (s : State), s.get Od.mgmt_MGMT_STATE = 1 ∧ frameOk 1518 bs = true ∧
      (EthFrame.ofBytes (bs.take (bs.length - 4))).dst = leBytes 6 (s.get Od.mgmt_MGMT_MAC)) ∧
    (∃ (bs : List Byte) (s : State), s.get Od.mgmt_MGMT_STATE = 1 ∧ frameOk 1518 bs = true ∧
      groupMac (EthFrame.ofBytes (bs.take (bs.length - 4))).dst = true) ∧
    (∃ s : State, s.get Od.mgmt_MGMT_STATE ≠ 1) ∧ (∃ bs : List Byte, frameOk 1518 bs = false) ∧
    (∃ (bs : List Byte) (s : State), (EthFrame.ofBytes (bs.take (bs.length - 4))).dst ≠ leBytes 6 (s.get Od.mgmt_MGMT_MAC) ∧
      groupMac (EthFrame.ofBytes (bs.take (bs.length - 4))).dst = false) :=
  ⟨⟨124, activeState, by decide, by decide, by decide, ⟨chaecPacket 0 1, by decide +kernel⟩,
      ⟨chaecPacket 0 0 1, by decide +kernel, by decide +kernel⟩,
      ⟨chaecPacket 0, by decide +kernel, by decide +kernel, by decide +kernel, _, _, Prod.ext rfl (by decide +kernel : _ = some (chaecPacket 0))⟩,
      ⟨chaecPacket 1, by decide +kernel, by decide +kernel, by decide +kernel, _, Prod.ext rfl (by decide +kernel)⟩⟩,
    ⟨127, {}, by decide⟩, ⟨127, {}, by decide⟩, ⟨127, {}, by decide⟩,
    ⟨127, ethState, by decide, by decide, ⟨frame64 0x0800 (List.replicate 6 0#8) 1, by decide +kernel⟩,
      ⟨frame64 0x8808, by decide +kernel, by decide +kernel⟩, ⟨frame64 0x0800, by decide +kernel, by decide +kernel⟩⟩,
    ⟨frame64 0x0800 [6#8, 5#8, 4#8, 3#8, 2#8, 1#8], objs [(Od.mgmt_MGMT_STATE, 0, 1), (Od.mgmt_MGMT_MAC, 0, 0x010203040506)],
      by decide, by decide +kernel, by decide +kernel⟩,
    ⟨frame64 0x0800 [1#8, 0#8, 0#8, 0#8, 0#8, 0#8], objs [(Od.mgmt_MGMT_STATE, 0, 1)], by decide, by decide +kernel, by decide +kernel⟩,
    ⟨{}, by decide⟩, ⟨[], by decide⟩, ⟨frame64 0x0800 [6#8, 5#8, 4#8, 3#8, 2#8, 1#8], objs [(Od.mgmt_MGMT_MAC, 0, 2)], by
      decide +kernel, by decide +kernel⟩⟩

/-- A packet of egress. -/
def packet (port : Nat := 0) : Packet := { pri := 0, entries := [⟨0, 64⟩], port := port }

theorem witness_EgressOfPackets :
    (∃ (p : Fin 128) (s : State), s.portActive p = false) ∧
    (∃ (p : Fin 128) (s : State) (cur : Sending) (k : Packet), s.portActive p = true ∧ (s.egPort p).sending = some cur ∧
      s.shortFor p = some k ∧ cur.packet.short = false ∧ (s.egPort p).interrupted = none) ∧
    (∃ (p : Fin 128) (s : State) (cur : Sending), s.portActive p = true ∧ (s.egPort p).sending = some cur ∧ s.shortFor p = none) ∧
    (∃ (p : Fin 128) (s : State) (cur : Sending), s.portActive p = true ∧ (s.egPort p).sending = some cur ∧ cur.packet.short = true) ∧
    (∃ (p : Fin 128) (s : State) (cur : Sending), s.portActive p = true ∧ (s.egPort p).sending = some cur ∧
      (s.egPort p).interrupted ≠ none) ∧
    (∃ (p : Fin 128) (s : State) (k : Packet), s.portActive p = true ∧ (s.egPort p).sending = none ∧ s.shortFor p = some k) ∧
    (∃ (p : Fin 128) (s : State), s.portActive p = true ∧ (s.egPort p).sending = none ∧ s.shortFor p = none ∧
      (s.egPort p).interrupted ≠ none) ∧
    (∃ (p : Fin 128) (s : State) (q : Nat) (k : Packet), s.portActive p = true ∧ (s.egPort p).sending = none ∧
      (s.egPort p).interrupted = none ∧ s.shortFor p = none ∧ s.controlFor p = some (q, k)) ∧
    (∃ (p : Fin 128) (s : State) (q : Nat), s.portActive p = true ∧ (s.egPort p).sending = none ∧
      (s.egPort p).interrupted = none ∧ s.shortFor p = none ∧ s.controlFor p = none ∧ (s.countGated p).sendable p = some q) ∧
    (∃ (p : Fin 128) (s : State), s.portActive p = true ∧ (s.egPort p).sending = none ∧
      (s.egPort p).interrupted = none ∧ s.shortFor p = none ∧ s.controlFor p = none ∧ (s.countGated p).sendable p = none) ∧
    (∃ (p : Fin 128) (s : State) (x : Sending), (s.egPort p).sending = some x ∧ x.queue = 1023) ∧
    (∃ (p : Fin 128) (s : State) (x : Sending), (s.egPort p).sending = some x ∧ x.queue = 1024) ∧
    (∃ (p : Fin 128) (s : State), (s.egPort p).sending = none) ∧
    (∃ (s : State) (q : Nat), s.rate q = 0) :=
  ⟨⟨127, {}, by decide⟩,
    ⟨127, ((ethState).setEgPort 127 { sending := some ⟨1023, packet⟩ }).setQueue 1568 { packets := [{ packet 127 with short := true }] },
      ⟨1023, packet⟩, { packet 127 with short := true }, by decide⟩,
    ⟨127, (ethState).setEgPort 127 { sending := some ⟨1023, packet⟩ }, ⟨1023, packet⟩, by decide⟩,
    ⟨127, (ethState).setEgPort 127 { sending := some ⟨1568, { packet 127 with short := true }⟩ }, ⟨1568, { packet 127 with short := true }⟩,
      by decide⟩,
    ⟨127, (ethState).setEgPort 127 { sending := some ⟨1568, packet⟩, interrupted := some ⟨1023, packet⟩ }, ⟨1568, packet⟩, by decide⟩,
    ⟨127, (ethState).setQueue 1568 { packets := [{ packet 127 with short := true }] }, { packet 127 with short := true }, by decide⟩,
    ⟨127, (ethState).setEgPort 127 { interrupted := some ⟨1023, packet⟩ }, by decide⟩,
    ⟨127, (ethState).setQueue 1571 { packets := [packet 127] }, 1571, packet 127, by decide, by decide, by decide, by decide, by
      decide +kernel⟩,
    ⟨127, (objs [(Od.egr_GATE_GUARD, 127, 0), (Od.egr_RATE, 127, 0)] (ethState)).setQueue 1023 { packets := [packet] }, 1023, by decide,
      by decide, by decide, by decide, by decide +kernel, by decide +kernel⟩,
    ⟨127, ethState, by decide, by decide, by decide, by decide, by decide +kernel, by decide +kernel⟩,
    ⟨127, ({} : State).setEgPort 127 { sending := some ⟨1023, packet⟩ }, ⟨1023, packet⟩, by decide⟩,
    ⟨127, ({} : State).setEgPort 127 { sending := some ⟨1024, packet⟩ }, ⟨1024, packet⟩, by decide⟩, ⟨127, {}, by decide⟩,
    ⟨objs [(Od.egr_RATE, 127, 0)], 1023, by decide⟩⟩

theorem witness_CalendarAndGates :
    (∃ (p : Fin 128) (s : State), ∀ k < 8, (s.shaper (8 * p + k)).slot = none) ∧
    (∃ (p : Fin 128) (s : State) (i e : Nat), (s.shaper (8 * p)).slot = some i ∧ (s.shaper (8 * p)).elig = some e ∧
      0 ≤ s.ticksDiff p (s.ticksNow p) (i * 4096) ∧ s.slotReached p e = true ∧ (∀ k < 7, (s.shaper (8 * p + k + 1)).slot = none)) ∧
    (∃ (p : Fin 128) (s : State) (g : List (Nat × Nat)), s.gateSegs p = some g ∧
      (signedMod (2 ^ 64) ((s.gateCycleNo p : Int) - (s.egPort p).cycleNo)).toNat = 0) ∧
    (∃ (p : Fin 128) (s : State) (g : List (Nat × Nat)), s.gateSegs p = some g ∧
      (signedMod (2 ^ 64) ((s.gateCycleNo p : Int) - (s.egPort p).cycleNo)).toNat ≠ 0) ∧
    (∃ (p : Fin 128) (s : State), (s.egPort p).gates = none) ∧
    (∃ (p : Fin 128) (s : State) (c : GateChange), (s.egPort p).change = some c ∧ s.ticksDiff p (s.ticksNow p) c.startAt < 0) ∧
    (∃ (p : Fin 128) (s : State) (c : GateChange), (s.egPort p).change = some c ∧ s.ticksDiff p (s.ticksNow p) c.startAt = 0 ∧
      c.install = none) ∧
    (∃ (p : Fin 128) (s : State) (c : GateChange) (base : RTime) (cyc : Nat) (es : List (Nat × Nat)),
      (s.egPort p).change = some c ∧ s.ticksDiff p (s.ticksNow p) c.startAt = 0 ∧ c.install = some (base, cyc, es)) ∧
    (∃ (p : Fin 128) (s : State), (s.egPort p).change = none) :=
  ⟨⟨127, {}, by decide⟩,
    ⟨127, { egress := { queues := [(1016, { slot := some 0, elig := some 0 })] } }, 0, 0, by decide, by decide, by decide, by decide, by decide⟩,
    ⟨127, ({} : State).setEgPort 127 { gates := some [] }, [], by decide⟩,
    ⟨127, ({} : State).setEgPort 127 { gates := some [], cycleNo := 2 ^ 64 - 1 }, [], by decide⟩, ⟨127, {}, by decide⟩,
    ⟨127, ({} : State).setEgPort 127 { change := some ⟨none, 1⟩ }, ⟨none, 1⟩, by decide⟩,
    ⟨127, ({} : State).setEgPort 127 { change := some ⟨none, 0⟩ }, ⟨none, 0⟩, by decide⟩,
    ⟨127, ({} : State).setEgPort 127 { change := some ⟨some (⟨0, 0, 0⟩, 0, []), 0⟩ }, ⟨some (⟨0, 0, 0⟩, 0, []), 0⟩, ⟨0, 0, 0⟩, 0, [], by
      decide⟩, ⟨127, {}, by decide⟩⟩

/-! ### Witnesses: picture memory, batts and queues -/

theorem witness_RegionsMadeAndDeleted :
    (∃ (region kind t base size a : Nat) (s v : State), Taken s 0x20 (regionArgs region kind t base size) v ∧
      v.regionTests region kind t base size = .inr a ∧ kind = 1) ∧
    (∃ (region kind t base size a : Nat) (s v : State), Taken s 0x20 (regionArgs region kind t base size) v ∧
      v.regionTests region kind t base size = .inr a ∧ kind ≠ 1 ∧ t = 1) ∧
    (∃ (region kind t base size a : Nat) (s v : State), Taken s 0x20 (regionArgs region kind t base size) v ∧
      v.regionTests region kind t base size = .inr a ∧ kind ≠ 1 ∧ t ≠ 1) ∧
    (∃ (region kind t base size r : Nat) (s v : State), Taken s 0x20 (regionArgs region kind t base size) v ∧
      v.regionTests region kind t base size = .inl r) ∧
    (∃ (region : Nat) (s : State), s.regionExists region = true) ∧
    (∃ (region kind t : Nat) (s : State), region = 255 ∧ s.regionExists region = false ∧ kind = 1 ∧ t ∉ [8, 16, 24, 32, 48, 64]) ∧
    (∃ (region kind t size : Nat) (s : State), region = 255 ∧ s.regionExists region = false ∧ kind = 0 ∧ t = 1 ∧ size % 131072 ≠ 0) ∧
    (∃ (region kind t base size : Nat) (s : State), region = 255 ∧ s.regionExists region = false ∧ kind = 0 ∧ t = 1 ∧
      size % 131072 = 0 ∧ 0 < size ∧ base % 131072 = 0 ∧ s.mem.trainingFailed = false ∧ base + size = hbmEnd) :=
  ⟨⟨255, 1, 64, 0, 131072, 0, _, _, taken 0x20 (regionArgs 255 1 64 0 131072), by decide +kernel, rfl⟩,
    ⟨255, 0, 1, hbmEnd - 131072, 131072, hbmEnd - 131072, _, _, taken 0x20 (regionArgs 255 0 1 (hbmEnd - 131072) 131072), by
      decide +kernel, by decide, rfl⟩,
    ⟨255, 0, 0, 2 ^ 64 - 1, 131072, 0, _, _, taken 0x20 (regionArgs 255 0 0 (2 ^ 64 - 1) 131072), by decide +kernel, by decide, by decide⟩,
    ⟨256, 0, 0, 0, 131072, Result.noSuchTarget, _, _, taken 0x20 (regionArgs 256 0 0 0 131072), by decide +kernel⟩,
    ⟨255, objs [(Od.reg_KIND, 255, 0)], by decide⟩, ⟨255, 1, 65, {}, by decide⟩, ⟨255, 0, 1, 131071, {}, by decide⟩,
    ⟨255, 0, 1, hbmEnd - 131072, 131072, {}, by decide⟩⟩

theorem witness_RegionsMadeAndDeleted_bytes :
    (∃ base b : Nat, b + 1 = base) ∧
    (∃ kind base size b : Nat, base + extentOf kind size = b) ∧
    (∃ kind t base size b : Nat, (kind = 1 ∨ t = 1) ∧ base = b ∧ b < base + size) ∧
    (∃ region kind t k size : Nat, kind = 1 ∧ region = 255 ∧ t = 64 ∧ k < size / 4096) ∧
    (∃ (region kind t base asked size : Nat) (e : CmdEntry) (s : State), region = 255 ∧ kind < 256 ∧ t < 256 ∧ base = 2 ^ 64 - 1 ∧
      size = 2 ^ 64 - 1 ∧ e.code = 0x20 ∧ e.args = regionArgs region kind t asked size ∧
      e.result = some (Result.ok, leBytes 8 base) ∧ s.mem.noPictureReported = false) ∧
    (∃ (region : Nat) (s v : State), Taken s 0x21 (leBytes 1 region) v ∧ v.regionExists region = true ∧ v.regionUsers region = 0) ∧
    (∃ (region : Nat) (s v : State), Taken s 0x21 (leBytes 1 region) v ∧ v.regionExists region = true ∧ v.regionUsers region ≠ 0) ∧
    (∃ (region : Nat) (s v : State), Taken s 0x21 (leBytes 1 region) v ∧ v.regionExists region = false) :=
  ⟨⟨1, 0, rfl⟩, ⟨0, 0, 5, _, rfl⟩, ⟨0, 1, 5, 1, 5, by decide⟩, ⟨255, 1, 64, 0, 4096, by decide⟩,
    ⟨255, 1, 64, 2 ^ 64 - 1, 0, 2 ^ 64 - 1, { ticket := 1, code := 0x20, session := 0, args := _, at_ := 0, result := some (0, leBytes 8 (2 ^ 64 - 1)) },
      {}, rfl, by decide, by decide, rfl, rfl, rfl, rfl, rfl, rfl⟩,
    ⟨255, _, _, taken 0x21 (leBytes 1 255) (objs [(Od.reg_KIND, 255, 0), (Od.reg_BASE, 255, 131072), (Od.reg_SIZE, 255, 131072)]),
      by decide +kernel, by decide +kernel⟩,
    ⟨1, _, _, taken 0x21 (leBytes 1 1) (regionState), by decide +kernel, by decide +kernel⟩,
    ⟨256, _, _, taken 0x21 (leBytes 1 256), by decide +kernel⟩⟩

/-- Region 1 is PROTECTED, of T = 64, of 4 GiB at address 0. -/
def protectedState (l : List (Row × Nat × Nat) := []) (s : State := {}) : State :=
  regionState ((Od.reg_KIND, 1, 1) :: (Od.reg_T, 1, 64) :: l) s

theorem witness_AccessesToHbm3 :
    (∃ (m : Master) (a : Nat) (data : List Byte) (s : State), (Master.outside m && s.touchesPicture a data.length) = true) ∧
    (∃ (m : Master) (a : Nat) (data : List Byte) (s : State), (Master.outside m && s.touchesPicture a data.length) = false ∧
      s.regionAt a data.length = none) ∧
    (∃ (m : Master) (a r : Nat) (data : List Byte) (s : State), (Master.outside m && s.touchesPicture a data.length) = false ∧
      s.regionAt a data.length = some r ∧ s.regionProtected r = false) ∧
    (∃ (m : Master) (a r : Nat) (data : List Byte) (s : State), (Master.outside m && s.touchesPicture a data.length) = false ∧
      s.regionAt a data.length = some r ∧ s.regionProtected r = true ∧ wholePages a data.length = true) ∧
    (∃ (m : Master) (a r : Nat) (data : List Byte) (s : State), (Master.outside m && s.touchesPicture a data.length) = false ∧
      s.regionAt a data.length = some r ∧ s.regionProtected r = true ∧ wholePages a data.length = false) ∧
    (∃ (m : Master) (a n r : Nat) (s : State), (Master.outside m && s.touchesPicture a n) = false ∧ s.regionAt a n = some r ∧
      s.regionProtected r = false ∧ s.granulePoisoned a n = false) ∧
    (∃ (a b : Nat) (data : List Byte), a + data.length = b) ∧
    (∃ (page : Nat) (s : State), page ∉ s.mem.writeBacks) ∧ (∃ (page : Nat) (s : State), s.regionAt page 4096 = none) ∧
    (∃ (page r : Nat) (s : State), page ∈ s.mem.writeBacks ∧ s.regionAt page 4096 = some r ∧ tget s.mem.flips 0 page = s.get Od.reg_T r) ∧
    (∃ (page r : Nat) (s : State), page ∈ s.mem.writeBacks ∧ s.regionAt page 4096 = some r ∧
      tget s.mem.flips 0 page = s.get Od.reg_T r + 1) ∧
    (∃ (a p : Nat) (data : List Byte), p ∈ pagesOf a data.length) :=
  ⟨⟨.bar2, 2 ^ 32 - 1, [0#8], regionState [(Od.mil_PICTURE_REGION, 0, 1)], by decide +kernel⟩,
    ⟨.bar2, 2 ^ 32, [0#8], regionState, by decide +kernel, by decide +kernel⟩,
    ⟨.bar2, 2 ^ 32 - 1, 1, [0#8], regionState, by decide +kernel, by decide +kernel, by decide +kernel⟩,
    ⟨.firmware, 4096, 1, List.replicate 4096 0#8, protectedState, by decide +kernel, by decide +kernel, by decide +kernel, by
      decide +kernel⟩,
    ⟨.firmware, 4096, 1, List.replicate 4095 0#8, protectedState, by decide +kernel, by decide +kernel, by decide +kernel, by
      decide +kernel⟩,
    ⟨.firmware, 2 ^ 32 - 1, 1, 1, regionState, by decide +kernel, by decide +kernel, by decide +kernel, by decide +kernel⟩,
    ⟨4095, 4096, [0#8], rfl⟩, ⟨0, {}, by decide⟩, ⟨0, {}, by decide +kernel⟩,
    ⟨4096, 1, protectedState [] { mem := { writeBacks := [4096], flips := [(4096, 64)] } }, by decide, by decide +kernel, by
      decide +kernel⟩,
    ⟨4096, 1, protectedState [] { mem := { writeBacks := [4096], flips := [(4096, 65)] } }, by decide, by decide +kernel, by
      decide +kernel⟩,
    ⟨4095, 4096, [0#8, 0#8], by decide⟩⟩

/-- A write is accepted or turned away; a read is answered, poisoned or turned away. -/
theorem witness_AccessesToHbm3_answers :
    (∃ (m : Master) (a : Nat) (data : List Byte) (meet : MemMeet) (s t : State), (Master.outside m && s.touchesPicture a data.length) = false ∧
      s.hbmWrite (Master.code m) a data meet = (t, true)) ∧
    (∃ (m : Master) (a : Nat) (data : List Byte) (meet : MemMeet) (s t : State), (Master.outside m && s.touchesPicture a data.length) = false ∧
      s.hbmWrite (Master.code m) a data meet = (t, false)) ∧
    (∃ (m : Master) (a n : Nat) (meet : MemMeet) (s t : State) (bs : List Byte), (Master.outside m && s.touchesPicture a n) = false ∧
      s.hbmRead (Master.code m) a n meet = (t, .data bs)) ∧
    (∃ (m : Master) (a n : Nat) (meet : MemMeet) (s t : State), (Master.outside m && s.touchesPicture a n) = false ∧
      s.hbmRead (Master.code m) a n meet = (t, .poisoned)) ∧
    (∃ (m : Master) (a n : Nat) (meet : MemMeet) (s t : State), (Master.outside m && s.touchesPicture a n) = false ∧
      s.hbmRead (Master.code m) a n meet = (t, .rejected)) :=
  ⟨⟨.bar2, 2 ^ 32 - 1, [1#8], ⟨[], 0, 0, []⟩, regionState, _, by decide +kernel, Prod.ext rfl (by decide)⟩,
    ⟨.bar2, 2 ^ 32 - 1, [1#8], ⟨[], 0, 0, []⟩, regionState [(Od.reg_KIND, 1, 1)], _, by decide +kernel, Prod.ext rfl (by decide)⟩,
    ⟨.bar2, 2 ^ 32 - 1, 1, ⟨[], 0, 0, []⟩, regionState [] { mem := { bytes := [(2 ^ 32 - 1, 5#8)] } }, _, [5#8], by decide +kernel,
      Prod.ext rfl (by decide)⟩,
    ⟨.bar2, 255, 2, ⟨[], 0, 0, []⟩, regionState [] { mem := { poisoned := [256] } }, _, by decide +kernel, Prod.ext rfl (by decide)⟩,
    ⟨.bar2, 2 ^ 32, 1, ⟨[], 0, 0, []⟩, regionState, _, by decide +kernel, Prod.ext rfl (by decide)⟩⟩

theorem witness_RefreshAndRetraining :
    (∃ s : State, s.mem.seededAt + msCycles 1000 = s.cycle) ∧ (∃ s : State, s.cycle + 1 = s.mem.seededAt + msCycles 1000) ∧
    (∃ s : State, s.tempsDue = true) ∧ (∃ s : State, s.tempsDue = false) ∧
    (∃ (t : Int) (s : State), t = 999 ∧ (s.get Od.hbm_TEMP_HIGH : Int) * 10 < t) ∧
    (∃ (t : Int) (s : State), t < 1000 ∧ t = (s.get Od.hbm_TEMP_HIGH : Int) * 10 - 20) ∧
    (∃ (t : Int) (s : State), t < 1000 ∧ (s.get Od.hbm_TEMP_HIGH : Int) * 10 - 20 < t ∧ t = (s.get Od.hbm_TEMP_HIGH : Int) * 10) ∧
    (∃ (p : Fin 64) (s : State), (s.pc p).dueAt = none ∧ s.retrainAt p = s.cycle) ∧
    (∃ (p : Fin 64) (s : State), s.cycle + 1 = s.retrainAt p) ∧
    (∃ (p : Fin 64) (s : State), (s.pc p).dueAt = none) ∧ (∃ s : State, s.pauseFree = false) ∧ (∃ s : State, s.mem.pause ≠ none) ∧
    (∃ (p : Fin 64) (s : State), (s.pc p).dueAt ≠ none ∧ s.pauseFree = true ∧ s.retrainLate p = true) ∧
    (∃ (p : Fin 64) (s : State), (s.pc p).dueAt ≠ none ∧ s.pauseFree = true ∧ s.retrainLate p = false ∧ s.retrainNext p = true ∧
      s.retrainAligned = false) ∧
    (∃ (p : Fin 64) (s : State), (s.pc p).dueAt ≠ none ∧ s.pauseFree = true ∧ s.retrainLate p = false ∧ s.retrainNext p = true ∧
      s.retrainBlank p = true) ∧
    (∃ (p : Fin 64) (s : State), (s.pc p).dueAt ≠ none ∧ s.pauseFree = true ∧ s.retrainLate p = false ∧ s.retrainNext p = false) ∧
    (∃ (p : Fin 64) (s : State), (s.pc p).dueAt ≠ none ∧ s.pauseFree = true ∧ s.retrainLate p = false ∧ s.retrainAligned = true ∧
      s.retrainBlank p = false) ∧
    (∃ (p : Fin 64) (s : State), ∀ at_, s.mem.pause ≠ some (at_, p.val)) ∧
    (∃ (p : Fin 64) (ns at_ : Nat) (s : State), s.mem.pause = some (at_, p.val) ∧
      (({ s with mem := { s.mem with pause := none } }.notePause (min 1500 ns)).pc p).fails = 1) ∧
    (∃ (p : Fin 64) (ns at_ : Nat) (s : State), s.mem.pause = some (at_, p.val) ∧
      (({ s with mem := { s.mem with pause := none } }.notePause (min 1500 ns)).pc p).fails = 2) :=
  ⟨⟨{ mem := { seededAt := 3 }, cycle := 3 + msCycles 1000 }, rfl⟩, ⟨{ mem := { seededAt := 3 }, cycle := 2 + msCycles 1000 }, by decide⟩,
    ⟨{}, rfl⟩, ⟨{ mem := { tempsAt := some 0 }, cycle := msCycles 1 - 1 }, by decide⟩,
    ⟨999, objs [(Od.hbm_TEMP_HIGH, 0, 85)], by decide⟩, ⟨830, objs [(Od.hbm_TEMP_HIGH, 0, 85)], by decide⟩,
    ⟨850, objs [(Od.hbm_TEMP_HIGH, 0, 85)], by decide⟩,
    ⟨63, objs [(Od.hbm_RETRAIN_INTERVAL, 0, 64)] { cycle := 63 * msCycles 1 }, by decide⟩,
    ⟨63, objs [(Od.hbm_RETRAIN_INTERVAL, 0, 64)] { cycle := 63 * msCycles 1 - 1 }, by decide⟩, ⟨63, {}, by decide⟩,
    ⟨{ mem := { lastPause := some 0 }, cycle := usCycles 2 - 1 }, by decide⟩, ⟨{ mem := { pause := some (0, 1) } }, by decide⟩,
    ⟨63, { cycle := 2 ^ 60, mem := { pcs := [(63, { dueAt := some 0 })] } }, by decide⟩,
    ⟨63, objs [(Od.hbm_RETRAIN_INTERVAL, 0, 100)] { mem := { pcs := [(63, { dueAt := some 0 })] } }, by decide⟩,
    ⟨63, objs [(Od.hbm_RETRAIN_INTERVAL, 0, 100), (Od.hbm_RETRAIN_ALIGN, 0, 1), (Od.rd_LOCK_STATE, 0, 2), (Od.rd_ACTIVE_FIRST, 0, 0),
      (Od.rd_ACTIVE_LAST, 0, 4)] ((({ mem := { pcs := [(63, { dueAt := some 0 })] } } : State).setDom 0 { pos := ⟨0, 9, 0⟩ })), by decide⟩,
    ⟨63, objs [(Od.hbm_RETRAIN_INTERVAL, 0, 100)] { mem := { pcs := [(62, { dueAt := some 0 }), (63, { dueAt := some 0 })] } }, by decide⟩,
    ⟨63, objs [(Od.hbm_RETRAIN_INTERVAL, 0, 100), (Od.hbm_RETRAIN_ALIGN, 0, 1), (Od.rd_LOCK_STATE, 0, 2), (Od.rd_ACTIVE_FIRST, 0, 0),
      (Od.rd_ACTIVE_LAST, 0, 4095)] { mem := { pcs := [(63, { dueAt := some 0 })] } }, by decide⟩,
    ⟨63, {}, fun _ h => by cases h⟩,
    ⟨63, 1500, 0, { mem := { pause := some (0, 63), pcs := [(63, { fails := 1 })] } }, by decide⟩,
    ⟨63, 1501, 0, { mem := { pause := some (0, 63), pcs := [(63, { fails := 2 })] } }, by decide⟩⟩

/-- VDD_EFUSE is present and n fuse entries are left. -/
def burnState (n : Nat) (args : List Byte) : State := running 0x33 args (objs [(Od.sto_FUSE_ENTRIES_LEFT, 0, n)] { sec := { efuse := true } })

theorem burnState_taken (n : Nat) (args : List Byte) : Taken (burnState n args) 0x33 args (burnState n args) := taken _ _ _

theorem witness_ScrubsRepairsAndFulling :
    (∃ (base size : Nat) (s v : State), Taken s 0x22 (leBytes 8 base ++ leBytes 8 size) v ∧ base = 4095) ∧
    (∃ (base size : Nat) (s v : State), Taken s 0x22 (leBytes 8 base ++ leBytes 8 size) v ∧ size = 4095) ∧
    (∃ (base size : Nat) (s v : State), Taken s 0x22 (leBytes 8 base ++ leBytes 8 size) v ∧ size = 0) ∧
    (∃ (base size : Nat) (s v : State), Taken s 0x22 (leBytes 8 base ++ leBytes 8 size) v ∧ base % 4096 = 0 ∧ size % 4096 = 0 ∧ 0 < size ∧
      v.regionAt base size = none) ∧
    (∃ (base size r : Nat) (s v : State), Taken s 0x22 (leBytes 8 base ++ leBytes 8 size) v ∧ base % 4096 = 0 ∧ size % 4096 = 0 ∧
      0 < size ∧ v.regionAt base size = some r ∧ v.regionProtected r = false) ∧
    (∃ (base size r : Nat) (s v : State), Taken s 0x22 (leBytes 8 base ++ leBytes 8 size) v ∧ base % 4096 = 0 ∧ size % 4096 = 0 ∧
      0 < size ∧ v.regionAt base size = some r ∧ v.regionProtected r = true) :=
  ⟨⟨4095, 4096, _, _, taken 0x22 _, rfl⟩, ⟨0, 4095, _, _, taken 0x22 _, rfl⟩, ⟨0, 0, _, _, taken 0x22 _, rfl⟩,
    ⟨0, 4096, _, _, taken 0x22 (leBytes 8 0 ++ leBytes 8 4096), rfl, rfl, by decide, by decide +kernel⟩,
    ⟨2 ^ 32 - 4096, 4096, 1, _, _, taken 0x22 (leBytes 8 (2 ^ 32 - 4096) ++ leBytes 8 4096) (regionState), by decide, by decide, by decide,
      by decide +kernel, by decide +kernel⟩,
    ⟨2 ^ 32 - 4096, 4096, 1, _, _, taken 0x22 (leBytes 8 (2 ^ 32 - 4096) ++ leBytes 8 4096) (protectedState), by decide, by decide,
      by decide, by decide +kernel, by decide +kernel⟩⟩

theorem witness_ScrubsRepairsAndFulling_sram :
    (∃ (addr : Nat) (s v : State), Taken s 0x33 (fuseArgs 0 addr) v ∧ v.sec.efuse = false) ∧
    (∃ (addr : Nat) (s v : State), Taken s 0x33 (fuseArgs 0 addr) v ∧ v.sec.efuse = true ∧ 9 = fuseStore addr) ∧
    (∃ (addr : Nat) (s v : State), Taken s 0x33 (fuseArgs 0 addr) v ∧ v.sec.efuse = true ∧ fuseStore addr = 8 ∧
      fuseInstance addr = storeInstances (fuseStore addr)) ∧
    (∃ (addr : Nat) (s v : State), Taken s 0x33 (fuseArgs 0 addr) v ∧ v.sec.efuse = true ∧ fuseStore addr = 8 ∧
      fuseInstance addr + 1 = storeInstances (fuseStore addr) ∧ v.get Od.sto_FUSE_ENTRIES_LEFT = 0) ∧
    (∃ (addr : Nat) (s v : State), Taken s 0x33 (fuseArgs 0 addr) v ∧ v.sec.efuse = true ∧ fuseStore addr = 8 ∧
      fuseInstance addr + 1 = storeInstances (fuseStore addr) ∧ v.get Od.sto_FUSE_ENTRIES_LEFT = 1) :=
  ⟨⟨0, _, _, taken 0x33 _, rfl⟩, ⟨9 * 2 ^ 56, _, _, burnState_taken 1 _, rfl, by decide⟩,
    ⟨8 * 2 ^ 56 + 32 * 2 ^ 40, _, _, burnState_taken 1 _, rfl, by decide, by decide⟩,
    ⟨8 * 2 ^ 56 + 31 * 2 ^ 40, _, _, burnState_taken 0 (fuseArgs 0 (8 * 2 ^ 56 + 31 * 2 ^ 40)), rfl, by decide, by decide, by decide⟩,
    ⟨8 * 2 ^ 56 + 31 * 2 ^ 40, _, _, burnState_taken 1 (fuseArgs 0 (8 * 2 ^ 56 + 31 * 2 ^ 40)), rfl, by decide, by decide, by decide⟩⟩

theorem witness_ScrubsRepairsAndFulling_rows :
    let ready (s : State) (addr : Nat) (spare : Bool) : Prop :=
      s.sec.efuse = true ∧ addr < hbmEnd ∧ spare = true ∧ s.get Od.sto_FUSE_ENTRIES_LEFT ≠ 0
    (∃ (addr : Nat) (spare : Bool) (s : State), ready s addr spare ∧ addr + 1 = hbmEnd ∧ s.repairMayPause = false) ∧
    (∃ (addr : Nat) (spare : Bool) (s v : State), Taken s 0x33 (fuseArgs 1 addr) v ∧ ready s addr spare ∧ addr + 1 = hbmEnd ∧
      s.repairMayPause = true) ∧
    (∃ (addr : Nat) (s v : State), Taken s 0x33 (fuseArgs 1 addr) v ∧ s.sec.efuse = false) ∧
    (∃ (addr : Nat) (s v : State), Taken s 0x33 (fuseArgs 1 addr) v ∧ s.sec.efuse = true ∧ hbmEnd = addr) ∧
    (∃ (addr : Nat) (s v : State), Taken s 0x33 (fuseArgs 1 addr) v ∧ s.sec.efuse = true ∧ addr < hbmEnd) ∧
    (∃ (addr : Nat) (s v : State), Taken s 0x33 (fuseArgs 1 addr) v ∧ s.sec.efuse = true ∧ addr < hbmEnd ∧
      s.get Od.sto_FUSE_ENTRIES_LEFT = 0) ∧
    (∃ (loc : Nat) (s : State), (tfind s.mem.sramWriteBacks loc).isSome = true) ∧
    (∃ (loc : Nat) (s : State), tfind s.mem.sramWriteBacks loc = none) ∧
    (∃ (f : Fulled) (s : State), s.fullingPaused f (s.lap (fulledLap f)).word = true) ∧
    (∃ (f : Fulled) (s : State), s.fullingPaused f (s.lap (fulledLap f)).word = false ∧
      (s.lap (fulledLap f)).word + 2 = fulledWords f) ∧
    (∃ (f : Fulled) (s : State), s.fullingPaused f (s.lap (fulledLap f)).word = false ∧
      (s.lap (fulledLap f)).word + 1 = fulledWords f) :=
  ⟨⟨hbmEnd - 1, true, { burnState 1 [] with mem := { pause := some (0, 0) } }, by decide, by decide, by decide⟩,
    ⟨hbmEnd - 1, true, _, _, burnState_taken 1 (fuseArgs 1 (hbmEnd - 1)), by decide, by decide, by decide⟩,
    ⟨0, _, _, taken 0x33 _, rfl⟩, ⟨hbmEnd, _, _, burnState_taken 1 _, rfl, rfl⟩, ⟨hbmEnd - 1, _, _, burnState_taken 1 _, rfl, by decide⟩,
    ⟨hbmEnd - 1, _, _, burnState_taken 0 (fuseArgs 1 (hbmEnd - 1)), rfl, by decide, by decide⟩,
    ⟨5, { mem := { sramWriteBacks := [(5, 1)] } }, by decide⟩, ⟨5, {}, by decide⟩,
    ⟨.control 15, { mem := { laps := [(15, { word := 8190 })] }, code := { banks := [(31, { state := 1 })] } }, by decide⟩,
    ⟨.control 15, { mem := { laps := [(15, { word := 8190 })] } }, by decide⟩,
    ⟨.dictionary, { mem := { laps := [(19, { word := 932067 })] } }, by decide⟩⟩

theorem witness_FreeBattsAreNotFreedAgain :
    ∃ (b : Nat) (x : Batt) (s : State), b + 1 = 2 ^ 32 ∧ s.batt b = some x ∧ x.refs = 0 :=
  ⟨2 ^ 32 - 1, ⟨0, 0, 0⟩, { queues := { batts := [(2 ^ 32 - 1, ⟨0, 0, 0⟩)] } }, by decide⟩

/-- Batt 2^32 - 1 with a number of references. -/
def battState (refs : Nat) : State := { queues := { batts := [(2 ^ 32 - 1, ⟨refs, 0, 0⟩)] } }

theorem witness_BattsAndQueues :
    (∃ (q : Fin 2048) (w : Writer) (pri : Fin 8) (data : List Byte) (s : State), data ≠ [] ∧
      (s.writerBatts w (if q.val < 1024 then q.val % 8 else pri.val) data).2 = none) ∧
    (∃ (q : Fin 2048) (w : Writer) (pri : Fin 8) (data : List Byte) (es : List QEntry) (s : State), data ≠ [] ∧
      (s.writerBatts w (if q.val < 1024 then q.val % 8 else pri.val) data).2 = some es) ∧
    (∀ n ∈ [2, 254, 1, 255], ∃ (b : Nat) (x : Batt) (s : State), s.batt (b % 2 ^ 32) = some x ∧ x.refs = n) ∧
    (∃ (b : Nat) (s : State), s.batt (b % 2 ^ 32) = none) ∧ (∃ (b : Nat) (s : State), s.queues.returning = [b]) ∧
    (∃ (pool : Fin 16) (s : State), (s.freeBatts pool).refill = true ∧ (s.freeBatts pool).spill = true) ∧
    (∃ (pool : Fin 16) (s : State), (s.freeBatts pool).refill = false ∧ (s.freeBatts pool).spill = false) ∧
    (∃ f : FreeBatts, f.cache.length = 32) ∧ (∃ s : State, s.queues.copies = []) ∧
    (∃ (s : State) (c : PendingCopy) (rest : List PendingCopy), s.queues.copies = c :: rest ∧
      State.allocate { s with queues := { s.queues with copies := rest } } c.pool c.kind c.owner (battsFor c.data.length) 1 = none) ∧
    (∃ (s u : State) (bs : List Nat) (c : PendingCopy) (rest : List PendingCopy), s.queues.copies = c :: rest ∧
      State.allocate { s with queues := { s.queues with copies := rest } } c.pool c.kind c.owner (battsFor c.data.length) 1 =
        some (u, bs)) ∧
    (∃ s : State, s.queues.sweep = none) ∧ (∃ (s : State) (bs : List Nat), s.queues.sweep = some bs) :=
  ⟨⟨2047, .dma, 7, [0#8], objs [(Od.pool_ENABLE, 0, 0)], by decide, by decide +kernel⟩,
    ⟨1023, .port 0, 7, [0#8], _, objs [(Od.pool_REGION, 0, 1), (Od.pool_BATTS, 0, 1024), (Od.pool_ENABLE, 0, 1)] (regionState), by decide,
      rfl⟩,
    fun n _ => ⟨2 ^ 32 - 1, ⟨n, 0, 0⟩, battState n, rfl, rfl⟩, ⟨2 ^ 32 - 1, {}, by decide⟩, ⟨5, { queues := { returning := [5] } }, rfl⟩,
    ⟨15, { queues := { free := [(15, { refill := true, spill := true })] } }, by decide⟩, ⟨15, {}, by decide⟩,
    ⟨{ cache := List.range 32 }, by decide⟩, ⟨{}, rfl⟩,
    ⟨{ queues := { copies := [⟨[0#8], [], 1, 0, 0, none, false⟩] } }, ⟨[0#8], [], 1, 0, 0, none, false⟩, [], rfl, by decide +kernel⟩,
    ⟨objs [(Od.pool_REGION, 0, 1), (Od.pool_BATTS, 0, 1024), (Od.pool_ENABLE, 0, 1)] (regionState []
      { queues := { copies := [⟨[0#8], [], 0, ownPort, 0, none, false⟩] } }), _, _, ⟨[0#8], [], 0, ownPort, 0, none, false⟩, [], rfl, rfl⟩,
    ⟨{}, rfl⟩, ⟨{ queues := { sweep := some [1] } }, [1], rfl⟩⟩

/-! ### Witnesses: streams, cells, microcode, pictures -/

/-- An entry of INPUTS: its kind and layer. -/
def inEntry (kind layer : Nat) : List Byte := leBytes 1 kind ++ leBytes 1 layer ++ List.replicate 22 0#8

/-- An entry of OUTPUTS: an RTP flow of rung 0 at Ethernet port 127. -/
def outEntry : List Byte := leBytes 1 0 ++ leBytes 1 0 ++ leBytes 2 127 ++ leBytes 2 5004 ++ List.replicate 26 0#8

/-- Stream 511 with its objects and INPUTS; PICTURE_REGION is usable. -/
def streamState (l : List (Row × Nat × Nat)) (ins : List Byte := inEntry 5 0) (x : Stream := {}) (s : State := {}) : State :=
  objs ([(Od.reg_KIND, 0, 0), (Od.reg_SIZE, 0, 2 ^ 34), (Od.reg_EXTENT, 0, 2 ^ 34)] ++ l) ((s.setBlob Od.st_INPUTS 511 ins).setStream 511 x)

/-- The arguments of STREAM_OPEN for a dry run or not. -/
def openArgs (dry : Bool) (sid : Nat) : List Byte := leBytes 2 sid ++ leBytes 2 (if dry then setBit 0 0 else clearBit 0 0)

/-- Stream 511 could join RUNNING stream 510, with an output of its own. -/
def aliasState (l : List (Row × Nat × Nat)) (out : List Byte := []) : State :=
  (((streamState ([(Od.st_TYPE, 511, 3), (Od.st_TYPE, 510, 3), (Od.st_MERGE_OK, 511, 1), (Od.st_MERGE_OK, 510, 1),
    (Od.st_STATE, 510, stRunning)] ++ l) (inEntry 5 0)).setBlob Od.st_INPUTS 510 (inEntry 5 0)).setStream 510 { rapRequest := true }).setBlob
    Od.st_OUTPUTS 511 out

theorem witness_StreamsOpenAndClose (dry : Bool) :
    (∃ (sid : Nat) (s v : State), Taken s 0x01 (openArgs dry sid) v ∧ sid = 0xFFFF ∧ v.stagedStream = none) ∧
    (∃ (sid : Nat) (s v : State), Taken s 0x01 (openArgs dry sid) v ∧ 512 = sid) ∧
    (∃ (sid : Nat) (s v : State), Taken s 0x01 (openArgs dry sid) v ∧ sid = 511 ∧ v.streamState sid ≠ stClosed) ∧
    (∃ (sid x : Nat) (s v u : State), Taken s 0x01 (openArgs dry sid) v ∧
      (sid = 0xFFFF ∧ v.stagedStream = some x ∧ u = v.set Od.st_STAGED x 0) ∧ u.argsOk x = true) ∧
    (∃ (sid : Nat) (s v : State), Taken s 0x01 (openArgs dry sid) v ∧ sid < 512 ∧ v.streamState sid = stClosed ∧ v.argsOk sid = false) ∧
    (∃ (sid leader : Nat) (s v : State), Taken s 0x01 (openArgs dry sid) v ∧ sid < 512 ∧ v.streamState sid = stClosed ∧
      v.argsOk sid = true ∧ v.mergeLeader sid = some leader ∧ v.aliasTest sid = true) ∧
    (∃ (sid leader : Nat) (s v : State), Taken s 0x01 (openArgs dry sid) v ∧ sid < 512 ∧ v.streamState sid = stClosed ∧
      v.argsOk sid = true ∧ v.mergeLeader sid = some leader ∧ v.aliasTest sid = false) ∧
    (∃ (sid : Nat) (s v : State), Taken s 0x01 (openArgs dry sid) v ∧ sid < 512 ∧ v.streamState sid = stClosed ∧
      v.argsOk sid = true ∧ v.mergeLeader sid = none ∧ (v.admission sid).2 = 0) ∧
    (∃ (sid : Nat) (s v : State), Taken s 0x01 (openArgs dry sid) v ∧ sid < 512 ∧ v.streamState sid = stClosed ∧
      v.argsOk sid = true ∧ v.mergeLeader sid = none ∧ (v.admission sid).2 ≠ 0) := by
  cases dry <;> exact
    ⟨⟨0xFFFF, _, _, taken 0x01 (openArgs _ 0xFFFF), rfl, by decide +kernel⟩, ⟨512, _, _, taken 0x01 (openArgs _ 512), rfl⟩,
      ⟨511, _, _, taken 0x01 (openArgs _ 511) (objs [(Od.st_STATE, 511, stArmed)]), rfl, by decide⟩,
      ⟨0xFFFF, 511, _, _, _, taken 0x01 (openArgs _ 0xFFFF) (streamState [(Od.st_TYPE, 511, 3), (Od.st_STAGED, 511, 1)]),
        ⟨rfl, by decide +kernel, rfl⟩, by decide +kernel⟩,
      ⟨511, _, _, taken 0x01 (openArgs _ 511), by decide, by decide +kernel, by decide +kernel⟩,
      ⟨511, 510, _, _, taken 0x01 (openArgs _ 511) (aliasState []), by decide, by decide +kernel, by decide +kernel, by decide +kernel, by
        decide +kernel⟩,
      ⟨511, 510, _, _, taken 0x01 (openArgs _ 511) (aliasState [(Od.mil_PORT_LOAD_LIMIT, 0, 0)] outEntry), by decide, by decide +kernel, by
        decide +kernel, by decide +kernel, by decide +kernel⟩,
      ⟨511, _, _, taken 0x01 (openArgs _ 511) (streamState [(Od.st_TYPE, 511, 3)]), by decide, by decide +kernel, by decide +kernel, by
        decide +kernel, by decide +kernel⟩,
      ⟨511, _, _, taken 0x01 (openArgs _ 511) (streamState [(Od.st_TYPE, 511, 3), (Od.reg_KIND, 0, 255)]), by decide, by decide +kernel, by
        decide +kernel, by decide +kernel, by decide +kernel⟩⟩

theorem witness_StreamsOpenAndClose_close (mode : Nat) (hm : mode < 2) :
    (∃ (sid : Nat) (s v : State), Taken s 0x02 (leBytes 2 sid ++ leBytes 1 mode) v ∧ 512 = sid) ∧
    (∀ st ∈ [stClosed, stArmed, stRunning, stAlias, stClosing], ∃ (sid : Nat) (s v : State),
      Taken s 0x02 (leBytes 2 sid ++ leBytes 1 mode) v ∧ sid = 511 ∧ v.streamState sid = st ∧ v.aliasesOf sid = []) ∧
    (∃ (sid a : Nat) (rest : List Nat) (s v : State), Taken s 0x02 (leBytes 2 sid ++ leBytes 1 mode) v ∧ sid = 511 ∧
      v.streamState sid = stRunning ∧ v.aliasesOf sid = a :: rest) := by
  refine ⟨⟨512, _, _, taken _ _, rfl⟩, fun st h => ⟨511, _, _, taken 0x02 (leBytes 2 511 ++ leBytes 1 mode) (objs [(Od.st_STATE, 511, st)]),
    rfl, ?_⟩, ⟨511, 510, [], _, _, taken 0x02 (leBytes 2 511 ++ leBytes 1 mode)
      (objs [(Od.st_STATE, 511, stRunning), (Od.st_STATE, 510, stAlias), (Od.st_LEADER, 510, 511)]), rfl, ?_⟩⟩
  · simp only [List.mem_cons, List.not_mem_nil, or_false] at h
    have : mode = 0 ∨ mode = 1 := by omega
    obtain rfl | rfl := this <;> obtain rfl | rfl | rfl | rfl | rfl := h <;> decide +kernel
  · have : mode = 0 ∨ mode = 1 := by omega
    obtain rfl | rfl := this <;> decide +kernel

/-- A clip of one picture that is readable and supported. -/
def clipMeet : ClipMeet := ⟨true, 0, 1, 0, 8, 64, 64, 1, [0]⟩

/-- CLIP_REGION names PROTECTED region 1. -/
def clipState (x : StreamUnit := {}) : State := protectedState [(Od.mil_CLIP_REGION, 0, 1)] { streams := x }

/-- Clip 1,023 is stored; stream 511 has the playlist. -/
def clipUnit (es : List PlaylistEntry := []) : StreamUnit :=
  { clips := [(1023, ⟨clipMeet, 0, 0⟩)], streams := [(511, { playlist := es })] }

theorem clipState_place (n : Nat) (args : List Byte) :
    (running 0x50 args (clipState)).useFree.clipPlace 1 n = if n ≤ 2 ^ 32 then some 0 else none := by
  have hb : (running 0x50 args (clipState)).useFree.get Od.reg_BASE 1 = 0 :=
    (show _ = (clipState).get Od.reg_BASE 1 from rfl).trans (by decide +kernel)
  have hs : (running 0x50 args (clipState)).useFree.get Od.reg_SIZE 1 = 2 ^ 32 :=
    (show _ = (clipState).get Od.reg_SIZE 1 from rfl).trans (by decide +kernel)
  have he : (running 0x50 args (clipState)).useFree.regionExists 1 = true :=
    (show _ = (clipState).regionExists 1 from rfl).trans (by decide +kernel)
  have hr : (running 0x50 args (clipState)).useFree.inRegion 1 0 n = decide (n ≤ 2 ^ 32) := by
    rw [State.inRegion, he, hb, hs]; simp
  rw [State.clipPlace, hb, show (running 0x50 args (clipState)).useFree.streams.clips = [] from rfl]
  by_cases h : n ≤ 2 ^ 32 <;> simp [sortBy, insertBy, hr, h]

theorem witness_ClipsAndPlaylists :
    (∃ source : Nat, 2 = source) ∧
    (∃ (clip source addr length : Nat) (s v : State), source = 1 ∧ Taken s 0x50 (clipStoreArgs clip source addr length) v ∧ 1024 = clip) ∧
    (∃ (clip source addr length : Nat) (s v : State) (c : Clip), source = 1 ∧ Taken s 0x50 (clipStoreArgs clip source addr length) v ∧
      clip = 1023 ∧ tfind v.streams.clips clip = some c) ∧
    (∃ (clip source addr length : Nat) (s v : State), source = 1 ∧ Taken s 0x50 (clipStoreArgs clip source addr length) v ∧
      clip = 1023 ∧ tfind v.streams.clips clip = none ∧ v.get Od.mil_CLIP_REGION = 255) ∧
    (∃ (clip source addr length : Nat) (s v : State), source = 1 ∧ Taken s 0x50 (clipStoreArgs clip source addr length) v ∧
      clip = 1023 ∧ tfind v.streams.clips clip = none ∧ v.regionProtected (v.get Od.mil_CLIP_REGION) = false) ∧
    (∃ (clip : Nat) (s v : State), Taken s 0x51 (leBytes 2 clip) v ∧ tfind v.streams.clips clip = none) ∧
    (∃ (clip : Nat) (s v : State) (c : Clip), Taken s 0x51 (leBytes 2 clip) v ∧ tfind v.streams.clips clip = some c ∧
      v.clipNamed clip = true) ∧
    (∃ (clip : Nat) (s v : State) (c : Clip), Taken s 0x51 (leBytes 2 clip) v ∧ tfind v.streams.clips clip = some c ∧
      v.clipNamed clip = false) :=
  ⟨⟨2, rfl⟩, ⟨1024, 1, 0, 0, _, _, rfl, taken 0x50 _, rfl⟩,
    ⟨1023, 1, 0, 0, _, _, ⟨clipMeet, 0, 0⟩, rfl, taken 0x50 (clipStoreArgs 1023 1 0 0) (clipState (clipUnit)), rfl, by decide⟩,
    ⟨1023, 1, 0, 0, _, _, rfl, taken 0x50 (clipStoreArgs 1023 1 0 0) (objs [(Od.mil_CLIP_REGION, 0, 255)]), rfl, by decide, by decide⟩,
    ⟨1023, 1, 0, 0, _, _, rfl, taken 0x50 (clipStoreArgs 1023 1 0 0) (objs [(Od.mil_CLIP_REGION, 0, 1)] (regionState)), rfl, by decide, by
      decide⟩,
    ⟨1023, _, _, taken 0x51 (leBytes 2 1023), by decide⟩,
    ⟨1023, _, _, ⟨clipMeet, 0, 0⟩, taken 0x51 (leBytes 2 1023) (objs [(Od.st_STATE, 511, stRunning)]
      { streams := clipUnit [⟨1023, ⟨0, 0, 0⟩⟩] }), by decide, by decide⟩,
    ⟨1023, _, _, ⟨clipMeet, 0, 0⟩, taken 0x51 (leBytes 2 1023) (clipState (clipUnit)), by decide, by decide⟩⟩

theorem witness_ClipsAndPlaylists_copy :
    (∃ (clip source addr length e : Nat) (s v t : State), source = 1 ∧ Taken s 0x50 (clipStoreArgs clip source addr length) v ∧
      clip = 1023 ∧ tfind v.streams.clips clip = none ∧ v.get Od.mil_CLIP_REGION ≠ 255 ∧
      v.regionProtected (v.get Od.mil_CLIP_REGION) = true ∧ v.useFree.copySource source addr length = (t, .inl e) ∧
      e ≠ Result.imageFormat) ∧
    (∃ (clip source addr length e : Nat) (s v t : State), source = 1 ∧ Taken s 0x50 (clipStoreArgs clip source addr length) v ∧
      clip = 1023 ∧ tfind v.streams.clips clip = none ∧ v.get Od.mil_CLIP_REGION ≠ 255 ∧
      v.regionProtected (v.get Od.mil_CLIP_REGION) = true ∧ v.useFree.copySource source addr length = (t, .inl e) ∧
      e = Result.imageFormat) :=
  ⟨⟨1023, 1, 2 ^ 32, 4096, Result.noSuchTarget, _, _, _, rfl, taken 0x50 (clipStoreArgs 1023 1 (2 ^ 32) 4096) (clipState), rfl, by decide,
      by decide +kernel, by decide +kernel, Prod.ext rfl (by decide +kernel), by decide⟩,
    ⟨1023, 1, 0, 4096, Result.imageFormat, _, _, _, rfl, taken 0x50 (clipStoreArgs 1023 1 0 4096)
      { clipState with mem := { poisoned := [0] } }, rfl, by decide, by decide +kernel, by decide +kernel,
      Prod.ext rfl (by decide +kernel), by decide⟩⟩

theorem witness_ClipsAndPlaylists_store :
    let ready (clip source addr length : Nat) (s v t : State) (bs : List Byte) : Prop :=
      source = 0 ∧ Taken s 0x50 (clipStoreArgs clip source addr length) v ∧ clip = 1023 ∧ tfind v.streams.clips clip = none ∧
      v.get Od.mil_CLIP_REGION ≠ 255 ∧ v.regionProtected (v.get Od.mil_CLIP_REGION) = true ∧
      v.useFree.copySource source addr length = (t, .inr bs)
    let size (v : State) (length : Nat) : Nat := length + v.freeValue % 2 ^ 20
    (∃ (clip source addr length : Nat) (m : ClipMeet) (s v t : State) (bs : List Byte), ready clip source addr length s v t bs ∧
      m.readable = false) ∧
    (∃ (clip source addr length : Nat) (m : ClipMeet) (s v t : State) (bs : List Byte), ready clip source addr length s v t bs ∧
      m.readable = true ∧ clipOk m = false) ∧
    (∃ (clip source addr length : Nat) (m : ClipMeet) (s v t : State) (bs : List Byte), ready clip source addr length s v t bs ∧
      m.readable = true ∧ clipOk m = true ∧ t.clipPlace (v.get Od.mil_CLIP_REGION) (roundUp 4096 (size v length)) = none) ∧
    (∃ (clip source addr length a : Nat) (m : ClipMeet) (s v t : State) (bs : List Byte), ready clip source addr length s v t bs ∧
      m.readable = true ∧ clipOk m = true ∧ t.clipPlace (v.get Od.mil_CLIP_REGION) (roundUp 4096 (size v length)) = some a) := by
  have hc (args : List Byte) : (running 0x50 args (clipState)).get Od.mil_CLIP_REGION = 1 :=
    (show _ = (clipState).get Od.mil_CLIP_REGION from rfl).trans (by decide +kernel)
  have hp (args : List Byte) : (running 0x50 args (clipState)).regionProtected 1 = true :=
    (show _ = (clipState).regionProtected 1 from rfl).trans (by decide +kernel)
  have h (n : Nat) : let v := running 0x50 (clipStoreArgs 1023 0 0 n) (clipState)
      0 = 0 ∧ Taken v 0x50 (clipStoreArgs 1023 0 0 n) v ∧ 1023 = 1023 ∧ tfind v.streams.clips 1023 = none ∧
      v.get Od.mil_CLIP_REGION ≠ 255 ∧ v.regionProtected (v.get Od.mil_CLIP_REGION) = true ∧
      v.useFree.copySource 0 0 n = (v.useFree, .inr (v.useFree.flashBytes 0 n)) :=
    ⟨rfl, taken _ _ _, rfl, rfl, by rw [hc]; decide, by rw [hc, hp], rfl⟩
  have hf (v : State) := Nat.mod_lt v.freeValue (by decide : 0 < 2 ^ 20)
  refine ⟨⟨1023, 0, 0, 0, { clipMeet with readable := false }, _, _, _, _, h 0, rfl⟩,
    ⟨1023, 0, 0, 0, { clipMeet with raps := [] }, _, _, _, _, h 0, rfl, by decide⟩,
    ⟨1023, 0, 0, 2 ^ 32 + 1, clipMeet, _, _, _, _, h _, rfl, by decide, ?_⟩,
    ⟨1023, 0, 0, 0, 0, clipMeet, _, _, _, _, h 0, rfl, by decide, ?_⟩⟩
  · rw [hc, clipState_place, if_neg]
    simp only [roundUp, ceilDiv]; omega
  · rw [hc, clipState_place, if_pos]
    have := hf (running 0x50 (clipStoreArgs 1023 0 0 0) (clipState))
    simp only [roundUp, ceilDiv]; omega

/-- Stream 511 plays clips. -/
def playState (sid : Nat) (es : List PlaylistEntry) (state : Nat) (l : List (Row × Nat × Nat) := []) : State :=
  running 0x52 (playlistArgs sid es) (objs ([(Od.st_TYPE, 511, 4), (Od.st_STATE, 511, state)] ++ l) { streams := clipUnit })

theorem playState_taken (sid : Nat) (es : List PlaylistEntry) (state : Nat) :
    Taken (playState sid es state) 0x52 (playlistArgs sid es) (playState sid es state) := taken _ _ _

/-- Entries of a playlist that names the stored clip, with starts that rise, or do not. -/
def entries (b : Nat) : List PlaylistEntry := [⟨1023, ⟨0, 0, 5⟩⟩, ⟨1023, ⟨0, 0, b⟩⟩]

theorem witness_ClipsAndPlaylists_playlist :
    let known (sid : Nat) (es : List PlaylistEntry) (v : State) : Prop :=
      sid < 512 ∧ v.streamType sid = 4 ∧ ∀ e ∈ es, (tfind v.streams.clips e.clip).isSome = true
    let fit (sid : Nat) (es : List PlaylistEntry) (v : State) : Prop :=
      ∀ e ∈ es, v.clipFits sid e.clip = true ∧ v.validTime (v.streamDomain sid) e.start = true ∧
        v.notTooFar (v.streamDomain sid) e.start = true
    (∃ es : List PlaylistEntry, es.length = 257) ∧
    (∃ (sid : Nat) (es : List PlaylistEntry) (s v : State), es ≠ [] ∧ es.length = 256 ∧ Taken s 0x52 (playlistArgs sid es) v ∧ 512 = sid) ∧
    (∃ (sid : Nat) (es : List PlaylistEntry) (s v : State), es ≠ [] ∧ Taken s 0x52 (playlistArgs sid es) v ∧ sid = 511 ∧
      v.streamType sid ≠ 4) ∧
    (∃ (sid : Nat) (es : List PlaylistEntry) (s v : State), es ≠ [] ∧ Taken s 0x52 (playlistArgs sid es) v ∧ sid = 511 ∧
      v.streamType sid = 4 ∧ ¬ known sid es v) ∧
    (∃ (sid : Nat) (es : List PlaylistEntry) (s v : State), es ≠ [] ∧ Taken s 0x52 (playlistArgs sid es) v ∧ known sid es v ∧
      v.risingStarts (v.streamDomain sid) es = false) ∧
    (∃ (sid : Nat) (es : List PlaylistEntry) (s v : State), es ≠ [] ∧ Taken s 0x52 (playlistArgs sid es) v ∧ known sid es v ∧
      v.risingStarts (v.streamDomain sid) es = true ∧ ¬ fit sid es v) ∧
    (∀ shut : Bool, ∃ (sid : Nat) (es : List PlaylistEntry) (s v : State), es ≠ [] ∧ Taken s 0x52 (playlistArgs sid es) v ∧
      known sid es v ∧ v.risingStarts (v.streamDomain sid) es = true ∧ fit sid es v ∧ v.streamShut sid = shut) :=
  ⟨⟨List.replicate 257 ⟨1, ⟨0, 0, 0⟩⟩, by decide⟩,
    ⟨512, List.replicate 256 ⟨1, ⟨0, 0, 0⟩⟩, _, _, by decide, by decide, taken 0x52 _, rfl⟩,
    ⟨511, [⟨1, ⟨0, 0, 0⟩⟩], _, _, by decide, taken 0x52 _, rfl, by decide⟩,
    ⟨511, [⟨1, ⟨0, 0, 0⟩⟩], _, _, by decide, playState_taken 511 [⟨1, ⟨0, 0, 0⟩⟩] stClosed, rfl, by decide +kernel, by decide +kernel⟩,
    ⟨511, entries 5, _, _, by decide, playState_taken 511 (entries 5) stClosed, by decide +kernel, by decide +kernel⟩,
    ⟨511, [⟨1023, ⟨0, 65535, 0⟩⟩], _, _, by decide, playState_taken 511 [⟨1023, ⟨0, 65535, 0⟩⟩] stClosed, by decide +kernel, by decide +kernel,
      by decide +kernel⟩,
    fun shut => by
      cases shut
      · exact ⟨511, entries 6, _, _, by decide, playState_taken 511 (entries 6) stRunning, by decide +kernel, by decide +kernel, by
          decide +kernel, by decide +kernel⟩
      · exact ⟨511, entries 6, _, _, by decide, playState_taken 511 (entries 6) stClosed, by decide +kernel, by decide +kernel, by
          decide +kernel, by decide +kernel⟩⟩

/-- A row of stream 511 on cell 127. -/
def point (stage : Nat) : Checkpoint :=
  { sid := 511, stage := stage, index := 0, pic := 1, row := 0, format := 0, preset := 0, cls := 0, rap := false, cell := 127, deadline := 0 }

def cellRow (stage : Nat) : CellRow := { point := point stage, startAt := 0 }

/-- Crown 15 is ACTIVE and cell 127 has a state. -/
def cellState (x : Cell) (l : List (Row × Nat × Nat) := []) (s : State := {}) : State :=
  (objs ((Od.crown_POWER_STATE, 15, 2) :: l) s).setCell 127 x

def rungCfg : RungCfg := (State.rungCfg {} 511 0)

/-- A picture of a rung with one row. -/
def encPic (r : EncRow := {}) : EncPic :=
  { rung := 0, pic := 1, frame := 0, cfg := rungCfg, cells := [127], started := true, inputRows := 1, rows := [r] }

def picStart : PicStart := ⟨0, 1, 0, 8, 64, 64, 1, 0, 0, 0, [], true, false, false, none, 0, none, none, none, false, false, false, 0, []⟩

/-- A decoded picture with one row. -/
def decPic (r : DecRow) (n : Nat := 1) : DecPic := { pic := 1, start := picStart, frame := 0, rows := List.replicate n r, cells := [127] }

/-- Stream 511 of a CLASS with pictures. -/
def picState (cls : Nat) (e : List EncPic) (d : List DecPic) (l : List (Row × Nat × Nat) := []) (x : LayerState := {}) : State :=
  objs ((Od.st_CLASS, 511, cls) :: l) { streams := { streams := [(511, { pics := e, layers := [(0, { x with pics := d })] })] } }

/-- Cell 127 runs a row of a stage; its stream has the pictures, and its CLASS. -/
def rowState (x : CellRow) (e : List EncPic := []) (d : List DecPic := []) (cls : Nat := 1) (l : List (Row × Nat × Nat) := []) : State :=
  cellState { row := some x } l (picState cls e d)

/-- A row that has met its ROW_END. -/
def endedRow (stage : Nat) : CellRow := { cellRow stage with ended := true }

theorem witness_RowsOnCells :
    (∃ (cc : Fin 128) (s : State), s.takesRow cc = false) ∧ (∃ (cc : Fin 128) (s : State), s.choice cc = none) ∧
    (∃ (cc : Fin 128) (s : State) (c : Choice), s.takesRow cc = true ∧ s.choice cc = some c ∧ c.rerun = true) ∧
    (∃ (cc : Fin 128) (s : State) (c : Choice), s.takesRow cc = true ∧ s.choice cc = some c ∧ c.rerun = false ∧ 16 = c.stage) ∧
    (∃ (cc : Fin 128) (s : State) (c : Choice), s.takesRow cc = true ∧ s.choice cc = some c ∧ c.rerun = false ∧ c.stage < 16) ∧
    (∃ (cc : Fin 128) (s : State), (s.cell cc).row = none) ∧
    (∃ (cc : Fin 128) (s : State) (r : CellRow), (s.cell cc).row = some r ∧ s.rowError cc = true) ∧
    (∃ (cc : Fin 128) (s : State) (r : CellRow), (s.cell cc).row = some r ∧ r.waitDep = true) ∧
    (∃ (cc : Fin 128) (s : State) (r : CellRow), (s.cell cc).row = some r ∧ r.waitMem = true) ∧
    (∃ (cc : Fin 128) (s : State) (r : CellRow), (s.cell cc).row = some r ∧ r.ended = false) :=
  ⟨⟨127, objs [(Od.crown_POWER_STATE, 15, 1)], by decide⟩, ⟨127, {}, by decide⟩,
    ⟨127, cellState { reruns := [(point 16, true)] }, _, by decide +kernel, rfl, by decide +kernel⟩,
    ⟨127, cellState {} [] (picState 0 [encPic] []), _, by decide +kernel, rfl, by decide +kernel, by decide +kernel⟩,
    ⟨127, cellState {} [] (picState 0 [] [decPic { state := 1 }]), _, by decide +kernel, rfl, by decide +kernel, by decide +kernel⟩,
    ⟨127, {}, by decide⟩,
    ⟨127, cellState { row := some (cellRow 16) } [] { faults := { held := [⟨127, 1, 2, 0, 255, 0, 15⟩] } }, cellRow 16, by decide, by
      decide⟩,
    ⟨127, rowState { cellRow 16 with waitDep := true }, { cellRow 16 with waitDep := true }, by decide, by decide⟩,
    ⟨127, rowState { cellRow 16 with waitMem := true }, { cellRow 16 with waitMem := true }, by decide, by decide⟩,
    ⟨127, rowState (cellRow 16), cellRow 16, by decide, by decide⟩⟩

/-- What stands where a row of a picture under encoding completes. -/
def Completing (cc : Fin 128) (s : State) (r : CellRow) (p : EncPic) : Prop :=
  (s.cell cc).row = some r ∧ ¬ (s.rowError cc = true ∨ r.waitDep = true ∨ r.waitMem = true ∨ r.ended = false) ∧ 16 ≤ r.point.stage ∧
  s.encPic r.point.sid r.point.index r.point.pic = some p

/-- Batts are held for a row where no pool serves its stream; they are not where its pool is empty and it has an output. -/
theorem witness_RowsOnCells_enc :
    (∃ (cc : Fin 128) (s : State) (r : CellRow), (s.cell cc).row = some r ∧
      ¬ (s.rowError cc = true ∨ r.waitDep = true ∨ r.waitMem = true ∨ r.ended = false) ∧ 16 = r.point.stage ∧
      s.encPic r.point.sid r.point.index r.point.pic = none) ∧
    (∃ cc s r p, Completing cc s r p ∧ (p.row r.point.row).state ≠ 1) ∧
    (∃ cc s r p, Completing cc s r p ∧ (p.row r.point.row).state = 1 ∧ s.pastCd r.point.sid p r.point.row = true) ∧
    (∃ cc s r p, Completing cc s r p ∧ (p.row r.point.row).state = 1 ∧ s.pastCd r.point.sid p r.point.row = false ∧
      (p.row r.point.row).recover = true ∧
      s.battsHeld r.point.sid (s.rowBatts r.point.sid p (s.brimOf r.point.sid p r.point.row).2) = true) ∧
    (∃ cc s r p, Completing cc s r p ∧ (p.row r.point.row).state = 1 ∧ s.pastCd r.point.sid p r.point.row = false ∧
      (p.row r.point.row).recover = true ∧
      s.battsHeld r.point.sid (s.rowBatts r.point.sid p (s.brimOf r.point.sid p r.point.row).2) = false) ∧
    (∃ cc s r p, Completing cc s r p ∧ (p.row r.point.row).state = 1 ∧ s.pastCd r.point.sid p r.point.row = false ∧
      (p.row r.point.row).recover = false ∧ r.point.row = 0 ∧
      s.battsHeld r.point.sid (s.rowBatts r.point.sid p (s.codeRow r.point.sid p r.point.row).2.2) = true) ∧
    (∃ cc s r p, Completing cc s r p ∧ (p.row r.point.row).state = 1 ∧ s.pastCd r.point.sid p r.point.row = false ∧
      (p.row r.point.row).recover = false ∧ r.point.row ≠ 0 ∧ (p.row (r.point.row - 1)).state = 1) := by
  have hold (x : State) (n : Nat) (h : x.poolFor (x.streamClass 511) = none) : x.battsHeld 511 n = true := by rw [State.battsHeld, h]
  have lack (u : List Byte) : (rowState (endedRow 16) [encPic { state := 1, recover := true }] [] 1
      [(Od.pool_BATTS, 0, 0)] |>.setBlob Od.st_OUTPUTS 511 outEntry).battsHeld 511
      ((rowState (endedRow 16) [encPic { state := 1, recover := true }] [] 1 [(Od.pool_BATTS, 0, 0)] |>.setBlob Od.st_OUTPUTS 511
        outEntry).rowBatts 511 (encPic { state := 1, recover := true }) u) = false := by
    generalize hs : (rowState (endedRow 16) [encPic { state := 1, recover := true }] [] 1 [(Od.pool_BATTS, 0, 0)] |>.setBlob
      Od.st_OUTPUTS 511 outEntry) = s
    have h1 : s.poolFor (s.streamClass 511) = some 0 := by subst hs; decide +kernel
    have h2 : s.sharedFree 0 = 0 := by subst hs; decide +kernel
    have h3 : s.ownerMin 0 ownStream 511 = 0 := by subst hs; decide +kernel
    have h4 : s.ownerUse 0 ownStream 511 = 0 := by subst hs; decide +kernel
    have h5 : ((List.range 5).filter fun k => s.outputsOf 511 (encPic { state := 1, recover := true }).rung k
        (some (encPic { state := 1, recover := true }).pic) != []).length = 1 := by subst hs; decide +kernel
    rw [State.battsHeld, h1]; simp only [State.sharedNeed, h2, h3, h4, State.rowBatts, h5]
    simp only [decide_eq_false_iff_not]; omega
  refine ⟨⟨127, rowState (endedRow 16), endedRow 16, by decide, by decide, rfl, by decide +kernel⟩,
    ⟨127, rowState (endedRow 16) [encPic { state := 2 }], endedRow 16, encPic { state := 2 }, ⟨by decide, by decide, by decide, by
      decide +kernel⟩, by decide⟩,
    ⟨127, { rowState (endedRow 16) [encPic { state := 1 }] [] 0 with raster := { domains := [(0, { pos := ⟨9, 0, 0⟩ })] } }, endedRow 16,
      encPic { state := 1 }, ⟨by decide, by decide, by decide, by decide +kernel⟩, by decide, by decide +kernel⟩,
    ⟨127, rowState (endedRow 16) [encPic { state := 1, recover := true }] [] 1 [(Od.pool_ENABLE, 0, 0)], endedRow 16,
      encPic { state := 1, recover := true }, ⟨by decide, by decide, by decide, by decide +kernel⟩, by decide, by decide +kernel, by decide,
      hold _ _ (by decide +kernel)⟩,
    ⟨127, _, endedRow 16, encPic { state := 1, recover := true }, ⟨by decide, by decide, by decide, by decide +kernel⟩, by decide,
      by decide +kernel, by decide, lack _⟩,
    ⟨127, rowState (endedRow 16) [encPic { state := 1 }] [] 1 [(Od.pool_ENABLE, 0, 0)], endedRow 16, encPic { state := 1 },
      ⟨by decide, by decide, by decide, by decide +kernel⟩, by decide, by decide +kernel, by decide, rfl, hold _ _ (by decide +kernel)⟩,
    ⟨127, rowState { endedRow 16 with point := { point 16 with row := 1 } } [{ encPic with rows := [{ state := 1 }, { state := 1 }] }],
      { endedRow 16 with point := { point 16 with row := 1 } }, { encPic with rows := [{ state := 1 }, { state := 1 }] },
      ⟨by decide, by decide, by decide, by decide +kernel⟩, by decide, by decide +kernel, by decide, by decide, by decide⟩⟩

/-- What stands where a row of a picture under decoding completes. -/
theorem witness_RowsOnCells_dec :
    let ready (cc : Fin 128) (s : State) (r : CellRow) : Prop := (s.cell cc).row = some r ∧
      ¬ (s.rowError cc = true ∨ r.waitDep = true ∨ r.waitMem = true ∨ r.ended = false) ∧ r.point.stage = 0
    (∃ (cc : Fin 128) (s : State) (r : CellRow), ready cc s r ∧ s.decPic r.point.sid r.point.stage r.point.pic = none) ∧
    (∃ (cc : Fin 128) (s : State) (r : CellRow) (p : DecPic), ready cc s r ∧ s.decPic r.point.sid r.point.stage r.point.pic = some p ∧
      (p.row r.point.row).state ≠ 2) ∧
    (∃ (cc : Fin 128) (s : State) (r : CellRow) (p : DecPic), ready cc s r ∧ s.decPic r.point.sid r.point.stage r.point.pic = some p ∧
      (p.row r.point.row).state = 2 ∧ r.point.row ≠ 0 ∧ ¬ 3 ≤ (p.row (r.point.row - 1)).state) ∧
    (∃ (cc : Fin 128) (s : State) (r : CellRow) (p : DecPic), ready cc s r ∧ s.decPic r.point.sid r.point.stage r.point.pic = some p ∧
      (p.row r.point.row).state = 2 ∧ r.point.row = 0 ∧ s.pastG r.point.sid p r.point.row = true) ∧
    (∃ (cc : Fin 128) (s : State) (r : CellRow) (p : DecPic), ready cc s r ∧ s.decPic r.point.sid r.point.stage r.point.pic = some p ∧
      (p.row r.point.row).state = 2 ∧ r.point.row = 0 ∧ s.pastG r.point.sid p r.point.row = false) :=
  ⟨⟨127, rowState (endedRow 0), endedRow 0, by decide, by decide +kernel⟩,
    ⟨127, rowState (endedRow 0) [] [decPic { state := 1 }], endedRow 0, decPic { state := 1 }, by decide, by decide +kernel, by decide⟩,
    ⟨127, rowState { endedRow 0 with point := { point 0 with row := 1 } } [] [decPic { state := 2 } 2],
      { endedRow 0 with point := { point 0 with row := 1 } }, decPic { state := 2 } 2, by decide, by decide +kernel, by decide, by decide, by
        decide⟩,
    ⟨127, { rowState (endedRow 0) [] [decPic { state := 2 }] 0 with raster := { domains := [(0, { pos := ⟨9, 0, 0⟩ })] } }, endedRow 0,
      decPic { state := 2 }, by decide, by decide +kernel, by decide, by decide, by decide +kernel⟩,
    ⟨127, rowState (endedRow 0) [] [decPic { state := 2 }], endedRow 0, decPic { state := 2 }, by decide, by decide +kernel, by decide, by
      decide, by decide +kernel⟩⟩

theorem witness_RowsOnCells_cells :
    (∃ (cc : Fin 128) (s : State) (r u : CellRow) (d : Nat), (s.cell cc).row = some r ∧
      s.cellWith r.point.sid r.point.stage r.point.pic (r.point.row - 1) = some d ∧ (s.cell d).row = some u ∧ r.point.row ≠ 0) ∧
    (∃ (cc : Fin 128) (s : State) (r : CellRow) (d : Nat), (s.cell cc).row = some r ∧
      s.cellWith r.point.sid r.point.stage r.point.pic (r.point.row - 1) = some d ∧ r.point.row = 0) ∧
    (∀ ended : Bool, ∃ (cc : Fin 128) (s : State) (r : CellRow), (s.cell cc).row = some r ∧
      s.cellWith r.point.sid r.point.stage r.point.pic (r.point.row - 1) = none ∧ s.aboveEnded r.point = ended) ∧
    (∃ (cc : Fin 128) (s : State) (d k : Nat) (e : Checkpoint × Bool), s.unmirrored cc = some (d, k) ∧ (s.cell d).reruns[k]? = some e) ∧
    (∀ b : Bool, ∃ (cc : Fin 128) (s : State) (r : CellRow), s.unmirrored cc = none ∧ (s.cell cc).row = some r ∧ r.mirrored = b) ∧
    (∃ (cc : Fin 128) (s : State), s.unmirrored cc = none ∧ (s.cell cc).row = none) ∧
    (∃ (cc : Fin 128) (s : State) (r : CellRow), (s.cell cc).row = some r ∧ r.waitMem = false) ∧
    (∀ w : Option (Nat × Bool × Nat), ∃ (cc : Fin 128) (s : State) (r : CellRow), (s.cell cc).row = some r ∧ r.waitMem = true ∧ r.want = w) :=
  ⟨⟨127, (rowState { cellRow 16 with point := { point 16 with row := 1 } }).setCell 126 { row := some (cellRow 16) },
      { cellRow 16 with point := { point 16 with row := 1 } }, cellRow 16, 126, by decide, by decide +kernel, by decide, by decide⟩,
    ⟨127, rowState (cellRow 16), cellRow 16, 127, by decide, by decide +kernel, by decide⟩,
    fun ended => by
      cases ended
      · exact ⟨127, rowState { cellRow 16 with point := { point 16 with row := 1 } } [{ encPic with rows := [{ state := 1 }, { state := 1 }] }],
          { cellRow 16 with point := { point 16 with row := 1 } }, by decide, by decide +kernel, by decide +kernel⟩
      · exact ⟨127, rowState { cellRow 16 with point := { point 16 with row := 1 } } [{ encPic with rows := [{ state := 2 }, { state := 1 }] }],
          { cellRow 16 with point := { point 16 with row := 1 } }, by decide, by decide +kernel, by decide +kernel⟩,
    ⟨127, cellState { reruns := [(point 16, false)] }, 127, 0, (point 16, false), by decide +kernel, by decide⟩,
    fun b => by
      cases b
      · exact ⟨127, rowState (cellRow 16), cellRow 16, by decide +kernel, by decide, rfl⟩
      · exact ⟨127, rowState { cellRow 16 with mirrored := true }, { cellRow 16 with mirrored := true }, by decide +kernel, by decide, rfl⟩,
    ⟨127, {}, by decide +kernel, by decide⟩, ⟨127, rowState (cellRow 16), cellRow 16, by decide, rfl⟩,
    fun w => ⟨127, rowState { cellRow 16 with waitMem := true, want := w }, { cellRow 16 with waitMem := true, want := w }, rfl, rfl, rfl⟩⟩

theorem witness_CrownsParkWakeAndStep :
    (∃ (cw : Fin 16) (s : State), s.mayPark cw = false) ∧ (∃ (cw : Fin 16) (s : State), s.mayPark cw = true) ∧
    (∃ (cw : Fin 16) (s : State), s.get Od.crown_POWER_STATE cw = 1) ∧
    (∃ (cw : Fin 16) (s : State), s.get Od.crown_POWER_STATE cw ≠ 1) ∧
    (∃ (cw : Fin 16) (s : State), (s.crown cw).step = none) ∧
    (∃ (cw : Fin 16) (s : State) (mhz : Nat), (s.crown cw).step = some mhz ∧ mhz = s.get Od.crown_CLOCK_MHZ cw) ∧
    (∀ b : Bool, ∃ (cw : Fin 16) (s : State) (mhz : Nat), (s.crown cw).step = some mhz ∧ s.get Od.crown_CLOCK_MHZ cw < mhz ∧
      s.power.avsPending = b) ∧
    (let due (cw : Fin 16) (s : State) : Prop := s.get Od.crown_CLOCK_FORCE cw = 0 ∧ (s.crown cw).step = none ∧
       s.get Od.crown_POWER_STATE cw = 2 ∧ s.neededClock cw < s.get Od.crown_CLOCK_MHZ cw ∧
       ∃ c, (s.crown cw).lowAt = some c ∧ c + secCycles (s.get Od.mil_DOWN_HOLD) ≤ s.cycle
     (∃ (cw : Fin 16) (s : State) (c : Nat), due cw s ∧ (s.crown cw).lowAt = some c ∧ c + secCycles (s.get Od.mil_DOWN_HOLD) = s.cycle) ∧
     ∃ (cw : Fin 16) (s : State), ¬ due cw s) ∧
    (∃ (cw : Nat) (s v : State), Taken s 0x24 (leBytes 1 cw) v ∧ 16 = cw) ∧
    (∃ s v : State, Taken s 0x24 (leBytes 1 15) v ∧ ((cellsOf 15).any fun cc => v.sharesOn cc != []) = true) ∧
    (∃ s v : State, Taken s 0x24 (leBytes 1 15) v ∧ v.loadMask.testBit 15 = true) ∧
    (∀ n ∈ [0, 1, 2], ∃ s v : State, Taken s 0x24 (leBytes 1 15) v ∧ ((cellsOf 15).any fun cc => v.sharesOn cc != []) = false ∧
      v.loadMask.testBit 15 = false ∧ v.get Od.crown_POWER_STATE 15 = n) :=
  ⟨⟨15, objs [(Od.crown_POWER_STATE, 15, 1)], by decide⟩,
    ⟨15, objs [(Od.crown_POWER_STATE, 15, 2), (Od.crown_PARK_ALLOWED, 15, 1)], by decide +kernel⟩,
    ⟨15, objs [(Od.crown_POWER_STATE, 15, 1)], by decide⟩, ⟨15, objs [(Od.crown_POWER_STATE, 15, 2)], by decide⟩, ⟨15, {}, by decide⟩,
    ⟨15, (objs [(Od.crown_CLOCK_MHZ, 15, 900)]).setCrown 15 { step := some 900 }, 900, by decide, by decide⟩,
    fun b => ⟨15, { (objs [(Od.crown_CLOCK_MHZ, 15, 600)]).setCrown 15 { step := some 900 } with power := { avsPending := b } }, 900,
      by cases b <;> decide, by cases b <;> decide, rfl⟩,
    ⟨⟨15, (objs [(Od.crown_POWER_STATE, 15, 2), (Od.crown_CLOCK_MHZ, 15, 900), (Od.mil_DOWN_HOLD, 0, 1)]
        { cycle := 5 + secCycles 1 }).setCrown 15 { lowAt := some 5 }, 5, ⟨by decide, by decide, by decide, by decide +kernel, 5, by decide, by
          decide⟩, by decide, by decide⟩,
      ⟨15, objs [(Od.crown_POWER_STATE, 15, 1)], fun h => absurd h.2.2.1 (by decide)⟩⟩,
    ⟨16, _, _, taken 0x24 _, rfl⟩,
    ⟨_, _, taken 0x24 (leBytes 1 15) { streams := { streams := [(511, { stages := [⟨16, 1000, [127]⟩] })] } }, by decide +kernel⟩,
    ⟨_, _, taken 0x24 (leBytes 1 15) (running 0x30 (microcodeLoadArgs (2 ^ 15) 0 0 0 0)), by decide +kernel⟩,
    fun n h => ⟨_, _, taken 0x24 (leBytes 1 15) (objs [(Od.crown_POWER_STATE, 15, n)]), by
      simp only [List.mem_cons, List.not_mem_nil, or_false] at h
      obtain rfl | rfl | rfl := h <;> decide +kernel⟩⟩

/-- A microword that writes nothing: its operation with the low bits, its condition, STOP and NEXT_ADDR. -/
def word (op low cond stop next : Nat) : Nat := stop + cond * 2 ^ 120 + (8 * op + low) * 2 ^ 126 + next * 2 ^ 132

/-- Cell 127 runs a row and stands at a word. -/
def wordState (w : Nat) (x : Cell := {}) (fenced : List Nat := []) : State :=
  cellState { x with row := some (cellRow 16) } [] { code := { banks := [(30, { state := 3, words := [(0, w)], fenced := fenced })] } }

/-- Some cell in some state fetches a word of an operation and STOP, with a property of the state then. -/
def Fetches (op stop : Nat) (p : State → Nat → Prop) : Prop :=
  ∃ (cc : Fin 128) (s t : State) (w : Nat), s.mayIssue cc = true ∧ s.fetch cc = (t, some w) ∧ bits (mwSeqOp w) 3 3 = op ∧ mwStop w = stop ∧
    p t w

theorem wordState_cell (w : Nat) (x : Cell) : (wordState w x).cell 127 = { x with row := some (cellRow 16) } := by
  simp [wordState, cellState, State.cell, State.setCell]

theorem fetches (op stop : Nat) (p : State → Nat → Prop) (w : Nat) (x : Cell := {}) (hx : x.addr = 0 ∧ x.bank = 0)
    (h1 : (wordState w x).mayIssue 127 = true) (h3 : bits (mwSeqOp w) 3 3 = op) (h4 : mwStop w = stop) (h5 : p (wordState w x) w) :
    Fetches op stop p := by
  have hb : (wordState w x).cellBank 127 = 30 := by rw [State.cellBank, wordState_cell]; show 2 * (127 / 8) + x.bank = 30; rw [hx.2]
  have hw : (wordState w x).bank 30 = { state := 3, words := [(0, w)] } := rfl
  have hf := Laws.fetch_clean (wordState w x) 127 rfl (by rw [hb, hw]; exact List.not_mem_nil)
  rw [hb, hw, wordState_cell] at hf
  refine ⟨127, wordState w x, wordState w x, w, h1, hf.trans ?_, h3, h4, h5⟩
  rw [hx.1]; rfl

theorem witness_MicrowordsIssue :
    let holds (t : State) (w : Nat) : Bool := t.condition 127 0 (mwCond w)
    (∃ (cc : Fin 128) (s : State), s.mayIssue cc = false) ∧
    (∃ (cc : Fin 128) (s t : State), s.mayIssue cc = true ∧ s.fetch cc = (t, none)) ∧
    Fetches 0 0 (fun _ w => mwStop w ≠ 2) ∧ (∃ i ∈ [((.mwJump 127 0 : Instr), 0, 0), (.mwBr2 127 0, 1, 0)], ¬ (0 = i.2.1 ∧ 1 = i.2.2)) ∧
    Fetches 0 0 (fun _ _ => True) ∧ Fetches 1 0 (fun _ _ => True) ∧ Fetches 2 0 (fun _ _ => True) ∧
    Fetches 3 0 (fun t _ => (t.cell 127).stack.length = 7) ∧ Fetches 3 0 (fun t _ => 8 = (t.cell 127).stack.length) ∧
    Fetches 4 0 (fun t _ => ∃ a rest, (t.cell 127).stack = a :: rest) ∧ Fetches 4 0 (fun t _ => (t.cell 127).stack = []) ∧
    Fetches 5 0 (fun t w => holds t w = true) ∧ Fetches 5 0 (fun t w => holds t w = false ∧ bits (mwSeqOp w) 0 3 = 0) ∧
    Fetches 5 0 (fun t w => holds t w = false ∧ (t.cell 127).waited + 1 = 2 ^ (4 + 2 * bits (mwSeqOp w) 0 3)) ∧
    Fetches 5 0 (fun t w => holds t w = false ∧ bits (mwSeqOp w) 0 3 ≠ 0 ∧
      2 ^ (4 + 2 * bits (mwSeqOp w) 0 3) = (t.cell 127).waited) ∧
    Fetches 0 1 (fun t w => ∃ r, ((t.issue 127 w 0).cell 127).row = some r) ∧ Fetches 5 2 (fun _ _ => True) ∧ (∃ x : Cell, x.lc0 = 0) :=
  ⟨⟨127, {}, by decide⟩, ⟨127, wordState 0 {} [0], _, by decide +kernel, Prod.ext rfl (by decide +kernel)⟩,
    fetches _ _ _ (word 0 0 0 0 5) {} ⟨rfl, rfl⟩ (by decide +kernel) (by decide) (by decide) (by decide), ⟨(.mwJump 127 0, 0, 0), by simp, by decide⟩,
    fetches _ _ _ (word 0 0 0 0 5) {} ⟨rfl, rfl⟩ (by decide +kernel) (by decide) (by decide) trivial,
    fetches _ _ _ (word 1 2 32 0 4) {} ⟨rfl, rfl⟩ (by decide +kernel) (by decide) (by decide) trivial,
    fetches _ _ _ (word 2 4 32 0 4) {} ⟨rfl, rfl⟩ (by decide +kernel) (by decide) (by decide) trivial,
    fetches _ _ _ (word 3 0 63 0 4) { stack := List.replicate 7 0 } ⟨rfl, rfl⟩ (by decide +kernel) (by decide) (by decide) (by
      decide +kernel),
    fetches _ _ _ (word 3 0 63 0 4) { stack := List.replicate 8 0 } ⟨rfl, rfl⟩ (by decide +kernel) (by decide) (by decide) (by
      decide +kernel),
    fetches _ _ _ (word 4 0 0 0 0) { stack := [9] } ⟨rfl, rfl⟩ (by decide +kernel) (by decide) (by decide) ⟨9, [], by decide +kernel⟩,
    fetches _ _ _ (word 4 0 0 0 0) {} ⟨rfl, rfl⟩ (by decide +kernel) (by decide) (by decide) (by decide +kernel),
    fetches _ _ _ (word 5 1 63 0 4) {} ⟨rfl, rfl⟩ (by decide +kernel) (by decide) (by decide) (by decide +kernel),
    fetches _ _ _ (word 5 0 7 0 4) {} ⟨rfl, rfl⟩ (by decide +kernel) (by decide) (by decide) (by decide +kernel),
    fetches _ _ _ (word 5 7 7 0 4) { waited := 2 ^ 18 - 1 } ⟨rfl, rfl⟩ (by decide +kernel) (by decide) (by decide) (by decide +kernel),
    fetches _ _ _ (word 5 7 7 0 4) { waited := 2 ^ 18 } ⟨rfl, rfl⟩ (by decide +kernel) (by decide) (by decide) (by decide +kernel),
    fetches _ _ _ (word 0 0 0 1 0) {} ⟨rfl, rfl⟩ (by decide +kernel) (by decide) (by decide) ⟨cellRow 16, by decide +kernel⟩,
    fetches _ _ _ (word 5 1 7 2 4) {} ⟨rfl, rfl⟩ (by decide +kernel) (by decide) (by decide) trivial, ⟨{}, rfl⟩⟩

/-- A bundle (R141) of a kind, with zeros for its keys and its digest. -/
def bundle (kind flags words n : Nat) (payload : List Byte) : List Byte :=
  [0x42#8, 0x56#8, 0x4D#8, 0x43#8] ++ leBytes 2 1 ++ leBytes 1 kind ++ leBytes 1 flags ++ leBytes 4 0x9672 ++ leBytes 4 0xB0 ++ leBytes 4 1 ++
    leBytes 4 2 ++ leBytes 2 3 ++ leBytes 2 words ++ leBytes 4 n ++ List.replicate 328 0#8 ++ payload ++ List.replicate 132 0#8

/-- A table of consecutive keys reads as its values. -/
theorem zip_read {α : Type} (d : α) (bs : List α) (a : Nat) :
    (List.range' a bs.length).map (fun k => tget ((List.range' a bs.length).zip bs) d k) = bs := by
  induction bs generalizing a with
  | nil => rfl
  | cons b bs ih =>
    simp only [List.length_cons, List.range'_succ, List.zip_cons_cons, List.map_cons]
    refine congr (congrArg _ (by simp [tget, tfind])) ?_
    refine (List.map_congr_left fun k hk => ?_).trans (ih (a + 1))
    have : ¬ a = k := by have := (List.mem_range'_1.mp hk).1; omega
    simp [tget, tfind, this]

/-- The flash holds bytes from address 0. -/
def flashState (bs : List Byte) (code : CodeState := {}) : State := { sec := { flash := (List.range' 0 bs.length).zip bs }, code := code }

theorem flashState_bytes (bs : List Byte) (code : CodeState) (args : List Byte) (c : Nat) :
    (running c args (flashState bs code)).flashBytes 0 bs.length = bs := by
  have := zip_read 0xFF#8 bs 0
  rw [← List.range_eq_range'] at this
  simpa [State.flashBytes, flashState, running, State.setCmdQueue, List.range_eq_range'] using this

theorem flashState_copy (bs : List Byte) (code : CodeState) (args : List Byte) (c : Nat) :
    (running c args (flashState bs code)).copySource 0 0 bs.length = (running c args (flashState bs code), .inr bs) := by
  rw [State.copySource, if_pos rfl, flashState_bytes]

/-- A bundle of one microword, and a patch of 16 bytes. -/
def microcode : List Byte := bundle 1 0 1 18 (List.replicate 18 0#8)
def patch : List Byte := bundle 2 0 0 16 (List.replicate 16 0#8)

theorem witness_ControlStoresAndPatches :
    (∃ (cw : Fin 16) (bank : Fin 2) (addr : Nat) (s : State), addr ∉ (s.bank (2 * cw.val + bank.val)).fenced) ∧
    (∃ (cw : Fin 16) (bank : Fin 2) (addr : Nat) (s : State), let b := s.bank (2 * cw.val + bank.val)
      s.shelfCopy b.imageId b.version = none ∧ addr ∈ b.fenced) ∧
    (∃ (cw : Fin 16) (bank : Fin 2) (addr : Nat) (s : State) (h : Shelf), let b := s.bank (2 * cw.val + bank.val)
      s.shelfCopy b.imageId b.version = some h ∧ addr ∈ b.fenced) :=
  ⟨⟨15, 1, 0, {}, by decide⟩, ⟨15, 1, 7, { code := { banks := [(31, { fenced := [7] })] } }, by decide⟩,
    ⟨15, 1, 7, { code := { banks := [(31, { fenced := [7], imageId := 2 })], shelf := [⟨2, 0, 0⟩] } }, ⟨2, 0, 0⟩, by decide⟩⟩

/-- A flash write is under way. -/
def busyFlash : State := objs [(Od.sec_FLASH_STATE, 0, 1)]

theorem witness_ControlStoresAndPatches_load :
    let loads (mask bank source addr length : Nat) (v : State) : Prop :=
      ∃ s, Taken s 0x30 (microcodeLoadArgs mask bank source addr length) v
    (∀ e ∈ [(2 ^ 16, 1, 1, 492), (2 ^ 15, 2, 1, 492), (2 ^ 15, 1, 2, 492), (2 ^ 15, 1, 1, 491), (2 ^ 15, 1, 1, 74221)], ∃ v,
      loads e.1 e.2.1 e.2.2.1 0 e.2.2.2 v ∧
      ¬ (e.1 % 2 ^ 16 ≠ 0 ∧ e.2.1 < 2 ∧ e.2.2.1 < 2 ∧ 492 ≤ e.2.2.2 ∧ e.2.2.2 ≤ 74220)) ∧
    (∃ v, loads (2 ^ 15) 1 1 0 492 v ∧ ((bitList (2 ^ 15) 16).all fun cw => v.bankFree cw 1) = false) ∧
    (∃ v, loads (2 ^ 15) 1 0 0 492 v ∧ ((bitList (2 ^ 15) 16).all fun cw => v.bankFree cw 1) = true ∧ v.flashBusy 0 = true) ∧
    (∃ v t r, loads (2 ^ 15) 1 1 (2 ^ 40) 492 v ∧ ((bitList (2 ^ 15) 16).all fun cw => v.bankFree cw 1) = true ∧ v.flashBusy 1 = false ∧
      v.copySource 1 (2 ^ 40) 492 = (t, .inl r)) ∧
    (∃ v t r bs, loads (2 ^ 15) 1 0 0 492 v ∧ ((bitList (2 ^ 15) 16).all fun cw => v.bankFree cw 1) = true ∧ v.flashBusy 0 = false ∧
      v.copySource 0 0 492 = (t, .inr bs) ∧ t.bundleTest bs 1 (t.get Od.cs_MICROCODE_ROLLBACK) = some r) :=
  ⟨fun e h => by
      simp only [List.mem_cons, List.not_mem_nil, or_false] at h
      obtain rfl | rfl | rfl | rfl | rfl := h <;> exact ⟨_, ⟨_, taken 0x30 _⟩, by decide⟩,
    ⟨_, ⟨_, taken 0x30 _ { code := { banks := [(31, { state := 3 })] } }⟩, by decide +kernel⟩,
    ⟨_, ⟨_, taken 0x30 (microcodeLoadArgs (2 ^ 15) 1 0 0 492) busyFlash⟩, by decide +kernel, by decide +kernel⟩,
    ⟨_, _, Result.noSuchTarget, ⟨_, taken 0x30 (microcodeLoadArgs (2 ^ 15) 1 1 (2 ^ 40) 492)⟩, by decide +kernel, by decide +kernel,
      Prod.ext rfl (by decide +kernel)⟩,
    ⟨_, _, Result.imageFormat, _, ⟨_, taken 0x30 (microcodeLoadArgs (2 ^ 15) 1 0 0 492)⟩, by decide +kernel, by decide +kernel, rfl, by
      decide +kernel⟩⟩

theorem witness_ControlStoresAndPatches_patch :
    let loads (source addr length : Nat) (v : State) : Prop := ∃ s, Taken s 0x31 (patchLoadArgs source addr length) v
    (∀ e ∈ [(2, 508), (1, 507), (1, 66029)], ∃ v, loads e.1 0 e.2 v ∧ ¬ (e.1 < 2 ∧ 508 ≤ e.2 ∧ e.2 ≤ 66028)) ∧
    (∃ v, loads 0 0 508 v ∧ v.flashBusy 0 = true) ∧
    (∃ v t r, loads 1 (2 ^ 40) 508 v ∧ v.flashBusy 1 = false ∧ v.copySource 1 (2 ^ 40) 508 = (t, .inl r)) ∧
    (∃ v t r bs, loads 0 0 508 v ∧ v.flashBusy 0 = false ∧ v.copySource 0 0 508 = (t, .inr bs) ∧
      t.bundleTest bs 2 (t.get Od.img_PATCH_ROLLBACK) = some r) :=
  ⟨fun e h => by
      simp only [List.mem_cons, List.not_mem_nil, or_false] at h
      obtain rfl | rfl | rfl := h <;> exact ⟨_, ⟨_, taken 0x31 _⟩, by decide⟩,
    ⟨_, ⟨_, taken 0x31 (patchLoadArgs 0 0 508) busyFlash⟩, by decide +kernel⟩,
    ⟨_, _, Result.noSuchTarget, ⟨_, taken 0x31 (patchLoadArgs 1 (2 ^ 40) 508)⟩, by decide +kernel, Prod.ext rfl (by decide +kernel)⟩,
    ⟨_, _, Result.imageFormat, _, ⟨_, taken 0x31 (patchLoadArgs 0 0 508)⟩, by decide +kernel, rfl, by decide +kernel⟩⟩

/-- A bundle passes where its root hashes to the vendor's, its payload to its digest, and its signature verifies. -/
theorem witness_ControlStoresAndPatches_pass (hash : ∀ m, Config.sha512 m = List.replicate 64 0#8)
    (verify : ∀ k d sig, Config.ecdsaVerify k d sig = true) :
    (∃ (mask bank source addr length : Nat) (s v t : State) (bs : List Byte), Taken s 0x30 (microcodeLoadArgs mask bank source addr length) v ∧
      mask = 2 ^ 15 ∧ bank = 1 ∧ source = 0 ∧ 492 ≤ length ∧ length ≤ 74220 ∧ ((bitList mask 16).all fun cw => v.bankFree cw bank) = true ∧
      v.flashBusy source = false ∧ v.copySource source addr length = (t, .inr bs) ∧
      t.bundleTest bs 1 (t.get Od.cs_MICROCODE_ROLLBACK) = none) ∧
    (∃ (source addr length : Nat) (s v t u : State) (bs : List Byte), Taken s 0x31 (patchLoadArgs source addr length) v ∧ source = 0 ∧
      508 = length ∧ v.flashBusy source = false ∧ v.copySource source addr length = (t, .inr bs) ∧
      t.bundleTest bs 2 (t.get Od.img_PATCH_ROLLBACK) = none ∧ t.takePatch (Bundle.ofBytes bs) = (u, none)) ∧
    (∃ (source addr length k : Nat) (s v t u : State) (bs : List Byte), Taken s 0x31 (patchLoadArgs source addr length) v ∧ source = 0 ∧
      508 = length ∧ v.flashBusy source = false ∧ v.copySource source addr length = (t, .inr bs) ∧
      t.bundleTest bs 2 (t.get Od.img_PATCH_ROLLBACK) = none ∧ t.takePatch (Bundle.ofBytes bs) = (u, some k)) := by
  refine ⟨⟨2 ^ 15, 1, 0, 0, microcode.length, _, _, _, microcode, taken 0x30 (microcodeLoadArgs (2 ^ 15) 1 0 0 microcode.length)
        (flashState microcode), rfl, rfl, rfl, by decide, by decide, by decide +kernel, by decide +kernel, flashState_copy _ _ _ _, ?_⟩,
    ⟨0, 0, patch.length, _, _, _, _, patch, taken 0x31 (patchLoadArgs 0 0 patch.length)
      (flashState patch { patches := List.replicate 256 ⟨9, 9, 0, []⟩ }), rfl, by decide, by decide +kernel, flashState_copy _ _ _ _, ?_,
      Prod.ext rfl (by decide +kernel)⟩,
    ⟨0, 0, patch.length, 0, _, _, _, _, patch, taken 0x31 (patchLoadArgs 0 0 patch.length) (flashState patch), rfl, by decide, by
      decide +kernel, flashState_copy _ _ _ _, ?_, Prod.ext rfl (by decide +kernel)⟩⟩ <;>
  · simp only [State.bundleTest, bundleFails, signatureOk, hash, verify, Bool.and_true]; decide +kernel

/-- The same state at frame 9 of domain 0. -/
def frame9 (s : State) : State := { s with raster := { domains := [(0, { pos := ⟨9, 0, 0⟩ })] } }

theorem witness_DeadlinesOfRows :
    let word (sid : Fin 512) (row : Nat) (s : State) (p : EncPic) : Nat := RTime.word (s.completionDeadline sid p.frame p.cfg.height row)
    let due (sid : Fin 512) (row cd : Nat) (s : State) (p : EncPic) : Prop := cd = word sid row s p ∧ s.streamClass sid = 0 ∧
      s.later (s.streamDomain sid) (s.completionDeadline sid p.frame p.cfg.height row) (s.now (s.streamDomain sid)) = false ∧
      row < p.rows.length ∧ (p.row row).state < 2
    (∃ (sid : Fin 512) (rung : Fin 8) (pic : Nat) (s : State), s.encPic sid rung pic = none) ∧
    (∃ (sid : Fin 512) (rung : Fin 8) (pic row : Nat) (s : State) (p : EncPic), s.encPic sid rung pic = some p ∧ ¬ due sid row (word sid row s p) s p ∧
      s.streamClass sid ≠ 0) ∧
    (∃ (sid : Fin 512) (rung : Fin 8) (pic row : Nat) (s : State) (p : EncPic), s.encPic sid rung pic = some p ∧ ¬ due sid row (word sid row s p) s p ∧
      s.streamClass sid = 0 ∧ row < p.rows.length ∧ (p.row row).state < 2) ∧
    (∃ (sid : Fin 512) (rung : Fin 8) (pic row : Nat) (s : State) (p : EncPic), s.encPic sid rung pic = some p ∧ ¬ due sid row (word sid row s p) s p ∧
      row = p.rows.length) ∧
    (∃ (sid : Fin 512) (rung : Fin 8) (pic row : Nat) (s : State) (p : EncPic), s.encPic sid rung pic = some p ∧ ¬ due sid row (word sid row s p) s p ∧
      (p.row row).state = 2) ∧
    (∃ (sid : Fin 512) (rung : Fin 8) (pic row : Nat) (s : State) (p : EncPic), s.encPic sid rung pic = some p ∧
      due sid row (word sid row s p) s p ∧ ¬ due sid row (word sid row s p + 1) s p) ∧
    (∀ b : Bool, ∃ (sid : Fin 512) (rung : Fin 8) (pic row : Nat) (s : State) (p : EncPic), s.encPic sid rung pic = some p ∧
      due sid row (word sid row s p) s p ∧ row + 1 = p.rows.length ∧ (p.row row).state = 1 ∧ (p.row row).recover = b) :=
  ⟨⟨511, 7, 1, {}, by decide⟩, ⟨511, 0, 1, 0, picState 1 [encPic] [], encPic, by decide +kernel, by decide +kernel, by decide⟩,
    ⟨511, 0, 1, 0, picState 0 [{ encPic with frame := 99 }] [], { encPic with frame := 99 }, by decide +kernel, by decide +kernel, by
      decide, by decide, by decide⟩,
    ⟨511, 0, 1, 1, frame9 (picState 0 [encPic] []), encPic, by decide +kernel, by decide +kernel, by decide⟩,
    ⟨511, 0, 1, 0, frame9 (picState 0 [encPic { state := 2 }] []), encPic { state := 2 }, by decide +kernel, by decide +kernel, by decide⟩,
    ⟨511, 0, 1, 0, frame9 (picState 0 [encPic { state := 1 }] []), encPic { state := 1 }, by decide +kernel, by decide +kernel, by
      decide +kernel⟩,
    fun b => by
      cases b
      · exact ⟨511, 0, 1, 0, frame9 (picState 0 [encPic { state := 1 }] []), encPic { state := 1 }, by decide +kernel, by decide +kernel, by
          decide, by decide, by decide⟩
      · exact ⟨511, 0, 1, 0, frame9 (picState 0 [encPic { state := 1, recover := true }] []), encPic { state := 1, recover := true }, by
          decide +kernel, by decide +kernel, by decide, by decide, by decide⟩⟩

theorem witness_DeadlinesOfRows_paced :
    (∃ (sid : Fin 512) (s : State), s.streamClass sid ≠ 1) ∧
    (∃ (sid : Fin 512) (pic : Nat) (s : State), s.streamClass sid = 1 ∧ s.encPic sid 0 pic = none) ∧
    (∃ (sid : Fin 512) (pic : Nat) (s : State), s.streamClass sid = 1 ∧ s.decPic sid 15 pic = none) ∧
    (∀ late : Bool, ∃ (sid : Fin 512) (pic : Nat) (s : State) (p : EncPic), s.streamClass sid = 1 ∧ s.encPic sid 0 pic = some p ∧
      s.slipOver sid p.frame (1 + p.cfg.gopB + p.cfg.lookahead) = late) ∧
    (∀ late : Bool, ∃ (sid : Fin 512) (stage pic : Nat) (s : State) (p : DecPic), s.streamClass sid = 1 ∧ stage < 16 ∧
      s.decPic sid stage pic = some p ∧ s.slipOver sid p.frame (1 + p.start.reorder) = late) ∧
    (∃ (sid : Fin 512) (s : State), s.takesPictures sid = false) ∧
    (∃ (sid : Fin 512) (rung : Fin 8) (s : State), s.takesPictures sid = true ∧
      ∀ t, (s.rung sid rung).psiAt = some t → t + msCycles 100 ≤ s.cycle) ∧
    (∃ (sid : Fin 512) (rung : Fin 8) (s : State) (t : Nat), s.takesPictures sid = true ∧ (s.rung sid rung).psiAt = some t ∧
      s.cycle + 1 = t + msCycles 100) :=
  ⟨⟨511, picState 0 [] [], by decide⟩, ⟨511, 1, picState 1 [] [], by decide, by decide +kernel⟩,
    ⟨511, 1, picState 1 [] [], by decide, by decide +kernel⟩,
    fun late => by
      cases late
      · exact ⟨511, 1, picState 1 [encPic] [], encPic, by decide, by decide +kernel, by decide +kernel⟩
      · exact ⟨511, 1, frame9 (picState 1 [encPic] []), encPic, by decide, by decide +kernel, by decide +kernel⟩,
    fun late => by
      cases late
      · exact ⟨511, 0, 1, picState 1 [] [decPic {}], decPic {}, by decide, by decide, by decide +kernel, by decide +kernel⟩
      · exact ⟨511, 0, 1, frame9 (picState 1 [] [decPic {}]), decPic {}, by decide, by decide, by decide +kernel, by decide +kernel⟩,
    ⟨511, {}, by decide⟩,
    ⟨511, 7, objs [(Od.st_STATE, 511, stRunning)], by decide, fun t h => by cases h⟩,
    ⟨511, 7, objs [(Od.st_STATE, 511, stRunning)] {
      cycle := 4 + msCycles 100, streams := { streams := [(511, { rungs := [(7, { psiAt := some 5 })] })] } }, 5, by decide +kernel, by decide +kernel, by decide +kernel⟩⟩

theorem witness_DeadlinesOfRows_dec :
    (∃ (sid : Fin 512) (layer : Fin 16) (pic : Nat) (s : State), s.decPic sid layer pic = none) ∧
    (∀ at_ : Bool, ∃ (sid : Fin 512) (layer : Fin 16) (pic row : Nat) (s : State) (p : DecPic), s.decPic sid layer pic = some p ∧
      s.atG sid p row = at_ ∧ s.atM sid p row = at_ ∧ row + 1 = p.rows.length ∧ (p.row row).finished = false ∧ (p.row row).method = 0 ∧
      (p.row row).damage = []) ∧
    (∃ (sid : Fin 512) (layer : Fin 16) (pic row : Nat) (s : State) (p : DecPic), s.decPic sid layer pic = some p ∧
      s.atG sid p row = true ∧ row = p.rows.length) ∧
    (∃ (sid : Fin 512) (layer : Fin 16) (pic row : Nat) (s : State) (p : DecPic), s.decPic sid layer pic = some p ∧
      s.atG sid p row = true ∧ row < p.rows.length ∧ row + 1 ≠ p.rows.length) ∧
    (∃ (sid : Fin 512) (layer : Fin 16) (pic row : Nat) (s : State) (p : DecPic), s.decPic sid layer pic = some p ∧
      (p.row row).finished = true) ∧
    (∃ (sid : Fin 512) (layer : Fin 16) (pic row : Nat) (s : State) (p : DecPic), s.decPic sid layer pic = some p ∧
      (p.row row).method ≠ 0) ∧
    (∃ (sid : Fin 512) (layer : Fin 16) (pic row : Nat) (s : State) (p : DecPic), s.decPic sid layer pic = some p ∧
      s.atM sid p row = true ∧ row < p.rows.length ∧ (p.row row).finished = false ∧ (p.row row).method = 0 ∧ (p.row row).damage ≠ []) :=
  ⟨⟨511, 15, 1, {}, by decide⟩,
    fun at_ => by
      cases at_
      · exact ⟨511, 0, 1, 0, picState 0 [] [{ decPic {} with frame := 99 }], { decPic {} with frame := 99 }, by decide +kernel⟩
      · exact ⟨511, 0, 1, 0, frame9 (picState 0 [] [decPic {}]), decPic {}, by decide +kernel⟩,
    ⟨511, 0, 1, 1, frame9 (picState 0 [] [decPic {}]), decPic {}, by decide +kernel⟩,
    ⟨511, 0, 1, 0, frame9 (picState 0 [] [decPic {} 2]), decPic {} 2, by decide +kernel⟩,
    ⟨511, 0, 1, 0, picState 0 [] [decPic { state := 3 }], decPic { state := 3 }, by decide +kernel⟩,
    ⟨511, 0, 1, 0, picState 0 [] [decPic { method := 1 }], decPic { method := 1 }, by decide +kernel⟩,
    ⟨511, 0, 1, 0, frame9 (picState 0 [] [decPic { damage := [(0, 1)] }]), decPic { damage := [(0, 1)] }, by decide +kernel⟩⟩

/-- Stream 511 is RUNNING with an input of a kind on layer 0, whose state is given. -/
def inputState (kind : Nat) (x : LayerState := {}) (l : List (Row × Nat × Nat) := []) : State :=
  streamState ((Od.st_STATE, 511, stRunning) :: l) (inEntry kind 0) { layers := [(0, x)] }

theorem witness_InputsAndStrips :
    let entry : State → Fin 512 → Fin 16 → Option InEntry := fun s sid layer => (s.inputs sid).find? fun e => e.layer % 16 = layer.val
    let taken (port : Option (Fin 128)) (sid : Fin 512) (layer : Fin 16) (p : InputPacket) (s : State) (e : InEntry) (t : State)
        (b : Bool) : Prop := entry s sid layer = some e ∧ s.takesPictures sid = true ∧ e.kind ≠ 4 ∧
      s.takePacket sid layer e.kind (port.map fun f => f.val) p.bytes = (t, b)
    let order (sid : Fin 512) (layer : Fin 16) (p : InputPacket) (e : InEntry) (u : State) : Arrival :=
      let fec := (u.layerCfg sid layer).fec
      let v := if p.discont then u.discontinue sid layer else u
      let rd := v.streamDomain sid
      let win := v.get Od.dec_REORDER_WINDOW sid
      ((v.layer sid layer).order (seqModulus e.kind fec) (if fec = 0 then win else max win p.fecWindow) p.seq
        (linear (v.lpf rd) (v.now rd)) (decide (e.kind = 1 ∧ fec = 0)) (p.recovered && fec != 0) p.errored).2
    (∃ (sid : Fin 512) (layer : Fin 16) (s : State), entry s sid layer = none) ∧
    (∃ (sid : Fin 512) (s : State), s.takesPictures sid = false) ∧
    (∃ (sid : Fin 512) (layer : Fin 16) (s : State) (e : InEntry), entry s sid layer = some e ∧ s.takesPictures sid = true ∧ e.kind = 4) ∧
    (∃ port sid layer p s e t, taken port sid layer p s e t false) ∧
    (∃ port sid layer p s e t u, taken port sid layer p s e t true ∧ t.lockSsrc sid layer p.ssrc = (u, false)) ∧
    (∃ port sid layer p s e t u v, taken port sid layer p s e t true ∧ t.lockSsrc sid layer p.ssrc = (u, true) ∧
      u.aside sid layer e.kind p = some v) ∧
    (∃ port sid layer p s e t u, taken port sid layer p s e t true ∧ t.lockSsrc sid layer p.ssrc = (u, true) ∧
      u.aside sid layer e.kind p = none ∧ e.kind = 3) ∧
    (∀ a : Arrival, ∃ port sid layer p s e t u, taken port sid layer p s e t true ∧ t.lockSsrc sid layer p.ssrc = (u, true) ∧
      u.aside sid layer e.kind p = none ∧ e.kind ≠ 3 ∧ order sid layer p e u = a) :=
  ⟨⟨511, 15, inputState 3, by decide +kernel⟩, ⟨511, {}, by decide⟩, ⟨511, 0, inputState 4, _, rfl, by decide, by decide⟩,
    ⟨some 127, 511, 0, { seq := 1, bytes := [0#8] }, inputState 0 {} [(Od.pool_ENABLE, 0, 0)], _, _, rfl, by decide, by decide, Prod.ext rfl (by
      decide +kernel)⟩,
    ⟨none, 511, 0, { seq := 1, ssrc := 2 }, inputState 3 { ssrc := some 1, lastPacket := some 0 }, _, _, _, ⟨rfl, by decide, by decide,
      Prod.ext rfl rfl⟩, Prod.ext rfl (by decide +kernel)⟩,
    ⟨none, 511, 0, { seq := 1, ssrc := 1, programmes := some [] }, inputState 1 { ssrc := some 1, lastPacket := some 0 }, _, _, _, _,
      ⟨rfl, by decide, by decide, Prod.ext rfl rfl⟩, Prod.ext rfl (by decide +kernel), rfl⟩,
    ⟨none, 511, 0, { seq := 1, ssrc := 1 }, inputState 3 { ssrc := some 1, lastPacket := some 0 }, _, _, _,
      ⟨rfl, by decide, by decide, Prod.ext rfl rfl⟩, Prod.ext rfl (by decide +kernel), by decide +kernel, by decide⟩,
    fun a => by
      cases a
      · exact ⟨none, 511, 0, { seq := 1, ssrc := 1 }, inputState 0 { ssrc := some 1, lastPacket := some 0 }, _, _, _,
          ⟨rfl, by decide, by decide, Prod.ext rfl rfl⟩, Prod.ext rfl (by decide +kernel), by decide +kernel, by decide, by decide +kernel⟩
      · exact ⟨none, 511, 0, { seq := 1, ssrc := 1 }, inputState 0 { ssrc := some 1, lastPacket := some 0, highest := some 1 }, _, _, _,
          ⟨rfl, by decide, by decide, Prod.ext rfl rfl⟩, Prod.ext rfl (by decide +kernel), by decide +kernel, by decide, by decide +kernel⟩
      · exact ⟨none, 511, 0, { seq := 3002, ssrc := 1 }, inputState 0 { ssrc := some 1, lastPacket := some 0, highest := some 1 }, _, _, _,
          ⟨rfl, by decide, by decide, Prod.ext rfl rfl⟩, Prod.ext rfl (by decide +kernel), by decide +kernel, by decide, by
            decide +kernel⟩⟩

/-- Conditioner 7 runs a pass of stream 511. -/
def passState (p : Pass) (l : List (Row × Nat × Nat) := []) : State := streamState l (inEntry 5 0) { passes := [p] }

def pass7 (rotates started : Bool) : Pass := ⟨0, 7, 1, rotates, started, 0, 0⟩

theorem witness_InputsAndStrips_strips :
    let entry : State → Fin 512 → Fin 16 → Option InEntry := fun s sid layer => (s.inputs sid).find? fun e => e.layer % 16 = layer.val
    (∃ (sid : Fin 512) (layer : Fin 16) (seq : Nat) (s : State), s.gapDue sid layer seq = false) ∧
    (∃ (sid : Fin 512) (s : State), s.streamClass sid = 2) ∧
    (∃ (sid : Fin 512) (layer : Fin 16) (seq : Nat) (s : State) (e : InEntry), entry s sid layer = some e ∧ s.streamClass sid ≠ 2 ∧
      s.gapDue sid layer seq = true) ∧
    (∃ (sid : Fin 512) (layer : Fin 16) (s : State), s.streamState sid = stRunning ∧ layer.val ∈ s.decodeLayers sid ∧
      s.inputSilent sid layer = true) ∧
    (∃ (sid : Fin 512) (layer : Fin 16) (s : State), s.streamState sid = stRunning ∧ layer.val ∈ s.decodeLayers sid ∧
      s.inputSilent sid layer = false) ∧
    (∃ (ic : Fin 8) (sid : Fin 512) (pass : Nat) (s : State), s.passOn ic sid pass = none) ∧
    (∀ r st : Bool, ∃ (ic : Fin 8) (sid : Fin 512) (pass : Nat) (s : State) (p : Pass), s.passOn ic sid pass = some p ∧ p.rotates = r ∧
      p.started = st) ∧
    (∀ even odd : Bool, ∃ (ic : Fin 8) (sid : Fin 512) (pass : Nat) (s : State) (p : Pass), s.passOn ic sid pass = some p ∧
      p.rotates = true ∧ p.started = false ∧ decide (s.get Od.crown_POWER_STATE (2 * ic) ≠ 3) = even ∧
      decide (s.get Od.crown_POWER_STATE (2 * ic + 1) ≠ 3) = odd) ∧
    (∀ e : Bool, ∃ (ic : Fin 8) (sid : Fin 512) (pass pic strip corrected : Nat) (s : State) (p : Pass), s.passOn ic sid pass = some p ∧
      p.rotates = false ∧ ((s.countStrip ic sid pass pic strip p.rotates corrected).mapPass sid pass fun q =>
        { q with stripAt := s.cycle }).encodes sid = e) :=
  ⟨⟨511, 15, 5, {}, by decide⟩, ⟨511, picState 2 [] [], by decide⟩,
    ⟨511, 0, 5, inputState 3 { gaps := [(5, 0)] } [(Od.dec_REORDER_LINES, 511, 0)], _, rfl, by decide, by decide +kernel⟩,
    ⟨511, 0, inputState 0, by decide +kernel⟩,
    ⟨511, 0, inputState 0 { lastPacket := some 0 } [(Od.dec_INPUT_TIMEOUT, 511, 1)], by decide +kernel⟩, ⟨7, 511, 0, {}, by decide⟩,
    fun r st => ⟨7, 511, 0, passState (pass7 r st), pass7 r st, by cases r <;> cases st <;> decide +kernel, rfl, rfl⟩,
    fun even odd => ⟨7, 511, 0, passState (pass7 true false)
      [(Od.crown_POWER_STATE, 14, if even then 2 else 3), (Od.crown_POWER_STATE, 15, if odd then 2 else 3)], pass7 true false, by
        cases even <;> cases odd <;> decide +kernel, rfl, rfl, by cases even <;> cases odd <;> decide +kernel, by
        cases even <;> cases odd <;> decide +kernel⟩,
    fun e => ⟨7, 511, 0, 0, 0, 0, passState (pass7 false false) [(Od.st_TYPE, 511, if e then 1 else 0)], pass7 false false, by
      cases e <;> decide +kernel, rfl, by cases e <;> decide +kernel⟩⟩

/-! ### Witnesses: the whole block -/

/-- The reset state meets the invariant and its step, which idles, goes on. -/
theorem witness_EveryStepSendsTheMessagesDue : messagesSent State.reset ∧ ∃ t, step State.reset = .next t := by
  refine ⟨?_, _, rfl⟩
  simp only [messagesSent]
  decide +kernel

/-! ### Tests against numbers of the spec and of published checks -/

/-- The check strings of CRC-16, CRC-32C and CRC-32 on the digits 1 to 9 (published values of these polynomials). -/
theorem test_crcs : (crc16 ((List.range 9).map fun k => BitVec.ofNat 8 (0x31 + k)) = 0x29B1 ∧
    crc32c ((List.range 9).map fun k => BitVec.ofNat 8 (0x31 + k)) = 0xE3069283) ∧
    crc32 ((List.range 9).map fun k => BitVec.ofNat 8 (0x31 + k)) = 0xCBF43926 := by decide +kernel

/-- 01_raster_time.md, the worked examples: the word of a raster time, and an interval over a frame boundary. -/
theorem test_raster_time : RTime.word ⟨15000, 540, 32768⟩ = 0x00_0000_3A98_021C_8000 ∧
    rdiff 2250 ⟨1001, 3, 0x4000⟩ ⟨1000, 2249, 0xC000⟩ = 229376 := by decide +kernel

/-- 02_object_dictionary.md, the worked example: the bytes of a raster time. -/
theorem test_raster_time_bytes : leBytes 9 (RTime.word ⟨7200, 1100, 0⟩) = [0, 0, 0x4C, 4, 0x20, 0x1C, 0, 0, 0] := by decide +kernel

/-- 03_streams_and_milliner.md, the worked example: an HEVC STANDARD encode and a decode of 2160p60. -/
theorem test_cell_costs :
    let s := objs [(Od.st_DOMAIN, 40, 1), (Od.enc_WIDTH, 40, 3840), (Od.enc_HEIGHT, 40, 2160), (Od.rd_RATE_NUM, 1, 60),
      (Od.dec_LAYER_CFG, 40, 0xA00000000000008700F000000)]
    s.encodeCost 40 0 = 3318 ∧ s.decodeCost 40 0 = 830 ∧ shareCount 3318 950 = 4 := by decide +kernel

/-- 06_encoding.md, the worked example: the time of a row, and the largest row at 25 Mbit/s. -/
theorem test_row_numbers :
    let c := { rungCfg with width := 3840, height := 2160, rateNum := 60, rateDen := 1, bitrate := 25000000, rowCap := 300 }
    rowCycles c = 1966080 ∧ c.lcap = 36864 := by decide +kernel

/-- 14_egress_scheduling.md, the worked example: tau and d of RATE 51,200. -/
theorem test_shaper : burstTicks 1600 51200 = 524288 ∧ carryTicks 1478 51200 = 484312 := by decide

/-- 10_picture_memory.md, the worked example: REGION_CREATE of a clip store of 4 GiB behind region 0. -/
theorem test_region_create : regionArgs 3 1 24 0x400000000 0x100000000 =
      [3, 1, 0x18, 0, 0, 0, 0, 0, 4, 0, 0, 0, 0, 0, 0, 0, 1, 0, 0, 0] ∧ extentOf 1 0x100000000 = 4429185024 ∧
    (objs [(Od.reg_KIND, 0, 0), (Od.reg_SIZE, 0, 2 ^ 34), (Od.reg_EXTENT, 0, 2 ^ 34)]).regionTests 3 1 24 0x400000000 0x100000000 =
      .inr 0x400000000 := by decide +kernel

/-- The next state of a step with a command in front has a property. -/
def after (i : Instr) (s : State) (p : State → Bool) : Bool :=
  match step { s with pending := i :: s.pending } with
  | .next t => p t
  | _ => false

/-- R418: WINDOW_BASE keeps bits [39:20]; the queue's rest waits. -/
theorem test_step_window_base : after (.windowBaseWrite 0x123456789) { pending := [.mbxRelease] } (fun t =>
    decide (t.host.windowBase = 0x123400000 ∧ t.pending = [.mbxRelease])) = true := by decide +kernel

/-- A REGION_CREATE of the worked example whose row has run. -/
def regionRun : State := ({} : State).setCmdQueue 0x20 { running := some {
  ticket := 1, code := 0x20, session := 0, args := regionArgs 3 1 24 0x400000000 0x100000000, at_ := 0,
  result := some (Result.ok, leBytes 8 0x400000000) } }

/-- 10_picture_memory.md, the worked example: what the region's objects show once the command has completed. -/
theorem test_step_region_created : after (.commandCompletion 0x20) regionRun (fun t =>
    decide (t.get Od.reg_KIND 3 = 1 ∧ t.get Od.reg_T 3 = 24 ∧ t.get Od.reg_BASE 3 = 0x400000000 ∧ t.get Od.reg_EXTENT 3 = 4429185024)) =
      true := by decide +kernel

/-- R21: at SLEW_MAX 1,000 ppm of 1,125 lines a frame removes 73,728 line ticks, so 442,368 take six frames of 20,000,000 cycles. -/
theorem test_slew_time : (objs [(Od.rd_SLEW_MAX, 0, 1000)]).slewLimit 0 = 73728 ∧ ({} : State).slewTime 0 (-442368) (-73728) = 120000000 := by
  decide +kernel

/-- R422: a doorbell while a request is outstanding is discarded. -/
theorem test_step_doorbell_busy : after (.mbxDoorbell 20 [1#8]) { host := { reqBusy := true } } (fun t =>
    decide (t.host.reqBuf = [] ∧ t.get Od.iop_FRAMES_DISCARDED = 1)) = true := by decide +kernel

/-- Sources of the fast class, of priority 5. -/
def sources (l : List (Nat × IrqSource)) : State := { host := { srcCfg := l.map fun e => (e.1, 5 + 2 ^ 31), sources := l } }

/-- R438: of two sources of equal priority the lower number is claimed, and its count goes to bits [23:16] of the answer. -/
theorem test_step_fast_claim :
    after .fastClaim (sources [(9, { pending := true, count := 2 }), (4, { pending := true, count := 3 })]) (fun t =>
      decide ((t.irq 4).active = true ∧ (t.irq 9).active = false ∧ t.out.any (fun o => decide (o = .answer [4, 0, 3, 0])) = true)) = true := by
  decide +kernel

/-- R35, R348: a PAUSE of priorities 0 and 1 on an ACTIVE band is counted. -/
theorem test_step_pause : after (.pauseBlock 124 3) (activeState) (fun t =>
    decide ((t.link 124).paused = 3 ∧ t.get Od.port_PAUSES_RECEIVED 124 = 1)) = true := by decide +kernel

/-- R316: a decrement at 0 counts and frees nothing. -/
theorem test_step_double_free : after (.battDecrement 5) { queues := { batts := [(5, ⟨0, 0, 0⟩)] } } (fun t =>
    decide (t.batt 5 = some ⟨0, 0, 0⟩ ∧ t.get Od.qg_COUNT_FAULTS 128 = 1)) = true := by decide +kernel

/-- On an empty queue one cycle passes (log entry 1). -/
theorem test_step_idles : (match step {} with | .next t => decide (t.cycle = 1) | _ => false) = true := by decide +kernel

/-- 19_package_and_electrical.md: LN_34 is at A29, B29, E29 and F29 (R515); the 620 signals (R514, R516) and the 2,084 supply balls
(R520) make the 2,704 balls. -/
theorem test_package : ([LaneWire.txP, .txN, .rxP, .rxN].map fun w => (laneBall 34 w).name) = ["A29", "B29", "E29", "F29"] ∧
    (signalBalls.map (·.2)).sum = 620 ∧ (ballRegions.map (·.2.2.2)).sum = 620 ∧ (supplyBalls.map (·.2)).sum = 2084 ∧
    52 * 52 = 620 + 2084 ∧ ballRows.getLast? = some ['B', 'P'] := by decide +kernel

/-- R256: the ends of limited range map to the ends of full range, and back. -/
theorem test_range : mapRange true true 256 = 0 ∧ mapRange true true 3760 = 4095 ∧ mapRange false true 4095 = 3760 ∧
    mapRange true false 2048 = 2048 ∧ mapRange false false 0 = 256 := by decide +kernel

/-- R105: the 6,144 samples of a block take 1,024 words of six 12-bit lanes, or 683 words of nine 8-bit lanes. -/
theorem test_block_words : (packSix12 (List.replicate 6144 5)).length = 1024 ∧ (packNine8 (List.replicate 6144 5)).length = 683 := by
  decide +kernel

end Sys2Proof.Tests
end

/-! ### Decrements of batts (R313, R316) -/

namespace Sys2Proof.Machine

open Sys2Proof.Safety

/-- The REFCOUNTs and tags of the batts are part of the queue engine's state: what leaves that state leaves them. -/
theorem State.batt_congr {s u : State} (h : u.queues = s.queues) (b : Nat) : u.batt b = s.batt b := by
  rw [State.batt, State.batt, h]

/-- So are the lists of free batts. -/
theorem State.freeBatts_congr {s u : State} (h : u.queues = s.queues) (pool : Nat) : u.freeBatts pool = s.freeBatts pool := by
  rw [State.freeBatts, State.freeBatts, h]

theorem State.bump_reportInfo_queues (s : State) (r : Row) (i j unit kind addr : Nat) :
    ((s.bump r i j).reportInfo unit kind addr).queues = s.queues := by
  rw [State.reportInfo_queues, State.bump_queues]

/-- R316: a decrement of a batt whose REFCOUNT is 0 is a fault of the queue engine and nothing more. -/
theorem State.decrement_of_refs_zero {s : State} {b : Nat} {x : Batt} (hx : s.batt b = some x) (h0 : x.refs = 0) :
    s.decrement b = (s.bump Od.qg_COUNT_FAULTS 128).reportInfo Unit.queueEngine 0x20 b := by
  simp only [State.decrement, hx, if_pos h0]

/-- BATT_DECREMENT is one decrement of the batt that the 32 bits of its operand name. -/
theorem completes_battDecrement (n : Nat) (s : State) : Completes (.battDecrement n) s (s.decrement (n % 2 ^ 32)) :=
  completes_of_done rfl

end Sys2Proof.Machine

namespace Sys2Proof.Proofs

open Sys2Proof.Machine Sys2Proof.Safety

/-- Settles O48: the decrement at REFCOUNT 0 is the fault alone, and counting and reporting it leave the queue engine's state. -/
theorem freeBattsAreNotFreedAgain : Obligations.FreeBattsAreNotFreedAgain := by
  intro b x s hb hx h0 u
  have hq : u.queues = s.queues := State.bump_reportInfo_queues ..
  refine ⟨?_, State.freeBatts_congr hq, State.batt_congr hq, by decide⟩
  have hc := completes_battDecrement b s
  rwa [Nat.mod_eq_of_lt hb, State.decrement_of_refs_zero hx h0] at hc

end Sys2Proof.Proofs

/-! ### Merging into the capture (R453) -/

namespace Sys2Proof.Machine

/-- The capture after a message has merged into it. -/
def State.mergeCapture (s : State) (m : FaultMsg) : State :=
  ((s.bump Od.cap_MERGE_COUNT).set Od.cap_KINDS_SEEN 0 (setBit (s.get Od.cap_KINDS_SEEN) m.kind)).set Od.cap_SEV_MAX 0
    (max m.sev (s.get Od.cap_SEV_MAX))

/-- A message of at least CAPTURE_SEV merges into a capture that holds one. -/
theorem State.capture_of_valid {s : State} {m : FaultMsg} (n : Nat) (hsev : s.get Od.fc_CAPTURE_SEV ≤ m.sev)
    (hvalid : s.flag Od.cap_VALID = true) : s.capture m n = s.mergeCapture m := by
  rw [State.capture, if_neg (Nat.not_lt.mpr hsev), if_pos hvalid, State.mergeCapture]

theorem State.mergeCapture_kindsSeen (s : State) (m : FaultMsg) :
    (s.mergeCapture m).get Od.cap_KINDS_SEEN = setBit (s.get Od.cap_KINDS_SEEN) m.kind % Od.cap_KINDS_SEEN.modulus := by
  rw [State.mergeCapture, Laws.get_set_ne _ _ _ _ _ _ _ (by decide), Laws.get_set_self]

theorem State.mergeCapture_sevMax (s : State) (m : FaultMsg) :
    (s.mergeCapture m).get Od.cap_SEV_MAX = max m.sev (s.get Od.cap_SEV_MAX) % Od.cap_SEV_MAX.modulus :=
  Laws.get_set_self ..

/-- Frame of a merge: every object but MERGE_COUNT, KINDS_SEEN and SEV_MAX keeps its value. -/
theorem State.mergeCapture_get_ne (s : State) (m : FaultMsg) {r : Row} (hcount : Od.cap_MERGE_COUNT.key 0 0 ≠ r.key 0 0)
    (hkinds : Od.cap_KINDS_SEEN.key 0 0 ≠ r.key 0 0) (hsev : Od.cap_SEV_MAX.key 0 0 ≠ r.key 0 0) :
    (s.mergeCapture m).get r = s.get r := by
  rw [State.mergeCapture, Laws.get_set_ne _ _ _ _ _ _ _ hsev, Laws.get_set_ne _ _ _ _ _ _ _ hkinds,
    Laws.get_bump_ne _ _ _ hcount]

/-- The rows of the captured message: VALID, the message, its times and its SEQ. -/
def capturedRows : List Row := [Od.cap_VALID, Od.cap_MESSAGE, Od.cap_AT, Od.cap_UPTIME_NS, Od.cap_LOG_SEQ]

/-- No row of the captured message shares its key with a row that a merge writes. -/
theorem capturedRows_keys : ∀ r ∈ capturedRows, Od.cap_MERGE_COUNT.key 0 0 ≠ r.key 0 0 ∧
    Od.cap_KINDS_SEEN.key 0 0 ≠ r.key 0 0 ∧ Od.cap_SEV_MAX.key 0 0 ≠ r.key 0 0 := by
  decide

theorem State.mergeCapture_captured (s : State) (m : FaultMsg) {r : Row} (hr : r ∈ capturedRows) :
    (s.mergeCapture m).get r = s.get r := by
  obtain ⟨hcount, hkinds, hsev⟩ := capturedRows_keys r hr
  exact s.mergeCapture_get_ne m hcount hkinds hsev

end Sys2Proof.Machine

namespace Sys2Proof.Proofs

open Sys2Proof.Machine

/-- Settles O22: such a message takes the branch of the capture that merges, whose three writes leave the captured message's
rows; the collector's composition is its definition. -/
theorem mergingIntoTheCapture : Obligations.MergingIntoTheCapture := by
  refine ⟨fun s m n hsev hvalid => ?_, fun _ _ => rfl⟩
  rw [State.capture_of_valid n hsev hvalid]
  exact ⟨rfl, s.mergeCapture_kindsSeen m, s.mergeCapture_sevMax m, fun r hr => s.mergeCapture_captured m hr⟩

end Sys2Proof.Proofs

/-! ### Thermal readings (R504–R506) -/

namespace Sys2Proof.Machine

open Sys2Proof.Safety

/-- R504: a reading with a sensed domain shows TJ and the crowns, then makes the tests of R505 and R506 in turn. -/
theorem completes_thermalReading_some {temps : List Int} {d : Nat} {t : Int} (s : State) (h : hottest temps = some (d, t)) :
    Completes (.thermalReading temps) s
      ((((({ s with power := { s.power with temps := temps } } : State).showTemps d t).checkHigh t).checkTrip t).checkPairs) := by
  refine completes_of_done (?_ : execThermalReading temps s = _)
  rw [execThermalReading, h]

/-- A reading without a sensed domain changes nothing. -/
theorem completes_thermalReading_none {temps : List Int} (s : State) (h : hottest temps = none) :
    Completes (.thermalReading temps) s s := by
  refine completes_of_done (?_ : execThermalReading temps s = _)
  rw [execThermalReading, h]

/-! #### TJ_HIGH -/

theorem State.checkHigh_of_armed {s : State} {t : Int} (ht : (s.get Od.th_TJ_HIGH * 10 : Nat) < t)
    (harmed : s.power.highReported = false) :
    s.checkHigh t = (({ s with power := { s.power with highReported := true } } : State).bump Od.th_TJ_HIGH_EVENTS).reportInfo
      Unit.thermal 0x51 (ofInt 16 t) :=
  if_pos ⟨ht, Bool.eq_false_iff.mp harmed⟩

theorem State.checkHigh_of_reported {s : State} {t : Int} (ht : (s.get Od.th_TJ_HIGH * 10 : Nat) < t)
    (hreported : s.power.highReported = true) : s.checkHigh t = s := by
  have hwarm : ¬ t ≤ (s.get Od.th_TJ_HIGH * 10 : Nat) - 20 := by omega
  exact (if_neg fun h => h.2 hreported).trans (if_neg hwarm)

/-- R505: at TJ_HIGH − 2 °C or below the report is armed again. -/
theorem State.checkHigh_rearms {s : State} {t : Int} (ht : t ≤ (s.get Od.th_TJ_HIGH * 10 : Nat) - 20) :
    s.checkHigh t = { s with power := { s.power with highReported := false } } := by
  have hcool : ¬ ((s.get Od.th_TJ_HIGH * 10 : Nat) : Int) < t := by omega
  exact (if_neg fun h => hcool h.1).trans (if_pos ht)

/-! #### TJ_TRIP -/

/-- R505: the second reading in succession at or above TJ_TRIP; that the power is cut at the reading itself is log entry 62. -/
theorem State.checkTrip_of_second {s : State} {t : Int} (ht : (s.get Od.th_TJ_TRIP * 10 : Nat) ≤ t) (hrun : s.power.tripRun = 1)
    (htripped : s.power.tripped = false) :
    s.checkTrip t = (({ s with power := { s.power with tripRun := 2, tripped := true } } : State).reportInfo Unit.thermal 0x52
      (ofInt 16 t)).cutPower := by
  rw [State.checkTrip, if_pos ht, hrun]
  exact if_pos ⟨rfl, Bool.eq_false_iff.mp htripped⟩

theorem State.checkTrip_of_below {s : State} {t : Int} (ht : t < (s.get Od.th_TJ_TRIP * 10 : Nat)) :
    s.checkTrip t = { s with power := { s.power with tripRun := 0 } } := by
  rw [State.checkTrip, if_neg (Int.not_le.mpr ht)]
  exact if_neg fun h => absurd h.1 (by decide)

/-! #### The gradient of a pair -/

section
variable {s : State} {p : Nat × Nat} {before : List (Nat × Nat)}

/-- R506: a pair that was hot in the reading before, too, and whose report is armed. -/
theorem State.checkPair_reports (hhot : 300 ≤ s.pairDiff p) (hbefore : p ∈ before) (harmed : p ∉ s.power.gradientReported) :
    s.checkPair before p = (({ s with power := { s.power with
      gradientRun := s.power.gradientRun ++ [p], gradientReported := s.power.gradientReported ++ [p] } } : State).bump
        Od.th_GRADIENT_EVENTS).reportInfo Unit.thermal 0x50 (min p.1 p.2 + max p.1 p.2 * 2 ^ 16) :=
  (if_pos hhot).trans (if_pos ⟨hbefore, harmed⟩)

/-- A pair that is hot for the first time or stands reported is only noted for the next reading. -/
theorem State.checkPair_notes (hhot : 300 ≤ s.pairDiff p) (hsilent : p ∉ before ∨ p ∈ s.power.gradientReported) :
    s.checkPair before p = { s with power := { s.power with gradientRun := s.power.gradientRun ++ [p] } } := by
  have hno : ¬ (p ∈ before ∧ p ∉ s.power.gradientReported) := fun h => hsilent.elim (· h.1) h.2
  exact (if_pos hhot).trans (if_neg hno)

theorem State.checkPair_of_cool (hcool : s.pairDiff p < 250) :
    s.checkPair before p =
      { s with power := { s.power with gradientReported := s.power.gradientReported.filter fun q => q ≠ p } } := by
  have hhot : ¬ 300 ≤ s.pairDiff p := by omega
  exact (if_neg hhot).trans (if_pos hcool)

/-- R506: below 25 °C the pair's report is armed again. -/
theorem State.checkPair_rearms (hcool : s.pairDiff p < 250) : p ∉ (s.checkPair before p).power.gradientReported := by
  rw [State.checkPair_of_cool hcool]
  simp

theorem State.checkPair_of_between (hlow : 250 ≤ s.pairDiff p) (hhigh : s.pairDiff p < 300) : s.checkPair before p = s :=
  (if_neg (Nat.not_le.mpr hhigh)).trans (if_neg (Nat.not_lt.mpr hlow))

end

end Sys2Proof.Machine

namespace Sys2Proof.Proofs

open Sys2Proof.Machine

/-- Settles O18: a reading makes its tests in turn, and each test takes the branch that the reading's value and the reports
still standing choose. -/
theorem temperatures : Obligations.Temperatures :=
  ⟨fun _ s _ _ h => completes_thermalReading_some s h, fun _ s h => completes_thermalReading_none s h,
    fun _ _ => State.checkHigh_of_armed, fun _ _ => State.checkHigh_of_reported, fun _ _ => State.checkHigh_rearms,
    fun _ _ => State.checkTrip_of_second, fun _ _ => State.checkTrip_of_below,
    fun _ _ _ => State.checkPair_reports, fun _ _ _ => State.checkPair_rearms, fun _ _ _ => State.checkPair_notes,
    fun _ _ _ => State.checkPair_of_between⟩

end Sys2Proof.Proofs

/-! ### No step faults, and every step sends the messages due (R438, R441) -/

namespace Sys2Proof.Safety

open Sys2Proof.Machine

/-- The effect of a command, written another way. -/
theorem Completes.congr {i : Instr} {s u v : State} (h : Completes i s u) (huv : u = v) : Completes i s v := huv ▸ h

end Sys2Proof.Safety

namespace Sys2Proof.Machine

open Sys2Proof.Safety

/-- A meaning answers a next state, and keeps the invariant on interrupt messages. -/
def KeepsMessages (s : State) (o : Host.Outcome State Fault Refusal) : Prop :=
  ∃ t, o = .next t ∧ (messagesSent s → messagesSent t)

/-- A meaning that ends in `done` sends the messages due. -/
theorem keepsMessages_done (s u : State) : KeepsMessages s (done u) := ⟨u.settle, rfl, fun _ => Laws.settle_sent u⟩

/-- A meaning that leaves the host interface alone leaves its vectors and sources. -/
theorem keepsMessages_of_host {s t : State} (h : t.host = s.host) : KeepsMessages s (.next t) :=
  ⟨t, rfl, Laws.sent_of_host h⟩

/-- A warm reset leaves no source pending (R39, R435). -/
theorem warmReset_host (s : State) (cause : Nat) : (s.warmReset cause).host =
    { sources := s.host.sources.map fun (e : Nat × IrqSource) => (e.1, ({ raised := e.2.raised } : IrqSource)) } := by
  rw [State.warmReset, State.bump_host]
  rfl

theorem warmReset_sent (s : State) (cause : Nat) : messagesSent (s.warmReset cause) := by
  refine Laws.sent_of_none fun e he => ?_
  rw [warmReset_host] at he
  obtain ⟨_, _, rfl⟩ := List.mem_map.mp he
  rfl

theorem keepsMessages_of_warmReset {s t u : State} {cause : Nat} (h : t.host = (u.warmReset cause).host) :
    KeepsMessages s (.next t) :=
  ⟨t, rfl, fun _ => Laws.sent_of_host h (warmReset_sent u cause)⟩

/-- Power-on reset empties the host interface. -/
theorem powerReset_host (s : State) : s.powerReset.host = {} := by
  rw [State.powerReset]
  split <;> rfl

theorem keepsMessages_powerReset (s : State) : KeepsMessages s (.next s.powerReset) :=
  ⟨_, rfl, fun _ => Laws.sent_of_none fun e he => by rw [powerReset_host] at he; cases he⟩

/-! #### The meanings that end without settling: resets and power events -/

theorem execPorstN_keepsMessages (high : Bool) (pins : Fin 4) (s : State) : KeepsMessages s (execPorstN high pins s) := by
  unfold execPorstN
  split
  · exact keepsMessages_powerReset s
  · exact keepsMessages_of_host rfl
  · exact keepsMessages_of_host rfl

theorem execWrstN_keepsMessages (lowNs : Nat) (s : State) : KeepsMessages s (execWrstN lowNs s) := by
  unfold execWrstN
  split
  · exact keepsMessages_of_host rfl
  · split
    · split
      · exact keepsMessages_of_host rfl
      · exact keepsMessages_of_warmReset rfl
    · exact keepsMessages_of_warmReset rfl

theorem execWarmResetDelayExpiry_keepsMessages (s : State) : KeepsMessages s (execWarmResetDelayExpiry s) := by
  unfold execWarmResetDelayExpiry
  split
  · exact keepsMessages_of_warmReset rfl
  · exact keepsMessages_of_host rfl

theorem execRailExcursion_keepsMessages (rail : Fin 13) (s : State) : KeepsMessages s (execRailExcursion rail s) := by
  unfold execRailExcursion
  split
  · exact keepsMessages_of_host rfl
  · exact keepsMessages_of_warmReset rfl

theorem execPllLockLoss_keepsMessages (pll : Fin 4) (s : State) : KeepsMessages s (execPllLockLoss pll s) := by
  unfold execPllLockLoss
  split
  · exact keepsMessages_of_host rfl
  · dsimp only
    split
    · exact keepsMessages_done _ _
    · exact keepsMessages_of_warmReset rfl

theorem execRailsBackWithinTolerance_keepsMessages (s : State) : KeepsMessages s (execRailsBackWithinTolerance s) := by
  unfold execRailsBackWithinTolerance
  split
  · exact keepsMessages_of_host rfl
  · exact keepsMessages_of_host rfl

/-- Every meaning completes and keeps the invariant: the resets and power events by the lemmas above; the others end in `done`,
those listed after a test of what is due. -/
theorem exec_keepsMessages (i : Instr) (s : State) : KeepsMessages s (exec i s) := by
  cases i with
  | porstN high pins => exact execPorstN_keepsMessages high pins s
  | wrstN lowNs => exact execWrstN_keepsMessages lowNs s
  | warmResetDelayExpiry => exact execWarmResetDelayExpiry_keepsMessages s
  | railExcursion rail => exact execRailExcursion_keepsMessages rail s
  | pllLockLoss pll => exact execPllLockLoss_keepsMessages pll s
  | railsBackWithinTolerance => exact execRailsBackWithinTolerance_keepsMessages s
  | frameStart | lineMatch | edgeWindowClose | ptpMessage | ptpStateLeavesSlave | holdoverTimeout | rasterJump | swapPoint |
    swapNow | idleTimeout | objectWrite | stickyClear | clipStore | playlistSet | fuseRepairHbm3Row | hbmWrite | hbmRead |
    pageWriteBack | lfsrReseed | hbmTemperatureRead | retrainDue | retrainPauseStart | retrainEnd | sramCorrectionWriteback |
    fullingStep | queueAppend | cacheRefillDone | cacheSpillDone | queueSweepDone | receiverDetectStep | linkStagePass |
    linkStageTimeout | linkRetryBackoffExpiry | trainingFrame | alignBlock | capabilityPacket | fomMeasurement |
    blockLockLoss | blockLockGained | neighbourIdleTimeout | pauseBlock | pauseExpiry | pauseRefreshTimer | timingSendTimer |
    timingPacket | rekeyTimer | rekeyMessage | rekeyTimeout | oldKeyExpiry | linkRetrainTimeout | quadReset | snapshot |
    broadcast | cardRestart | offerSendTimer | heartbeatTick | heartbeatMiss | cardTimeoutExpiry | learnApply | agePass |
    shadowCompareStep | globalAnnounce | globalOpAct | globalConfirm | globalOpTimeout | egressStart | pcieFunctionReset |
    bar2Access | mbxDoorbell | mbxCopyDone | mbxRelease | dmaRun | dmaStop | dmaClearError | dmaDoorbell |
    dmaDescriptorFetched | dmaReadbackDone | dmaHostReadError | dmaQueuePacketReady | dmaBattAvailable | srcCfgWrite |
    faultMessage | rowWatchdogExpiry | attest | flashProgramDone | startUpStep | avsReadbackTimeout | thermalReading |
    conditionerHalfPowerUpDone | conditionerHalfIdleExpiry =>
    simp only [exec, execFrameStart, execLineMatch, execEdgeWindowClose, execPtpMessage, execPtpStateLeavesSlave,
      execHoldoverTimeout, execRasterJump, execSwapPoint, execSwapNow, execIdleTimeout, execObjectWrite, execStickyClear,
      execClipStore, execPlaylistSet, execFuseRepairHbm3Row, execHbmWrite, execHbmRead, execPageWriteBack, execLfsrReseed,
      execHbmTemperatureRead, execRetrainDue, execRetrainPauseStart, execRetrainEnd, execSramCorrectionWriteback,
      execFullingStep, execQueueAppend, execCacheRefillDone, execCacheSpillDone, execQueueSweepDone, execReceiverDetectStep,
      execLinkStagePass, execLinkStageTimeout, execLinkRetryBackoffExpiry, execTrainingFrame, execAlignBlock,
      execCapabilityPacket, execFomMeasurement, execBlockLockLoss, execBlockLockGained, execNeighbourIdleTimeout,
      execPauseBlock, execPauseExpiry, execPauseRefreshTimer, execTimingSendTimer, execTimingPacket, execRekeyTimer,
      execRekeyMessage, execRekeyTimeout, execOldKeyExpiry, execLinkRetrainTimeout, execQuadReset, execSnapshot,
      execBroadcast, execCardRestart, execOfferSendTimer, execHeartbeatTick, execHeartbeatMiss, execCardTimeoutExpiry,
      execLearnApply, execAgePass, execShadowCompareStep, execGlobalAnnounce, execGlobalOpAct, execGlobalConfirm,
      execGlobalOpTimeout, execEgressStart, execPcieFunctionReset, execBar2Access, execMbxDoorbell, execMbxCopyDone,
      execMbxRelease, execDmaRun, execDmaStop, execDmaClearError, execDmaDoorbell, execDmaDescriptorFetched,
      execDmaReadbackDone, execDmaHostReadError, execDmaQueuePacketReady, execDmaBattAvailable, execSrcCfgWrite,
      execFaultMessage, execRowWatchdogExpiry, execAttest, execFlashProgramDone, execStartUpStep, execAvsReadbackTimeout,
      execThermalReading, execConditionerHalfPowerUpDone, execConditionerHalfIdleExpiry]
    repeat' split
    all_goals exact keepsMessages_done _ _
  | _ => exact keepsMessages_done _ _

/-- A step is the meaning of the front command, or the end of a cycle. -/
theorem step_keepsMessages (s : State) : KeepsMessages s (step s) := by
  unfold step
  split
  · exact keepsMessages_done s _
  · obtain ⟨t, ht, hsent⟩ := exec_keepsMessages _ _
    exact ⟨t, ht, fun hs => hsent (Laws.sent_of_host rfl hs)⟩

/-! #### The queue and the clock -/

theorem step_of_cons {s : State} {c : Instr} {rest : List Instr} (h : s.pending = c :: rest) :
    step s = exec c { s with pending := rest } := by
  simp only [step, h]

theorem step_of_nil {s : State} (h : s.pending = []) : step s = .next s.tick.settle := by
  simp only [step, h, done]

theorem tick_of_running {s : State} (h : s.power.porst = true) :
    s.tick = { s.runCycle with cycle := s.cycle + 1, pending := s.pending } := if_pos h

theorem tick_of_low {s : State} (h : s.power.porst = false) : s.tick = s := if_neg (Bool.eq_false_iff.mp h)

end Sys2Proof.Machine

namespace Sys2Proof.Proofs

open Sys2Proof.Machine Sys2Proof.Safety

/-- Settles O59: every meaning ends in `done`, which sends the messages due, or is a reset or power event, which leaves no source
pending or leaves the host interface alone. -/
theorem everyStepSendsTheMessagesDue : Obligations.EveryStepSendsTheMessagesDue := by
  intro s t hs hstep
  obtain ⟨u, hu, hsent⟩ := step_keepsMessages s
  cases hstep.symm.trans hu
  exact hsent hs

/-- Settles O60: after reset no source is listed. -/
theorem resetHasNoMessageDue : Obligations.ResetHasNoMessageDue :=
  ⟨Laws.sent_of_none fun _ he => absurd he List.not_mem_nil, fun _ => rfl⟩

/-- Settles O58: every meaning answers a next state. -/
theorem noStepFaultsOrIsRefused : Obligations.NoStepFaultsOrIsRefused := by
  refine ⟨fun s => ?_, fun i s => ?_, fun _ h => step_of_nil h⟩
  · obtain ⟨t, ht, -⟩ := step_keepsMessages s
    exact ⟨t, ht⟩
  · obtain ⟨t, ht, -⟩ := exec_keepsMessages i s
    exact ⟨t, ht⟩

/-- Settles O1: the two branches of `step`, and those of `tick`. -/
theorem stepRunsTheFrontCommand : Obligations.StepRunsTheFrontCommand := by
  refine ⟨fun _ _ _ h => step_of_cons h, fun _ h => step_of_nil h, fun s h => ?_, fun _ h => tick_of_low h⟩
  rw [tick_of_running h]
  exact ⟨rfl, rfl⟩

/-- Settles O2: the tables of the reset state are empty, so every object reads as its default. -/
theorem resetHasDefaults : Obligations.ResetHasDefaults := by
  refine ⟨rfl, fun _ _ _ => rfl, fun _ _ => rfl, rfl, rfl, fun _ => rfl, fun _ => rfl, by decide, fun rd hrd => ?_,
    rfl, rfl, rfl, rfl, rfl⟩
  have hdefault : Od.rd_ENABLE.default rd 0 = 0 := if_neg (Nat.ne_of_gt hrd)
  exact bne_eq_false_iff_eq.mpr hdefault

end Sys2Proof.Proofs

/-! ### Interrupt sources and claims (R435–R440) -/

namespace Sys2Proof.Machine

open Sys2Proof.Safety

/-- The order of R438: a source goes before one of lower priority, and of equals before one of higher number. -/
def Precedes (e x : Nat × Nat) : Prop := x.2 < e.2 ∨ (x.2 = e.2 ∧ e.1 ≤ x.1)

theorem Precedes.refl (e : Nat × Nat) : Precedes e e := .inr ⟨rfl, Nat.le_refl _⟩

theorem Precedes.trans {a b c : Nat × Nat} (h : Precedes a b) (h' : Precedes b c) : Precedes a c := by
  unfold Precedes at *; omega

/-- Of a source and the best of the rest, the best of all is one, and goes before the other. -/
theorem bestSource_cons (e : Nat × Nat) (es : List (Nat × Nat)) :
    (bestSource es = none ∧ bestSource (e :: es) = some e) ∨
    ∃ b, bestSource es = some b ∧
      ((bestSource (e :: es) = some e ∧ Precedes e b) ∨ (bestSource (e :: es) = some b ∧ Precedes b e)) := by
  rw [bestSource]
  cases bestSource es with
  | none => exact .inl ⟨rfl, rfl⟩
  | some b =>
    refine .inr ⟨b, rfl, ?_⟩
    by_cases h : e.2 > b.2 ∨ (e.2 = b.2 ∧ e.1 < b.1)
    · exact .inl ⟨if_pos h, by unfold Precedes; omega⟩
    · exact .inr ⟨if_neg h, by unfold Precedes; omega⟩

theorem bestSource_isSome {l : List (Nat × Nat)} (h : l ≠ []) : ∃ e, bestSource l = some e := by
  cases l with
  | nil => exact absurd rfl h
  | cons e es =>
    obtain ⟨-, he⟩ | ⟨b, -, ⟨he, -⟩ | ⟨he, -⟩⟩ := bestSource_cons e es
    · exact ⟨e, he⟩
    · exact ⟨e, he⟩
    · exact ⟨b, he⟩

theorem bestSource_spec {l : List (Nat × Nat)} {e : Nat × Nat} (h : bestSource l = some e) : e ∈ l ∧ ∀ x ∈ l, Precedes e x := by
  induction l generalizing e with
  | nil => cases h
  | cons a as ih =>
    obtain ⟨hn, ha⟩ | ⟨b, hb, hab⟩ := bestSource_cons a as
    · have has : as = [] := by
        refine Classical.byContradiction fun hne => ?_
        obtain ⟨x, hx⟩ := bestSource_isSome hne
        cases hx.symm.trans hn
      cases h.symm.trans ha
      simp [has, Precedes.refl]
    · obtain ⟨hmem, hall⟩ := ih hb
      obtain ⟨ha, hp⟩ | ⟨ha, hp⟩ := hab
      · cases h.symm.trans ha
        exact ⟨List.mem_cons_self, List.forall_mem_cons.mpr ⟨.refl _, fun x hx => hp.trans (hall x hx)⟩⟩
      · cases h.symm.trans ha
        exact ⟨List.mem_cons_of_mem _ hmem, List.forall_mem_cons.mpr ⟨hp, hall⟩⟩

theorem State.raise_of_source (s : State) {src : Nat} (h0 : 0 < src) (h1 : src < 256) :
    s.raise src = s.setIrq src ((s.irq src).event (s.srcCfg src) s.cycle) :=
  if_neg (by omega)

/-- R437: an event below COAL_COUNT counts, and the first of a count starts the timer. -/
theorem IrqSource.event_counts {q : IrqSource} {c : Nat} (now : Nat) (hpri : cfgPriority c ≠ 0) (hpend : q.pending = false)
    (hn : q.count + 1 < cfgCount c) : q.event c now = { q with
      raised := (q.raised + 1) % 2 ^ 32, count := q.count + 1, timer := true, since := if q.timer then q.since else now } := by
  simp only [IrqSource.event, hpri, hpend, hn, if_true, if_false, Bool.false_eq_true]

/-- R437: the event that reaches COAL_COUNT makes a source that is not active pending. -/
theorem IrqSource.event_pends {q : IrqSource} {c : Nat} (now : Nat) (hpri : cfgPriority c ≠ 0) (hpend : q.pending = false)
    (hact : q.active = false) (hn : cfgCount c ≤ q.count + 1) : q.event c now = { q with
      raised := (q.raised + 1) % 2 ^ 32, count := q.count + 1, timer := false, pending := true } := by
  simp only [IrqSource.event, hpri, hpend, hact, Nat.not_lt.mpr hn, if_false, Bool.false_eq_true]

theorem State.claimVector_some {s : State} {v src pri : Nat} (h : bestSource (s.pendingOn v) = some (src, pri)) :
    s.claimVector v = (s.setIrq src { s.irq src with pending := false, active := true, vector := v, count := 0, timer := false },
      src + 2 ^ 16 * min 255 (s.irq src).count) := by
  rw [State.claimVector, h]

theorem State.claimVector_none {s : State} {v : Nat} (h : s.pendingOn v = []) :
    s.claimVector v = ((s.setVector v { s.vector v with sent := false }).bump Od.irq_EMPTY_CLAIMS, 0) := by
  rw [State.claimVector, h, bestSource]

/-- A claim, of a normal vector or the fast one, answers the value read. -/
theorem completes_claim {i : Instr} {v : Nat} (s : State) (h : (∃ w : Fin 63, i = .claim w ∧ v = w.val) ∨ i = .fastClaim ∧ v = 63) :
    Completes i s ((s.claimVector v).1.emit (.answer (leBytes 4 (s.claimVector v).2))) := by
  obtain ⟨w, rfl, rfl⟩ | ⟨rfl, rfl⟩ := h
  · exact completes_of_done rfl
  · exact completes_of_done rfl

theorem completes_complete {i : Instr} {v n : Nat} (s : State)
    (h : (∃ w : Fin 63, i = .complete w n ∧ v = w.val) ∨ i = .fastComplete n ∧ v = 63) :
    Completes i s (s.completeVector v (n % 512)) := by
  obtain ⟨w, rfl, rfl⟩ | ⟨rfl, rfl⟩ := h
  · exact completes_of_done rfl
  · exact completes_of_done rfl

theorem State.completeVector_active {s : State} {v src : Nat} (hact : (s.irq src).active = true) (hv : (s.irq src).vector = v) :
    s.completeVector v src = (s.setIrq src { s.irq src with
      active := false, pending := (s.irq src).pending || (s.irq src).reached, reached := false }).setVector v
      { s.vector v with sent := false } :=
  if_pos (by simp [hact, hv])

theorem State.completeVector_other {s : State} {v src : Nat} (h : (s.irq src).active = false ∨ (s.irq src).vector ≠ v) :
    s.completeVector v src = s.bump Od.irq_COMPLETE_ERRORS :=
  if_neg (by rcases h with h | h <;> simp [h])

theorem completes_coalesceTimerExpiry (src : Fin 512) (s : State) :
    Completes (.coalesceTimerExpiry src) s (s.setIrq src ((s.irq src).expire (s.srcCfg src) s.cycle)) :=
  completes_of_done rfl

/-- R437: COAL_TIME after the first event of a count the source is pending, or, while active, is so at its completion. -/
theorem IrqSource.expire_due {q : IrqSource} {cfg cycle : Nat} (ht : q.timer = true) (h : q.since + cfgTime cfg ≤ cycle) :
    q.expire cfg cycle =
      if q.active then { q with timer := false, reached := true } else { q with timer := false, pending := true } :=
  if_pos (by simp [ht, h])

theorem IrqSource.expire_early {q : IrqSource} {cfg cycle : Nat} (h : q.timer = false ∨ cycle < q.since + cfgTime cfg) :
    q.expire cfg cycle = q :=
  if_neg (by rcases h with h | h <;> simp [h])

/-- SRC_CFG of a source that exists: its reserved bits [6:4] stay zero (R437). -/
theorem completes_srcCfgWrite {src : Fin 512} (v : Nat) (s : State) (h0 : 0 < src.val) (h1 : src.val < 256) :
    Completes (.srcCfgWrite src v) s
      (({ s with host := { s.host with
          srcCfg := tput s.host.srcCfg (srcCfgReset src) src (setBits (v % 2 ^ 32) 4 3 0) } } : State).setIrq src
        ((s.irq src).reconfigure (setBits (v % 2 ^ 32) 4 3 0))) :=
  completes_of_done (if_neg (by omega))

theorem IrqSource.reconfigure_off (q : IrqSource) {c : Nat} (h : cfgPriority c = 0) :
    q.reconfigure c = { q with pending := false, count := 0, timer := false, reached := false } := if_pos h

theorem IrqSource.reconfigure_reached {q : IrqSource} {c : Nat} (h : cfgPriority c ≠ 0) (ht : q.timer = true)
    (hn : cfgCount c ≤ q.count) : q.reconfigure c =
      if q.active then { q with timer := false, reached := true } else { q with timer := false, pending := true } :=
  (if_neg h).trans (if_pos (by simp [ht, hn]))

theorem IrqSource.reconfigure_short {q : IrqSource} {c : Nat} (h : cfgPriority c ≠ 0) (hn : q.timer = false ∨ q.count < cfgCount c) :
    q.reconfigure c = q :=
  (if_neg h).trans (if_neg (by rcases hn with hn | hn <;> simp [hn]))

end Sys2Proof.Machine

namespace Sys2Proof.Proofs

open Sys2Proof.Machine Sys2Proof.Safety

/-- Settles O35, by induction on the list of sources. -/
theorem claimTakesTheBestSource : Obligations.ClaimTakesTheBestSource :=
  fun _ => ⟨bestSource_isSome, fun _ => bestSource_spec⟩

/-- Settles O36: each clause is one branch of an event, a claim, a completion, an expiry or a reconfiguration. -/
theorem interruptSources : Obligations.InterruptSources := by
  refine ⟨fun s _ => s.raise_of_source, fun q c now hpri hpend hact => ⟨fun hn => ?_, fun hn => ?_⟩,
    fun i v s hi => ⟨fun src pri h => ?_, fun h => ?_⟩, fun i v n s hi => ⟨fun hact hv => ?_, fun h => ?_⟩,
    fun src s => ⟨fun ht hdue => ⟨fun hact => ?_, fun hact => ?_⟩, fun h => ?_⟩,
    fun src v s => ⟨fun h => ?_, fun h0 h1 => ⟨fun hpri => ?_, fun hpri ht hn => ?_, fun hpri hn => ?_⟩⟩,
    fun _ _ _ => completes_of_done rfl⟩
  · rw [IrqSource.event_counts now hpri hpend hn]
    exact ⟨hpend, rfl, rfl, fun ht => by simp [ht]⟩
  · rw [IrqSource.event_pends now hpri hpend hact hn]
    exact ⟨rfl, rfl⟩
  · have hc := completes_claim s hi
    rwa [State.claimVector_some h] at hc
  · have hc := completes_claim s hi
    rwa [State.claimVector_none h] at hc
  · have hc := completes_complete s hi
    rwa [State.completeVector_active hact hv] at hc
  · have hc := completes_complete s hi
    rwa [State.completeVector_other h] at hc
  · have hc := completes_coalesceTimerExpiry src s
    rwa [IrqSource.expire_due ht hdue, if_neg (Bool.eq_false_iff.mp hact)] at hc
  · have hc := completes_coalesceTimerExpiry src s
    rwa [IrqSource.expire_due ht hdue, if_pos hact] at hc
  · have hc := completes_coalesceTimerExpiry src s
    rwa [IrqSource.expire_early h] at hc
  · exact completes_of_done (if_pos h)
  · have hc := completes_srcCfgWrite v s h0 h1
    rwa [IrqSource.reconfigure_off _ hpri] at hc
  · have hc := completes_srcCfgWrite v s h0 h1
    rwa [IrqSource.reconfigure_reached hpri ht hn] at hc
  · have hc := completes_srcCfgWrite v s h0 h1
    rwa [IrqSource.reconfigure_short hpri hn] at hc

end Sys2Proof.Proofs

/-! ### Writes that pass (R33, R40, R50) -/

namespace Sys2Proof.Machine

open Sys2Proof.Safety

/-- A write that passes every test is staged and followed (R33, R50). -/
theorem State.writeObject_passes {s : State} {role : Nat} {a : Ask} {w : Writing} (hlive : s.live = true)
    (hplain : plainTest role false a = .inr w) (hcmd : w.row.acc ≠ .cmd) (hlate : s.lateTest (s.stage s w) w = Status.ok) :
    s.writeObject role a = succeeded (State.follow s (s.stage s w) w) := by
  rw [State.writeObject, if_neg (not_not_intro hlive)]
  simp only [hplain, if_neg hcmd, hlate, if_true]
  rfl

theorem State.writeObject_accepted {s : State} {role : Role} {r : Row} {i : Nat} {v : List Byte} (h : Accepted s role r i v)
    (hcmd : r.acc ≠ .cmd) : s.writeObject (roleRank role) ⟨r.base + i, r.sub, r.ty.code, v⟩ =
      succeeded (State.follow s (s.stage s (writingOf r i v)) (writingOf r i v)) := by
  obtain ⟨hlive, hplain, hlate⟩ := h
  exact writeObject_passes hlive hplain hcmd hlate

/-- The write of a number that is accepted. -/
def numWriting (r : Row) (i v : Nat) : Writing := writingOf r i (leBytes r.ty.size v)

/-- A command that is the write of a number to a row, when the write is accepted. -/
theorem completes_write {c : Instr} {s : State} {role : Role} {r : Row} {i v : Nat} (h : AcceptedNum s role r i v)
    (hexec : exec c s = done (s.writeRow role r i v)) (hcmd : r.acc ≠ .cmd) :
    Completes c s (succeeded (State.follow s (s.stage s (numWriting r i v)) (numWriting r i v))) := by
  refine completes_of_done (hexec.trans (congrArg done ?_))
  rw [State.writeRow, valueBytes, if_pos h.1]
  exact State.writeObject_accepted h.2 hcmd

theorem numWriting_num {s : State} {role : Role} {r : Row} {i v : Nat} (h : AcceptedNum s role r i v) : (numWriting r i v).num = v :=
  Laws.writing_num h.1

/-! #### What clears (R44, R454, R455, R466) -/

theorem State.follow_capture (old s : State) (i v : Nat) : State.follow old s (numWriting Od.cap_VALID i v) = s.emptyCapture := by
  simp +decide only [State.follow, numWriting, writingOf, isSetting, if_true, if_false]

theorem State.follow_sticky (old s : State) (i v : Nat) :
    State.follow old s (numWriting Od.unit_STICKY i v) = s.clearSticky i (numWriting Od.unit_STICKY i v).num := by
  simp +decide only [State.follow, numWriting, writingOf, isSetting, if_true, if_false]

theorem State.follow_clearAll (old s : State) (i v : Nat) : State.follow old s (numWriting Od.fc_CLEAR_ALL i v) =
    if (numWriting Od.fc_CLEAR_ALL i v).num = 1 then s.clearAll else s := by
  simp +decide only [State.follow, numWriting, writingOf, isSetting, if_true, if_false]

theorem State.stage_roClear (s : State) {w : Writing} (h : w.row.acc = .roClear) : s.stage s w = s :=
  if_pos (.inr (.inr (.inl h)))

theorem State.follow_roClear (old s : State) {w : Writing} (h : w.row.acc = .roClear) : State.follow old s w = s.clearCount w :=
  if_pos h

/-- The rows whose clearing write is more than a zero in the dictionary. -/
def specialCounts : List Row :=
  [Od.lane_FOM_LOW, Od.pool_LOW_SHARED_FREE, Od.irq_HELD, Od.irq_PME_SENT, Od.egr_QUEUE_EGRESS, Od.th_GRADIENT_MAX]

theorem State.clearCount_plain (s : State) {w : Writing} (h : w.row ∉ specialCounts) : s.clearCount w = s.put w.row w.inst w.sub 0 := by
  simp only [specialCounts, List.mem_cons, List.not_mem_nil, or_false, not_or] at h
  simp only [State.clearCount, h, if_false]

theorem State.clearCount_fomLow (s : State) (i j : Nat) (v : List Byte) :
    s.clearCount ⟨Od.lane_FOM_LOW, i, j, v⟩ = s.set Od.lane_FOM_LOW i (s.get Od.lane_FOM i) := rfl

theorem State.clearCount_lowFree (s : State) (i j : Nat) (v : List Byte) : s.clearCount ⟨Od.pool_LOW_SHARED_FREE, i, j, v⟩ =
    { s with queues := { s.queues with lowFree := tput s.queues.lowFree none i (some (s.sharedFree i)) } } := rfl

theorem State.clearCount_held (s : State) (i j : Nat) (v : List Byte) :
    s.clearCount ⟨Od.irq_HELD, i, j, v⟩ = { s with host := { s.host with heldCount := 0 } } := rfl

theorem State.clearCount_pmeSent (s : State) (i j : Nat) (v : List Byte) :
    s.clearCount ⟨Od.irq_PME_SENT, i, j, v⟩ = { s with host := { s.host with pmeSent := 0 } } := rfl

theorem State.clearCount_gradientMax (s : State) (i j : Nat) (v : List Byte) :
    s.clearCount ⟨Od.th_GRADIENT_MAX, i, j, v⟩ = s.set Od.th_GRADIENT_MAX i s.gradientNow := rfl

/-- STICKY_CLEAR of a count: a write of zero of the count's length. -/
theorem completes_stickyClear {role : Role} {index sub : Nat} {r : Row} {i j : Nat} {s : State}
    (hlook : lookUp index sub = .inr (r, i, j)) (hacc : r.acc = .roClear) {w : Writing}
    (hlive : s.live = true) (hw : w = ⟨r, i, j, leBytes (if r.ty = .domain then (s.value r i j false).length else r.ty.size) 0⟩)
    (hplain : plainTest (roleRank role) false ⟨index, sub, r.ty.code, w.value⟩ = .inr w) (hlate : s.lateTest s w = Status.ok) :
    Completes (.stickyClear role index sub) s (succeeded (s.clearCount w)) := by
  have hrow : w.row.acc = .roClear := by rw [hw]; exact hacc
  have hstage := s.stage_roClear hrow
  have hwrite := State.writeObject_passes hlive hplain (by rw [hrow]; decide) (hstage.symm ▸ hlate)
  rw [hstage, State.follow_roClear _ _ hrow] at hwrite
  refine completes_of_done ?_
  simp only [exec, execStickyClear, hlook]
  rw [← hwrite, hw]

theorem completes_stickyClear_missing {role : Role} {index sub st : Nat} (s : State) (hlook : lookUp index sub = .inl st) :
    Completes (.stickyClear role index sub) s { s with lastStatus := st } := by
  refine completes_of_done ?_
  simp only [exec, execStickyClear, hlook]

end Sys2Proof.Machine

namespace Sys2Proof.Proofs

open Sys2Proof.Machine Sys2Proof.Safety

/-- Settles O24: each write stages nothing and is followed by its clearing; CLEAR_ALL clears unit after unit. -/
theorem clearingFaults : Obligations.ClearingFaults := by
  refine ⟨fun role s h => ?_, fun role unit v s h => ?_, fun role s h => ?_, fun s u hu => ?_, fun s r i j h => ?_,
    fun _ _ _ _ _ _ _ hlook hacc hlive => completes_stickyClear hlook hacc hlive rfl,
    fun role index sub st s hlook => completes_stickyClear_missing s hlook, fun s w => ⟨fun h => s.clearCount_plain h, ?_⟩⟩
  · exact completes_write h rfl (by decide)
  · have hc := completes_write h (c := .stickyWrite role unit v) rfl (by decide)
    rwa [State.follow_sticky, numWriting_num h] at hc
  · have hc := completes_write h (c := .clearAll role 1) rfl (by decide)
    rwa [State.follow_clearAll, numWriting_num h, if_pos rfl] at hc
  · exact Laws.foldl_clear_get _ _ _ (.inl (List.mem_range.mpr hu))
  · exact Laws.foldl_clear_frame _ _ _ _ _ fun u hu => h u (List.mem_range.mp hu)
  · obtain ⟨r, i, j, v⟩ := w
    refine ⟨?_, ?_, ?_, ?_, ?_⟩ <;> rintro rfl
    · exact s.clearCount_fomLow i j v
    · exact s.clearCount_lowFree i j v
    · exact s.clearCount_held i j v
    · exact s.clearCount_pmeSent i j v
    · exact s.clearCount_gradientMax i j v

end Sys2Proof.Proofs

/-! ### The fault collector (R444–R457) -/

namespace Sys2Proof.Machine

open Sys2Proof.Safety

/-- Of the message kept and the next one held, the collector keeps the next one only when its UNIT is lower. -/
def lowerUnit (b m : FaultMsg) : FaultMsg := if m.unit < b.unit then m else b

theorem nextHeld_nil : nextHeld [] = none := rfl

theorem nextHeld_cons (m : FaultMsg) (ms : List FaultMsg) : nextHeld (m :: ms) = some (ms.foldl lowerUnit m) := by
  have hstep (l : List FaultMsg) (b : FaultMsg) : l.foldl (fun (best : Option FaultMsg) m => match best with
      | none => some m
      | some b => if m.unit < b.unit then some m else some b) (some b) = some (l.foldl lowerUnit b) := by
    induction l generalizing b with
    | nil => rfl
    | cons a l ih =>
      have ha : (if a.unit < b.unit then some a else some b) = some (lowerUnit b a) := (apply_ite some _ _ _).symm
      simp only [List.foldl_cons, ha, ih]
  exact hstep ms m

/-- The message that is kept is the first of those with the lowest UNIT (R444). -/
theorem foldl_lowerUnit (ms : List FaultMsg) (b : FaultMsg) : ∃ before after : List FaultMsg,
    b :: ms = before ++ ms.foldl lowerUnit b :: after ∧ (∀ x ∈ before, (ms.foldl lowerUnit b).unit < x.unit) ∧
      ∀ x ∈ after, (ms.foldl lowerUnit b).unit ≤ x.unit := by
  induction ms generalizing b with
  | nil => exact ⟨[], [], rfl, by simp, by simp⟩
  | cons m ms ih =>
    obtain ⟨before, after, heq, hbefore, hafter⟩ := ih (lowerUnit b m)
    rw [List.foldl_cons]
    generalize ms.foldl lowerUnit (lowerUnit b m) = k at *
    by_cases hm : m.unit < b.unit
    · have hk : lowerUnit b m = m := if_pos hm
      rw [hk] at heq
      have hle : k.unit ≤ m.unit := by
        have hmem : m ∈ before ++ k :: after := heq ▸ List.mem_cons_self
        rcases List.mem_append.mp hmem with h | h
        · exact Nat.le_of_lt (hbefore m h)
        · rcases List.mem_cons.mp h with rfl | h
          · exact Nat.le_refl _
          · exact hafter m h
      refine ⟨b :: before, after, by rw [heq, List.cons_append], ?_, hafter⟩
      exact List.forall_mem_cons.mpr ⟨Nat.lt_of_le_of_lt hle hm, hbefore⟩
    · have hk : lowerUnit b m = b := if_neg hm
      rw [hk] at heq
      cases before with
      | nil =>
        obtain ⟨rfl, rfl⟩ := List.cons.inj heq
        exact ⟨[], m :: ms, rfl, by simp, List.forall_mem_cons.mpr ⟨Nat.not_lt.mp hm, hafter⟩⟩
      | cons c before =>
        obtain ⟨rfl, rfl⟩ := List.cons.inj heq
        have hb := hbefore b List.mem_cons_self
        refine ⟨b :: m :: before, after, rfl, ?_, hafter⟩
        exact List.forall_mem_cons.mpr ⟨hb, List.forall_mem_cons.mpr
          ⟨Nat.lt_of_lt_of_le hb (Nat.not_lt.mp hm), fun x hx => hbefore x (List.mem_cons_of_mem _ hx)⟩⟩

/-! #### Acceptance, the log and the capture -/

theorem completes_faultMessage_held {s : State} {m : FaultMsg} (h : nextHeld s.faults.held = some m) :
    Completes (.faultMessage none) s
      (({ s with faults := { s.faults with held := s.faults.held.erase m } } : State).acceptMessage m) := by
  refine completes_of_done ?_
  simp only [exec, execFaultMessage, h]

theorem completes_faultMessage_idle {s : State} (h : s.faults.held = []) : Completes (.faultMessage none) s s := by
  refine completes_of_done ?_
  simp only [exec, execFaultMessage, h, nextHeld_nil]

theorem State.unitNotes_plain {s : State} {m : FaultMsg} {u : Nat} (hu : m.unit = u) (hlisted : unitListed u = true)
    (hbit : unitBit m.kind = none) (hcell : 128 ≤ u) :
    s.unitNotes m = (((s.setSticky u m.sev).bump Od.unit_MESSAGES u).set Od.unit_LAST u (FaultMsg.word m)).set Od.unit_LAST_AT u
      (RTime.word ((s.setSticky u m.sev).now 0)) := by
  have hnow : ((s.setSticky u m.sev).bump Od.unit_MESSAGES u).now 0 = (s.setSticky u m.sev).now 0 := by
    rw [State.now, State.dom, State.bump_raster, State.now, State.dom]
  have hno : ¬ (u < 128 ∧ 2 ≤ m.sev) := by omega
  simp only [State.unitNotes, hu, hlisted, hbit, if_true, if_neg hno]

theorem State.mergeEntry_first {s : State} {m : FaultMsg} {e : LogEntry} (es : List LogEntry) (h : s.repeats m e = true) :
    s.mergeEntry m (e :: es) = some ({ e with repeats := min 65535 (e.repeats + 1) } :: es, e.seq) := by
  rw [State.mergeEntry, if_pos h]

theorem State.logMessage_repeat {s : State} {m : FaultMsg} {top : List LogEntry} {n : Nat}
    (h : s.mergeEntry m (s.faults.log.take 16) = some (top, n)) :
    s.logMessage m = ({ s with faults := { s.faults with log := top ++ s.faults.log.drop 16 } }, n) := by
  rw [State.logMessage, h]

/-- The entry that a message newly logged gets. -/
def State.newEntry (s : State) (m : FaultMsg) : LogEntry :=
  { seq := s.faults.seq, msg := m, action := s.actionOf m, repeats := 0, at_ := s.now 0, uptime := s.uptimeNs }

/-- R450: a message that repeats none of the 16 newest is a new entry; LOG_LOST counts where 256 stand. -/
theorem State.logMessage_new {s : State} {m : FaultMsg} (h : ∀ e ∈ s.faults.log.take 16, s.repeats m e = false) :
    s.logMessage m =
      let u := if 256 ≤ s.faults.log.length then s.bump Od.fc_LOG_LOST else s
      ((({ u with faults := { u.faults with log := (s.newEntry m :: u.faults.log).take 256, seq := s.faults.seq + 1 } } : State).raise
        241), s.faults.seq) := by
  rw [State.logMessage, Laws.mergeEntry_none s m _ h]
  rfl

theorem State.logMessage_full {s : State} {m : FaultMsg} (h : ∀ e ∈ s.faults.log.take 16, s.repeats m e = false)
    (hfull : 256 ≤ s.faults.log.length) : s.logMessage m =
      ((({ s.bump Od.fc_LOG_LOST with faults := { (s.bump Od.fc_LOG_LOST).faults with
        log := (s.newEntry m :: (s.bump Od.fc_LOG_LOST).faults.log).take 256, seq := s.faults.seq + 1 } } : State).raise 241),
        s.faults.seq) := by
  rw [State.logMessage_new h, if_pos hfull]

theorem State.logMessage_room {s : State} {m : FaultMsg} (h : ∀ e ∈ s.faults.log.take 16, s.repeats m e = false)
    (hroom : s.faults.log.length < 256) : s.logMessage m =
      ((({ s with faults := { s.faults with log := s.newEntry m :: s.faults.log, seq := s.faults.seq + 1 } } : State).raise 241),
        s.faults.seq) := by
  have htake : (s.newEntry m :: s.faults.log).take 256 = s.newEntry m :: s.faults.log :=
    List.take_of_length_le (by rw [List.length_cons]; omega)
  rw [State.logMessage_new h, if_neg (Nat.not_le.mpr hroom)]
  simp only [htake]

theorem State.capture_of_low {s : State} {m : FaultMsg} (n : Nat) (h : m.sev < s.get Od.fc_CAPTURE_SEV) : s.capture m n = s :=
  if_pos h

theorem State.capture_of_empty {s : State} {m : FaultMsg} (n : Nat) (h : s.get Od.fc_CAPTURE_SEV ≤ m.sev)
    (hempty : s.flag Od.cap_VALID = false) : s.capture m n =
      (((((s.set Od.cap_VALID 0 1).set Od.cap_MESSAGE 0 (FaultMsg.word m)).set Od.cap_AT 0
        (RTime.word (s.now 0))).set Od.cap_UPTIME_NS 0 s.uptimeNs).set Od.cap_LOG_SEQ 0 n).set Od.cap_SEV_MAX 0 m.sev :=
  (if_neg (Nat.not_lt.mpr h)).trans (if_neg (Bool.eq_false_iff.mp hempty))

/-! #### Actions -/

/-- R448: the watchdog of a cell's row retires the cell. -/
theorem State.act_rowWatchdog {s : State} {m : FaultMsg} (hk : m.kind = 0x07) (hu : m.unit < 128) :
    s.act m = (s.noteCellFault m.unit).retireCell m.unit := by
  have hact : s.actionOf m = 1 := by simp [State.actionOf, kindAction, hk]
  simp only [State.act, hact, hk, if_pos hu]

theorem State.act_logOnly {s : State} {m : FaultMsg} (hk : m.kind = 0x40) : s.act m = s := by
  have hact : s.actionOf m = 0 := by simp [State.actionOf, kindAction, hk]
  simp only [State.act, hact]

theorem State.act_fatal {s : State} {m : FaultMsg} (hk : m.kind ∈ [0x52, 0x61, 0x70]) : s.act m = s.halt m := by
  have hact : s.actionOf m = 3 := by
    simp only [List.mem_cons, List.not_mem_nil, or_false] at hk
    rcases hk with hk | hk | hk <;> simp [State.actionOf, kindAction, hk]
  simp only [State.act, hact]

/-- R457: an engine that runs is HALTED by the message, which HALT_CAUSE keeps. -/
theorem State.halt_of_running {s : State} {m : FaultMsg} (hk : m.kind ≠ 0x70) (hrun : s.halted = false) :
    s.halt m = ({ ((List.range 512).foldl (fun t sid => t.haltStream sid) (s.bump Od.fc_GUARANTEE_BREACHES)).stopWork with
      halted := true } : State).set Od.fc_HALT_CAUSE 0 (FaultMsg.word m) := by
  rw [State.halt, if_neg hk]
  exact if_neg (by rw [State.bump_halted, hrun]; decide)

/-! #### Watchdogs (R449) -/

theorem completes_rowWatchdog_cell {cc : Fin 128} {s : State} {r : CellRow} (sid : Fin 512) (hrow : (s.cell cc).row = some r) :
    Completes (.rowWatchdogExpiry (.cell cc sid)) s
      (if r.point.sid = sid.val ∧ s.rowOverdue r then s.report cc 0x07 0 0xFF sid else s) := by
  refine completes_of_done ?_
  simp only [exec, execRowWatchdogExpiry, hrow]
  exact (apply_ite done _ _ _).symm

theorem completes_rowWatchdog_noRow {cc : Fin 128} {s : State} (sid : Fin 512) (hrow : (s.cell cc).row = none) :
    Completes (.rowWatchdogExpiry (.cell cc sid)) s s := by
  refine completes_of_done ?_
  simp only [exec, execRowWatchdogExpiry, hrow]

theorem completes_rowWatchdog_conditioner (ic : Fin 8) (sid : Fin 512) (s : State) :
    Completes (.rowWatchdogExpiry (.conditioner ic sid)) s
      (if ((s.stream sid).passes.any fun p => decide (p.ic = ic.val) && s.stripOverdue sid p) = true then
        s.report (144 + ic) 0x07 0 0xFF sid else s) :=
  completes_of_done (apply_ite done _ _ _).symm

theorem State.anyStripOverdue_iff (s : State) (ic sid : Nat) :
    ((s.stream sid).passes.any fun p => decide (p.ic = ic) && s.stripOverdue sid p) = true ↔
      ∃ p ∈ (s.stream sid).passes, p.ic = ic ∧ p.stripAt + 16 * s.stripCycles sid p < s.cycle := by
  simp [State.stripOverdue]

end Sys2Proof.Machine

namespace Sys2Proof.Proofs

open Sys2Proof.Machine Sys2Proof.Safety

/-- Settles O20, by induction on the messages held after the one kept so far. -/
theorem lowestUnitIsAcceptedFirst : Obligations.LowestUnitIsAcceptedFirst := by
  intro ms
  cases ms with
  | nil => exact ⟨fun h => absurd rfl h, fun m h => absurd h (by simp [nextHeld_nil])⟩
  | cons b ms =>
    refine ⟨fun _ => ⟨_, nextHeld_cons b ms⟩, fun m h => ?_⟩
    cases (nextHeld_cons b ms).symm.trans h
    exact foldl_lowerUnit ms b

/-- Settles O21: each clause is a branch of the collector's log, capture, unit notes or command fault. -/
theorem acceptingFaultMessages : Obligations.AcceptingFaultMessages :=
  ⟨fun _ _ h => completes_faultMessage_held h, fun _ h => completes_faultMessage_idle h, fun _ _ => completes_of_done rfl,
    fun _ _ => rfl, fun _ _ => ⟨fun h => if_neg h, fun h => if_pos h⟩, fun _ _ _ => State.unitNotes_plain,
    fun _ _ _ _ => State.logMessage_repeat, fun _ _ _ es => State.mergeEntry_first es, fun _ _ => State.logMessage_full,
    fun _ _ => State.logMessage_room, fun _ _ n => State.capture_of_low n, fun _ _ n => State.capture_of_empty n⟩

/-- Settles O23: the action of a kind, the halt's last two writes, and the watchdogs' limits. -/
theorem faultActions : Obligations.FaultActions := by
  refine ⟨fun _ _ => State.act_rowWatchdog, fun _ _ => State.act_logOnly, fun _ _ => State.act_fatal, fun s m hk hrun => ?_,
    fun cc sid s r hrow => ⟨fun hsid hover => ?_, fun h => ?_⟩, fun _ sid _ h => completes_rowWatchdog_noRow sid h,
    fun ic sid s => ⟨fun h => ?_, fun h => ?_⟩, fun _ => completes_of_done rfl⟩
  · rw [State.halt_of_running hk hrun]
    exact ⟨rfl, Laws.get_set_self ..⟩
  · exact (completes_rowWatchdog_cell sid hrow).congr (if_pos ⟨hsid, decide_eq_true hover⟩)
  · refine (completes_rowWatchdog_cell sid hrow).congr (if_neg fun ⟨hsid, hover⟩ => ?_)
    exact h.elim (· hsid) (Nat.not_le.mpr (of_decide_eq_true hover))
  · exact (completes_rowWatchdog_conditioner ic sid s).congr (if_pos ((s.anyStripOverdue_iff ic sid).mpr h))
  · refine (completes_rowWatchdog_conditioner ic sid s).congr (if_neg fun hany => ?_)
    obtain ⟨p, hp, hic, hlate⟩ := (s.anyStripOverdue_iff ic sid).mp hany
    exact absurd hlate (Nat.not_lt.mpr (h p hp hic))

end Sys2Proof.Proofs

/-! ### Where writes go and what follows them (R14, R27, R33, R40) -/

namespace Sys2Proof.Machine

open Sys2Proof.Safety

/-- A write-only object, and one whose write is an action, stores nothing. -/
theorem State.stage_action (s : State) {r : Row} (i v : Nat) (h : r.acc = .wo ∨ r ∈ actionRows) :
    s.stage s (numWriting r i v) = s :=
  if_pos (h.elim .inl fun h => .inr (.inr (.inr h)))

/-- An object whose write has no swap point: RW, or RWS while `direct` says so. -/
theorem State.stage_stored {s : State} {r : Row} {i v : Nat} (hv : v < r.modulus)
    (hacc : r.acc = .rw ∨ r.acc = .rws ∧ s.direct (r.base + i) = true) (hrow : r ∉ actionRows) (hty : r.ty ≠ .domain)
    (hplain : unreservedNum r v = v) : s.stage s (numWriting r i v) = stored s r i v := by
  have hnum : (numWriting r i v).num = v := Laws.writing_num hv
  have hstored : ¬ ((numWriting r i v).row.acc = .wo ∨ (numWriting r i v).row.acc = .cmd ∨
      (numWriting r i v).row.acc = .roClear ∨ (numWriting r i v).row ∈ actionRows) := by
    rcases hacc with h | ⟨h, -⟩ <;> simp [numWriting, writingOf, h, hrow]
  have hdirect : ¬ ((numWriting r i v).row.acc = .rws ∧ ¬ s.direct (numWriting r i v).index = true) := by
    rcases hacc with h | ⟨h, hd⟩
    · simp [numWriting, writingOf, h]
    · exact fun hn => hn.2 hd
  have hval : unreservedNum (numWriting r i v).row v = v := hplain
  rw [State.stage, if_neg hstored, if_neg (show ¬ (numWriting r i v).row.ty = .domain from hty)]
  simp only [hnum, if_neg hdirect, hval]
  rfl

/-- An RWS object with a swap point: its shadow (R27). -/
theorem State.stage_waits {s : State} {r : Row} {i v : Nat} (hv : v < r.modulus) (hacc : r.acc = .rws)
    (hrow : r ∉ actionRows) (hty : r.ty ≠ .domain) (hdirect : s.direct (r.base + i) = false) (hplain : unreservedNum r v = v) :
    s.stage s (numWriting r i v) = s.putShadow r i 0 v := by
  have h := Laws.stage_shadow s r i v hv hacc hrow hty hdirect
  rwa [hplain] at h

theorem State.direct_domain (s : State) (rd : Fin 8) : s.direct (Od.rd_ENABLE.base + rd) = !s.enabled rd := by
  have hlow : ¬ (0x3000 ≤ 0x2200 + rd.val ∧ 0x2200 + rd.val < 0x3C00) := by omega
  have hin : 0x2200 ≤ 0x2200 + rd.val ∧ 0x2200 + rd.val < 0x2208 := by omega
  have hsub : 0x2200 + rd.val - 0x2200 = rd.val := by omega
  show s.direct (0x2200 + rd.val) = _
  rw [State.direct, if_neg hlow, if_pos hin, hsub]

/-- Objects that belong to no stream, domain or port always have a swap point. -/
theorem State.direct_elsewhere (s : State) {n : Nat} (hstream : n < 0x3000 ∨ 0x3C00 ≤ n) (hdomain : n < 0x2200 ∨ 0x2208 ≤ n)
    (hport : n < 0x6080 ∨ 0x6380 ≤ n) : s.direct n = false := by
  rw [State.direct, if_neg (by omega), if_neg (by omega), if_neg (by omega), if_neg (by omega)]

/-! #### What follows the write of each row -/

section
variable (old t : State) (i v : Nat)

theorem State.follow_enable : State.follow old t (numWriting Od.rd_ENABLE i v) =
    if (numWriting Od.rd_ENABLE i v).num = 1 ∧ ¬ old.enabled i then t.startDomain i else t := by
  simp +decide only [State.follow, numWriting, writingOf, if_true, if_false]
  rfl

theorem State.follow_cellService : State.follow old t (numWriting Od.cell_OUT_OF_SERVICE i v) =
    t.serveCell i (numWriting Od.cell_OUT_OF_SERVICE i v).num := by
  simp +decide only [State.follow, numWriting, writingOf, isSetting, if_true, if_false]

theorem State.follow_conditionerService : State.follow old t (numWriting Od.ic_OUT_OF_SERVICE i v) =
    t.serveConditioner i (numWriting Od.ic_OUT_OF_SERVICE i v).num := by
  simp +decide only [State.follow, numWriting, writingOf, isSetting, if_true, if_false]

theorem State.follow_rapRequest : State.follow old t (numWriting Od.enc_RAP_REQUEST i v) =
    if (numWriting Od.enc_RAP_REQUEST i v).num = 1 ∧ ¬ t.streamShut i then t.setStream i { t.stream i with rapRequest := true }
    else t := by
  simp +decide only [State.follow, numWriting, writingOf, isSetting, if_true, if_false]
  rfl

theorem State.follow_clockForce : State.follow old t (numWriting Od.crown_CLOCK_FORCE i v) = t := by
  simp +decide only [State.follow, numWriting, writingOf, isSetting, if_false]

theorem State.follow_bankSelect : State.follow old t (numWriting Od.cs_BANK_SELECT i v) = t := by
  simp +decide only [State.follow, numWriting, writingOf, isSetting, if_false]

theorem State.follow_pictureRegion : State.follow old t (numWriting Od.mil_PICTURE_REGION i v) = t := by
  simp +decide only [State.follow, numWriting, writingOf, isSetting, if_false]

theorem State.follow_crownMask : State.follow old t (numWriting Od.st_CROWN_MASK i v) = State.planStream old t i true := by
  simp +decide only [State.follow, numWriting, writingOf, isSetting, if_true, if_false]
  rfl

theorem State.follow_poolEnable : State.follow old t (numWriting Od.pool_ENABLE i v) =
    t.servePool i (numWriting Od.pool_ENABLE i v).num := by
  simp +decide only [State.follow, numWriting, writingOf, isSetting, if_true, if_false]

theorem State.follow_hostMin : State.follow old t (numWriting Od.pool_HOST_MIN i v) = t.poolChanged i := by
  simp +decide only [State.follow, numWriting, writingOf, isSetting, if_true, if_false]

theorem State.follow_ingestMin : State.follow old t (numWriting Od.qg_INGEST_MIN i v) = t.poolChanged (t.get Od.qg_INGEST_POOL i) := by
  simp +decide only [State.follow, numWriting, writingOf, isSetting, if_true, if_false]

theorem State.follow_flush : State.follow old t (numWriting Od.qg_FLUSH i v) = t.flushGroup i (numWriting Od.qg_FLUSH i v).num := by
  simp +decide only [State.follow, numWriting, writingOf, isSetting, if_true, if_false]

theorem State.follow_gateApply : State.follow old t (numWriting Od.egr_GATE_APPLY i v) =
    if (numWriting Od.egr_GATE_APPLY i v).num = 1 then t.installGates i else t.removeGates i := by
  simp +decide only [State.follow, numWriting, writingOf, isSetting, if_true, if_false]

end

/-! #### Services -/

theorem State.serveCell_out {s : State} {cc : Nat} (h : s.cellState cc ≠ cellRetired) :
    s.serveCell cc 1 = (s.set Od.cell_STATE cc cellDraining).atBoundary cc :=
  if_neg h

theorem State.serveCell_back {s : State} {cc : Nat} (h : s.cellState cc = cellDraining) :
    s.serveCell cc 0 = (s.cellRest cc).refreshCell cc :=
  if_pos h

theorem State.serveConditioner_back {s : State} {ic : Nat} (h : ic ∉ s.faults.conditioners) :
    s.serveConditioner ic 0 = (s.set Od.ic_STATE ic 0).refreshConditioners :=
  if_neg fun hc => h (List.contains_iff_mem.mp hc)

theorem State.servePool_on {s : State} {p a : Nat} (hoff : s.poolOn p = false) (hspot : s.poolSpot p = some a) :
    s.servePool p 1 = s.openPool p a := by
  rw [State.servePool, if_pos rfl, if_neg (Bool.eq_false_iff.mp hoff), hspot]

theorem State.servePool_off {s : State} {p : Nat} (hon : s.poolOn p = true) :
    s.servePool p 0 = ((s.set Od.pool_ENABLE p 0).set Od.pool_BASE p 0).setFree p {} :=
  if_pos hon

end Sys2Proof.Machine

namespace Sys2Proof.Proofs

open Sys2Proof.Machine Sys2Proof.Safety

/-- Settles O26: each write is staged where its row says, and followed by its row's branch. -/
theorem writesOfUnits : Obligations.WritesOfUnits := by
  refine ⟨fun role rd s h hoff => ?_, fun role rd s h hon => ?_, fun role cc s h hcell => ?_, fun role cc s h hcell => ?_,
    fun role ic s h => ?_, fun role ic s h hic => ?_, fun role sid s h hshut => ?_, fun role cw v s h => ?_,
    fun role v s h => ?_, fun role v s h => ?_⟩
  · refine (completes_write h rfl (by decide)).congr (congrArg succeeded ?_)
    have hdirect : s.direct (Od.rd_ENABLE.base + rd) = true := by rw [State.direct_domain, hoff]; rfl
    rw [State.follow_enable, numWriting_num h, State.stage_stored h.1 (.inr ⟨rfl, hdirect⟩) (by decide) (by decide) rfl]
    exact if_pos ⟨rfl, Bool.eq_false_iff.mp hoff⟩
  · refine (completes_write h rfl (by decide)).congr (congrArg succeeded ?_)
    have hdirect : s.direct (Od.rd_ENABLE.base + rd) = false := by rw [State.direct_domain, hon]; rfl
    rw [State.follow_enable, numWriting_num h, State.stage_waits h.1 rfl (by decide) (by decide) hdirect rfl]
    exact if_neg fun hv => absurd hv.1 (by decide)
  · refine (completes_write h rfl (by decide)).congr (congrArg succeeded ?_)
    rw [State.follow_cellService, numWriting_num h, State.stage_stored h.1 (.inl rfl) (by decide) (by decide) rfl]
    exact State.serveCell_out hcell
  · refine (completes_write h rfl (by decide)).congr (congrArg succeeded ?_)
    rw [State.follow_cellService, numWriting_num h, State.stage_stored h.1 (.inl rfl) (by decide) (by decide) rfl]
    exact State.serveCell_back hcell
  · refine (completes_write h rfl (by decide)).congr (congrArg succeeded ?_)
    rw [State.follow_conditionerService, numWriting_num h, State.stage_stored h.1 (.inl rfl) (by decide) (by decide) rfl]
    rfl
  · refine (completes_write h rfl (by decide)).congr (congrArg succeeded ?_)
    rw [State.follow_conditionerService, numWriting_num h, State.stage_stored h.1 (.inl rfl) (by decide) (by decide) rfl]
    exact State.serveConditioner_back hic
  · refine (completes_write h rfl (by decide)).congr (congrArg succeeded ?_)
    rw [State.follow_rapRequest, numWriting_num h, State.stage_action s _ _ (.inl rfl)]
    exact if_pos ⟨rfl, Bool.eq_false_iff.mp hshut⟩
  · refine (completes_write h rfl (by decide)).congr (congrArg succeeded ?_)
    have hdirect := s.direct_elsewhere (n := 0x4080 + cw) (by omega) (by omega) (by omega)
    rw [State.follow_clockForce, State.stage_waits h.1 rfl (by decide) (by decide) hdirect rfl]
  · refine (completes_write h rfl (by decide)).congr (congrArg succeeded ?_)
    have hdirect := s.direct_elsewhere (n := 0x4100) (by omega) (by omega) (by omega)
    rw [State.follow_bankSelect, State.stage_waits h.1 rfl (by decide) (by decide) hdirect rfl]
  · refine (completes_write h rfl (by decide)).congr (congrArg succeeded ?_)
    have hdirect := s.direct_elsewhere (n := 0x2100) (by omega) (by omega) (by omega)
    rw [State.follow_pictureRegion, State.stage_waits h.1 rfl (by decide) (by decide) hdirect rfl]

/-- Settles O27, as O26. -/
theorem writesOfQueuesAndGates : Obligations.WritesOfQueuesAndGates := by
  refine ⟨fun role sid v s h => ?_, fun old s sid mask hshut => if_pos (.inl hshut), fun role p s a h hoff hspot => ?_,
    fun role p s h hon => ?_, fun role p v s h => ?_, fun role g v s h => ?_, fun role g mask s h => ?_, fun role p s h => ?_,
    fun role p s h => ?_⟩
  · refine (completes_write h rfl (by decide)).congr (congrArg succeeded ?_)
    rw [State.follow_crownMask, State.stage_stored h.1 (.inl rfl) (by decide) (by decide) rfl]
  · refine (completes_write h rfl (by decide)).congr (congrArg succeeded ?_)
    rw [State.follow_poolEnable, numWriting_num h, State.stage_action s _ _ (.inr (by decide))]
    exact State.servePool_on hoff hspot
  · refine (completes_write h rfl (by decide)).congr (congrArg succeeded ?_)
    rw [State.follow_poolEnable, numWriting_num h, State.stage_action s _ _ (.inr (by decide))]
    exact State.servePool_off hon
  · refine (completes_write h rfl (by decide)).congr (congrArg succeeded ?_)
    have hdirect := s.direct_elsewhere (n := 0x5200 + p) (by omega) (by omega) (by omega)
    rw [State.follow_hostMin, State.stage_waits h.1 rfl (by decide) (by decide) hdirect rfl]
  · refine (completes_write h rfl (by decide)).congr (congrArg succeeded ?_)
    have hdirect := s.direct_elsewhere (n := 0x5300 + g) (by omega) (by omega) (by omega)
    rw [State.follow_ingestMin, State.stage_waits h.1 rfl (by decide) (by decide) hdirect rfl]
    rfl
  · refine (completes_write h rfl (by decide)).congr (congrArg succeeded ?_)
    rw [State.follow_flush, numWriting_num h, State.stage_action s _ _ (.inl rfl)]
  · refine (completes_write h rfl (by decide)).congr (congrArg succeeded ?_)
    rw [State.follow_gateApply, numWriting_num h, State.stage_action s _ _ (.inl rfl)]
    exact if_pos rfl
  · refine (completes_write h rfl (by decide)).congr (congrArg succeeded ?_)
    rw [State.follow_gateApply, numWriting_num h, State.stage_action s _ _ (.inl rfl)]
    exact if_neg (by decide)

end Sys2Proof.Proofs

/-! ### The tests of a write in their order (R36, R50), and registers of BAR 0 (R418, R429) -/

namespace Sys2Proof.Machine

open Sys2Proof.Safety

/-- The state with the status that a write is answered. -/
def answered (s : State) (status : Nat) : State := { s with lastStatus := status }

theorem State.writeObject_notLive {s : State} (role : Nat) (a : Ask) (h : s.live = false) :
    s.writeObject role a = answered s Status.notReady :=
  if_pos (Bool.eq_false_iff.mp h)

/-- A write that fails one of the tests 1 to 5 is answered its status; one that is denied counts. -/
theorem State.writeObject_refused {s : State} {role : Nat} {a : Ask} {st : Nat} (hlive : s.live = true)
    (h : plainTest role false a = .inl st) :
    s.writeObject role a = answered (if st = Status.denied then s.bump Od.iop_DENIED_COUNT else s) st := by
  rw [State.writeObject, if_neg (not_not_intro hlive)]
  simp only [h]
  rfl

theorem State.writeObject_refused_plain {s : State} {role : Nat} {a : Ask} {st : Nat} (hlive : s.live = true)
    (h : plainTest role false a = .inl st) (hst : st ≠ Status.denied) : s.writeObject role a = answered s st := by
  rw [State.writeObject_refused hlive h, if_neg hst]

/-- A write that fails the range or a binding rule is answered its status. -/
theorem State.writeObject_late {s : State} {role : Nat} {a : Ask} {w : Writing} (hlive : s.live = true)
    (hplain : plainTest role false a = .inr w) (hcmd : w.row.acc ≠ .cmd) (hlate : s.lateTest (s.stage s w) w ≠ Status.ok) :
    s.writeObject role a =
      answered (s.noteRefusal (s.stage s w) w (s.lateTest (s.stage s w) w)) (s.lateTest (s.stage s w) w) := by
  rw [State.writeObject, if_neg (not_not_intro hlive)]
  simp only [hplain, if_neg hcmd, if_neg hlate]
  rfl

theorem plainTest_missing {role : Nat} {a : Ask} {st : Nat} (h : lookUp a.index a.sub = .inl st) :
    plainTest role false a = .inl st := by
  rw [plainTest, h]

section
variable {role : Nat} {a : Ask} {r : Row} {i j : Nat} (hlook : lookUp a.index a.sub = .inr (r, i, j))
include hlook

theorem plainTest_readOnly (hro : r.acc = .ro) : plainTest role false a = .inl Status.readOnly := by
  rw [plainTest, hlook]
  exact if_pos ⟨hro, fun h => absurd h.1 (by decide)⟩

variable (hro : r.acc ≠ .ro) (hcmd : r.acc ≠ .cmd)
include hro hcmd

/-- The tests of an object that may be written: role, type and length. -/
theorem plainTest_writable : plainTest role false a =
    if role < writeRole a.index a.sub then .inl Status.denied
    else if a.ty ≠ r.ty.code then .inl Status.typeMismatch
    else if ¬ lengthOk r a.value.length = true then .inl Status.length
    else .inr ⟨r, i, j, a.value⟩ := by
  rw [plainTest, hlook]
  simp only [hro, hcmd, false_and, if_false]

theorem plainTest_denied (h : role < writeRole a.index a.sub) : plainTest role false a = .inl Status.denied := by
  rw [plainTest_writable hlook hro hcmd, if_pos h]

variable (hrole : writeRole a.index a.sub ≤ role)
include hrole

theorem plainTest_type (h : a.ty ≠ r.ty.code) : plainTest role false a = .inl Status.typeMismatch := by
  rw [plainTest_writable hlook hro hcmd, if_neg (Nat.not_lt.mpr hrole), if_pos h]

theorem plainTest_length (hty : a.ty = r.ty.code) (h : lengthOk r a.value.length = false) :
    plainTest role false a = .inl Status.length := by
  rw [plainTest_writable hlook hro hcmd, if_neg (Nat.not_lt.mpr hrole), if_neg (not_not_intro hty), if_pos (Bool.eq_false_iff.mp h)]

theorem plainTest_passes (hty : a.ty = r.ty.code) (h : lengthOk r a.value.length = true) :
    plainTest role false a = .inr ⟨r, i, j, a.value⟩ := by
  rw [plainTest_writable hlook hro hcmd, if_neg (Nat.not_lt.mpr hrole), if_neg (not_not_intro hty), if_neg (not_not_intro h)]

end

section
variable {s t : State} {w : Writing}

theorem State.lateTest_range (h : s.rangeOk t w = false) : s.lateTest t w = Status.outOfRange :=
  if_pos (Bool.eq_false_iff.mp h)

theorem State.lateTest_binding (h : s.rangeOk t w = true) (h' : s.bindingOk t w = false) : s.lateTest t w = Status.inUse :=
  (if_neg (not_not_intro h)).trans (if_pos (Bool.eq_false_iff.mp h'))

theorem State.lateTest_ok (h : s.rangeOk t w = true) (h' : s.bindingOk t w = true) : s.lateTest t w = Status.ok :=
  (if_neg (not_not_intro h)).trans (if_neg (not_not_intro h'))

/-- A refusal leaves a note only of a debug token, or of settings that the binding rules refuse (R85, R488). -/
theorem State.noteRefusal_silent {status : Nat} (htoken : w.row ≠ Od.sec_DEBUG_TOKEN)
    (h : status = Status.outOfRange ∨ isSetting w = false) : s.noteRefusal t w status = s := by
  have hno : ¬ (status = Status.inUse ∧ isSetting w = true ∧ ¬ s.halted = true ∧ ¬ s.streamShut w.inst = true ∧
      s.streamState w.inst ≠ stAlias) := by
    rintro ⟨hst, hset, -⟩
    rcases h with h | h
    · exact absurd (h.symm.trans hst) (by decide)
    · exact absurd (h.symm.trans hset) (by decide)
  rw [State.noteRefusal, if_neg htoken, if_neg hno, ite_self]

end

/-! #### BAR 0 -/

/-- A 64-bit write of a channel's DESC_BASE (R423). -/
theorem State.writeBar0_descBase (s : State) (ch : Fin 32) (v : Nat) : s.writeBar0 (0x4000 + 64 * ch + 8) 8 v =
    if (s.dma ch).state = dmaStopped then s.setDma ch { s.dma ch with descBase := v / 32 * 32 } else s.misuseBar0 := by
  have hch : (0x4000 + 64 * ch.val + 8 - 0x4000) / 64 = ch.val := by omega
  have hreg : (0x4000 + 64 * ch.val + 8) % 64 = 8 := by omega
  have hdma : 0x4000 ≤ 0x4000 + 64 * ch.val + 8 ∧ 0x4000 + 64 * ch.val + 8 < 0x4800 := by omega
  rw [State.writeBar0, if_neg (by omega), if_neg (by omega), if_pos hdma]
  simp only [hch, hreg]

end Sys2Proof.Machine

namespace Sys2Proof.Proofs

open Sys2Proof.Machine Sys2Proof.Safety

theorem completes_objectWrite (role : Role) (index sub ty : Nat) (v : List Byte) (s : State) :
    Completes (.objectWrite (.object role index sub ty v)) s (s.writeObject (roleRank role) ⟨index, sub, ty, v⟩) :=
  completes_of_done rfl

/-- The clauses on an object that exists and may be written: type, length, range, binding rules and the commit. -/
theorem objectWrite_of_role {role : Role} {index sub : Nat} {r : Row} {i j : Nat} (ty : Nat) (v : List Byte) {s : State}
    (hlive : s.live = true) (hlook : lookUp index sub = .inr (r, i, j)) (hro : r.acc ≠ .ro) (hcmd : r.acc ≠ .cmd)
    (hrole : writeRole index sub ≤ roleRank role) :
    (ty ≠ r.ty.code → Completes (.objectWrite (.object role index sub ty v)) s (answered s Status.typeMismatch)) ∧
    (ty = r.ty.code → lengthOk r v.length = false →
      Completes (.objectWrite (.object role index sub ty v)) s (answered s Status.length)) ∧
    (ty = r.ty.code → lengthOk r v.length = true →
      let w : Writing := ⟨r, i, j, v⟩
      (s.rangeOk (s.stage s w) w = false → r ≠ Od.sec_DEBUG_TOKEN →
        Completes (.objectWrite (.object role index sub ty v)) s (answered s Status.outOfRange)) ∧
      (s.rangeOk (s.stage s w) w = true → s.bindingOk (s.stage s w) w = false → r ≠ Od.sec_DEBUG_TOKEN → isSetting w = false →
        Completes (.objectWrite (.object role index sub ty v)) s (answered s Status.inUse)) ∧
      (s.lateTest (s.stage s w) w ≠ Status.ok → Completes (.objectWrite (.object role index sub ty v)) s
        (answered (s.noteRefusal (s.stage s w) w (s.lateTest (s.stage s w) w)) (s.lateTest (s.stage s w) w))) ∧
      (s.rangeOk (s.stage s w) w = true → s.bindingOk (s.stage s w) w = true →
        Completes (.objectWrite (.object role index sub ty v)) s (succeeded (State.follow s (s.stage s w) w)))) := by
  have hc := completes_objectWrite role index sub ty v s
  refine ⟨fun hty => ?_, fun hty hlen => ?_, fun hty hlen => ?_⟩
  · exact hc.congr (State.writeObject_refused_plain hlive (plainTest_type hlook hro hcmd hrole hty) (by decide))
  · exact hc.congr (State.writeObject_refused_plain hlive (plainTest_length hlook hro hcmd hrole hty hlen) (by decide))
  · intro w
    have hplain : plainTest (roleRank role) false ⟨index, sub, ty, v⟩ = .inr w :=
      plainTest_passes hlook hro hcmd hrole hty hlen
    refine ⟨fun hrange htoken => ?_, fun hrange hbind htoken hset => ?_, fun hlate => ?_, fun hrange hbind => ?_⟩
    · have hlate := State.lateTest_range hrange
      have hw := State.writeObject_late hlive hplain hcmd (by rw [hlate]; decide)
      rw [hlate, State.noteRefusal_silent htoken (.inl rfl)] at hw
      exact hc.congr hw
    · have hlate := State.lateTest_binding hrange hbind
      have hw := State.writeObject_late hlive hplain hcmd (by rw [hlate]; decide)
      rw [hlate, State.noteRefusal_silent htoken (.inr hset)] at hw
      exact hc.congr hw
    · exact hc.congr (State.writeObject_late hlive hplain hcmd hlate)
    · exact hc.congr (State.writeObject_passes hlive hplain hcmd (State.lateTest_ok hrange hbind))

/-- Settles O25: the tests one after another; the rows of single objects are writes by definition. -/
theorem writesAreTested : Obligations.WritesAreTested := by
  refine ⟨fun role index sub ty v s hlive => ?_, fun role index sub ty v s st hlive hlook hst => ?_,
    fun role index sub ty v s r i j hlive hlook => ⟨fun hro => ?_, fun hro hcmd => ⟨fun hrole => ?_, fun hrole => ?_⟩⟩,
    fun role v s => ?_, fun s => ⟨completes_of_done rfl, completes_of_done rfl⟩,
    fun ch v s => ⟨fun hstop => ?_, fun hrun => ?_⟩,
    fun s => ⟨completes_of_done rfl, completes_of_done rfl, completes_of_done rfl, completes_of_done rfl,
      fun _ => completes_of_done rfl⟩⟩
  · exact (completes_objectWrite role index sub ty v s).congr (State.writeObject_notLive _ _ hlive)
  · exact (completes_objectWrite role index sub ty v s).congr
      (State.writeObject_refused_plain hlive (plainTest_missing hlook) hst)
  · exact (completes_objectWrite role index sub ty v s).congr
      (State.writeObject_refused_plain hlive (plainTest_readOnly hlook hro) (by decide))
  · exact (completes_objectWrite role index sub ty v s).congr
      (State.writeObject_refused hlive (plainTest_denied hlook hro hcmd hrole))
  · exact objectWrite_of_role ty v hlive hlook hro hcmd hrole
  · exact ⟨fun _ => rfl, fun _ => rfl, fun _ => rfl, fun _ => rfl, fun _ => rfl, fun _ => rfl, fun _ => rfl, fun _ => rfl,
      fun _ => rfl, rfl, rfl, rfl, rfl, rfl⟩
  · exact completes_of_done (congrArg done ((s.writeBar0_descBase ch v).trans (if_pos hstop)))
  · exact completes_of_done (congrArg done ((s.writeBar0_descBase ch v).trans (if_neg hrun)))

end Sys2Proof.Proofs

/-! ### Commands that are taken (R65), and raster time (R8–R31) -/

namespace Sys2Proof.Machine

open Sys2Proof.Safety

/-- A command that is taken and whose body answers: the result is attached to it. -/
theorem completes_answer {c : Instr} {s u v : State} {code r : Nat} {args d : List Byte}
    {body : State → State × Option (Nat × List Byte)} (htaken : Taken s code args u)
    (hexec : exec c s = done (s.runCommand code args body)) (hbody : body u = answer v r d) : Completes c s (v.attach code r d) :=
  completes_of_done (hexec.trans (congrArg done (Laws.runCommand_taken_answer htaken hbody)))

/-- A command that is taken and goes on. -/
theorem completes_goes {c : Instr} {s u v : State} {code : Nat} {args : List Byte}
    {body : State → State × Option (Nat × List Byte)} (htaken : Taken s code args u)
    (hexec : exec c s = done (s.runCommand code args body)) (hbody : body u = (v, none)) : Completes c s v :=
  completes_of_done (hexec.trans (congrArg done (Laws.runCommand_taken_goes htaken hbody)))

/-- A command that is taken, by what its body answers. -/
theorem completes_taken {c : Instr} {s u : State} {code : Nat} {args : List Byte}
    {body : State → State × Option (Nat × List Byte)} (htaken : Taken s code args u)
    (hexec : exec c s = done (s.runCommand code args body)) :
    (∀ v r d, body u = answer v r d → Completes c s (v.attach code r d)) ∧ (∀ v, body u = (v, none) → Completes c s v) :=
  ⟨fun _ _ _ => completes_answer htaken hexec, fun _ => completes_goes htaken hexec⟩

/-! #### Frames and lines -/

theorem completes_frameStart_disabled {rd : Fin 8} {s : State} (h : s.enabled rd = false) : Completes (.frameStart rd) s s :=
  completes_of_done (if_neg (Bool.eq_false_iff.mp h))

/-- FRAME_START enters the frame, and raises its event once (R22, R25). -/
theorem completes_frameStart {rd : Fin 8} {s : State} (h : s.enabled rd = true) :
    Completes (.frameStart rd) s (if notYet ((s.enterFrame rd).dom rd).startedTo ((s.enterFrame rd).now rd).frame = true then
      (s.enterFrame rd).frameEvent rd else s.enterFrame rd) :=
  completes_of_done (if_pos h)

theorem State.dom_setDom_self (s : State) (rd : Nat) (d : RasterDomain) : (s.setDom rd d).dom rd = d := Laws.tget_tput_self ..

theorem completes_lineMatch {rd : Fin 8} {s : State} (h : s.enabled rd = true)
    (hyet : notYet (s.dom rd).matchedTo (s.now rd).frame = true) :
    Completes (.lineMatch rd) s (s.lineEvent rd (s.now rd).frame) :=
  completes_of_done (if_pos ⟨h, hyet⟩)

theorem completes_lineMatch_nothing {rd : Fin 8} {s : State}
    (h : s.enabled rd = false ∨ notYet (s.dom rd).matchedTo (s.now rd).frame = false) : Completes (.lineMatch rd) s s :=
  completes_of_done (if_neg fun hn => by rcases h with h | h <;> simp [h] at hn)

/-- FRAMEs are compared modulo 2^40 (R10, R22). -/
theorem notYet_some_iff {a b : Nat} (ha : a < 2 ^ 40) (hb : b < 2 ^ 40) :
    notYet (some b) a = true ↔ 0 < (a + 2 ^ 40 - b) % 2 ^ 40 ∧ (a + 2 ^ 40 - b) % 2 ^ 40 < 2 ^ 39 := by
  have hmod : ((a : Int) - b) % ((2 ^ 40 : Nat) : Int) = ((a + 2 ^ 40 - b) % 2 ^ 40 : Nat) := by omega
  simp only [notYet, frameAfter, signedMod, decide_eq_true_eq, hmod]
  split <;> omega

/-! #### Scheduled events -/

theorem completes_rasterEventDue (rd : Fin 8) (s : State) : Completes (.rasterEventDue rd) s (s.eventDue rd) := completes_of_done rfl

theorem State.eventDue_none {s : State} {rd : Nat} (h : s.nextSched rd = none) : s.eventDue rd = s := by
  rw [State.eventDue, h]

theorem State.eventDue_some {s : State} {rd : Nat} {e : Sched} (h : s.nextSched rd = some e) :
    s.eventDue rd = if s.later rd (s.occursAt rd e.at_) (s.now rd) = true then s else s.runEvent e := by
  rw [State.eventDue, h]

theorem State.runEvent_swapNow (s : State) {e : Sched} {scope : Nat} (h : e.kind = .swapNow scope) :
    s.runEvent e = (s.unschedule e).swapScheduled scope := by
  rw [State.runEvent, h]

theorem State.runEvent_globalOp (s : State) {e : Sched} {id : Nat} (h : e.kind = .globalOp id) :
    s.runEvent e = (s.actOps id).unschedule e := by
  rw [State.runEvent, h]

/-- SWAP_NOW of a scope that exists runs as a command (R31). -/
theorem completes_swapNow {scope : Nat} {s u : State} (htaken : Taken s 0x10 (leBytes 2 scope) u)
    (hscope : scope < 128 ∨ scope = 0xFFFF) :
    (u.enabled (u.swapNowDomain scope) = true → Completes (.swapNow scope) s
      (({ u with raster := { u.raster with sched := u.raster.sched ++
        [(⟨u.swapNowDomain scope, u.nextLine (u.swapNowDomain scope), .swapNow scope⟩ : Sched)] } } : State).attach 0x10 Result.ok
          (leBytes 9 (RTime.word (u.nextLine (u.swapNowDomain scope)))))) ∧
    (u.enabled (u.swapNowDomain scope) = false → Completes (.swapNow scope) s (u.attach 0x10 Result.noSuchTarget [])) :=
  ⟨fun h => completes_answer htaken (if_pos hscope) (if_neg (not_not_intro h)),
    fun h => completes_answer htaken (if_pos hscope) (if_pos (Bool.eq_false_iff.mp h))⟩

/-! #### References -/

theorem State.locksTo_iff (s : State) (rd src : Nat) : s.locksTo rd src = true ↔ s.enabled rd = true ∧ (s.dom rd).src = src := by
  simp [State.locksTo]

theorem completes_edgeWindowClose_seen {rd : Fin 8} {s : State} (hlock : s.locksTo rd 1 = true) (hseen : (s.dom rd).edgeSeen = true) :
    Completes (.edgeWindowClose rd) s (s.setDom rd { s.dom rd with edgeSeen := false, misses := 0 }) :=
  completes_of_done ((if_pos hlock).trans (if_pos hseen))

/-- The window closes without an edge: a miss, and with MISS_LIMIT of them the reference is lost (R20). -/
theorem completes_edgeWindowClose_missed {rd : Fin 8} {s : State} (hlock : s.locksTo rd 1 = true)
    (hseen : (s.dom rd).edgeSeen = false) :
    Completes (.edgeWindowClose rd) s
      (if s.get Od.rd_MISS_LIMIT rd ≤ (s.dom rd).misses + 1 then
        (s.setDom rd { s.dom rd with misses := (s.dom rd).misses + 1 }).referenceLost rd
      else s.setDom rd { s.dom rd with misses := (s.dom rd).misses + 1 }) :=
  completes_of_done ((if_pos hlock).trans ((if_neg (Bool.eq_false_iff.mp hseen)).trans (apply_ite done _ _ _).symm))

theorem State.referenceLost_locked {s : State} {rd : Nat} (h : s.get Od.rd_LOCK_STATE rd = 2) : s.referenceLost rd =
    (s.setDom rd { s.dom rd with holdoverAt := s.cycle, slew := (s.dom rd).freq, slewEnd := none }).setLock rd 3 :=
  if_pos h

theorem State.referenceLost_unlocked {s : State} {rd : Nat} (h : s.get Od.rd_LOCK_STATE rd ≠ 2) : s.referenceLost rd = s := if_neg h

theorem State.ptpTakes_iff (s : State) (u : PtpUpdate) : s.ptpTakes u = true ↔ s.flag Od.ptp_PTP_ENABLE = true ∧
    u.port = s.get Od.ptp_PTP_PORT ∧ u.domain = s.get Od.ptp_PTP_DOMAIN ∧ u.mech = s.get Od.ptp_DELAY_MECH ∧
    (u.port < 128 → s.isBand u.port = false) := by
  simp only [State.ptpTakes, Bool.and_eq_true, decide_eq_true_eq, Bool.and_eq_false_imp, Bool.not_eq_true', and_assoc]

/-- What a PTP message that is taken shows (R17). -/
def State.showPtp (s : State) (u : PtpUpdate) : State :=
  ((s.setPtpState (u.state % 5)).setInt Od.ptp_MASTER_OFFSET 0 u.offsetNs).set Od.ptp_GM_IDENTITY 0 u.gm

theorem completes_ptpMessage_noTime {u : PtpUpdate} {s : State} (h : s.ptpTakes u = true) (htime : u.timeNs = none) :
    Completes (.ptpMessage u) s (s.showPtp u) := by
  refine completes_of_done ((if_pos h).trans ?_)
  simp only [htime]
  rfl

theorem completes_ptpMessage_time {u : PtpUpdate} {s : State} {t : Nat} (h : s.ptpTakes u = true) (htime : u.timeNs = some t) :
    Completes (.ptpMessage u) s (({ s.showPtp u with raster := { (s.showPtp u).raster with
      ptpTime := some ((s.showPtp u).cycle, t) } } : State).eachDomain State.ptpMeasures fun x rd => x.measure rd (x.ptpError rd t)) := by
  refine completes_of_done ((if_pos h).trans ?_)
  simp only [htime]
  rfl

/-- Leaving slave: every domain that locks to PTP loses its reference (R20). -/
theorem State.setPtpState_leaves {s : State} {st : Nat} (h : s.get Od.ptp_PTP_STATE = 3) (hst : st ≠ 3) :
    s.setPtpState st = ((s.set Od.ptp_PTP_STATE 0 st).raise 246).eachDomain (fun t rd => t.locksTo rd 2) State.referenceLost := by
  have hne : ¬ s.get Od.ptp_PTP_STATE = st := fun he => hst (he.symm.trans h)
  rw [State.setPtpState, if_neg hne]
  exact if_pos (decide_eq_true ⟨h, hst⟩)

/-! #### Jumps -/

theorem completes_rasterJump {rd : Fin 8} {s : State} (hon : s.enabled rd = true) (hdue : (s.dom rd).jumpDue = true)
    (hlock : s.get Od.rd_LOCK_STATE rd = 1) :
    let v := (s.cutEvents rd ⟨s.jumpFrame rd, 0, 0⟩).foldl (fun t e => t.runCut rd (s.now rd) e) s
    Completes (.rasterJump rd (s.jumpFrame rd)) s ((List.range 128).foldl (fun u p => if u.portDomain p = rd then u.passGate p else u)
      (((v.setDom rd ((v.dom rd).land (s.jumpFrame rd))).bump Od.rd_LOCK_EVENTS rd).jumpShapers rd)) :=
  completes_of_done (if_pos ⟨hon, hdue, hlock, rfl⟩)

end Sys2Proof.Machine

namespace Sys2Proof.Proofs

open Sys2Proof.Machine Sys2Proof.Safety

/-- Settles O3: the branches of FRAME_START and LINE_MATCH; a frame's numbers are compared by `omega`. -/
theorem frameAndLineEvents : Obligations.FrameAndLineEvents := by
  refine ⟨fun rd s hon => ?_, fun rd s hon => ⟨fun h => completes_lineMatch hon h, fun h => completes_lineMatch_nothing (.inr h)⟩,
    fun rd s hoff => ⟨completes_frameStart_disabled hoff, completes_lineMatch_nothing (.inl hoff)⟩,
    fun a => ⟨rfl, fun b hb ha => notYet_some_iff ha hb⟩, by decide⟩
  intro d t f u v
  have hstarted : ((s.enterFrame rd).dom rd).startedTo = d.startedTo := by rw [State.enterFrame, State.dom_setDom_self]
  have hc := completes_frameStart hon
  rw [hstarted] at hc
  refine ⟨fun hyet => hc.congr ((if_pos hyet).trans ?_), fun hyet => hc.congr (if_neg (Bool.eq_false_iff.mp hyet))⟩
  rfl

/-- Settles O4: the first event of the list runs or waits, and SWAP_NOW's body has two answers. -/
theorem scheduledEvents : Obligations.ScheduledEvents := by
  refine ⟨fun rd s t => ⟨fun h => if_pos h, fun h => if_neg (Nat.not_le.mpr h)⟩, fun rd s e he hdue => ?_, fun rd s e he hlate => ?_,
    fun rd s he => ?_, fun scope s u htaken hscope => completes_swapNow htaken hscope, fun scope s h h' => ?_⟩
  · have hc := (completes_rasterEventDue rd s).congr ((State.eventDue_some he).trans (if_neg (Bool.eq_false_iff.mp hdue)))
    exact ⟨fun scope hk => hc.congr (s.runEvent_swapNow hk), fun id hk => hc.congr (s.runEvent_globalOp hk)⟩
  · exact (completes_rasterEventDue rd s).congr ((State.eventDue_some he).trans (if_pos hlate))
  · exact (completes_rasterEventDue rd s).congr (State.eventDue_none he)
  · exact completes_of_done (if_neg (by omega))

/-- Settles O5: an edge is taken by each domain in turn, and a window closes with or without one. -/
theorem referenceEdges : Obligations.ReferenceEdges := by
  refine ⟨fun _ _ _ => completes_of_done rfl, fun rd s hon hsrc => ?_, fun rd s h => completes_of_done (if_neg fun hlock => ?_)⟩
  · have hlock := (s.locksTo_iff rd 1).mpr ⟨hon, hsrc⟩
    refine ⟨fun hseen => completes_edgeWindowClose_seen hlock hseen, fun hseen => ?_⟩
    have hc := completes_edgeWindowClose_missed hlock hseen
    refine ⟨fun h => hc.congr ?_, fun hmiss hstate => hc.congr ((if_pos hmiss).trans (State.referenceLost_locked hstate))⟩
    by_cases hmiss : s.get Od.rd_MISS_LIMIT rd ≤ (s.dom rd).misses + 1
    · have hstate := h.resolve_left (Nat.not_lt.mpr hmiss)
      exact (if_pos hmiss).trans (State.referenceLost_unlocked hstate)
    · exact if_neg hmiss
  · obtain ⟨hon, hsrc⟩ := (s.locksTo_iff rd 1).mp hlock
    exact h.elim (fun hoff => absurd (hon.symm.trans hoff) (by decide)) (· hsrc)

/-- Settles O6: a message that is taken, one that is not, and the tests of the two other rows. -/
theorem ptpAndHoldover : Obligations.PtpAndHoldover := by
  refine ⟨fun u s hon hport hdom hmech hband hst => ?_, fun u s h => completes_of_done (if_neg fun htakes => ?_),
    fun st s hon hslave hst hne => ?_, fun st s h => completes_of_done (if_neg fun hn => ?_),
    fun rd s hon hstate hfall hpassed => completes_of_done (if_pos ⟨hon, hstate, hfall, decide_eq_true hpassed⟩),
    fun rd s h => completes_of_done (if_neg fun ⟨hon, hstate, hfall, hpassed⟩ => ?_)⟩
  · have htakes := (s.ptpTakes_iff u).mpr ⟨hon, hport, hdom, hmech, hband⟩
    have hshow : s.showPtp u = ((s.setPtpState u.state).setInt Od.ptp_MASTER_OFFSET 0 u.offsetNs).set Od.ptp_GM_IDENTITY 0 u.gm := by
      rw [State.showPtp, Nat.mod_eq_of_lt hst]
    exact ⟨fun htime => (completes_ptpMessage_noTime htakes htime).congr hshow,
      fun t htime => (completes_ptpMessage_time htakes htime).congr (hshow ▸ rfl)⟩
  · obtain ⟨hon, hport, hdom, hmech, hband⟩ := (s.ptpTakes_iff u).mp htakes
    rcases h with h | h | h | h | ⟨hlow, h⟩
    · exact absurd (hon.symm.trans h) (by decide)
    · exact h hport
    · exact h hdom
    · exact h hmech
    · exact absurd (h.symm.trans (hband hlow)) (by decide)
  · have hmod : st % 5 = st := Nat.mod_eq_of_lt hst
    exact completes_of_done ((if_pos ⟨hon, hslave, hmod.symm ▸ hne⟩).trans
      (congrArg done (hmod.symm ▸ State.setPtpState_leaves hslave hne)))
  · obtain ⟨hon, hslave, hst⟩ := hn
    rcases h with h | h | h
    · exact absurd (hon.symm.trans h) (by decide)
    · exact h hslave
    · exact hst h
  · have hpassed := of_decide_eq_true hpassed
    rcases h with h | h | h | h
    · exact absurd (hon.symm.trans h) (by decide)
    · exact h hstate
    · exact hfall h
    · exact absurd hpassed (Nat.not_le.mpr h)

/-- Settles O7: a jump that is due, one that is not, and the two branches of a swap point. -/
theorem jumpsAndSwapPoints : Obligations.JumpsAndSwapPoints := by
  refine ⟨fun rd s hon hdue hlock => completes_rasterJump hon hdue hlock, fun rd f s h => completes_of_done (if_neg fun hn => ?_),
    fun rd s landing h => if_neg (Bool.eq_false_iff.mp h), fun sc s h => completes_of_done (if_pos h),
    fun sc s h => completes_of_done (if_neg (Bool.eq_false_iff.mp h))⟩
  obtain ⟨hon, hdue, hlock, hframe⟩ := hn
  rcases h with h | h | h | h
  · exact absurd (hon.symm.trans h) (by decide)
  · exact absurd (hdue.symm.trans h) (by decide)
  · exact h hlock
  · exact h hframe

end Sys2Proof.Proofs

/-! ### Carding (R358–R372) -/

namespace Sys2Proof.Machine

open Sys2Proof.Safety

/-! #### Epochs, heartbeats and timeouts -/

theorem completes_cardRestart_newer {p : Fin 128} {e : Nat} {s : State} (hband : s.cardBand p = true) (he : s.get Od.card_EPOCH < e) :
    Completes (.cardRestart p e) s (s.takeEpoch e (some p.val)) :=
  completes_of_done (if_pos ⟨hband, he⟩)

theorem completes_cardRestart_older {p : Fin 128} {e : Nat} {s : State} (h : s.cardBand p = false ∨ e ≤ s.get Od.card_EPOCH) :
    Completes (.cardRestart p e) s s :=
  completes_of_done (if_neg fun hn => by grind)

/-- The root of a CARDED fabric counts HB_SEQ on when its time has come (R372). -/
theorem State.beatDue_iff (s : State) : s.beatDue = true ↔ ∀ a, s.card.tickAt = some a → a + msCycles 10 ≤ s.cycle := by
  unfold State.beatDue
  cases s.card.tickAt <;> simp

theorem State.offerDue_iff (s : State) : s.offerDue = true ↔
    ∀ a, s.card.offerAt = some a → a + msCycles (if s.get Od.card_CARD_STATE = 1 then 1 else 10) ≤ s.cycle := by
  unfold State.offerDue
  cases s.card.offerAt <;> simp

theorem completes_heartbeatMiss_nothing {s : State} (h : s.get Od.card_CARD_STATE ≠ 2 ∨ s.get Od.card_DEPTH = 0 ∨ s.card.grafting = true ∨
    s.cycle < s.card.hbAt + msCycles (10 * s.get Od.card_HEARTBEAT_MISS)) : Completes .heartbeatMiss s s :=
  completes_of_done (if_neg fun hn => by grind)

theorem completes_heartbeatTick_nothing {s : State} (h : s.get Od.card_CARD_STATE ≠ 2 ∨ s.get Od.card_DEPTH ≠ 0 ∨
    (∃ a, s.card.tickAt = some a ∧ s.cycle < a + msCycles 10)) : Completes .heartbeatTick s s :=
  completes_of_done (if_neg fun hn => by grind [s.beatDue_iff])

@[simp] theorem State.setCardState_card (s : State) (v : Nat) : (s.setCardState v).card = s.card := by
  unfold State.setCardState
  split <;> simp [State.card]

/-- What a failure of carding shows (R364, R368). -/
def State.showCardFailure (s : State) (cause : Nat) : State :=
  ((s.set Od.card_FAIL_CAUSE 0 cause).setCardState 4).reportInfo 291 0x38 cause

@[simp] theorem State.showCardFailure_card (s : State) (cause : Nat) : (s.showCardFailure cause).card = s.card := by
  rw [State.showCardFailure, State.card, State.reportInfo_fabric]
  exact State.setCardState_card _ _

theorem State.cardFails_alone {s : State} {cause result : Nat} (h : s.card.starting = false) :
    s.cardFails cause result = s.showCardFailure cause :=
  if_neg (by rw [← State.showCardFailure_card s cause] at h; exact Bool.eq_false_iff.mp h)

/-- A failure of carding answers the CARD_START that began it (R368). -/
theorem State.cardFails_starting {s : State} {cause result : Nat} (h : s.card.starting = true) :
    s.cardFails cause result = ((s.showCardFailure cause).setCard
      { (s.showCardFailure cause).card with starting := false }).finishCommand 0x41 result [] :=
  if_pos (by rw [← State.showCardFailure_card s cause] at h; exact h)

/-- CARD_TIMEOUT has passed: a device that has sent a JOIN is ISOLATED; carding of another one fails (R368, R369). -/
theorem completes_cardTimeoutExpiry {s : State} (hstate : s.get Od.card_CARD_STATE = 1)
    (hpassed : s.card.epochAt + msCycles (s.get Od.card_CARD_TIMEOUT) ≤ s.cycle) :
    Completes .cardTimeoutExpiry s
      (if s.card.joining = true then (s.setCardState 3).reportInfo 291 0x39 0 else s.cardFails 4 Result.timeout) :=
  completes_of_done ((if_pos ⟨hstate, hpassed⟩).trans (apply_ite done _ _ _).symm)

/-! #### Offers, children and counts -/

/-- An OFFER of another fabric, whose address and root or epoch differ (R370). -/
def State.foreignOffer (s : State) (o : CardOffer) : Prop := s.get Od.card_CARD_STATE = 2 ∧ o.addr ≠ 0xFFFF ∧
  (o.root ≠ s.get Od.card_ROOT_SERIAL ∨ o.epoch ≠ s.get Od.card_EPOCH)

theorem State.takeOffer_foreign {s : State} {p : Nat} {o : CardOffer} (hband : s.cardBand p = true) (h : s.foreignOffer o) :
    s.takeOffer p o = s.noteNeighbour p o :=
  (if_neg (not_not_intro hband)).trans (if_pos h)

theorem State.takeOffer_newer {s : State} {p : Nat} {o : CardOffer} (hband : s.cardBand p = true) (h : ¬ s.foreignOffer o)
    (he : s.get Od.card_EPOCH < o.epoch) : s.takeOffer p o = ((s.takeEpoch o.epoch (some p)).noteNeighbour p o).adopt :=
  (if_neg (not_not_intro hband)).trans ((if_neg h).trans (if_pos he))

theorem State.takeOffer_older {s : State} {p : Nat} {o : CardOffer} (hband : s.cardBand p = true) (h : ¬ s.foreignOffer o)
    (he : o.epoch < s.get Od.card_EPOCH) : s.takeOffer p o = s :=
  (if_neg (not_not_intro hband)).trans ((if_neg h).trans ((if_neg (Nat.lt_asymm he)).trans (if_pos he)))

/-- The parent's HB_SEQ has moved: the heartbeat is refreshed (R372). -/
def State.refreshBeat (s : State) (p : Nat) (o : CardOffer) : State :=
  if s.get Od.card_PARENT_PORT = p ∧ o.hbSeq ≠ s.card.hbSeq then s.setCard { s.card with hbSeq := o.hbSeq, hbAt := s.cycle } else s

theorem State.refreshBeat_get (s : State) (p : Nat) (o : CardOffer) (r : Row) : (s.refreshBeat p o).get r = s.get r := by
  unfold State.refreshBeat
  split <;> rfl

/-- An OFFER of this epoch (R362, R372). -/
theorem State.takeOffer_same {s : State} {p : Nat} {o : CardOffer} (hband : s.cardBand p = true) (h : ¬ s.foreignOffer o)
    (he : o.epoch = s.get Od.card_EPOCH) : s.takeOffer p o =
      let v := (s.noteNeighbour p o).refreshBeat p o
      if s.get Od.card_CARD_STATE = 2 then if s.get Od.card_PARENT_PORT = p then v.set Od.card_DEPTH 0 (o.dist + 1) else v
      else v.adopt := by
  have hget : ∀ r, ((s.noteNeighbour p o).refreshBeat p o).get r = s.get r := fun r =>
    ((s.noteNeighbour p o).refreshBeat_get p o r).trans rfl
  refine ((if_neg (not_not_intro hband)).trans ((if_neg h).trans ((if_neg (Nat.not_lt.mpr (Nat.le_of_eq he))).trans (if_neg (Nat.not_lt.mpr (Nat.le_of_eq he.symm)))))).trans ?_
  simp only [← hget]
  rfl

/-- The OFFERs of the present time go out on every band but those to another fabric (R362, R370). -/
def State.sendOffers (s : State) : State :=
  let x := s.setCard { s.card with offerAt := some s.cycle }
  x.sendCards (x.cardBands.filter fun p => !x.foreignBand p) x.offerMsg

theorem completes_offerSendTimer {s : State} (hstate : s.get Od.card_CARD_STATE ≠ 0) (hdue : s.offerDue = true) :
    Completes .offerSendTimer s (match s.sendOffers.card.parent with
      | some n => s.sendOffers.sendCard n.port s.sendOffers.childMsg
      | none => s.sendOffers) := by
  refine completes_of_done ((if_neg fun h => h.elim hstate (· hdue)).trans ?_)
  simp only [State.sendOffers]
  split <;> (rename_i h; simp only [h])

theorem State.takeChild_new {s : State} {p serial : Nat} (hband : s.cardBand p = true)
    (h : (s.card.children.find? fun c => c.serial = serial) = none) :
    s.takeChild p (s.get Od.card_EPOCH) serial = s.setCard { s.card with
      children := s.card.children ++ [⟨p, serial, none⟩], counts := none, changedAt := s.cycle } := by
  rw [State.takeChild, if_neg (by simp [hband]), h]

theorem State.takeChild_known {s : State} {p serial : Nat} {c : CardChildState} (hband : s.cardBand p = true)
    (h : (s.card.children.find? fun c => c.serial = serial) = some c) :
    s.takeChild p (s.get Od.card_EPOCH) serial = if p < c.port then s.setCard { s.card with
      children := mapIf (fun c : CardChildState => decide (c.serial = serial)) (fun c => { c with port := p }) s.card.children
      counts := none, changedAt := s.cycle } else s := by
  rw [State.takeChild, if_neg (by simp [hband]), h]

/-! #### The end of CARD_QUIET -/

/-- CARD_QUIET has passed and every child has counted. -/
def State.countDue (s : State) : Prop := s.get Od.card_CARD_STATE = 1 ∧ s.card.counts = none ∧
  (∀ c ∈ s.card.children, c.counts ≠ none) ∧ s.cardIsQuiet = true

/-- The COUNT of this device, by those of its children (R363). -/
def State.ownCount (s : State) : CardCounts := countsOf (s.get Od.card_EPOCH) (s.card.children.filterMap fun k => k.counts)

theorem State.countDue_iff (s : State) : s.countDue ↔ ¬ (s.get Od.card_CARD_STATE ≠ 1 ∨ s.card.counts.isSome ∨
    s.card.children.any (fun c => c.counts.isNone) ∨ ¬ s.cardIsQuiet) := by
  simp [State.countDue, Option.ne_none_iff_isSome]

theorem State.cardQuiet_early {s : State} (h : ¬ s.countDue) : s.cardQuiet = s :=
  if_pos (Classical.not_not.mp (mt s.countDue_iff.mpr h))

theorem State.cardQuiet_parent {s : State} {n : CardNeighbour} (hdue : s.countDue) (h : s.card.parent = some n) :
    s.cardQuiet = (s.setCard { s.card with counts := some s.ownCount }).sendCard n.port
      (leBytes 1 4 ++ leBytes 4 s.ownCount.epoch ++ leBytes 4 s.ownCount.need ++ leBytes 2 s.ownCount.devices ++
        leBytes 1 s.ownCount.height ++ leBytes 1 s.ownCount.diam) := by
  have hparent : (s.setCard { s.card with counts := some s.ownCount }).card.parent = some n := h
  rw [State.cardQuiet, if_neg (s.countDue_iff.mp hdue)]
  simp only [State.ownCount] at hparent ⊢
  rw [hparent]

/-- The root with its own COUNT and ADDR_NEED. -/
def State.counted (s : State) : State :=
  (s.setCard { s.card with counts := some s.ownCount }).set Od.card_ADDR_NEED 0 s.ownCount.need

/-- The root judges its own COUNT (R364, R365). -/
theorem State.cardQuiet_root {s : State} (hdue : s.countDue) (h : s.card.parent = none) :
    (∀ k, cardRefusal s.ownCount = some k → s.cardQuiet = s.counted.cardFails k Result.outOfRange) ∧
    (cardRefusal s.ownCount = none → s.cardQuiet =
      s.counted.installBlock 0 (clog2 s.ownCount.need) s.ownCount.devices s.ownCount.diam s.ownCount.height) := by
  have hparent : (s.setCard { s.card with counts := some s.ownCount }).card.parent = none := h
  rw [State.cardQuiet, if_neg (s.countDue_iff.mp hdue)]
  simp only [State.counted, State.ownCount] at hparent ⊢
  rw [hparent]
  exact ⟨fun k hk => by simp only [hk], fun hk => by simp only [hk]⟩

theorem cardRefusal_allowed {c : CardCounts} (hdev : c.devices ≤ 4096) (hdiam : c.diam ≤ 12) (hneed : c.need ≤ 32768) :
    cardRefusal c = none :=
  (if_neg (Nat.not_lt.mpr hdev)).trans ((if_neg (Nat.not_lt.mpr hdiam)).trans (if_neg (Nat.not_lt.mpr hneed)))

theorem cardRefusal_diam {c : CardCounts} (hdev : c.devices ≤ 4096) (hdiam : 12 < c.diam) : cardRefusal c = some 1 :=
  (if_neg (Nat.not_lt.mpr hdev)).trans (if_pos hdiam)

theorem cardRefusal_need {c : CardCounts} (hdev : c.devices ≤ 4096) (hdiam : c.diam ≤ 12) (hneed : 32768 < c.need) :
    cardRefusal c = some 3 :=
  (if_neg (Nat.not_lt.mpr hdev)).trans ((if_neg (Nat.not_lt.mpr hdiam)).trans (if_pos hneed))

/-! #### Joins and grafts -/

theorem completes_cardAssign_nothing {p : Fin 128} {a : CardAssign} {s : State}
    (h : a.epoch ≠ s.get Od.card_EPOCH ∨ s.get Od.card_PARENT_PORT ≠ p ∨ s.get Od.card_CARD_STATE ≠ 1) : Completes (.cardAssign p a) s s :=
  completes_of_done (congrArg done (if_neg fun ⟨he, hp, hs⟩ => h.elim (· he) (Or.elim · (· hp) (· hs))))

/-- A JOIN that is not too deep: an address is given here, or the JOIN travels on (R369). -/
theorem State.takeJoin_eq {s : State} {p serial : Nat} (hstate : s.get Od.card_CARD_STATE = 2) (hband : s.cardBand p = true)
    (hdepth : s.get Od.card_DEPTH + 1 + s.get Od.card_MAX_DEPTH ≤ 12) : s.takeJoin p serial =
      match s.freeAddress with
      | some a => (((s.setCard { s.card with joiners := s.card.joiners ++ [(a, serial)] }).addRoute
          (fabricRoute 2 16 p (a * 65536))).bump Od.card_GRAFTS).sendCard p (graftMsg (s.get Od.card_EPOCH) a 16 0 255)
      | none => match s.card.parent with
        | some n => (s.setCard { s.card with joinPorts := s.card.joinPorts ++ [p] }).sendCard n.port (leBytes 1 6 ++ leBytes 16 serial)
        | none => s := by
  rw [State.takeJoin, if_neg (by simp [hstate, hband]), if_neg (Nat.not_lt.mpr hdepth)]
  cases s.freeAddress <;> rfl

theorem State.takeJoin_deep {s : State} {p serial : Nat} (h : 12 < s.get Od.card_DEPTH + 1 + s.get Od.card_MAX_DEPTH) :
    s.takeJoin p serial = s := by
  rw [State.takeJoin, if_pos h, ite_self]

/-- A GRAFT of this epoch, by its role (R369, R371). -/
theorem State.takeGraft_eq {s : State} {p : Nat} {g : CardGraft} (he : g.epoch = s.get Od.card_EPOCH) (hband : s.cardBand p = true) :
    (g.role = 1 → s.takeGraft p g = s.graftAbove p g) ∧ (g.role = 2 → s.takeGraft p g = s.graftPath p g) ∧
      (g.role = 3 → s.takeGraft p g = s.graftDown g) := by
  have hn : ¬ (g.epoch ≠ s.get Od.card_EPOCH ∨ ¬ s.cardBand p) := by simp [he, hband]
  refine ⟨fun h => ?_, fun h => ?_, fun h => ?_⟩ <;> rw [State.takeGraft, if_neg hn] <;> simp +decide [h, graftJoin, graftRoute, graftUp, graftBelow]

theorem State.takeGraft_nothing {s : State} {p : Nat} {g : CardGraft} (h : g.epoch ≠ s.get Od.card_EPOCH ∨ s.cardBand p = false) :
    s.takeGraft p g = s :=
  if_pos (h.imp_right Bool.eq_false_iff.mp)

/-- A GRAFT for a device without an address gives it its own (R369). -/
theorem State.takeGraft_own {s : State} {p : Nat} {g : CardGraft} (he : g.epoch = s.get Od.card_EPOCH) (hband : s.cardBand p = true)
    (hrole : g.role = 0) (haddr : s.ownAddr = 0xFFFF) :
    let u := ((s.set Od.card_OWN_ADDR 0 g.block).set Od.card_BLOCK 0 (g.block * 65536)).addRoute
      (fabricRoute 1 16 0xFE (g.block * 65536))
    s.takeGraft p g = ((u.addRoute (fabricRoute 1 0 p 0)).setCard { u.card with joining := false, hbAt := u.cycle }).setCardState 2 :=
  (if_neg fun h => h.elim (· he) (· hband)).trans ((if_pos hrole).trans (if_pos haddr))

/-- A GRAFT for a JOIN that came this way goes on to its band (R369). -/
theorem State.takeGraft_join {s : State} {p q : Nat} {qs : List Nat} {g : CardGraft} (he : g.epoch = s.get Od.card_EPOCH)
    (hband : s.cardBand p = true) (hrole : g.role = 0) (haddr : s.ownAddr ≠ 0xFFFF) (hports : s.card.joinPorts = q :: qs) :
    s.takeGraft p g = (((s.setCard { s.card with joinPorts := qs }).addRoute (fabricRoute 2 16 q (g.block * 65536))).bump
      Od.card_GRAFTS).sendCard q (graftMsg g.epoch g.block 16 0 255) := by
  have hjoin : g.role = graftJoin := hrole
  rw [State.takeGraft, if_neg fun h => h.elim (· he) (· hband), if_pos hjoin, if_neg haddr, hports]
  rfl

/-! #### The end of GRAFT_WAIT (R371) -/

def State.graftEnded (s : State) : State := s.setCard { s.card with grafting := false, hbAt := s.cycle }

/-- The depth that a graft over a band would give the fabric. -/
def State.graftDepth (s : State) (b : GraftBand) : Nat :=
  b.farDist + 1 + b.depth + (s.card.counts.map fun c => c.height).getD 0 + s.get Od.card_MAX_DEPTH

/-- The band becomes the way up. -/
def State.turnUp (s : State) (b : GraftBand) : State :=
  let v := (((s.set Od.card_FABRIC_DIAMETER 0 (s.graftDepth b)).set Od.card_DEPTH 0 (b.farDist + 1 + b.depth)).addRoute
    (fabricRoute 2 0 b.toward.val 0)).set Od.card_PARENT_PORT 0 b.toward.val
  (v.setCard { v.card with
    parent := v.card.neighbours.find? fun n => n.port = b.toward.val
    children := v.card.children.filter fun c => c.port ≠ b.toward.val }).bump Od.card_GRAFTS

def State.blockGraft (s : State) : List Byte :=
  graftMsg (s.get Od.card_EPOCH) (bits (s.get Od.card_BLOCK) 16 16) (16 - bits (s.get Od.card_BLOCK) 0 8) 1 255

theorem State.graftEnds_eq {s : State} (bands : List GraftBand) (hgraft : s.card.grafting = true)
    (hpassed : s.card.graftAt + msCycles (s.get Od.card_GRAFT_WAIT) ≤ s.cycle) :
    (bestGraft bands = none → s.graftEnds bands = s.graftEnded) ∧
    (∀ b, bestGraft bands = some b →
      (12 < s.graftEnded.graftDepth b → s.graftEnds bands = s.graftEnded) ∧
      (s.graftEnded.graftDepth b ≤ 12 → s.graftEnds bands =
        (if b.depth = 0 then s.graftEnded.turnUp b else (s.graftEnded.turnUp b).sendCard b.toward.val
          (graftMsg (s.graftEnded.get Od.card_EPOCH) b.nearAddr 16 2 b.nearPort.val)).sendCard b.toward.val s.graftEnded.blockGraft)) := by
  have hdue : ¬ (¬ s.card.grafting ∨ s.cycle < s.card.graftAt + msCycles (s.get Od.card_GRAFT_WAIT)) := fun h =>
    h.elim (· hgraft) (Nat.not_lt.mpr hpassed)
  rw [State.graftEnds, if_neg hdue]
  refine ⟨fun hb => ?_, fun b hb => ⟨fun hfar => ?_, fun hnear => ?_⟩⟩
  · simp only [hb]
    rfl
  · simp only [hb]
    exact if_pos hfar
  · simp only [hb]
    exact if_neg (Nat.not_lt.mpr hnear)

theorem State.graftEnds_early {s : State} (bands : List GraftBand)
    (h : s.card.grafting = false ∨ s.cycle < s.card.graftAt + msCycles (s.get Od.card_GRAFT_WAIT)) : s.graftEnds bands = s :=
  if_pos (h.imp_left Bool.eq_false_iff.mp)

end Sys2Proof.Machine

namespace Sys2Proof.Proofs

open Sys2Proof.Machine Sys2Proof.Safety

/-- Settles O8: each message and each timer by its guard; an epoch is taken as `State.takeEpoch` says. -/
theorem cardingEpochs : Obligations.CardingEpochs := by
  refine ⟨fun p e s hband he => completes_cardRestart_newer hband he, fun p e s h => completes_cardRestart_older h,
    fun s x htaken => completes_goes htaken rfl rfl, fun mode s x hmode htaken => completes_answer htaken rfl (if_pos hmode),
    fun s => ⟨fun hstate hdepth hgraft hbeat => completes_of_done
      (if_pos ⟨hstate, hdepth, Bool.eq_false_iff.mp hgraft, hbeat⟩), completes_heartbeatMiss_nothing⟩,
    fun s => ⟨fun hstate hdepth hbeat => completes_of_done (if_pos ⟨hstate, hdepth, s.beatDue_iff.mpr hbeat⟩),
      completes_heartbeatTick_nothing⟩,
    fun s hstate hpassed => ?_, fun s h => completes_of_done (if_neg fun hn => by grind)⟩
  have hc := completes_cardTimeoutExpiry hstate hpassed
  exact ⟨fun hjoin => hc.congr (if_pos hjoin),
    fun hjoin halone => hc.congr ((if_neg (Bool.eq_false_iff.mp hjoin)).trans (State.cardFails_alone halone)),
    fun hjoin hstart => hc.congr ((if_neg (Bool.eq_false_iff.mp hjoin)).trans (State.cardFails_starting hstart))⟩

/-- Settles O9: an OFFER by its fabric and epoch, the send timer, and what CHILD and COUNT note. -/
theorem offersChildrenCounts : Obligations.OffersChildrenCounts := by
  refine ⟨fun p o s hband hown he => ?_, fun p o s hband =>
      ⟨fun h => completes_of_done (congrArg done (State.takeOffer_foreign hband h)),
        fun h he => completes_of_done (congrArg done (State.takeOffer_newer hband h he)),
        fun h he => completes_of_done (congrArg done (State.takeOffer_older hband h he))⟩,
    fun p o s h => completes_of_done (congrArg done (if_pos (Bool.eq_false_iff.mp h))),
    fun s => ⟨fun hstate hdue => completes_offerSendTimer hstate (s.offerDue_iff.mpr hdue),
      fun h => completes_of_done (if_pos ?_)⟩,
    fun p serial s hband => ⟨fun h => completes_of_done (congrArg done (State.takeChild_new hband h)), fun c h => ?_⟩,
    fun p e serial s h => completes_of_done (congrArg done (if_pos (h.imp_left Bool.eq_false_iff.mp))),
    fun p c s he => completes_of_done (congrArg done (if_neg (not_not_intro he))),
    fun p c s he => completes_of_done (congrArg done (if_pos he))⟩
  · have hc := completes_of_done (i := .cardOffer p o) (congrArg done (State.takeOffer_same hband hown he))
    exact ⟨fun hstate => hc.congr (if_neg hstate), fun hstate hport => hc.congr ((if_pos hstate).trans (if_pos hport)),
      fun hstate hport => hc.congr ((if_pos hstate).trans (if_neg hport))⟩
  · refine h.imp_right fun ⟨a, ha, hlt⟩ hdue => ?_
    exact absurd (s.offerDue_iff.mp hdue a ha) (Nat.not_le.mpr hlt)
  · have hc := completes_of_done (i := .cardChild p _ serial) (congrArg done (State.takeChild_known hband h))
    exact ⟨fun hlt => hc.congr (if_pos hlt), fun hle => hc.congr (if_neg (Nat.not_lt.mpr hle))⟩

/-- Settles O10: CARD_QUIET's end by parent and refusal, JOIN and GRAFT by what they meet, and the choice of GRAFT_WAIT. -/
theorem assignmentsJoinsAndGrafts : Obligations.AssignmentsJoinsAndGrafts := by
  refine ⟨fun s n hdue hparent => completes_of_done (congrArg done (State.cardQuiet_parent hdue hparent)), fun s hdue hparent => ?_,
    fun s h => completes_of_done (congrArg done (State.cardQuiet_early h)),
    fun e cs => ⟨rfl, fun h => ⟨if_pos h, if_pos h⟩, fun h => ⟨if_neg h, if_neg h⟩⟩,
    fun p a s => ⟨fun he hp hs => completes_of_done (congrArg done (if_pos ⟨he, hp, hs⟩)), completes_cardAssign_nothing⟩,
    fun p serial s hstate hband => ⟨fun h => completes_of_done (congrArg done (State.takeJoin_deep h)), fun hdepth => ?_⟩,
    fun p serial s h => completes_of_done (congrArg done (if_pos (h.imp_right Bool.eq_false_iff.mp))),
    fun p g s h => completes_of_done (congrArg done (State.takeGraft_nothing h)), fun p g s he hband => ?_,
    fun bands s hgraft hpassed => ?_, fun bands s h => completes_of_done (congrArg done (State.graftEnds_early bands h))⟩
  · obtain ⟨hfails, hok⟩ := State.cardQuiet_root hdue hparent
    exact ⟨fun hdev hdiam hneed => completes_of_done (congrArg done (hok (cardRefusal_allowed hdev hdiam hneed))),
      fun hdev => completes_of_done (congrArg done (hfails 2 (if_pos hdev))),
      fun hdev hdiam => completes_of_done (congrArg done (hfails 1 (cardRefusal_diam hdev hdiam))),
      fun hdev hdiam hneed => completes_of_done (congrArg done (hfails 3 (cardRefusal_need hdev hdiam hneed)))⟩
  · have hc := completes_of_done (i := .cardJoin p serial) (congrArg done (State.takeJoin_eq hstate hband hdepth))
    refine ⟨fun a ha => hc.congr ?_, fun n ha hn => hc.congr ?_, fun ha hn => hc.congr ?_⟩ <;> simp only [*]
  · obtain ⟨habove, hpath, hdown⟩ := State.takeGraft_eq (g := g) he hband
    refine ⟨fun hrole haddr => completes_of_done (congrArg done (State.takeGraft_own he hband hrole haddr)),
      fun q qs hrole haddr hports => completes_of_done (congrArg done (State.takeGraft_join he hband hrole haddr hports)),
      fun hrole hin => completes_of_done (congrArg done ((habove hrole).trans (if_pos hin))),
      fun hrole hin => ?_, fun hrole => completes_of_done (congrArg done (hpath hrole)),
      fun hrole => completes_of_done (congrArg done (hdown hrole))⟩
    have hc := completes_of_done (i := .cardGraft p g) (congrArg done ((habove hrole).trans (if_neg (Bool.eq_false_iff.mp hin))))
    exact ⟨fun hhere => hc.congr (if_pos hhere), fun hhere => hc.congr (if_neg (Bool.eq_false_iff.mp hhere))⟩
  · obtain ⟨hnone, hsome⟩ := State.graftEnds_eq bands hgraft hpassed
    refine ⟨fun hb => completes_of_done (congrArg done (hnone hb)), fun b hb => ?_⟩
    obtain ⟨hfar, hnear⟩ := hsome b hb
    exact ⟨fun h => completes_of_done (congrArg done (hfar h)),
      fun h hdepth => completes_of_done (congrArg done ((hnear h).trans (congrArg (State.sendCard · _ _) (if_pos hdepth)))),
      fun h hdepth => completes_of_done (congrArg done ((hnear h).trans (congrArg (State.sendCard · _ _) (if_neg hdepth))))⟩

end Sys2Proof.Proofs

/-! ### Forwarding tables (R377–R391) -/

namespace Sys2Proof.Machine

open Sys2Proof.Safety

/-! #### Learning (R383–R387) -/

theorem completes_learnApply {l : Learn} {ls : List Learn} {s : State} (h : s.fabric.learnQ = l :: ls) :
    Completes .learnApply s (({ s with fabric := { s.fabric with learnQ := ls } } : State).applyLearn l) :=
  completes_of_done (by simp only [exec, execLearnApply, h])

/-- The entry of a learn that is applied at this time. -/
def State.learntWord (s : State) (l : Learn) : Nat := emWord l.port l.target s.secondsClock 0xFF 0

theorem State.applyLearn_absent {s : State} {l : Learn} (h : (s.bump Od.tab_LEARNS).fabric.copy0.lookup l.key = none) :
    s.applyLearn l = (((s.bump Od.tab_LEARNS).insertEntry (2 ^ 71 + l.key) ((s.bump Od.tab_LEARNS).learntWord l)).getD
      ((s.bump Od.tab_LEARNS).bump Od.tab_LEARN_FAILS)) := by
  simp only [State.applyLearn, h, State.learntWord]
  cases State.insertEntry _ _ _ <;> rfl

/-- A learn whose key stands in the table, by the entry that it meets. -/
theorem State.applyLearn_found {s : State} {l : Learn} {i : Nat} {e : Nat × Nat}
    (h : (s.bump Od.tab_LEARNS).fabric.copy0.lookup l.key = some (i, e)) :
    let u := s.bump Od.tab_LEARNS
    s.applyLearn l =
      if ¬ emLearned e ∨ (emPort e = l.port ∧ (l.port ≠ 0xFC ∨ emTarget e = l.target)) then
        if emStatic e ∨ ¬ emLearned e then u.writeSlot i e.1 (setBits e.2 32 16 u.secondsClock) else u.writeSlot i e.1 (u.learntWord l)
      else if emCand e ≠ l.port ∨ (l.port = 0xFC ∧ tget u.fabric.candDev 0 i ≠ l.target) then
        let v := (u.writeSlot i e.1 (emWord (emPort e) (emTarget e) (emStamp e) l.port u.microClock)).bump Od.tab_MOVE_CANDIDATES
        { v with fabric := { v.fabric with candDev := tput v.fabric.candDev 0 i l.target } }
      else if u.get Od.tab_MOVE_HOLD ≤ (u.microClock + 2 ^ 24 - emCandTime e) % 2 ^ 24 then
        (u.writeSlot i e.1 (u.learntWord l)).bump Od.tab_MOVES
      else u := by
  simp only [State.applyLearn, h]
  rfl

/-! #### The shadow compare (R388) -/

/-- The engine whose copy failed. -/
theorem forwarding_engine (b : Bool) : Unit.forwarding (if b then 0 else 1) = if b then 157 else 158 := by
  cases b <;> rfl

theorem judge_same {learned d0 d1 : Bool} {m : CompareMeet} (hs : m.badShadow = false) (h0 : (d0 || m.bad0) = false)
    (h1 : (d1 || m.bad1) = false) : judge learned d0 d1 m = .same := by
  simp only [Bool.or_eq_false_iff] at h0 h1
  simp [judge, hs, h0, h1]

theorem judge_differs {learned d0 d1 : Bool} {m : CompareMeet} (hs : m.badShadow = false)
    (h : ((d0 || m.bad0) || (d1 || m.bad1)) = true) : judge learned d0 d1 m = if learned then .invalidate else .restore := by
  have h' : (d0 || d1 || m.bad0 || m.bad1) = true := by rw [← h]; ac_rfl
  simp [judge, hs, h']

theorem judge_lost {learned d0 d1 : Bool} {m : CompareMeet} (hs : m.badShadow = true) (h0 : m.bad0 = true) :
    judge learned d0 d1 m = .invalidate := by
  simp [judge, hs, h0]

theorem judge_reshadow {learned d0 d1 : Bool} {m : CompareMeet} (hs : m.badShadow = true) (h0 : m.bad0 = false) :
    judge learned d0 d1 m = .reshadow := by
  simp [judge, hs, h0]

/-- An exact-match slot of a copy takes a word. -/
def TableCopy.putEm (c : TableCopy) (slot : Nat) (e : Nat × Nat) : TableCopy :=
  { c with em := if e = (0, 0) then tdel c.em slot else tset c.em slot e }

/-- A longest-match slot of a copy takes an entry. -/
def TableCopy.putLpm (c : TableCopy) (slot : Nat) (e : LpmEntry) : TableCopy :=
  { c with lpm := if e = ⟨0, 0, 0⟩ then tdel c.lpm slot else tset c.lpm slot e }

/-- An exact-match slot differs in a copy, or cannot be read there. -/
def State.emDiffers (s : State) (c : TableCopy) (slot flip : Nat) (bad : Bool) : Bool :=
  (emSeen c slot flip != emRaw (tget s.fabric.shadow.em (0, 0) slot)) || bad

abbrev lpmWord (e : LpmEntry) : Nat := (e.w0 * 2 ^ 72 + e.w1) * 2 ^ 72 + e.w2

/-- A longest-match slot differs in a copy, or cannot be read there. -/
def State.lpmDiffers (s : State) (c : TableCopy) (slot flip : Nat) (bad : Bool) : Bool :=
  decide ((lpmWord (tget c.lpm ⟨0, 0, 0⟩ slot) ^^^ flip) ≠ lpmWord (tget s.fabric.shadow.lpm ⟨0, 0, 0⟩ slot)) || bad

/-- A repair of a slot counts and reports the engine whose copy failed. -/
def State.noteRestored (s : State) (d0 : Bool) (slot : Nat) : State :=
  (s.bump Od.tab_RESTORED).report (if d0 then 157 else 158) 0x28 4 0xFF slot

def State.noteInvalidated (s : State) (d0 : Bool) (slot : Nat) : State :=
  (s.bump Od.tab_INVALIDATED).report (if d0 then 157 else 158) 0x29 4 0xFF slot

theorem State.noteCompare_restore (s : State) (d0 : Bool) (slot : Nat) :
    s.noteCompare .restore (if d0 then 0 else 1) slot = s.noteRestored d0 slot := by
  rw [State.noteCompare, forwarding_engine, State.noteRestored]

theorem State.noteCompare_invalidate (s : State) (d0 : Bool) (slot : Nat) :
    s.noteCompare .invalidate (if d0 then 0 else 1) slot = s.noteInvalidated d0 slot := by
  rw [State.noteCompare, forwarding_engine, State.noteInvalidated]

/-- The compare of an exact-match slot, by its judgement. -/
theorem State.compareEm_eq (s : State) (slot : Nat) (m : CompareMeet) :
    let a := tget s.fabric.shadow.em (0, 0) slot
    let d0 := s.emDiffers s.fabric.copy0 slot m.flip0 m.bad0
    let d1 := s.emDiffers s.fabric.copy1 slot m.flip1 m.bad1
    let gone := (s.noteInvalidated d0 slot).clearSlot slot
    (m.badShadow = false → d0 = false → d1 = false → s.compareEm slot m = s) ∧
    (m.badShadow = false → (d0 || d1) = true → s.compareEm slot m =
      if emLearned a = true then gone else (s.noteRestored d0 slot).writeTables fun c => c.putEm slot a) ∧
    (m.badShadow = true → m.bad0 = true → s.compareEm slot m = gone) ∧
    (m.badShadow = true → m.bad0 = false → s.compareEm slot m =
      s.writeTables fun c => c.putEm slot (tget s.fabric.copy0.em (0, 0) slot)) := by
  refine ⟨fun hs h0 h1 => ?_, fun hs h => ?_, fun hs h0 => ?_, fun hs h0 => ?_⟩
  · simp only [State.compareEm, State.repairEm, judge_same hs h0 h1]
  · simp only [State.compareEm, State.repairEm, judge_differs hs h]
    cases emLearned (tget s.fabric.shadow.em (0, 0) slot)
    · exact congrArg (State.writeTables · _) (s.noteCompare_restore _ slot)
    · exact congrArg (State.clearSlot · slot) (s.noteCompare_invalidate _ slot)
  · simp only [State.compareEm, State.repairEm, judge_lost hs h0]
    exact congrArg (State.clearSlot · slot) (s.noteCompare_invalidate _ slot)
  · simp only [State.compareEm, State.repairEm, judge_reshadow hs h0]
    rfl

/-- The compare of a longest-match slot, by its judgement. -/
theorem State.compareLpm_eq (s : State) (slot : Nat) (m : CompareMeet) :
    let d0 := s.lpmDiffers s.fabric.copy0 slot m.flip0 m.bad0
    let d1 := s.lpmDiffers s.fabric.copy1 slot m.flip1 m.bad1
    (m.badShadow = false → d0 = false → d1 = false → s.compareLpm slot m = s) ∧
    (m.badShadow = false → (d0 || d1) = true → s.compareLpm slot m =
      (s.noteRestored d0 slot).writeTables fun c => c.putLpm slot (tget s.fabric.shadow.lpm ⟨0, 0, 0⟩ slot)) ∧
    (m.badShadow = true → m.bad0 = true → s.compareLpm slot m =
      (s.noteInvalidated d0 slot).writeTables fun c => { c with lpm := tdel c.lpm slot }) ∧
    (m.badShadow = true → m.bad0 = false → s.compareLpm slot m =
      s.writeTables fun c => c.putLpm slot (tget s.fabric.copy0.lpm ⟨0, 0, 0⟩ slot)) := by
  refine ⟨fun hs h0 h1 => ?_, fun hs h => ?_, fun hs h0 => ?_, fun hs h0 => ?_⟩
  · simp only [State.compareLpm]
    rw [judge_same hs h0 h1]
  · simp only [State.compareLpm]
    rw [judge_differs hs h]
    exact congrArg (State.writeTables · _) (s.noteCompare_restore _ slot)
  · simp only [State.compareLpm]
    rw [judge_lost hs h0]
    exact congrArg (State.writeTables · _) (s.noteCompare_invalidate _ slot)
  · simp only [State.compareLpm]
    rw [judge_reshadow hs h0]
    rfl

theorem completes_compareEm {slot : Nat} {s u : State} (m : CompareMeet) (hslot : slot < 66560) (h : s.compareEm slot m = u) :
    Completes (.shadowCompareStep true slot m) s u :=
  completes_of_done ((if_pos hslot).trans (congrArg done ((Laws.compareLap_same _ slot).trans h)))

theorem completes_compareLpm {slot : Nat} {s u : State} (m : CompareMeet) (hslot : slot < 4096) (h : s.compareLpm slot m = u) :
    Completes (.shadowCompareStep false slot m) s (u.compareLap false slot) :=
  completes_of_done ((if_pos hslot).trans (congrArg (fun t : State => done (t.compareLap false slot)) h))

/-! #### TABLE_SYNC (R390, R391) -/

/-- The command of a MODE. -/
def syncInstr (mode table base count : Nat) : Instr :=
  if mode = 0 then .tableSyncInsert table base count else if mode = 1 then .tableSyncDelete table base count
  else if mode = 2 then .tableSyncReplaceAll table base count else .tableSyncDump table base count

/-- What a MODE does with the table. -/
def syncBody (mode table base count : Nat) (s : State) : State × Option (Nat × List Byte) :=
  if mode < 3 then s.stageSync table base (count % 2 ^ 32) (decide (mode = 2)) (decide (mode = 1))
  else s.dumpTable table base (count % 2 ^ 32)

theorem exec_syncInstr {mode : Nat} (table base count : Nat) (s : State) (h : mode < 4) :
    exec (syncInstr mode table base count) s = done (s.runSync table mode base count (syncBody mode table base count)) := by
  match mode, h with
  | 0, _ => rfl
  | 1, _ => rfl
  | 2, _ => rfl
  | 3, _ => rfl

theorem completes_sync_answer {mode table base count r : Nat} {d : List Byte} {s u v : State} (hmode : mode < 4) (htable : table < 3)
    (htaken : Taken s 0x40 (syncArgs table mode base count) u) (h : syncBody mode table base count u = answer v r d) :
    Completes (syncInstr mode table base count) s (v.attach 0x40 r d) :=
  completes_answer htaken ((exec_syncInstr table base count s hmode).trans (congrArg done (if_neg (Nat.not_le.mpr htable)))) h

/-- The source of the records fails. -/
theorem State.stageSync_noSource {u t : State} {table base count r : Nat} {clear delete : Bool}
    (h : u.syncSource base (count * recordSize table) = (t, .inl r)) : u.stageSync table base count clear delete = answer t r := by
  simp only [State.stageSync, h]

/-- The set that a TABLE_SYNC stages behind what is staged. -/
def State.syncSet (t : State) (table : Nat) (bs : List Byte) (clear delete : Bool) : List Staged :=
  t.fabric.staged ++ (if clear then [stagedClear table] else []) ++ (pieces (recordSize table) bs).map (stagedOf table delete)

theorem State.stageSync_records {u t : State} {table base count : Nat} {bs : List Byte} {clear delete : Bool}
    (h : u.syncSource base (count * recordSize table) = (t, .inr bs)) : u.stageSync table base count clear delete =
      if ¬ (pieces (recordSize table) bs).all (fun b => delete || recordOk table b) then answer t Result.outOfRange
      else if (t.applyAll (t.syncSet table bs clear delete)).isNone then answer t Result.tableFull
      else answer { t with fabric := { t.fabric with staged := t.syncSet table bs clear delete } } Result.ok (leBytes 4 count) := by
  simp only [State.stageSync, h]
  rfl

theorem recordsOk_iff (mode table : Nat) (recs : List (List Byte)) :
    recs.all (fun b => decide (mode = 1) || recordOk table b) = true ↔ mode = 1 ∨ ∀ b ∈ recs, recordOk table b = true := by
  simp only [List.all_eq_true, Bool.or_eq_true, decide_eq_true_eq]
  by_cases h : mode = 1 <;> simp [h]

theorem syncBody_stage {mode count : Nat} (table base : Nat) (u : State) (hmode : mode < 3) (hcount : count < 2 ^ 32) :
    syncBody mode table base count u = u.stageSync table base count (decide (mode = 2)) (decide (mode = 1)) := by
  rw [syncBody, if_pos hmode, Nat.mod_eq_of_lt hcount]

theorem syncBody_unaligned {mode table base count : Nat} {u : State} (h : base % 4096 ≠ 0) :
    syncBody mode table base count u = answer u Result.alignment := by
  rw [syncBody]
  split
  · exact State.stageSync_noSource (if_pos h)
  · exact if_pos h

/-- A dump into whole pages of a region (R390). -/
theorem State.dumpTable_region {u : State} {table base count : Nat} (halign : base % 4096 = 0)
    (hregion : (u.regionAt base (roundUp 4096 (count * recordSize table))).isSome)
    (hpicture : u.touchesPicture base (roundUp 4096 (count * recordSize table)) = false) :
    let recs := (u.tableRecords table).take count
    u.dumpTable table base count = answer
      (if padPage recs.flatten = [] then u else (u.hbmWrite 157 base (padPage recs.flatten) ⟨[], 0, 0, []⟩).1)
      Result.ok (leBytes 4 recs.length) :=
  (if_neg (not_not_intro halign)).trans (if_neg (by simp [Option.isNone_iff_eq_none, ← Option.not_isSome_iff_eq_none, hregion, hpicture]))

theorem State.dumpTable_noTarget {u : State} {table base count : Nat} (halign : base % 4096 = 0)
    (h : u.regionAt base (roundUp 4096 (count * recordSize table)) = none ∨
      u.touchesPicture base (roundUp 4096 (count * recordSize table)) = true) :
    u.dumpTable table base count = answer u Result.noSuchTarget :=
  (if_neg (not_not_intro halign)).trans (if_pos (h.imp_left Option.isNone_iff_eq_none.mpr))

end Sys2Proof.Machine

namespace Sys2Proof.Proofs

open Sys2Proof.Machine Sys2Proof.Safety

/-- Settles O11: a learn whose key is absent, and one whose key is found, by the entry that it meets. -/
theorem learningOneEntry : Obligations.LearningOneEntry := by
  refine ⟨fun s h => completes_of_done (by simp only [exec, execLearnApply, h]), fun l ls s h => ?_⟩
  have hc := completes_learnApply h
  refine ⟨fun t hkey ht => hc.congr ((State.applyLearn_absent hkey).trans (congrArg (Option.getD · _) ht)),
    fun hkey ht => hc.congr ((State.applyLearn_absent hkey).trans (congrArg (Option.getD · _) ht)), fun i e hkey => ?_⟩
  have hfound := hc.congr (State.applyLearn_found hkey)
  refine ⟨fun hl => hfound.congr ((if_pos (Or.inl (Bool.eq_false_iff.mp hl))).trans (if_pos (Or.inr (Bool.eq_false_iff.mp hl)))),
    fun hl hport htarget hstatic => hfound.congr ((if_pos (Or.inr ⟨hport, htarget⟩)).trans (if_neg fun h =>
      h.elim (Bool.eq_false_iff.mp hstatic) (· hl))), fun hl hmoved => ?_⟩
  have hother : ¬ (¬ emLearned e ∨ (emPort e = l.port ∧ (l.port ≠ 0xFC ∨ emTarget e = l.target))) := by grind
  refine ⟨fun hnew => hfound.congr ((if_neg hother).trans (if_pos (by grind))),
    fun hknown hheld => hfound.congr ((if_neg hother).trans ((if_neg (by grind)).trans (if_pos hheld))),
    fun hknown hheld => hfound.congr ((if_neg hother).trans ((if_neg (by grind)).trans (if_neg (Nat.not_le.mpr hheld))))⟩

/-- Settles O12: the age pass, and the compare of a slot of either table by the judgement of its copies. -/
theorem ageingAndCompare : Obligations.AgeingAndCompare := by
  refine ⟨fun s h => completes_of_done (if_neg h), fun s h => completes_of_done (if_pos h), fun slot m s hslot => ?_,
    fun slot m s hslot => ?_, fun ex slot m s h => ?_⟩
  · obtain ⟨hsame, hdiff, hlost, hshadow⟩ := s.compareEm_eq slot m
    exact ⟨fun hs h0 h1 => completes_compareEm m hslot (hsame hs h0 h1),
      fun hs h hl => completes_compareEm m hslot ((hdiff hs h).trans (if_pos hl)),
      fun hs h hl => completes_compareEm m hslot ((hdiff hs h).trans (if_neg (Bool.eq_false_iff.mp hl))),
      fun hs h0 => completes_compareEm m hslot (hlost hs h0), fun hs h0 => completes_compareEm m hslot (hshadow hs h0)⟩
  · obtain ⟨hsame, hdiff, hlost, hshadow⟩ := s.compareLpm_eq slot m
    exact ⟨fun hs h0 h1 => completes_compareLpm m hslot (hsame hs h0 h1), fun hs h => completes_compareLpm m hslot (hdiff hs h),
      fun hs h0 => completes_compareLpm m hslot (hlost hs h0), fun hs h0 => completes_compareLpm m hslot (hshadow hs h0)⟩
  · cases ex
    · exact completes_of_done (if_neg (Nat.not_lt.mpr h))
    · exact completes_of_done (if_neg (Nat.not_lt.mpr h))

/-- Settles O13: the four modes share `syncBody`; the records decide what modes 0 to 2 stage, the region what mode 3 writes. -/
theorem tableSync : Obligations.TableSync := by
  refine ⟨fun mode table base count s u t bs hmode htable hcount htaken hsource => ?_,
    fun mode table base count s u t r hmode htable hcount htaken hsource =>
      completes_sync_answer (by omega) htable htaken ((syncBody_stage table base u hmode hcount).trans (State.stageSync_noSource hsource)),
    fun mode table base count s u hmode htable halign htaken =>
      completes_sync_answer hmode htable htaken (syncBody_unaligned halign),
    fun table base count s u htable hcount halign htaken hregion hpicture => ?_,
    fun table base count s u htable hcount halign htaken h =>
      completes_sync_answer (mode := 3) (by decide) htable htaken ?_,
    fun mode table base count s hmode htable => completes_of_done
      ((exec_syncInstr table base count s hmode).trans (congrArg done (if_pos htable)))⟩
  · have hbody := (syncBody_stage table base u hmode hcount).trans (State.stageSync_records hsource)
    have hset : t.syncSet table bs (decide (mode = 2)) (decide (mode = 1)) = t.fabric.staged ++
        (if mode = 2 then [stagedClear table] else []) ++ (pieces (recordSize table) bs).map (stagedOf table (decide (mode = 1))) := by
      simp only [State.syncSet, decide_eq_true_eq]
    rw [hset] at hbody
    have hok := recordsOk_iff mode table (pieces (recordSize table) bs)
    refine ⟨fun hrecs hfits => completes_sync_answer (by omega) htable htaken (hbody.trans ?_),
      fun hrecs hfull => completes_sync_answer (by omega) htable htaken (hbody.trans ?_),
      fun hbad => completes_sync_answer (by omega) htable htaken (hbody.trans (if_pos fun h => ?_))⟩
    · exact (if_neg (not_not_intro (hok.mpr hrecs))).trans (if_neg (by simpa [Option.isNone_iff_eq_none, Option.isSome_iff_ne_none] using hfits))
    · exact (if_neg (not_not_intro (hok.mpr hrecs))).trans (if_pos (Option.isNone_iff_eq_none.mpr hfull))
    · obtain ⟨hmode, b, hb, hrec⟩ := hbad
      exact (hok.mp h).elim hmode fun hall => absurd ((hall b hb).symm.trans hrec) (by decide)
  · have hbody : syncBody 3 table base count u = _ :=
      (congrArg (u.dumpTable table base) (Nat.mod_eq_of_lt hcount)).trans (State.dumpTable_region halign hregion hpicture)
    exact ⟨fun hdata => completes_sync_answer (mode := 3) (by decide) htable htaken (hbody.trans (congrArg (answer · _ _) (if_neg hdata))),
      fun hdata => completes_sync_answer (mode := 3) (by decide) htable htaken (hbody.trans (congrArg (answer · _ _) (if_pos hdata)))⟩
  · exact (congrArg (u.dumpTable table base) (Nat.mod_eq_of_lt hcount)).trans (State.dumpTable_noTarget halign h)

end Sys2Proof.Proofs

/-! ### Global operations (R392–R397) -/

namespace Sys2Proof.Machine

open Sys2Proof.Safety

/-! #### Issuing (R393) -/

/-- The AT of a global operation can be kept as a time of RD_0. -/
def State.atInRange (s : State) (at_ : RTime) : Prop := s.validTime 0 (s.globalAt at_) = true ∧ s.notTooFar 0 (s.globalAt at_) = true

/-- An operation of this device becomes known here under its next OP_ID. -/
def State.issueOp (s : State) (kind : GlobalKind) (at_ : RTime) : State :=
  let n := (s.fabric.opCount + 1) % 2 ^ 16
  { s with fabric := { s.fabric with opCount := n } }.learnOp ⟨s.ownAddr * 2 ^ 16 + n, s.globalAt at_, kind⟩ none

/-- Whether an operation is issued, by its AT and its lead (R11, R393). -/
theorem State.issueGlobal_eq (s : State) (kind : GlobalKind) (at_ : RTime) (ns : Nat) :
    (¬ s.atInRange at_ → s.issueGlobal kind at_ ns = answer s Result.outOfRange) ∧
    (s.atInRange at_ → s.leadTooShort (s.globalAt at_) ns = true → s.issueGlobal kind at_ ns = answer s Result.tooLate) ∧
    (s.atInRange at_ → s.leadTooShort (s.globalAt at_) ns = false → s.issueGlobal kind at_ ns = (s.issueOp kind at_, none)) := by
  refine ⟨fun h => if_pos (Classical.not_and_iff_not_or_not.mp h), fun ⟨hv, hf⟩ hlate => ?_, fun ⟨hv, hf⟩ hlate => ?_⟩
  · exact (if_neg fun h => h.elim (· hv) (· hf)).trans (if_pos hlate)
  · exact (if_neg fun h => h.elim (· hv) (· hf)).trans (if_neg (Bool.eq_false_iff.mp hlate))

/-- A taken command whose body issues a global operation. -/
theorem completes_issue {c : Instr} {s u : State} {code ns : Nat} {args : List Byte} {kind : GlobalKind} {at_ : RTime}
    {body : State → State × Option (Nat × List Byte)} (htaken : Taken s code args u)
    (hexec : exec c s = done (s.runCommand code args body)) (hbody : body u = u.issueGlobal kind at_ ns) :
    (¬ u.atInRange at_ → Completes c s (u.attach code Result.outOfRange [])) ∧
    (u.atInRange at_ → u.leadTooShort (u.globalAt at_) ns = true → Completes c s (u.attach code Result.tooLate [])) ∧
    (u.atInRange at_ → u.leadTooShort (u.globalAt at_) ns = false → Completes c s (u.issueOp kind at_)) := by
  obtain ⟨hrange, hlate, hissued⟩ := u.issueGlobal_eq kind at_ ns
  exact ⟨fun h => completes_answer htaken hexec (hbody.trans (hrange h)),
    fun h hl => completes_answer htaken hexec (hbody.trans (hlate h hl)),
    fun h hl => completes_goes htaken hexec (hbody.trans (hissued h hl))⟩

/-! #### Announcements (R394) -/

/-- An operation as an announcement makes it known, with this device's part. -/
def State.announced (s : State) (a : Announcement) (from_ : Option Nat) (part : Option Nat) : GlobalOp :=
  { opId := a.opId, at_ := a.at_, kind := a.kind, part := part, from_ := from_
    waiting := s.treePorts.filter fun p => decide (some p ≠ from_) }

def State.addOp (s : State) (o : GlobalOp) : State := { s with fabric := { s.fabric with ops := s.fabric.ops ++ [o] } }

/-- An operation is forwarded on the tree bands that it waits for. -/
def State.forwardOp (s : State) (a : Announcement) (o : GlobalOp) : State :=
  (s.sendGlobal o.waiting (announcementBytes a)).confirmOp a.opId

theorem State.globalPart_late {s : State} {at_ : RTime} (h : rdiff (s.lpf 0) at_ (s.now 0) ≤ 0) : s.globalPart at_ = some 2 := if_pos h

theorem State.globalPart_armed {s : State} {at_ : RTime} (h : 0 < rdiff (s.lpf 0) at_ (s.now 0)) (hready : s.globalReady = true) :
    s.globalPart at_ = none :=
  (if_neg (Int.not_le.mpr h)).trans (if_pos hready)

theorem State.globalPart_refused {s : State} {at_ : RTime} (h : 0 < rdiff (s.lpf 0) at_ (s.now 0)) (hready : s.globalReady = false) :
    s.globalPart at_ = some 1 :=
  (if_neg (Int.not_le.mpr h)).trans (if_neg (Bool.eq_false_iff.mp hready))

/-- A new operation, by this device's part: one that is ARMED is scheduled, another one is logged. -/
theorem State.learnOp_new {s : State} {a : Announcement} {from_ : Option Nat} (hnew : s.globalOp a.opId = none) :
    (s.globalPart a.at_ = none → s.learnOp a from_ =
      State.forwardOp { s.addOp (s.announced a from_ none) with raster := { s.raster with
        sched := s.raster.sched ++ [(⟨0, a.at_, .globalOp a.opId⟩ : Sched)] } } a (s.announced a from_ none)) ∧
    (∀ n, s.globalPart a.at_ = some n → s.learnOp a from_ =
      ((s.addOp (s.announced a from_ (some n))).logOp (s.announced a from_ (some n))).forwardOp a (s.announced a from_ (some n))) := by
  have hknown : ¬ (s.globalOp a.opId).isSome := by simp [hnew]
  refine ⟨fun hpart => ?_, fun n hpart => ?_⟩
  · rw [State.learnOp, if_neg hknown, hpart]
    rfl
  · rw [State.learnOp, if_neg hknown, hpart]
    rfl

theorem State.learnOp_known {s : State} {a : Announcement} {from_ : Option Nat} (h : (s.globalOp a.opId).isSome) :
    s.learnOp a from_ = s := if_pos h

theorem completes_globalAnnounce {p : Fin 128} {a : Announcement} {s u : State} (hband : s.cardBand p = true)
    (hfwd : s.forwards = true) (hforeign : s.foreignBand p = false) (h : s.learnOp a (some p.val) = u) :
    Completes (.globalAnnounce p a) s u :=
  completes_of_done ((if_pos (by simp [hband, hfwd, hforeign])).trans (congrArg done h))

theorem completes_globalAnnounce_nothing {p : Fin 128} {a : Announcement} {s : State} (h : (s.globalOp a.opId).isSome ∨
    s.cardBand p = false ∨ s.forwards = false ∨ s.foreignBand p = true) : Completes (.globalAnnounce p a) s s := by
  by_cases hguard : (s.cardBand p && s.forwards && !s.foreignBand p) = true
  · obtain ⟨⟨hband, hfwd⟩, hforeign⟩ := by simpa only [Bool.and_eq_true, Bool.not_eq_true'] using hguard
    exact completes_globalAnnounce hband hfwd hforeign (State.learnOp_known (h.resolve_right (by simp [hband, hfwd, hforeign])))
  · exact completes_of_done (if_neg hguard)

/-! #### Acting, confirming and timing out (R395, R396) -/

theorem completes_globalOpAct {id : Nat} {s : State} {o : GlobalOp} (h : s.globalOp id = some o) :
    Completes (.globalOpAct id) s (if s.later 0 o.at_ (s.now 0) = true then s else (sortBy (fun a b => decide (a < b))
      ((s.fabric.ops.filter fun x => x.part.isNone && decide (x.at_ = o.at_ ∧ x.opId ≤ id)).map GlobalOp.opId)).foldl
        (fun t i => t.actOp i) s) := by
  refine completes_of_done ?_
  simp only [exec, execGlobalOpAct, State.actOps, State.armedTo, h]
  exact (apply_ite done _ _ _).symm

theorem completes_globalConfirm {p : Fin 128} {id applied : Nat} {s : State} {o : GlobalOp} (h : s.globalOp id = some o)
    (hfwd : s.forwards = true) :
    let o' : GlobalOp := { o with waiting := o.waiting.erase p, applied := o.applied + applied }
    Completes (.globalConfirm p id applied) s (if p.val ∈ o.waiting then ((s.setGlobalOp o').logOp o').confirmOp id else s) := by
  refine completes_of_done ((if_pos hfwd).trans (congrArg done ?_))
  simp only [State.takeConfirm, h]

theorem completes_globalConfirm_nothing {p : Fin 128} {id applied : Nat} {s : State} (h : s.globalOp id = none ∨ s.forwards = false) :
    Completes (.globalConfirm p id applied) s s := by
  by_cases hfwd : s.forwards = true
  · have hnone := h.resolve_right fun hoff => absurd (hfwd.symm.trans hoff) (by decide)
    exact completes_of_done ((if_pos hfwd).trans (by simp only [State.takeConfirm, hnone]))
  · exact completes_of_done (if_neg hfwd)

theorem completes_globalOpTimeout {id : Nat} {s : State} {o : GlobalOp} (h : s.globalOp id = some o) :
    Completes (.globalOpTimeout id) s (if o.from_.isNone ∧ ¬ o.confirmed ∧ s.msSince o.at_ then
      (s.setGlobalOp { o with confirmed := true }).finishCommand (globalCode o.kind) Result.unreachable (leBytes 2 o.applied) else s) := by
  refine completes_of_done ?_
  simp only [exec, execGlobalOpTimeout, h]
  exact (apply_ite done _ _ _).symm

end Sys2Proof.Machine

namespace Sys2Proof.Proofs

open Sys2Proof.Machine Sys2Proof.Safety

/-- Settles O14: the three commands issue by `State.issueGlobal`, whose outcome AT and lead decide. -/
theorem issuingGlobalOperations : Obligations.IssuingGlobalOperations := by
  refine ⟨fun at_ s u htaken => ⟨fun h => completes_answer htaken rfl (if_pos h),
      fun hline hphase => completes_issue htaken rfl (if_neg fun h => h.elim (· hline) (· hphase))⟩,
    fun at_ set s u hset htaken => completes_issue htaken (if_neg (Nat.not_le.mpr hset)) rfl,
    fun at_ set s hset => completes_of_done (if_pos hset),
    fun at_ items s u hlen htaken => ⟨fun h => completes_answer htaken (if_neg (Nat.not_lt.mpr hlen)) (if_pos (Bool.eq_false_iff.mp h)),
      fun h => completes_issue htaken (if_neg (Nat.not_lt.mpr hlen)) (if_neg (not_not_intro h))⟩,
    fun at_ items s hlen => completes_of_done (if_pos hlen)⟩

/-- Settles O15: an announcement by this device's part, and what AT, confirmations and the timeout do to a known operation. -/
theorem globalOperationsRun : Obligations.GlobalOperationsRun := by
  refine ⟨fun p a s hband hfwd hforeign hnew => ?_, fun p a s h => completes_globalAnnounce_nothing h,
    fun id s o h => ⟨fun hlater => (completes_globalOpAct h).congr (if_neg (Bool.eq_false_iff.mp hlater)),
      fun hlater => (completes_globalOpAct h).congr (if_pos hlater)⟩,
    fun id s h => completes_of_done (by simp only [exec, execGlobalOpAct, h]),
    fun p id applied s o h hfwd => ⟨fun hp => (completes_globalConfirm h hfwd).congr (if_pos hp),
      fun hp => (completes_globalConfirm h hfwd).congr (if_neg hp)⟩,
    fun p id applied s h => completes_globalConfirm_nothing h,
    fun id s o h => ⟨fun hfrom hconf hms => (completes_globalOpTimeout h).congr
        (if_pos ⟨Option.isNone_iff_eq_none.mpr hfrom, Bool.eq_false_iff.mp hconf, hms⟩),
      fun hn => (completes_globalOpTimeout h).congr (if_neg fun ⟨hfrom, hconf, hms⟩ => ?_)⟩,
    fun id s h => completes_of_done (by simp only [exec, execGlobalOpTimeout, h])⟩
  · obtain ⟨harmed, hother⟩ := State.learnOp_new (from_ := some p.val) hnew
    exact ⟨fun hdue hready => completes_globalAnnounce hband hfwd hforeign (harmed (State.globalPart_armed hdue hready)),
      fun hdue hready => completes_globalAnnounce hband hfwd hforeign (hother 1 (State.globalPart_refused hdue hready)),
      fun hlate => completes_globalAnnounce hband hfwd hforeign (hother 2 (State.globalPart_late hlate))⟩
  · rcases hn with hn | hn | hn
    · exact hn (Option.isNone_iff_eq_none.mp hfrom)
    · exact hconf hn
    · exact absurd (hms.symm.trans hn) (by decide)

end Sys2Proof.Proofs

/-! ### Resets, start-up, power and the island (R467–R511) -/

namespace Sys2Proof.Machine

open Sys2Proof.Safety

/-- A command whose meaning ends without settling. -/
theorem ends_of_next {i : Instr} {s u : State} (h : exec i s = .next u) : Ends i s u := ⟨u, h, Safety.Settled.refl u⟩

/-! #### Resets (R39, R507–R509) -/

theorem execPorstN_same {b : Bool} (pins : Fin 4) {s : State} (h : s.power.porst = b) : execPorstN b pins s = .next s := by
  cases b <;> simp only [execPorstN, h]

/-- Power-on reset keeps of the dictionary what is fused, and nothing of 0x2000 (R39). -/
theorem State.powerReset_od {s : State} {k : Nat} (hseal : s.sec.debugSealFuse = false)
    (h : fusedRow (k / 256) (k % 256) = false ∨ k / 256 = 0x2000) : tfind s.powerReset.od k = none := by
  have hkeep : (fusedRow (k / 256) (k % 256) && k / 256 != 0x2000) = false := by
    rcases h with h | h <;> simp [h]
  rw [State.powerReset, if_neg (Bool.eq_false_iff.mp hseal)]
  exact (Laws.tfind_filter s.od (fun k => fusedRow (k / 256) (k % 256) && k / 256 != 0x2000) k).trans
    (if_neg (Bool.eq_false_iff.mp hkeep))

/-- What PORST_N clears beside the dictionary, and the flash that it keeps (R507). -/
theorem State.powerReset_state (s : State) : s.powerReset.streams = {} ∧ s.powerReset.cells = {} ∧ s.powerReset.queues = {} ∧
    s.powerReset.lanes = {} ∧ s.powerReset.faults = {} ∧ s.powerReset.cycle = 0 ∧ s.powerReset.sec.flash = s.sec.flash := by
  rw [State.powerReset]
  split <;> exact ⟨rfl, rfl, rfl, rfl, rfl, rfl, rfl⟩

/-- A warm reset records its cause (R508). -/
theorem State.warmReset_cause (s : State) {cause : Nat} (h : cause < 5) : (s.warmReset cause).get Od.sys_RESET_CAUSE = cause := by
  rw [State.warmReset, Laws.get_bump_ne _ Od.sys_WARM_RESETS Od.sys_RESET_CAUSE (by decide), Laws.get_set_self]
  exact Nat.mod_eq_of_lt (Nat.lt_trans h (by decide))

/-- What a warm reset keeps beside the dictionary, and what it clears (R39). -/
theorem State.warmReset_state (s : State) (cause : Nat) : (s.warmReset cause).faults.log = s.faults.log ∧
    (s.warmReset cause).sec.flash = s.sec.flash ∧ (s.warmReset cause).power.step = 1 ∧ (s.warmReset cause).streams = {} ∧
    (s.warmReset cause).cells = {} ∧ (s.warmReset cause).raster = {} := by
  rw [State.warmReset, State.bump_faults, State.bump_sec, State.bump_power, State.bump_streams, State.bump_cells, State.bump_raster]
  exact ⟨rfl, rfl, rfl, rfl, rfl, rfl⟩

/-! #### Rails and PLLs (R496) -/

/-- The rail stands among the last 16 RAIL_EVENTS. -/
def State.noteRail (s : State) (rail : Nat) : State :=
  { s with power := { s.power with
    railEvents := (s.power.railEvents ++ [(rail, s.uptimeNs)]).drop (s.power.railEvents.length + 1 - 16)
    railsOut := if rail ∈ s.power.railsOut then s.power.railsOut else s.power.railsOut ++ [rail] } }

theorem ends_railExcursion {rail : Fin 13} {s : State} (hporst : s.power.porst = true) (haon : rail.val ≠ 0) (hefuse : rail.val ≠ 12) :
    Ends (.railExcursion rail) s ((s.noteRail rail).monitorReset 3) := by
  refine ends_of_next ((if_neg fun h => h.elim (· hporst) (Or.elim · haon hefuse)).trans ?_)
  simp only [State.noteRail, List.length_append, List.length_singleton]

/-! #### Start-up, VDD_CORE and conditioner halves (R495, R498, R510) -/

theorem State.stepEnds_init {s : State} (m : StartMeet) (h : s.power.step = 3) : s.stepEnds m = s.endInit := by
  simp only [State.stepEnds, h]

theorem State.stepEnds_repairs {s : State} (m : StartMeet) (h : s.power.step = 2) : s.stepEnds m = s.repairsApply fun _ _ => true := by
  simp only [State.stepEnds, h]

/-- 200 µs after the target was written the read-back is judged (R495). -/
theorem completes_avsReadback {mv : Nat} {s : State} (hpending : s.power.avsPending = true)
    (hpassed : s.power.avsAt + usCycles 200 ≤ s.cycle) :
    let u := s.set Od.sys_VDD_CORE_NOW 0 mv
    Completes (.avsReadbackTimeout mv) s
      (if s.get Od.sys_VDD_CORE_TARGET ≤ mv + 10 ∧ mv ≤ s.get Od.sys_VDD_CORE_TARGET + 10 then
        { u with power := { u.power with avsPending := false } }
      else ({ u with power := { u.power with avsAt := u.cycle } } : State).bump Od.sys_AVS_RETRIES) :=
  completes_of_done ((if_pos (by simp [hpending, hpassed])).trans (apply_ite done _ _ _).symm)

theorem completes_avsReadback_early {mv : Nat} {s : State} (h : s.power.avsPending = false ∨ s.cycle < s.power.avsAt + usCycles 200) :
    Completes (.avsReadbackTimeout mv) s s :=
  completes_of_done (if_neg fun hn => by
    simp only [Bool.and_eq_true, decide_eq_true_eq] at hn
    exact h.elim (fun hp => absurd (hn.1.symm.trans hp) (by decide)) (Nat.not_lt.mpr hn.2))

theorem State.halfUsed_false {s : State} {half : Nat} (h : ∀ e ∈ s.streams.streams, ∀ p ∈ e.2.passes, p.ic < 8 → p.ic / 4 ≠ half) :
    s.halfUsed half = false := by
  simp only [State.halfUsed, List.any_eq_false]
  exact fun e he hused => by
    obtain ⟨p, hp, hic, hhalf⟩ := by simpa only [List.any_eq_true, decide_eq_true_eq] using hused
    exact h e he p hp hic hhalf

theorem completes_halfIdle_nothing {half : Fin 2} {s : State} (h : s.halfUsed half = true ∨ s.half half ≠ 1 ∨
    s.heldLow (tget s.power.halfIdle none half) = false) : Completes (.conditionerHalfIdleExpiry half) s s :=
  completes_of_done (if_neg fun ⟨hone, hused, hlow⟩ => by grind)

/-- The MAGIC stands in front of the report, and the nonce at its end (R486). -/
theorem State.attestReport_ends (s : State) (nonce : List Byte) :
    [0x41#8, 0x54#8, 0x54#8, 0x31#8] <+: s.attestReport nonce ∧ nonce <:+ s.attestReport nonce := by
  unfold State.attestReport
  constructor
  · simp only [List.append_assoc]
    exact List.prefix_append _ _
  · exact List.suffix_append _ _

/-! #### The island's writes (R481, R488, R489) -/

section
variable (old t : State)

theorem State.follow_debugToken (v : List Byte) : State.follow old t (writingOf Od.sec_DEBUG_TOKEN 0 v) = t.takeToken := by
  simp +decide only [State.follow, writingOf, isSetting, if_true, if_false]

theorem State.follow_keyHash (v : List Byte) : State.follow old t (writingOf Od.sec_OWNER_KEY_HASH 0 v) =
    t.set Od.sec_OWNER_KEY_HASH 0 (leNat v) := by
  simp +decide only [State.follow, writingOf, isSetting, if_true, if_false, Writing.num]

theorem State.follow_debugSeal (v : Nat) : State.follow old t (numWriting Od.sec_DEBUG_SEAL 0 v) =
    if (numWriting Od.sec_DEBUG_SEAL 0 v).num = 1 then t.sealDebug else t := by
  simp +decide only [State.follow, numWriting, writingOf, isSetting, if_true, if_false]

theorem State.follow_flashProgram (v : Nat) : State.follow old t (numWriting Od.sec_FLASH_PROGRAM 0 v) = t.startFlash := by
  simp +decide only [State.follow, numWriting, writingOf, isSetting, if_true, if_false]

end

/-- OWNER_KEY_HASH is programmed once (R481): the binding rule refuses a second value. -/
theorem State.bindingOk_keyHash {s t : State} {v : List Byte} (h : s.bindingOk t (writingOf Od.sec_OWNER_KEY_HASH 0 v) = true) :
    s.get Od.sec_OWNER_KEY_HASH = 0 := by
  have hset : isSetting ⟨Od.sec_OWNER_KEY_HASH, 0, 0, v⟩ = false := by simp +decide [isSetting]
  by_cases hhalted : s.halted = true
  · simp +decide [State.bindingOk, writingOf, Writing.index, hhalted] at h
  · simp +decide only [State.bindingOk, writingOf, hhalted, hset, false_and, if_false, if_true, Bool.and_eq_true] at h
    exact of_decide_eq_true h.1

theorem not_accepted_keyHash {s : State} {role : Role} {v : List Byte} (h : s.get Od.sec_OWNER_KEY_HASH ≠ 0) :
    ¬ Accepted s role Od.sec_OWNER_KEY_HASH 0 v := by
  rintro ⟨-, -, hlate⟩
  rw [State.lateTest] at hlate
  split at hlate
  · exact absurd hlate (by decide)
  · split at hlate
    · exact absurd hlate (by decide)
    · rename_i hbinding
      exact h (State.bindingOk_keyHash (Classical.not_not.mp hbinding))

/-- A write of bytes that passes. -/
theorem completes_writeBytes {c : Instr} {s : State} {role : Role} {r : Row} {v : List Byte} (h : Accepted s role r 0 v)
    (hexec : exec c s = done (s.writeObject (roleRank role) ⟨r.base + 0, r.sub, r.ty.code, v⟩)) (hcmd : r.acc ≠ .cmd)
    (hstage : r.acc = .wo ∨ r ∈ actionRows) : Completes c s (succeeded (State.follow s s (writingOf r 0 v))) := by
  have hs : s.stage s (writingOf r 0 v) = s := if_pos (hstage.elim .inl fun h => .inr (.inr (.inr h)))
  have hw := State.writeObject_accepted h hcmd
  rw [hs] at hw
  exact completes_of_done (hexec.trans (congrArg done hw))

end Sys2Proof.Machine

namespace Sys2Proof.Proofs

open Sys2Proof.Machine Sys2Proof.Safety

/-- Settles O16: the pins by their level and their pulse's length, and what the two resets leave. -/
theorem resets : Obligations.Resets := by
  refine ⟨fun pins s h => ends_of_next (by simp only [exec, execPorstN, h]), fun s k hseal h => State.powerReset_od hseal h,
    State.powerReset_state, fun pins s h => ends_of_next (by simp only [exec, execPorstN, h]; rfl),
    fun ns s hporst hns => ends_of_next ((if_neg ?_).trans (if_neg (Nat.not_lt.mpr hns))),
    fun b pins s h => ends_of_next (execPorstN_same pins h),
    fun ns s h => ends_of_next (if_pos (h.symm.imp_left Bool.eq_false_iff.mp)), fun ns s hporst hmin hmax => ?_,
    fun s u htaken => completes_answer htaken rfl rfl,
    fun s hdelay hpassed => ends_of_next (if_pos (by simp [hdelay, hpassed])),
    fun s h => ends_of_next (if_neg ?_), fun s cause hcause => ⟨s.warmReset_cause hcause, s.warmReset_state cause⟩⟩
  · exact fun h => h.elim (· hporst) (Nat.not_lt.mpr (Nat.le_trans (by decide) hns))
  · have hpulse : exec (.wrstN ns) s = if s.freeValue % 2 = 0 then .next s.useFree else .next (s.useFree.warmReset 1) :=
      (if_neg fun h => h.elim (· hporst) (Nat.not_lt.mpr hmin)).trans (if_pos hmax)
    by_cases hfree : s.freeValue % 2 = 0
    · exact .inl (ends_of_next (hpulse.trans (if_pos hfree)))
    · exact .inr (ends_of_next (hpulse.trans (if_neg hfree)))
  · rcases h with h | h
    · simp [h]
    · simp [Nat.not_le.mpr h]

/-- Settles O17: each event of the monitors, the end of a start-up step, the read-back and the halves, due or not. -/
theorem monitorsAndStartUp : Obligations.MonitorsAndStartUp := by
  refine ⟨⟨fun rail s hporst haon hefuse => ends_railExcursion hporst haon hefuse,
      fun rail s h => ends_of_next (if_pos ?_), fun pll s h => ends_of_next (if_pos (Bool.eq_false_iff.mp h)),
      fun pll s hporst hpll => ends_of_next ((if_neg (not_not_intro hporst)).trans (if_neg hpll)),
      fun s hporst => completes_of_done ((if_neg (not_not_intro hporst)).trans (if_pos rfl)),
      fun s h => ends_of_next (if_neg (Bool.eq_false_iff.mp h)), fun s h => ends_of_next (if_pos h)⟩,
    fun m s h => completes_of_done (if_pos h), fun m s h => completes_of_done (if_neg (Bool.eq_false_iff.mp h)),
    fun m s h => by rw [State.stepEnds_init m h]; rfl, fun m s h => State.stepEnds_repairs m h,
    fun mv s hpending hpassed => ⟨fun h => (completes_avsReadback hpending hpassed).congr (if_pos h),
      fun h => (completes_avsReadback hpending hpassed).congr (if_neg (by omega))⟩,
    fun mv s h => completes_avsReadback_early h, fun half s h => completes_of_done (if_pos h),
    fun half s h => completes_of_done (if_neg h),
    fun half s hone hlow hfree => completes_of_done (if_pos ⟨hone, Bool.eq_false_iff.mp (State.halfUsed_false hfree), hlow⟩),
    fun half s h => completes_halfIdle_nothing h⟩
  rcases h with h | h | h
  · exact .inr (.inl h)
  · exact .inr (.inr h)
  · exact .inl (Bool.eq_false_iff.mp h)

/-- Settles O19: ATTEST and the island's failures, its writes by what follows them, and the end of programming. -/
theorem attestationAndIsland : Obligations.AttestationAndIsland := by
  refine ⟨fun nonce s u hlen htaken => completes_answer htaken (if_neg (not_not_intro hlen)) rfl,
    fun nonce s hlen => completes_of_done (if_pos hlen),
    State.attestReport_ends, fun s => completes_of_done rfl, fun s => completes_of_done rfl,
    fun s => completes_of_done rfl,
    fun role token s h => (completes_writeBytes h rfl (by decide) (.inl rfl)).congr (congrArg succeeded (State.follow_debugToken s s token)),
    fun role s h hefuse => (completes_write h rfl (by decide)).congr (congrArg succeeded ?_),
    fun role hash s h => (completes_writeBytes h rfl (by decide) (.inr (by decide))).congr
      (congrArg succeeded (State.follow_keyHash s s hash)),
    fun role s h => (completes_write h rfl (by decide)).congr (congrArg succeeded ?_),
    fun good s h => completes_of_done (if_pos h), fun good s h => completes_of_done (if_neg h),
    fun role hash s h => not_accepted_keyHash h⟩
  · rw [State.follow_debugSeal, numWriting_num h, if_pos rfl, s.stage_action 0 1 (.inl rfl)]
    exact if_pos hefuse
  · rw [State.follow_flashProgram, s.stage_action 0 1 (.inl rfl)]
    rfl

end Sys2Proof.Proofs

/-! ### IOP frames, sessions and commands (R46–R67, R421, R422) -/

namespace Sys2Proof.Machine

open Sys2Proof.Safety

/-! #### The frame of a row (R47, R48) -/

/-- The frame of a row is of one of the TYPEs that the row takes. -/
theorem exec_frameCommand (o : Origin) (f : List Byte) (s : State) :
    ∃ p : Nat → Bool, p (leAt f 3 1) = true ∧ exec (frameCommand o f) s = done (s.takeFrame o f p) := by
  unfold frameCommand
  split
  · exact ⟨fun ty => ty == 0x01, by simp [*], rfl⟩
  · split
    · exact ⟨fun ty => ty == 0x03, by simp [*], rfl⟩
    · split
      · exact ⟨fun ty => ty == 0x21, by simp [*], rfl⟩
      · split
        · exact ⟨fun ty => ty == 0x30, by simp [*], rfl⟩
        · exact ⟨fun ty => !([0x01, 0x03, 0x21, 0x30].contains ty), by simp [*], rfl⟩

/-- A frame of another TYPE is no event of a row. -/
theorem completes_otherFrame {o : Origin} {f : List Byte} {s : State} {j : Instr}
    (hj : j ∈ [Instr.hello o f, .prove o f, .request o f, .notifyAck o f, .close o f]) (hne : j ≠ frameCommand o f) :
    Completes j s s := by
  have hnone : ∀ p : Nat → Bool, p (leAt f 3 1) = false → done (s.takeFrame o f p) = done s := fun p hp =>
    congrArg done (if_neg (Bool.eq_false_iff.mp hp))
  simp only [List.mem_cons, List.not_mem_nil, or_false] at hj
  rcases hj with rfl | rfl | rfl | rfl | rfl
  · exact completes_of_done (hnone (fun ty => ty == 0x01) (beq_false_of_ne fun h => hne (by simp [frameCommand, h])))
  · exact completes_of_done (hnone (fun ty => ty == 0x03) (beq_false_of_ne fun h => hne (by simp [frameCommand, h])))
  · refine completes_of_done (hnone (fun ty => !([0x01, 0x03, 0x21, 0x30].contains ty)) ?_)
    refine Classical.byContradiction fun hty => ?_
    simp only [Bool.not_eq_false, Bool.not_eq_true', List.contains_eq_mem, List.mem_cons, List.not_mem_nil, or_false,
      decide_eq_false_iff_not, not_or] at hty
    obtain ⟨h1, h3, h21, h30⟩ := hty
    exact hne (by simp [frameCommand, h1, h3, h21, h30])
  · exact completes_of_done (hnone (fun ty => ty == 0x21) (beq_false_of_ne fun h => hne (by simp [frameCommand, h])))
  · exact completes_of_done (hnone (fun ty => ty == 0x30) (beq_false_of_ne fun h => hne (by simp [frameCommand, h])))

/-- A mailbox frame while a request is outstanding is ignored and counted (R47). -/
theorem State.takeFrame_outstanding {s : State} {o : Origin} {f : List Byte} {p : Nat → Bool} (hp : p (leAt f 3 1) = true)
    (ho : o = .mailbox) (hout : s.host.outstanding = true) : s.takeFrame o f p = s.bump Od.iop_FRAMES_DISCARDED :=
  (if_pos hp).trans ((if_pos ho).trans (if_pos hout))

theorem State.takeFrame_free {s : State} {o : Origin} {f : List Byte} {p : Nat → Bool} (hp : p (leAt f 3 1) = true)
    (hfree : Free o s) : s.takeFrame o f p = afterFrame o ((beforeFrame o s).receiveFrame o f f.length) := by
  by_cases ho : o = .mailbox
  · rw [State.takeFrame, if_pos hp, if_pos ho, if_neg (Bool.eq_false_iff.mp (hfree ho)), afterFrame, if_pos ho, beforeFrame, if_pos ho]
  · rw [State.takeFrame, if_pos hp, if_neg ho, afterFrame, if_neg ho, beforeFrame, if_neg ho]

theorem completes_frame {o : Origin} {f : List Byte} {s u : State} (hfree : Free o s)
    (h : (beforeFrame o s).receiveFrame o f f.length = u) : Completes (frameCommand o f) s (afterFrame o u) := by
  obtain ⟨p, hp, hexec⟩ := exec_frameCommand o f s
  exact completes_of_done (hexec.trans (congrArg done ((State.takeFrame_free hp hfree).trans (congrArg (afterFrame o) h))))

@[simp] theorem beforeFrame_live (o : Origin) (s : State) : (beforeFrame o s).live = s.live := by
  unfold beforeFrame
  split <;> rfl

@[simp] theorem beforeFrame_transportOpen (o : Origin) (s : State) : (beforeFrame o s).transportOpen o = s.transportOpen o := by
  unfold beforeFrame
  split <;> rfl

@[simp] theorem beforeFrame_cycle (o : Origin) (s : State) : (beforeFrame o s).cycle = s.cycle := by
  unfold beforeFrame
  split <;> rfl

theorem beforeFrame_elsewhere {o : Origin} (s : State) (h : o ≠ .mailbox) : beforeFrame o s = s := if_neg h

theorem afterFrame_elsewhere {o : Origin} (s : State) (h : o ≠ .mailbox) : afterFrame o s = s := if_neg h

/-- Only the fabric's transport can be closed. -/
theorem State.transportOpen_mailbox (s : State) : s.transportOpen .mailbox = true := rfl

/-! #### The head of a frame (R48, R63) -/

section
variable {s : State} {o : Origin} {f : List Byte}

theorem State.receiveFrame_dead (h : s.live = false) : s.receiveFrame o f f.length =
    if o = .mailbox then s.sendTo o (rejectFrame (leAt f 8 4) (leAt f 12 4) 7 none) else s :=
  if_pos (Bool.eq_false_iff.mp h)

theorem State.receiveFrame_closed (h : s.live = true) (hopen : s.transportOpen o = false) : s.receiveFrame o f f.length = s :=
  (if_neg (not_not_intro h)).trans (if_pos (Bool.eq_false_iff.mp hopen))

theorem State.receiveFrame_badMagic (h : s.live = true) (hopen : s.transportOpen o = true)
    (hhead : f.take 3 ≠ [0x49#8, 0x4F#8, 0x01#8] ∨ f.length < 16) : s.receiveFrame o f f.length = s.badHead o f 1 :=
  (if_neg (not_not_intro h)).trans ((if_neg (not_not_intro hopen)).trans (if_pos hhead))

/-- A frame whose MAGIC and VERSION are good, by its LENGTH and TYPE. -/
theorem State.receiveFrame_head (h : s.live = true) (hopen : s.transportOpen o = true)
    (hmagic : f.take 3 = [0x49#8, 0x4F#8, 0x01#8]) (hmin : 16 ≤ f.length) :
    (leAt f 6 2 ≠ f.length → s.receiveFrame o f f.length = s.badHead o f 2) ∧
    (leAt f 6 2 = f.length → leAt f 3 1 ∉ clientTypes → s.receiveFrame o f f.length = s.badHead o f 1) := by
  have hhead : ¬ (f.take 3 ≠ [0x49#8, 0x4F#8, 0x01#8] ∨ f.length < 16) := fun h => h.elim (· hmagic) (Nat.not_lt.mpr hmin)
  rw [State.receiveFrame, if_neg (not_not_intro h), if_neg (not_not_intro hopen), if_neg hhead]
  exact ⟨fun hlen => if_pos (.inl hlen), fun hlen hty => (if_neg fun h => h.elim (· hlen) (· rfl)).trans (if_pos hty)⟩

end

/-- A frame with a good head reaches the row of its TYPE. -/
theorem completes_framed {o : Origin} {f : List Byte} {s : State} {i : Instr} {ty : Nat} {p : Nat → Bool} (hlive : s.live = true)
    (hopen : s.transportOpen o = true) (hframed : Framed f ty) (hfree : Free o s) (hexec : exec i s = done (s.takeFrame o f p))
    (hty : ty ∈ clientTypes) (hp : p ty = true) :
    Completes i s (afterFrame o (if ty = 1 then (beforeFrame o s).hello o f else if ty = 3 then (beforeFrame o s).prove o f
      else (beforeFrame o s).forSession o f)) :=
  completes_of_done (hexec.trans (congrArg done (Laws.takeFrame_framed o f s ty p hlive hopen hframed hty hp hfree)))

/-- The rows of a session's frames share the tests of R58 to R60. -/
theorem completes_forSession {o : Origin} {f : List Byte} {s u : State} {i : Instr} (hlive : s.live = true)
    (hopen : s.transportOpen o = true) (hfree : Free o s)
    (hi : i = .request o f ∧ Framed f 0x10 ∨ i = .notifyAck o f ∧ Framed f 0x21 ∨ i = .close o f ∧ Framed f 0x30)
    (h : (beforeFrame o s).forSession o f = u) : Completes i s (afterFrame o u) := by
  rcases hi with ⟨rfl, hf⟩ | ⟨rfl, hf⟩ | ⟨rfl, hf⟩
  · exact (completes_framed hlive hopen hf hfree rfl (by decide) (by decide)).congr (congrArg (afterFrame o) h)
  · exact (completes_framed hlive hopen hf hfree rfl (by decide) (by decide)).congr (congrArg (afterFrame o) h)
  · exact (completes_framed hlive hopen hf hfree rfl (by decide) (by decide)).congr (congrArg (afterFrame o) h)

/-! #### Handshakes (R55–R57, R59) -/

section
variable {s t : State} {o : Origin} {f : List Byte}

theorem State.hello_beyondRate (h : s.takeHello = none) : s.hello o f = s := by
  simp only [State.hello, h]

/-- A HELLO within HELLO_RATE, by what is wrong with it. -/
theorem State.hello_counted (h : s.takeHello = some t) : s.hello o f =
    if t.sec.sealedOff then t.discardFrame
    else if f.length < 512 then t.authFailure
    else match t.clientKey (((f.drop 16).drop 165).take 8) with
      | none => t.authFailure
      | some k =>
        if o ≠ .mailbox ∧ t.get Od.iop_SESSION_MAX ≤ t.sessionsOpen then t.sendTo o (rejectFrame (leAt f 8 4) (leAt f 12 4) 6 none)
        else if frameMost < f.length then t.badHead o f 3
        else t.challenge o k (f.drop 16) := by
  simp only [State.hello, h] <;> rfl

/-- A HELLO that names a KEY_ID, by the key that it finds. -/
theorem State.hello_named (h : s.takeHello = some t) (hseal : t.sec.sealedOff = false) (hlen : 512 ≤ f.length) :
    (t.clientKey (((f.drop 16).drop 165).take 8) = none → s.hello o f = t.authFailure) ∧
    ∀ k, t.clientKey (((f.drop 16).drop 165).take 8) = some k → s.hello o f =
      if o ≠ .mailbox ∧ t.get Od.iop_SESSION_MAX ≤ t.sessionsOpen then t.sendTo o (rejectFrame (leAt f 8 4) (leAt f 12 4) 6 none)
      else if frameMost < f.length then t.badHead o f 3
      else t.challenge o k (f.drop 16) := by
  rw [State.hello_counted h, if_neg (Bool.eq_false_iff.mp hseal), if_neg (Nat.not_lt.mpr hlen)]
  exact ⟨fun hk => by simp only [hk], fun k hk => by simp only [hk]⟩

theorem State.prove_unknown (h : s.iop.handshakes.find? (fun h => h.session = leAt f 8 4 ∧ h.origin = o) = none) :
    s.prove o f = s.authFailure := by
  simp only [State.prove, h]

theorem State.prove_known {h : Handshake} (hh : s.iop.handshakes.find? (fun h => h.session = leAt f 8 4 ∧ h.origin = o) = some h) :
    s.prove o f = if ¬ Config.ecdsaVerify h.pubkey (Config.sha512 (h.hello ++ h.answer)) ((f.drop 16).take 132) then
        (s.endHandshake h).authFailure
      else if ¬ hmacOk h.keys.1 f then s.authFailure
      else if frameMost < f.length then s.badHead o f 3
      else s.openSession h := by
  simp only [State.prove, hh]

end

theorem completes_idleTimeout {id : Nat} {s : State} {x : Session} (h : s.session id = some x) : Completes (.idleTimeout id) s
    (if x.auth ∧ x.lastValid + secCycles x.idleTimeout ≤ s.cycle ∧ x.lastValid ≠ s.cycle then s.closeSession id else s) := by
  refine completes_of_done ?_
  simp only [exec, execIdleTimeout, h]
  exact (apply_ite done _ _ _).symm

/-! #### Frames of a session (R58–R60, R62) -/

section
variable {s : State} {o : Origin} {f : List Byte} {x : Session}

theorem State.forSession_none (h : s.session (leAt f 8 4) = none) : s.forSession o f = s.authFailure := by
  simp only [State.forSession, h]

theorem State.forSession_elsewhere (h : s.session (leAt f 8 4) = some x) (ho : ¬ (o = .mailbox ↔ x.id = 0)) :
    s.forSession o f = s.authFailure := by
  simp only [State.forSession, h]
  exact if_pos fun heq => ho (iff_of_eq heq)

/-- A frame on its session's own transport. -/
theorem State.forSession_own (h : s.session (leAt f 8 4) = some x) (ho : o = .mailbox ↔ x.id = 0) : s.forSession o f =
    if x.auth then
      if ¬ hmacOk x.c2e f then s.badHmac x
      else (s.setSession { x with lastValid := s.cycle, badRun := 0 }).sessionFrame o { x with lastValid := s.cycle, badRun := 0 } f
    else if (leAt f 4 2).testBit 0 then s.authFailure
    else s.sessionFrame o x f := by
  simp only [State.forSession, h]
  exact if_neg (not_not_intro (propext ho))

/-- A frame that passes the tests of its session goes on as a frame of the session `y`, in the state `t`. -/
theorem State.forSession_passes {y : Session} {t : State} (h : s.session (leAt f 8 4) = some x) (ho : o = .mailbox ↔ x.id = 0)
    (hy : x.auth = true ∧ hmacOk x.c2e f = true ∧ y = { x with lastValid := s.cycle, badRun := 0 } ∧ t = s.setSession y ∨
      x.auth = false ∧ (leAt f 4 2).testBit 0 = false ∧ y = x ∧ t = s) : s.forSession o f = t.sessionFrame o y f := by
  rw [State.forSession_own h ho]
  rcases hy with ⟨hauth, hmac, rfl, rfl⟩ | ⟨hauth, hbit, rfl, rfl⟩
  · exact (if_pos hauth).trans (if_neg (not_not_intro hmac))
  · exact (if_neg (Bool.eq_false_iff.mp hauth)).trans (if_neg (Bool.eq_false_iff.mp hbit))

/-- A bad HMAC counts, and the sixteenth in succession closes the session (R59, R60). -/
theorem State.badHmac_runs (hid : x.id ≠ 0) (hrun : x.badRun < 15) :
    s.badHmac x = (s.bump Od.iop_AUTH_FAILURES).setSession { x with badRun := x.badRun + 1 } :=
  if_neg fun h => h.elim hid (by omega)

theorem State.badHmac_closes (h : x.id = 0 ∨ 15 ≤ x.badRun) : s.badHmac x = (s.bump Od.iop_AUTH_FAILURES).closeSession x.id :=
  if_pos (h.imp_right (by omega))

/-- A REQUEST inside a session, by its SEQ (R58). -/
theorem State.sessionFrame_request (hty : leAt f 3 1 = 0x10) : s.sessionFrame o x f =
    if leAt f 12 4 < x.keptSeq then s.discardFrame
    else if leAt f 12 4 = x.keptSeq then if x.keptAnswer = [] then s else s.sendTo o x.keptAnswer
    else s.runRequest x (leAt f 12 4) (leAt f 4 2) f ((f.drop 16).take (f.length - x.overhead)) :=
  if_pos hty

theorem State.sessionFrame_long (hty : leAt f 3 1 ≠ 0x10) (hlen : x.frameMax < f.length) :
    s.sessionFrame o x f = s.sendTo x.origin (rejectFrame x.id (leAt f 12 4) 3 x.outKey) :=
  (if_neg hty).trans (if_pos hlen)

theorem State.sessionFrame_acknowledge (hty : leAt f 3 1 = 0x21) (hlen : f.length ≤ x.frameMax) : s.sessionFrame o x f =
    { s with iop := { s.iop with inFlight := s.iop.inFlight.filter fun g => ¬ (g.session = x.id ∧ g.seq = leAt f 12 4) } } :=
  (if_neg (by simp [hty])).trans ((if_neg (Nat.not_lt.mpr hlen)).trans (if_pos hty))

theorem State.sessionFrame_close (hty : leAt f 3 1 = 0x30) (hlen : f.length ≤ x.frameMax) :
    s.sessionFrame o x f = s.closeSession x.id :=
  (if_neg (by simp [hty])).trans ((if_neg (Nat.not_lt.mpr hlen)).trans (if_neg (by simp [hty])))

end

/-! #### Resending of notifications (R62) -/

theorem State.resendNotify_nothing {s : State} {id seq : Nat}
    (h : s.iop.inFlight.find? (fun f => f.session = id ∧ f.seq = seq) = none ∨ s.session id = none) : s.resendNotify id seq = s := by
  unfold State.resendNotify
  split
  · rename_i hf hx
    rcases h with h | h <;> simp_all
  · rfl

/-- The NOTIFY in flight after one resend more. -/
def InFlight.again (g : InFlight) (frame : List Byte) (placed : Option Nat) : InFlight :=
  { g with frame := frame, resends := g.resends + 1, placed := placed }

def State.replaceFlight (s : State) (g g' : InFlight) : State :=
  { s with iop := { s.iop with inFlight := mapIf (fun y => decide (y = g)) (fun _ => g') s.iop.inFlight } }

/-- A NOTIFY that waits for its acknowledgement, by whether it is due and how often it has been sent. -/
theorem State.resendNotify_eq {s : State} {id seq : Nat} {g : InFlight} {x : Session}
    (hg : s.iop.inFlight.find? (fun f => f.session = id ∧ f.seq = seq) = some g) (hx : s.session id = some x) :
    let frame := engineFrame 0x20 id seq true (x.bodyOf g.frame) x.outKey
    s.resendNotify id seq =
      if ¬ s.resendDue g then s
      else if 3 ≤ g.resends then
        ({ s with iop := { s.iop with inFlight := s.iop.inFlight.erase g } } : State).bump Od.iop_NOTIFY_LOST
      else if id = 0 then (s.replaceFlight g (g.again frame (if id = 0 then none else some s.cycle))).notifyMailbox frame
      else (s.replaceFlight g (g.again frame (if id = 0 then none else some s.cycle))).sendWire x.origin frame := by
  simp only [State.resendNotify, hg, hx]
  rfl

/-! #### Commands (R65–R67) -/

section
variable {s : State} {code session : Nat} {args : List Byte} {held : Option HeldResponse}

/-- The entry of a command that is accepted, with the next ticket. -/
def State.ticketEntry (s : State) (code session : Nat) (args : List Byte) (held : Option HeldResponse) : CmdEntry :=
  { ticket := s.cmds.nextTicket, code := code, session := session, args := plainArgs code args, at_ := s.cycle, held := held }

theorem State.acceptCommand_starts (hstart : s.mayStart code = true) (hwait : (s.cmdQueue code).waiting = []) :
    s.acceptCommand code session args held = State.setCmdQueue { s with cmds := { s.cmds with ticket := s.cmds.nextTicket } } code
      { s.cmdQueue code with running := some (s.ticketEntry code session args held).begin } :=
  if_pos (show (s.mayStart code && (s.cmdQueue code).waiting == []) = true by simp [hstart, hwait])

theorem State.acceptCommand_waits (h : s.mayStart code = false ∨ (s.cmdQueue code).waiting ≠ []) :
    s.acceptCommand code session args held = State.setCmdQueue { s with cmds := { s.cmds with ticket := s.cmds.nextTicket } } code
      { s.cmdQueue code with waiting := (s.cmdQueue code).waiting ++ [s.ticketEntry code session args held] } :=
  if_neg (show ¬ (s.mayStart code && (s.cmdQueue code).waiting == []) = true by rcases h with h | h <;> simp [h])

end

theorem CmdEntry.begin_valid {e : CmdEntry} (h : e.code ≠ 0x33 ∨ leAt e.args 0 1 < 2) : e.begin = e :=
  if_neg fun ⟨hcode, htarget⟩ => h.elim (· hcode) (Nat.not_lt.mpr htarget)

theorem State.completeCommand_idle {s : State} {code : Nat} (h : (s.cmdQueue code).running = none) : s.completeCommand code = s := by
  simp only [State.completeCommand, h]

theorem State.completeCommand_unfinished {s : State} {code : Nat} {e : CmdEntry} (h : (s.cmdQueue code).running = some e)
    (hres : e.result = none) : s.completeCommand code = s := by
  simp only [State.completeCommand, h, hres]

/-- The queue of a code with the record of a completed command in front of the sixteen (R66). -/
def State.recorded (s : State) (code : Nat) (e : CmdEntry) (r : Nat) (data : List Byte) : State :=
  s.setCmdQueue code { s.cmdQueue code with
    running := none, lastReturn := data
    records := ((⟨e.ticket, if 2 ^ 32 ≤ e.session then 0 else e.session, r, s.now 0⟩ : CmdRecord) ::
      (s.cmdQueue code).records).take 16 }

theorem State.completeCommand_finished {s : State} {code : Nat} {e : CmdEntry} {r : Nat} {data : List Byte}
    (h : (s.cmdQueue code).running = some e) (hres : e.result = some (r, data)) :
    let u := (((s.recorded code e r data).endCommand e r).answerCommand e r data).nextCommand code
    s.completeCommand code = if e.session = bootSession then u.configGoesOn r else u := by
  simp only [State.completeCommand, h, hres]
  rfl

/-- A command holds its response, has no result, and its 1 ms has passed (R66). -/
def State.asksPending (s : State) (e : CmdEntry) : Bool :=
  e.held.isSome && !e.pending && e.result.isNone && decide (e.at_ + msCycles 1 ≤ s.cycle)

theorem State.pendCommand_nothing {s : State} {code : Nat}
    (h : ∀ e ∈ (s.cmdQueue code).running.toList ++ (s.cmdQueue code).waiting, s.asksPending e = false) : s.pendCommand code = s := by
  have hfind : ((s.cmdQueue code).running.toList ++ (s.cmdQueue code).waiting).find? s.asksPending = none :=
    List.find?_eq_none.mpr fun e he => Bool.eq_false_iff.mp (h e he)
  unfold State.asksPending at hfind
  simp only [State.pendCommand, hfind]

theorem State.pendCommand_says {s : State} {code : Nat} {e : CmdEntry} {h : HeldResponse}
    (he : ((s.cmdQueue code).running.toList ++ (s.cmdQueue code).waiting).find? s.asksPending = some e) (hh : e.held = some h) :
    let mark : CmdEntry → CmdEntry := fun x => if x.ticket = e.ticket then { x with pending := true } else x
    s.pendCommand code = (s.setCmdQueue code { s.cmdQueue code with
      running := (s.cmdQueue code).running.map mark, waiting := (s.cmdQueue code).waiting.map mark }).sayPending e h := by
  unfold State.asksPending at he
  simp only [State.pendCommand, he, hh]

/-! #### The mailbox's release (R422) -/

theorem completes_mbxRelease_answer {s : State} {f : List Byte} (hready : s.host.respReady = true) (h : s.host.respWaiting = some f) :
    Completes .mbxRelease s
      (({ s with host := { s.host with respReady := false, respWaiting := none } } : State).placeResponse f) := by
  refine completes_of_done ((if_pos hready).trans ?_)
  simp only [h]

theorem completes_mbxRelease_notify {s : State} {f : List Byte} {fs : List (List Byte)} (hready : s.host.respReady = true)
    (h : s.host.respWaiting = none) (hn : s.host.notifyWaiting = f :: fs) : Completes .mbxRelease s (({ s with
      iop := s.iop.markPlaced f s.cycle, host := { s.host with respReady := false, notifyWaiting := fs } } : State).placeResponse f) := by
  refine completes_of_done ((if_pos hready).trans ?_)
  simp only [h, hn]

theorem completes_mbxRelease_nothing {s : State} (hready : s.host.respReady = true) (h : s.host.respWaiting = none)
    (hn : s.host.notifyWaiting = []) : Completes .mbxRelease s { s with host := { s.host with respReady := false } } := by
  refine completes_of_done ((if_pos hready).trans ?_)
  simp only [h, hn]

end Sys2Proof.Machine

namespace Sys2Proof.Proofs

open Sys2Proof.Machine Sys2Proof.Safety

/-- Settles O28: HELLO and PROVE by the tests in their order, and the two timers. -/
theorem handshakes : Obligations.Handshakes := by
  refine ⟨fun o f s hlive hopen hframed hfree => ?_, fun o f s hlive hopen hframed hfree => ?_, fun id s => completes_of_done rfl,
    fun id s => ⟨fun h => completes_of_done (by simp only [exec, execIdleTimeout, h]), fun x h => ?_⟩⟩
  · have hc := completes_framed (i := .hello o f) hlive hopen hframed hfree rfl (by decide) (by decide)
    refine ⟨fun h => hc.congr (congrArg (afterFrame o) (State.hello_beyondRate h)), fun t ht => ?_⟩
    have hcount := hc.congr (congrArg (afterFrame o) (State.hello_counted ht))
    refine ⟨fun hseal => hcount.congr (congrArg (afterFrame o) (if_pos hseal)),
      fun hseal hlen => hcount.congr (congrArg (afterFrame o) ((if_neg (Bool.eq_false_iff.mp hseal)).trans (if_pos hlen))),
      fun hseal hlen => ?_⟩
    obtain ⟨hnone, hsome⟩ := State.hello_named (o := o) ht hseal hlen
    refine ⟨fun hk => hc.congr (congrArg (afterFrame o) (hnone hk)), fun k hk => ⟨fun ho hmax => ?_, fun hroom => ?_⟩⟩
    · exact hc.congr ((congrArg (afterFrame o) ((hsome k hk).trans (if_pos ⟨ho, hmax⟩))).trans (afterFrame_elsewhere _ ho))
    · have hfits : ¬ (o ≠ .mailbox ∧ t.get Od.iop_SESSION_MAX ≤ t.sessionsOpen) := fun ⟨ho, hmax⟩ =>
        hroom.elim ho (Nat.not_lt.mpr hmax)
      exact ⟨fun hlong => hc.congr (congrArg (afterFrame o) ((hsome k hk).trans ((if_neg hfits).trans (if_pos hlong)))),
        fun hshort => hc.congr (congrArg (afterFrame o)
          ((hsome k hk).trans ((if_neg hfits).trans (if_neg (Nat.not_lt.mpr hshort)))))⟩
  · have hc := completes_framed (i := .prove o f) hlive hopen hframed hfree rfl (by decide) (by decide)
    refine ⟨fun h => hc.congr (congrArg (afterFrame o) (State.prove_unknown h)), fun h hh => ?_⟩
    have hknown := hc.congr (congrArg (afterFrame o) (State.prove_known hh))
    refine ⟨fun hbad => hknown.congr (congrArg (afterFrame o) (if_pos (Bool.eq_false_iff.mp hbad))),
      fun hgood hmac => hknown.congr (congrArg (afterFrame o) ((if_neg (not_not_intro hgood)).trans (if_pos (Bool.eq_false_iff.mp hmac)))),
      fun hgood hmac => ⟨fun hlong => hknown.congr (congrArg (afterFrame o) ?_), fun hshort => hknown.congr (congrArg (afterFrame o) ?_)⟩⟩
    · exact (if_neg (not_not_intro hgood)).trans ((if_neg (not_not_intro hmac)).trans (if_pos hlong))
    · exact (if_neg (not_not_intro hgood)).trans ((if_neg (not_not_intro hmac)).trans (if_neg (Nat.not_lt.mpr hshort)))
  · have hc := completes_idleTimeout h
    refine ⟨fun hn => hc.congr (if_neg fun hdue => ?_), fun hauth hpassed hlast => ?_⟩
    · obtain ⟨hauth, hpassed, hlast⟩ := hdue
      exact hn.elim (fun ha => absurd (hauth.symm.trans ha) (by decide)) (Or.elim · (Nat.not_lt.mpr hpassed) hlast)
    · have hclose := hc.congr (if_pos ⟨hauth, hpassed, hlast⟩)
      exact ⟨fun hid => hclose.congr (if_pos hid), fun hid => hclose.congr ((if_neg hid).trans (by simp only [ne_eq]))⟩

/-- Settles O29: the frame's row and head, the tests of its session, what the session's frames do, and the resending. -/
theorem sessionFrames : Obligations.SessionFrames := by
  refine ⟨fun o f s => ⟨fun j hj hne => completes_otherFrame hj hne, fun ho hout => ?_, fun hfree => ⟨fun hdead => ?_, fun hlive =>
      ⟨fun hclosed => ?_, fun hopen => ?_⟩⟩⟩, fun o f s i hlive hopen hfree hi => ?_,
    fun o f s x y t hlive hopen hfree hx ho hy => ?_,
    fun id seq s => ⟨fun h => completes_of_done (congrArg done (State.resendNotify_nothing h)), fun g x hg hx => ?_⟩⟩
  · obtain ⟨p, hp, hexec⟩ := exec_frameCommand o f s
    exact completes_of_done (hexec.trans (congrArg done (State.takeFrame_outstanding hp ho hout)))
  · have hc := completes_frame hfree (State.receiveFrame_dead (f := f) ((beforeFrame_live o s).trans hdead))
    refine ⟨fun ho => hc.congr (congrArg (afterFrame o) (if_pos ho)), fun ho => hc.congr ?_⟩
    rw [if_neg ho, afterFrame_elsewhere _ ho, beforeFrame_elsewhere s ho]
  · have ho : o ≠ .mailbox := by
      rintro rfl
      exact absurd (s.transportOpen_mailbox.symm.trans hclosed) (by decide)
    refine (completes_frame hfree (State.receiveFrame_closed (f := f) ((beforeFrame_live o s).trans hlive)
      ((beforeFrame_transportOpen o s).trans hclosed))).congr ?_
    rw [afterFrame_elsewhere _ ho, beforeFrame_elsewhere s ho]
  · have hl := (beforeFrame_live o s).trans hlive
    have ht := (beforeFrame_transportOpen o s).trans hopen
    exact ⟨fun hhead => completes_frame hfree (State.receiveFrame_badMagic hl ht hhead),
      fun hmagic hmin hlen => completes_frame hfree ((State.receiveFrame_head hl ht hmagic hmin).1 hlen),
      fun hmagic hmin hlen hty => completes_frame hfree ((State.receiveFrame_head hl ht hmagic hmin).2 hlen hty)⟩
  · refine ⟨fun hx => completes_forSession hlive hopen hfree hi (State.forSession_none hx), fun x hx =>
      ⟨fun ho => completes_forSession hlive hopen hfree hi (State.forSession_elsewhere hx ho), fun ho hauth hbit => ?_,
        fun ho hauth hmac => ?_⟩⟩
    · exact completes_forSession hlive hopen hfree hi
        ((State.forSession_own hx ho).trans ((if_neg (Bool.eq_false_iff.mp hauth)).trans (if_pos hbit)))
    · have hbad := (State.forSession_own hx ho).trans ((if_pos hauth).trans (if_pos (Bool.eq_false_iff.mp hmac)))
      exact ⟨fun hid hrun => completes_forSession hlive hopen hfree hi (hbad.trans (State.badHmac_runs hid hrun)),
        fun hend => completes_forSession hlive hopen hfree hi (hbad.trans (State.badHmac_closes hend))⟩
  · have hpass : (beforeFrame o s).forSession o f = t.sessionFrame o y f :=
      State.forSession_passes hx ho (by rwa [beforeFrame_cycle])
    have hsame : y.keptSeq = x.keptSeq ∧ y.keptAnswer = x.keptAnswer ∧ y.frameMax = x.frameMax ∧ y.id = x.id ∧ y.origin = x.origin ∧
        y.outKey = x.outKey := by
      rcases hy with ⟨-, -, rfl, -⟩ | ⟨-, -, rfl, -⟩ <;> exact ⟨rfl, rfl, rfl, rfl, rfl, rfl⟩
    obtain ⟨hseq, hanswer, hmax, hid, horigin, hkey⟩ := hsame
    rw [← hseq, ← hanswer, ← hmax, ← hid, ← horigin, ← hkey]
    refine ⟨fun hf => ?_, fun hf => ?_, fun hf => ?_⟩
    · have hframe := hpass.trans (State.sessionFrame_request hf.2.2.2)
      have hc := completes_forSession hlive hopen hfree (.inl ⟨rfl, hf⟩) hframe
      refine ⟨fun hnew => hc.congr (congrArg (afterFrame o) ?_), fun heq hkept => hc.congr (congrArg (afterFrame o) ?_),
        fun heq hkept => hc.congr (congrArg (afterFrame o) ?_), fun hold => hc.congr (congrArg (afterFrame o) (if_pos hold))⟩
      · exact (if_neg (Nat.lt_asymm hnew)).trans (if_neg (Nat.ne_of_gt hnew))
      · exact (if_neg (Nat.not_lt.mpr (Nat.le_of_eq heq.symm))).trans ((if_pos heq).trans (if_neg hkept))
      · exact (if_neg (Nat.not_lt.mpr (Nat.le_of_eq heq.symm))).trans ((if_pos heq).trans (if_pos hkept))
    · have hty : leAt f 3 1 = 0x21 := hf.2.2.2
      exact ⟨fun hlen => completes_forSession hlive hopen hfree (.inr (.inl ⟨rfl, hf⟩))
          (hpass.trans (State.sessionFrame_acknowledge hty hlen)),
        fun hlen => completes_forSession hlive hopen hfree (.inr (.inl ⟨rfl, hf⟩))
          (hpass.trans (State.sessionFrame_long (by simp [hty]) hlen))⟩
    · have hty : leAt f 3 1 = 0x30 := hf.2.2.2
      exact ⟨fun hlen => completes_forSession hlive hopen hfree (.inr (.inr ⟨rfl, hf⟩))
          (hpass.trans (State.sessionFrame_close hty hlen)),
        fun hlen => completes_forSession hlive hopen hfree (.inr (.inr ⟨rfl, hf⟩))
          (hpass.trans (State.sessionFrame_long (by simp [hty]) hlen))⟩
  · have hc := completes_of_done (i := .notifyResendTimeout id seq) (congrArg done (State.resendNotify_eq hg hx))
    refine ⟨fun hdue => hc.congr (if_pos (Bool.eq_false_iff.mp hdue)),
      fun hdue hmost => hc.congr ((if_neg (not_not_intro hdue)).trans (if_pos hmost)), fun hdue hfew => ?_⟩
    have hagain := hc.congr ((if_neg (not_not_intro hdue)).trans (if_neg (Nat.not_le.mpr hfew)))
    refine ⟨fun hid => hagain.congr ((if_pos hid).trans ?_), fun hid => hagain.congr ((if_neg hid).trans ?_)⟩
    · rw [if_pos hid]
      rfl
    · rw [if_neg hid]
      rfl

/-- Settles O30: acceptance by what runs and waits, completion by the result, and the response that is held. -/
theorem commandsRunInTicketOrder : Obligations.CommandsRunInTicketOrder := by
  refine ⟨fun s code session args held => ⟨State.acceptCommand_starts, State.acceptCommand_waits, CmdEntry.begin_valid⟩,
    fun code s => ⟨fun h => completes_of_done (congrArg done (State.completeCommand_idle h)), fun e he =>
      ⟨fun hres => completes_of_done (congrArg done (State.completeCommand_unfinished he hres)), fun r data hres => ?_⟩⟩,
    fun code s => ⟨fun h => completes_of_done (congrArg done (State.pendCommand_nothing h)),
      fun e h he hh => completes_of_done (congrArg done (State.pendCommand_says he hh))⟩⟩
  have hc := completes_of_done (i := .commandCompletion code) (congrArg done (State.completeCommand_finished he hres))
  exact ⟨fun hboot => hc.congr (if_neg hboot), fun hboot => hc.congr (if_pos hboot)⟩

/-- Settles O31: doorbell, copy and release by the state of the mailbox's buffers. -/
theorem mailboxRequests : Obligations.MailboxRequests :=
  ⟨fun _ _ _ h => completes_of_done (if_neg (Bool.eq_false_iff.mp h)), fun _ _ _ h => completes_of_done (if_pos h),
    fun _ h => completes_of_done (if_pos h), fun _ h => completes_of_done (if_neg (Bool.eq_false_iff.mp h)),
    fun _ _ hready h => completes_mbxRelease_answer hready h, fun _ _ _ hready h hn => completes_mbxRelease_notify hready h hn,
    fun _ hready h hn => completes_mbxRelease_nothing hready h hn, fun _ h => completes_of_done (if_neg (Bool.eq_false_iff.mp h))⟩

end Sys2Proof.Proofs

/-! ### The PCIe function, its BARs and DMA (R414–R434, R441, R442) -/

namespace Sys2Proof.Machine

open Sys2Proof.Safety

/-! #### Resets and power states (R415, R416, R441, R442) -/

/-- A reset of the function leaves no channel, no window, no mailbox request and nothing pending (R415). -/
theorem State.resetFunction_host (s : State) : s.resetFunction.host.dma = [] ∧ s.resetFunction.host.windowBase = 0 ∧
    s.resetFunction.host.respReady = false ∧ s.resetFunction.host.reqBusy = false ∧
    ∀ e ∈ s.resetFunction.host.sources, e.2.pending = false ∧ e.2.active = false ∧ e.2.count = 0 := by
  refine ⟨rfl, rfl, rfl, rfl, fun e he => ?_⟩
  obtain ⟨_, _, rfl⟩ := List.mem_map.mp he
  exact ⟨rfl, rfl, rfl⟩

/-- Channels, held counts and held messages go on once requests are allowed (R416, R441, R442). -/
def State.requestsGoOn (s : State) : State := s.thawDma.d0Catch.sendHeld

theorem State.blockRequests_d3hot (s : State) :
    s.blockRequests .d3hot = State.freezeDma { s with host := { s.host with d3hot := true } } := by
  have hdue : (s.host.d0Due || (s.host.d3hot && !true)) = s.host.d0Due := by simp
  simp only [State.blockRequests, HostState.setCause, hdue]
  rfl

theorem State.allowRequests_d3hot (s : State) : s.allowRequests .d3hot = State.requestsGoOn { s with host := { s.host with
    d3hot := false, d0Due := s.host.d0Due || s.host.d3hot } } := by
  have hdue : (s.host.d0Due || (s.host.d3hot && !false)) = (s.host.d0Due || s.host.d3hot) := by simp
  refine (if_neg (by simp)).trans ?_
  simp only [HostState.setCause, hdue]
  rfl

theorem State.allowRequests_link {s : State} (h : s.pciePowered = true) : s.allowRequests .linkDown =
    let t : State := { s with host := { s.host with linkUp := true } }
    State.requestsGoOn (if s.host.linkUp = true then t else t.trainPcie) := by
  refine (if_neg (by simp [h])).trans ?_
  cases s.host.linkUp <;> rfl

theorem DmaChannel.settleFrozen_blocked (x : DmaChannel) : x.settleFrozen false =
    if x.state = dmaRunning ∨ x.state = dmaWaiting then { x with state := dmaFrozen, frozen := some x.state } else x := by
  simp [DmaChannel.settleFrozen]

/-! #### BAR 0 and BAR 2 (R417–R420) -/

/-- No register lies in the mailbox's buffers. -/
theorem bar0Misused_outside {o n : Nat} (h : bar0Misused o n = true) : o < 0x1000 ∨ 0x4000 ≤ o := by
  simp only [bar0Misused, bar0Listed, Bool.and_eq_true, decide_eq_true_eq] at h
  omega

section
variable {s : State} {o n : Nat}

theorem State.bar0Read_request (hlow : 0x1000 ≤ o) (hhigh : o + n ≤ 0x2000) :
    s.bar0Read o n = s.emit (.answer (bufferBytes s.host.reqBuf (o - 0x1000) n)) := if_pos ⟨hlow, hhigh⟩

theorem State.bar0Read_response (hlow : 0x2000 ≤ o) (hhigh : o + n ≤ 0x3000) (hn : 0 < n) :
    s.bar0Read o n = s.emit (.answer (bufferBytes s.host.respBuf (o - 0x2000) n)) :=
  (if_neg (by omega)).trans (if_pos ⟨hlow, hhigh⟩)

theorem State.bar0Read_misused (h : bar0Misused o n = true) :
    s.bar0Read o n = s.misuseBar0.emit (.answer (List.replicate n 0#8)) := by
  have hout := bar0Misused_outside h
  exact (if_neg (by omega)).trans ((if_neg (by omega)).trans (if_pos h))

/-- An access of the registers: a claim, a register, or nothing (R417, R438). -/
theorem State.bar0Read_register (h : bar0Misused o n = false) (hreq : ¬ (0x1000 ≤ o ∧ o + n ≤ 0x2000))
    (hresp : ¬ (0x2000 ≤ o ∧ o + n ≤ 0x3000)) :
    (∀ v, claimAt o = some v → s.bar0Read o n = (s.claimVector v).1.emit (.answer (leBytes 4 (s.claimVector v).2))) ∧
    (claimAt o = none → s.bar0Read o n =
      s.emit (.answer (leBytes n (if bar0Listed o then s.bar0Dword o + 2 ^ 32 * s.bar0Dword (o + 4) else 0)))) := by
  rw [State.bar0Read, if_neg hreq, if_neg hresp, if_neg (Bool.eq_false_iff.mp h)]
  exact ⟨fun v hv => by simp only [hv], fun hv => by simp only [hv]⟩

end

section
variable {s t : State} {a n : Nat} {m : MemMeet}

theorem State.bar2Bad_eq_false (h : s.bar2Bad a n = false) : (s.regionAt a n).isNone = false :=
  (Bool.or_eq_false_iff.mp h).1

theorem State.bar2Read_data {bs : List Byte} (h : s.bar2Bad a n = false) (hread : s.hbmRead 156 a n m = (t, .data bs)) :
    s.bar2Read a n m = t.emit (.answer bs) := by
  rw [State.bar2Read, if_neg (Bool.eq_false_iff.mp h), hread]

theorem State.bar2Read_poisoned (h : s.bar2Bad a n = false) (hread : s.hbmRead 156 a n m = (t, .poisoned)) :
    s.bar2Read a n m = ((t.bump Od.pcie_AER_UNCORRECTABLE).report Unit.pcie 0x48 1 156 a).emit (.poisoned a n) := by
  rw [State.bar2Read, if_neg (Bool.eq_false_iff.mp h), hread]

theorem State.bar2Write_taken {w : List Byte} {ok : Bool} (h : s.bar2Bad a w.length = false) (hwrite : s.hbmWrite 156 a w m = (t, ok)) :
    s.bar2Write a w m = if ok then t else t.refuseBar2 := by
  rw [State.bar2Write, if_neg (Bool.eq_false_iff.mp h), hwrite]

end

/-! #### Channels (R429, R430) -/

section
variable {s : State} {ch : Nat}

@[simp] theorem State.dma_setDma (s : State) (ch : Nat) (x : DmaChannel) : (s.setDma ch x).dma ch = x := Laws.tget_tput_self _ _ _ _

theorem State.runDma_allowed {x : DmaChannel} (h : s.host.allowed = true) : s.runDma ch x = s.setDma ch x :=
  congrArg (s.setDma ch) (if_neg (by simp [h]))

/-- A channel that would run while requests are blocked is FROZEN (R416). -/
theorem State.runDma_blocked {x : DmaChannel} (h : s.host.allowed = false) (hx : x.state = dmaRunning) :
    s.runDma ch x = s.setDma ch { x with state := dmaFrozen, frozen := some dmaRunning } :=
  (congrArg (s.setDma ch) (if_pos ⟨by simp [h], .inl hx⟩)).trans (by rw [hx])

theorem State.askDescriptor_running {x : DmaChannel} (hx : x.state = dmaRunning) :
    (s.setDma ch x).askDescriptor ch = (s.setDma ch x).emit (.hostRead x.curDesc 32) := by
  rw [State.askDescriptor, State.dma_setDma, if_pos hx]

theorem State.askDescriptor_frozen {x : DmaChannel} (hx : x.state = dmaFrozen) :
    (s.setDma ch x).askDescriptor ch = s.setDma ch x :=
  if_neg (by rw [State.dma_setDma, hx]; decide)

/-- A channel that starts to run asks for its descriptor, or is FROZEN while requests are blocked (R416, R429). -/
theorem State.runDma_asks {x : DmaChannel} (hx : x.state = dmaRunning) :
    (s.host.allowed = true → (s.runDma ch x).askDescriptor ch = (s.setDma ch x).emit (.hostRead x.curDesc 32)) ∧
    (s.host.allowed = false → (s.runDma ch x).askDescriptor ch =
      s.setDma ch { x with state := dmaFrozen, frozen := some dmaRunning }) :=
  ⟨fun h => by rw [State.runDma_allowed h, State.askDescriptor_running hx],
    fun h => by rw [State.runDma_blocked h hx, State.askDescriptor_frozen rfl]⟩

theorem State.dmaStops_alone (h : (s.dma ch).packet = none) : s.dmaStops ch = s.setDma ch { s.dma ch with
    state := dmaStopped, desc := none, readback := false, stopping := false, frozen := none } := by
  have hp : ¬ (s.dma ch).packet.isSome := by simp [h]
  simp only [State.dmaStops, if_neg hp]

theorem State.dmaStops_packet (h : (s.dma ch).packet ≠ none) : s.dmaStops ch = (s.truncatePacket ch).setDma ch
    { (s.truncatePacket ch).dma ch with state := dmaStopped, desc := none, readback := false, stopping := false, frozen := none } := by
  have hp : (s.dma ch).packet.isSome := Option.isSome_iff_ne_none.mpr h
  simp only [State.dmaStops, if_pos hp]

theorem DmaChannel.fetching_iff (x : DmaChannel) : x.fetching = true ↔ x.state = dmaRunning ∧ x.desc = none := by
  simp [DmaChannel.fetching]

end

section
variable {s : State} {ch : Fin 32} {d : Descriptor} {data : List Byte} {m : MemMeet}

/-- A descriptor arrives at a channel that waits for one, by its OWN bit (R424, R429). -/
theorem completes_dmaDescriptorFetched (hrun : (s.dma ch).state = dmaRunning) (hdesc : (s.dma ch).desc = none) :
    Completes (.dmaDescriptorFetched ch none data m) s ((s.setDma ch { s.dma ch with fetchError := true }).dmaFails ch) ∧
    (d.control.testBit 31 = true →
      let t := s.setDma ch { s.dma ch with desc := some d, moved := 0 }
      Completes (.dmaDescriptorFetched ch (some d) data m) s
        (if s.checkDescriptor (s.get Od.dma_MODE ch) d = 0 then t.moveData ch d data m
        else (t.writeBack ch (s.dma ch).curDesc d.control 0 (s.checkDescriptor (s.get Od.dma_MODE ch) d) false).dmaFails ch)) ∧
    (d.control.testBit 31 = false → Completes (.dmaDescriptorFetched ch (some d) data m) s
      (if (s.dma ch).doorbell = true then (s.setDma ch { s.dma ch with doorbell := false }).askDescriptor ch
      else s.setDma ch { s.dma ch with state := dmaIdle })) := by
  have hfetch := (s.dma ch).fetching_iff.mpr ⟨hrun, hdesc⟩
  refine ⟨completes_of_done (if_pos hfetch), fun hown => completes_of_done ((if_pos hfetch).trans ?_),
    fun hown => completes_of_done ((if_pos hfetch).trans ?_)⟩
  · simp only [hown, if_true]
    exact (apply_ite done _ _ _).symm
  · simp only [hown, Bool.false_eq_true, if_false]
    exact (apply_ite done _ _ _).symm

/-! #### The end of a descriptor (R428, R430, R431) -/

/-- A packet that a stop, or the end of the list, cuts off (R430). -/
def State.cutsOff (s : State) (ch : Nat) (d : Descriptor) : Prop := s.get Od.dma_MODE ch = 1 ∧ (s.dma ch).status = 0 ∧
  (s.dma ch).eop = false ∧ ((s.dma ch).stopping = true ∨ d.next = 0)

/-- CONTROL and COUNT are written back, and INT raises the channel's source (R428). -/
def State.writtenBack (s : State) (ch : Nat) (d : Descriptor) (st : Nat) (eop : Bool) : State :=
  let t := s.writeBack ch (s.dma ch).curDesc d.control (s.dma ch).moved st eop
  let u := (if d.control.testBit 30 then t.raise (1 + ch) else t).confirmHost ch (s.dma ch).moved
  u.setDma ch { u.dma ch with readback := false }

theorem completes_dmaReadbackDone (hd : (s.dma ch).desc = some d) (hback : (s.dma ch).readback = true)
    (hrun : (s.dma ch).state = dmaRunning) :
    (¬ s.cutsOff ch d → Completes (.dmaReadbackDone ch) s
      ((s.writtenBack ch d (s.dma ch).status (s.dma ch).eop).afterBack ch d (s.dma ch).status)) ∧
    (s.cutsOff ch d → Completes (.dmaReadbackDone ch) s (((s.writtenBack ch d 8 true).dropDmaPackets ch).afterBack ch d 8)) := by
  have hcut : (s.get Od.dma_MODE ch = 1 ∧ (s.dma ch).status = 0 ∧ ¬ (s.dma ch).eop = true ∧
      ((s.dma ch).stopping = true ∨ d.next = 0)) ↔ s.cutsOff ch d := by
    simp only [State.cutsOff, Bool.not_eq_true]
  refine ⟨fun h => completes_of_done ?_, fun h => completes_of_done ?_⟩
  · rw [← hcut] at h
    simp only [exec, execDmaReadbackDone, hd, hback, hrun, and_self, if_true, if_neg h, decide_eq_false h, Bool.false_or]
    rfl
  · rw [← hcut] at h
    simp only [exec, execDmaReadbackDone, hd, hback, hrun, and_self, if_true, if_pos h, decide_eq_true h, Bool.true_or]
    rfl

theorem completes_dmaReadbackDone_nothing
    (h : (s.dma ch).desc = none ∨ (s.dma ch).readback = false ∨ (s.dma ch).state ≠ dmaRunning) : Completes (.dmaReadbackDone ch) s s := by
  refine completes_of_done ?_
  simp only [exec, execDmaReadbackDone]
  cases hd : (s.dma ch).desc with
  | none => rfl
  | some d =>
    have h' := h.resolve_left (by simp [hd])
    exact if_neg fun ⟨hback, hrun⟩ => h'.elim (fun hb => absurd (hback.symm.trans hb) (by decide)) (· hrun)

/-- A host read fails under a descriptor whose source is the host (R433). -/
theorem completes_dmaHostReadError {got : List Byte} (hd : (s.dma ch).desc = some d) : Completes (.dmaHostReadError ch got) s
    (let part := ((s.dma ch).source ++ got).take (d.count - (s.dma ch).moved)
    if (s.dma ch).state = dmaRunning ∧ ¬ (s.dma ch).readback ∧ ¬ d.control.testBit 17 ∧ s.get Od.dma_MODE ch ≠ 1 then
      if s.get Od.dma_MODE ch = 2 then (s.dropDmaPackets ch).startReadback ch ((s.dma ch).moved + part.length) 6 false
      else (s.dmaWrite d (s.dma ch).moved part (s.dma ch).meet).startReadback ch ((s.dma ch).moved + part.length) 6 false
    else s) := by
  refine completes_of_done ?_
  simp only [exec, execDmaHostReadError, hd, ← apply_ite done]

theorem completes_dmaHostReadError_nothing {got : List Byte} (h : (s.dma ch).desc = none ∨ (s.dma ch).state ≠ dmaRunning ∨
    (s.dma ch).readback = true ∨ s.get Od.dma_MODE ch = 1) : Completes (.dmaHostReadError ch got) s s := by
  cases hd : (s.dma ch).desc with
  | none => exact completes_of_done (by simp only [exec, execDmaHostReadError, hd])
  | some d => exact (completes_dmaHostReadError hd).congr (if_neg (by grind))

end

end Sys2Proof.Machine

namespace Sys2Proof.Proofs

open Sys2Proof.Machine Sys2Proof.Safety

/-- Settles O32: the function's reset and causes, and the accesses of the BARs by their offsets. -/
theorem pcieFunctionAndBars : Obligations.PcieFunctionAndBars := by
  refine ⟨⟨fun s => ⟨fun h => completes_of_done (if_neg h), fun h => completes_of_done (if_pos h)⟩, State.resetFunction_host,
      fun s => completes_of_done rfl, fun s => completes_of_done (congrArg done s.blockRequests_d3hot),
      fun s => completes_of_done rfl, fun s => completes_of_done rfl,
      fun s => completes_of_done (congrArg done s.allowRequests_d3hot),
      fun s => ⟨fun h => completes_of_done (congrArg done (if_pos ⟨rfl, Bool.eq_false_iff.mp h⟩)),
        fun h => completes_of_done (congrArg done (State.allowRequests_link h))⟩,
      fun s => completes_of_done (congrArg done (State.allowRequests_d3hot _)), fun v s => completes_of_done rfl,
      fun s => completes_of_done rfl, fun s => completes_of_done rfl, DmaChannel.settleFrozen_blocked⟩,
    fun v s => completes_of_done rfl, fun o n s => ⟨fun hlow hhigh => completes_of_done (congrArg done (State.bar0Read_request hlow hhigh)),
      fun hlow hhigh hn => completes_of_done (congrArg done (State.bar0Read_response hlow hhigh hn)),
      fun h => completes_of_done (congrArg done (State.bar0Read_misused h)), fun h hreq hresp => ?_⟩,
    fun o n w m s => ⟨fun h => completes_of_done (congrArg done (if_pos h)), fun h => completes_of_done (congrArg done (if_pos h)),
      fun h => ⟨fun bs t hread => completes_of_done (congrArg done (State.bar2Read_data h hread)),
        fun t hread => completes_of_done (congrArg done (State.bar2Read_poisoned h hread)),
        Laws.hbmRead_answers s 156 _ n m (State.bar2Bad_eq_false h)⟩,
      fun h => ⟨fun t hwrite => completes_of_done (congrArg done (State.bar2Write_taken h hwrite)),
        fun t hwrite => completes_of_done (congrArg done (State.bar2Write_taken h hwrite))⟩⟩⟩
  obtain ⟨hclaim, hreg⟩ := State.bar0Read_register (s := s) h hreq hresp
  exact ⟨fun v hv => completes_of_done (congrArg done (hclaim v hv)),
    fun hv hlisted => completes_of_done (congrArg done ((hreg hv).trans (by rw [if_pos hlisted]))),
    fun hv hlisted => completes_of_done (congrArg done ((hreg hv).trans (by rw [if_neg (Bool.eq_false_iff.mp hlisted)])))⟩

/-- Settles O33: each register's write and a fetched descriptor, by the channel's state. -/
theorem dmaChannels : Obligations.DmaChannels := by
  refine ⟨fun ch s => ⟨fun hstop hhalt => ?_, fun h => completes_of_done (if_neg fun hn => ?_)⟩,
    fun ch s => ⟨fun h => completes_of_done (if_pos h), fun hstop herr => ?_⟩,
    fun ch s => ⟨fun h => completes_of_done (if_pos h), fun h => completes_of_done (if_neg h)⟩,
    fun ch s => ⟨fun hidle hok => ?_, fun hidle hno => ?_, fun h => completes_of_done (if_neg h)⟩,
    fun ch d data m s hrun hdesc => ?_, fun ch d data m s h => completes_of_done (if_neg fun hfetch => ?_)⟩
  · have hc : ∀ u, _ = u → Completes (.dmaRun ch) s u := fun u hu => completes_of_done
      ((if_pos ⟨hstop, Bool.eq_false_iff.mp hhalt⟩).trans (congrArg done hu))
    obtain ⟨hok, hno⟩ := State.runDma_asks (s := s) (ch := ch) (x := { s.dma ch with
      state := dmaRunning, curDesc := (s.dma ch).descBase, desc := none, readback := false, stopping := false, moved := 0 }) rfl
    exact ⟨fun h => hc _ (hok h), fun h => hc _ (hno h)⟩
  · exact h.elim (· hn.1) hn.2
  · have hrun : ¬ ((s.dma ch).state = dmaStopped ∨ (s.dma ch).state = dmaError) := fun h => h.elim hstop herr
    exact ⟨fun hb => completes_of_done ((if_neg hrun).trans (if_neg (Bool.eq_false_iff.mp hb))),
      fun hb hp => completes_of_done ((if_neg hrun).trans ((if_pos hb).trans (congrArg done (State.dmaStops_alone hp)))),
      fun hb hp => completes_of_done ((if_neg hrun).trans ((if_pos hb).trans (congrArg done (State.dmaStops_packet hp))))⟩
  · exact completes_of_done ((if_pos hidle).trans (congrArg done ((State.runDma_asks rfl).1 hok)))
  · exact completes_of_done ((if_pos hidle).trans (congrArg done ((State.runDma_asks rfl).2 hno)))
  · obtain ⟨hnone, -, hnot⟩ := completes_dmaDescriptorFetched (d := d) (data := data) (m := m) hrun hdesc
    exact ⟨hnone, fun hown hbell => (hnot hown).congr ((if_pos hbell).trans (State.askDescriptor_running hrun)),
      fun hown hbell => (hnot hown).congr (if_neg (Bool.eq_false_iff.mp hbell))⟩
  · obtain ⟨hrun, hdesc⟩ := (s.dma ch).fetching_iff.mp hfetch
    exact h.elim (· hrun) (· hdesc)

/-- Settles O34: the checks, the write-back, a failed read, and the two ways in which a waiting channel goes on. -/
theorem dmaDescriptors : Obligations.DmaDescriptors := by
  refine ⟨fun ch d data m s hrun hdesc hown => ?_, fun s mode d h => if_pos h,
    fun ch s => ⟨completes_dmaReadbackDone_nothing, fun d hd hback hrun => completes_dmaReadbackDone hd hback hrun⟩,
    fun ch got s => ⟨completes_dmaHostReadError_nothing, fun d hd hrun hback hmode => ?_⟩,
    fun ch s => ⟨fun hwait hdesc hmode hpacket hqueue => completes_of_done (if_pos ?_), fun h => completes_of_done (if_neg ?_)⟩,
    fun ch s => ⟨fun hwait hdesc hmode hfree => ?_, fun h => completes_of_done (if_neg ?_)⟩⟩
  · obtain ⟨-, hc, -⟩ := completes_dmaDescriptorFetched (d := d) (data := data) (m := m) hrun hdesc
    exact ⟨fun h => (hc hown).congr (if_pos h), fun h => (hc hown).congr (if_neg h)⟩
  · have hc := completes_dmaHostReadError (got := got) hd
    refine ⟨fun hdev => hc.congr (if_neg fun h => h.2.2.1 hdev), fun hhost hother => hc.congr ?_, fun hhost htwo => hc.congr ?_⟩
    · exact (if_pos ⟨hrun, Bool.eq_false_iff.mp hback, Bool.eq_false_iff.mp hhost, hmode⟩).trans (if_neg hother)
    · exact (if_pos ⟨hrun, Bool.eq_false_iff.mp hback, Bool.eq_false_iff.mp hhost, hmode⟩).trans (if_pos htwo)
  · exact ⟨hwait, Option.isSome_iff_ne_none.mpr hdesc, hmode, Option.isNone_iff_eq_none.mpr hpacket, hqueue⟩
  · rintro ⟨hwait, hdesc, hmode, hpacket, hqueue⟩
    simp only [hwait, hmode, hqueue, Option.isNone_iff_eq_none.mp hpacket, Option.isSome_iff_ne_none.mp hdesc] at h
    simp at h
  · have hgo : (s.dma ch).state = dmaWaiting ∧ (s.dma ch).desc.isSome ∧ s.get Od.dma_MODE ch = 2 ∧
        ¬ ((s.dma ch).moved = 0 ∧ s.hostPaused ch = true) :=
      ⟨hwait, Option.isSome_iff_ne_none.mpr hdesc, hmode, fun ⟨hm, hp⟩ => hfree.elim (by omega)
        fun hf => absurd (hp.symm.trans hf) (by decide)⟩
    exact ⟨fun h => completes_of_done ((if_pos hgo).trans (if_neg h)), fun h => completes_of_done ((if_pos hgo).trans (if_pos h))⟩
  · rintro ⟨hwait, hdesc, hmode, hfree⟩
    exact h.elim (· hwait) (Or.elim · (Option.isSome_iff_ne_none.mp hdesc) (Or.elim · (· hmode) hfree))

end Sys2Proof.Proofs

/-! ### Serial lanes and Chaec Link (R330–R354) -/

namespace Sys2Proof.Machine

open Sys2Proof.Safety

/-! #### Bring-up (R338–R341) -/

theorem completes_linkStagePass {p : Fin 128} {s : State} :
    (s.isBand p = true → s.stageCondition p = true → Completes (.linkStagePass p) s (s.stagePasses p)) ∧
    (s.isBand p = false ∨ s.stageCondition p = false → Completes (.linkStagePass p) s s) :=
  ⟨fun hband hcond => completes_of_done (if_pos ⟨hband, hcond⟩),
    fun h => completes_of_done (if_neg fun hn => by grind)⟩

/-- A stage's timeout is due. -/
def State.stageTimeoutDue (s : State) (p : Nat) : Prop := s.isBand p = true ∧ 2 ≤ (s.link p).stage ∧ (s.link p).stage ≤ 4 ∧
  (s.link p).stageAt + s.stageTime p ≤ s.cycle

section
variable {p : Fin 128} {s : State}

theorem completes_linkStageTimeout_early (h : ¬ s.stageTimeoutDue p) : Completes (.linkStageTimeout p) s s :=
  completes_of_done (if_neg h)

/-- An arrival beats a coincident timeout (R35). -/
theorem completes_linkStageTimeout_passes (hdue : s.stageTimeoutDue p) (hcond : s.stageCondition p = true) :
    Completes (.linkStageTimeout p) s (s.stagePasses p) :=
  completes_of_done ((if_pos hdue).trans (if_pos hcond))

theorem completes_linkStageTimeout_later (hdue : s.stageTimeoutDue p) (hcond : s.stageCondition p = false)
    (hstage : (s.link p).stage ≠ 2) : Completes (.linkStageTimeout p) s (s.stageTimesOut p) :=
  completes_of_done ((if_pos hdue).trans ((if_neg (Bool.eq_false_iff.mp hcond)).trans (if_neg hstage)))

/-- TRAIN's timeout: a narrower band comes up, or the stage times out (R340, R344). -/
theorem completes_linkStageTimeout_train (hdue : s.stageTimeoutDue p) (hcond : s.stageCondition p = false)
    (hstage : (s.link p).stage = 2) :
    (∀ ix, s.narrowTo p = some ix → Completes (.linkStageTimeout p) s (s.narrowBand p ix)) ∧
    (s.narrowTo p = none → Completes (.linkStageTimeout p) s (State.stageTimesOut (if (s.link p).retraining then
      (s.finishCommand 0x42 Result.linkFailed []).setLink p { s.link p with retraining := false } else s) p)) := by
  have hc : ∀ u, _ = done u → Completes (.linkStageTimeout p) s u := fun u hu =>
    completes_of_done ((if_pos hdue).trans ((if_neg (Bool.eq_false_iff.mp hcond)).trans ((if_pos hstage).trans hu)))
  exact ⟨fun ix hix => hc _ (by simp only [hix]), fun hnone => hc _ (by simp only [hnone])⟩

end

theorem State.nextStage_train {s : State} {p : Nat} (h : (s.link p).stage = 2) : s.nextStage p =
    ((s.sendTrainEnd p).setLinkState (s.portLanes p) 3).setLink p
      { s.link p with stage := 3, stageAt := s.cycle, inUse := List.range (s.get Od.port_WIDTH p) } :=
  (if_neg (show ¬ (s.link p).stage = 1 by omega)).trans (if_pos h)

/-! #### Capabilities and sealing (R341, R351) -/

section
variable {p : Fin 128} {c : Capability} {s : State}

/-- What a capability packet says of the peer. -/
def State.notePeer (s : State) (p : Nat) (c : Capability) : State :=
  ((s.set Od.port_PEER_SERIAL p c.serial).set Od.port_PEER_PORT p c.port).setLink p
    { s.link p with peer := some c, loopback := decide (c.serial = s.serial) }

def State.acceptBand (s : State) (p : Nat) : State := s.setLink p { s.link p with accepted := true }

/-- How sealing ends: sealed, or waiting for the offer, where both ends ask for it; failed where this end alone requires it. -/
def State.judgeSealing (t : State) (p own peer : Nat) (sealed : State) : State :=
  if own ≠ 0 ∧ peer ≠ 0 then sealed else if own = 2 then t.failBringUp p (some 4) else t.acceptBand p

theorem State.judgeSealing_cases (t : State) (p own peer : Nat) (sealed : State) :
    (own ≠ 0 → peer ≠ 0 → t.judgeSealing p own peer sealed = sealed) ∧
    (own = 2 → peer = 0 → t.judgeSealing p own peer sealed = (t.set Od.port_LAST_DOWN_CAUSE p 4).startBringUp p) ∧
    (own ≠ 2 → own = 0 ∨ peer = 0 → t.judgeSealing p own peer sealed = t.acceptBand p) :=
  ⟨fun ho hp => if_pos ⟨ho, hp⟩, fun ho hp => (if_neg fun h => h.2 hp).trans (if_pos ho),
    fun ho h => (if_neg fun hn => h.elim hn.1 hn.2).trans (if_neg ho)⟩

theorem completes_capabilityPacket (hband : s.isBand p = true) (hstage : (s.link p).stage = 4) :
    let own := s.ownCapability p
    let t := s.notePeer p c
    (c.width ≠ own.width → Completes (.capabilityPacket p c) s t) ∧
    (c.width = own.width → c.sealing = none →
      Completes (.capabilityPacket p c) s (t.judgeSealing p own.sealMode c.sealMode t)) ∧
    (∀ o, c.width = own.width → c.sealing = some o →
      (t.acceptsPeer own c (s.link p).ephDraw o = false →
        Completes (.capabilityPacket p c) s ((t.bump Od.sec_SEAL_FAILURES).failBringUp p (some 4))) ∧
      (t.acceptsPeer own c (s.link p).ephDraw o = true →
        Completes (.capabilityPacket p c) s (t.judgeSealing p own.sealMode c.sealMode ((t.sealBand p own c o).acceptBand p)))) := by
  intro own t
  have hc : ∀ u, _ = done u → Completes (.capabilityPacket p c) s u := fun u hu =>
    completes_of_done ((if_pos ⟨hband, hstage⟩).trans hu)
  refine ⟨fun hw => hc _ (if_pos hw), fun hw hs => hc _ ((if_neg (not_not_intro hw)).trans ?_),
    fun o hw hs => ⟨fun hno => hc _ ((if_neg (not_not_intro hw)).trans ?_), fun hok => hc _ ((if_neg (not_not_intro hw)).trans ?_)⟩⟩
  · simp only [hs, State.judgeSealing, apply_ite done]
    rfl
  · simp only [hs]
    exact if_pos (Bool.eq_false_iff.mp hno)
  · simp only [hs, State.judgeSealing, apply_ite done]
    exact if_neg (not_not_intro hok)

end

/-! #### Figures of merit and block lock (R333, R336, R342) -/

section
variable {l : Fin 128} {fom : Fin 256} {s : State}

/-- A measurement on a lane from TRAIN on: adaptation leaves RX_EQ and FREQ_OFFSET open (R336, R337). -/
def State.noteFom (s : State) (l fom : Nat) : State :=
  let t := s.set Od.lane_FOM l fom
  let u := ((t.useFree).set Od.lane_RX_EQ l t.freeValue).setInt Od.lane_FREQ_OFFSET l ((t.freeValue % 4001 : Nat) - 2000)
  if s.get Od.lane_FOM l < fom then u.setLane l { u.lane l with searching := true, heldFrames := 0 } else u

def State.noteFomLow (s : State) (l fom : Nat) : State :=
  if fom < s.get Od.lane_FOM_LOW l then s.set Od.lane_FOM_LOW l fom else s

theorem completes_fomMeasurement_none (h : s.get Od.lane_LINK_STATE l < 2 ∨ s.get Od.lane_LINK_STATE l = 6 ∨
    7 < s.get Od.lane_LINK_STATE l) : Completes (.fomMeasurement l fom) s s :=
  completes_of_done (if_neg (by omega))

theorem completes_fomMeasurement_training (h : 2 ≤ s.get Od.lane_LINK_STATE l ∧ s.get Od.lane_LINK_STATE l ≤ 4 ∨
    s.get Od.lane_LINK_STATE l = 7) : Completes (.fomMeasurement l fom) s (s.noteFom l fom) :=
  completes_of_done ((if_pos (by omega)).trans (if_neg (by omega)))

theorem completes_fomMeasurement_active (h : s.get Od.lane_LINK_STATE l = 5) : Completes (.fomMeasurement l fom) s
    (let w := (s.noteFom l fom).noteFomLow l fom
    if w.isBand (w.portOf l) then w.activeFom (w.portOf l) l fom else w) :=
  completes_of_done ((if_pos (by omega)).trans ((if_pos h).trans (apply_ite done _ _ _).symm))

theorem State.activeFom_drops {s : State} {p l fom : Nat} (hfom : fom < s.get Od.port_FOM_DROP p) : s.activeFom p l fom =
    if 3 ≤ (s.lane l).lowRun + 1 then (s.bump Od.lane_FOM_DROPS l).leaveActive p 3
    else s.setLane l { s.lane l with lowRun := (s.lane l).lowRun + 1 } :=
  if_pos hfom

theorem completes_blockLockGained :
    let t := s.setLane l { s.lane l with blockLock := true }
    (s.get Od.port_MODE (s.portOf l) ≠ 2 ∨ s.get Od.port_PORT_STATE (s.portOf l) ≠ 1 → Completes (.blockLockGained l) s t) ∧
    (s.get Od.port_MODE (s.portOf l) = 2 → s.get Od.port_PORT_STATE (s.portOf l) = 1 →
      Completes (.blockLockGained l) s ((t.portUp (s.portOf l)).reportMemberships (s.portOf l))) :=
  ⟨fun h => completes_of_done (if_neg fun ⟨hmode, hstate⟩ => h.elim (· hmode) (· hstate)),
    fun hmode hstate => completes_of_done (if_pos ⟨hmode, hstate⟩)⟩

/-- What a loss of block lock counts on its lane (R333). -/
def State.noteLockLoss (s : State) (l : Nat) (hiBer : Bool) : State :=
  let t := (s.setLane l { s.lane l with blockLock := false }).bumpBy Od.lane_BLOCK_ERRORS l 0 16
  if hiBer then t else t.bump Od.lane_LOCK_LOSSES l

theorem completes_blockLockLoss {hiBer : Bool} : Completes (.blockLockLoss l hiBer) s
    (let u := s.noteLockLoss l hiBer
    if u.portActive (s.portOf l) ∧ (u.lanesInUse (s.portOf l)).contains l.val then
      u.leaveActive (s.portOf l) (if hiBer then 2 else 1) else u) :=
  completes_of_done (apply_ite done _ _ _).symm

theorem completes_alignBlock {index width skew : Nat} (hband : s.isBand (s.portOf l) = true) :
    let ok := index = s.get Od.lane_LANE_INDEX l ∧ width = (s.link (s.portOf l)).inUse.length ∧ skew ≤ 32
    Completes (.alignBlock l index width skew) s
      (if s.portActive (s.portOf l) ∧ (s.lanesInUse (s.portOf l)).contains l.val ∧ ¬ decide ok then s.leaveActive (s.portOf l) 1
      else s.setLane l { s.lane l with aligned := decide ok }) :=
  completes_of_done ((if_pos hband).trans (apply_ite done _ _ _).symm)

end

theorem State.leaveActive_inactive {s : State} {p cause : Nat} (h : s.portActive p = false) : s.leaveActive p cause = s :=
  if_neg (Bool.eq_false_iff.mp h)

/-! #### Retraining, quads and the management port (R332, R344, R354) -/

/-- LINK_RETRAIN of a port with a link (R344). -/
theorem completes_linkRetrain {p : Nat} {s u : State} (htaken : Taken s 0x42 (leBytes 1 p) u) :
    (p < 128 → u.portMode p ≠ 0 → u.portMode p ≠ 3 → u.quadOn (p / 4) = true →
      let t := u.setLink p { u.link p with retraining := true, retrainAt := u.cycle }
      Completes (.linkRetrain p) s (if t.portActive p then t.leaveActive p 5 else t)) ∧
    (128 ≤ p ∨ u.portMode p = 0 ∨ u.portMode p = 3 ∨ u.quadOn (p / 4) = false →
      Completes (.linkRetrain p) s (u.attach 0x42 Result.noSuchTarget [])) := by
  refine ⟨fun hp h0 h3 hquad => completes_goes htaken rfl (if_neg fun h => ?_), fun h => completes_answer htaken rfl (if_pos ?_)⟩
  · exact h.elim (Nat.not_le.mpr hp) (Or.elim · h0 (Or.elim · h3 (· hquad)))
  · exact h.imp_right (Or.imp_right (Or.imp_right Bool.eq_false_iff.mp))

/-- The ports of a quad. -/
theorem quadPorts_eq (q : Nat) : (List.range 4).map (fun k => 4 * q + k) = [4 * q, 4 * q + 1, 4 * q + 2, 4 * q + 3] := rfl

/-- A quad is reset: its ports go down, its buffers are erased and repaired, and its bring-up begins (R332). -/
def State.resetQuad (s : State) (ports : List Nat) (q power : Nat) : State :=
  let t := ((ports.foldl (fun t p => t.quadPort p) s).initStore 8 q).repairsApply fun store inst => decide (store = 8 ∧ inst = q)
  let u := { t with lanes := { t.lanes with quadOn := tput t.lanes.quadOn false q (power == 1) } }
  (ports.filter fun p => ¬ u.isMember p).foldl (fun t p => t.startBringUp p) u

theorem completes_quadReset {q power : Nat} {s v : State} (hpower : power < 2)
    (htaken : Taken s 0x44 (leBytes 1 q ++ leBytes 1 power) v) :
    (32 ≤ q → Completes (.quadReset q power) s (v.attach 0x44 Result.noSuchTarget [])) ∧
    (q < 32 → [4 * q, 4 * q + 1, 4 * q + 2, 4 * q + 3].any v.portBound = true → Completes (.quadReset q power) s (v.attach 0x44 Result.inUse [])) ∧
    (q < 32 → [4 * q, 4 * q + 1, 4 * q + 2, 4 * q + 3].any v.portBound = false →
      Completes (.quadReset q power) s ((v.resetQuad [4 * q, 4 * q + 1, 4 * q + 2, 4 * q + 3] q power).attach 0x44 Result.ok [])) := by
  refine ⟨fun hq => completes_answer htaken (if_neg (Nat.not_le.mpr hpower)) (if_pos hq),
    fun hq h => completes_answer htaken (if_neg (Nat.not_le.mpr hpower)) ((if_neg (Nat.not_le.mpr hq)).trans (if_pos ?_)),
    fun hq h => completes_answer htaken (if_neg (Nat.not_le.mpr hpower)) ((if_neg (Nat.not_le.mpr hq)).trans ((if_neg ?_).trans ?_))⟩
  · rw [quadPorts_eq, h]
  · rw [quadPorts_eq, h]
    decide
  · rw [quadPorts_eq]
    rfl

/-- The management port's change shows in its objects (R354). -/
theorem completes_mgmtStateChange (speed ip : Nat) (s : State) :
    Completes (.mgmtStateChange true speed ip) s
      (((s.set Od.mgmt_MGMT_STATE 0 1).set Od.mgmt_MGMT_SPEED 0 speed).set Od.mgmt_MGMT_IPV4_NOW 0
        (if s.get Od.mgmt_MGMT_IPV4 = 0 then ip else s.get Od.mgmt_MGMT_IPV4 % 2 ^ 32)) ∧
    Completes (.mgmtStateChange false speed ip) s
      (((s.set Od.mgmt_MGMT_STATE 0 0).set Od.mgmt_MGMT_SPEED 0 0).set Od.mgmt_MGMT_IPV4_NOW 0 0) := by
  constructor <;> refine completes_of_done ?_
  · simp only [exec, execMgmtStateChange, b2n, Bool.not_true, Bool.false_eq_true, if_false, if_true]
  · simp only [exec, execMgmtStateChange, b2n, Bool.not_false, Bool.false_eq_true, if_false, if_true]

/-! #### Pauses and timing (R348, R349) -/

section
variable {p : Fin 128} {s : State}

theorem completes_pauseExpiry :
    (∀ a, (s.link p).pausedAt = some a → a + usCycles 40 ≤ s.cycle →
      Completes (.pauseExpiry p) s (s.setLink p { s.link p with paused := 0, pausedAt := none })) ∧
    ((∀ a, (s.link p).pausedAt = some a → s.cycle < a + usCycles 40) → Completes (.pauseExpiry p) s s) := by
  refine ⟨fun a ha hpassed => completes_of_done (if_pos (by simp [ha, hpassed])), fun h => completes_of_done (if_neg ?_)⟩
  cases ha : (s.link p).pausedAt with
  | none => simp
  | some a => simp [h a ha]

/-- Domains that do not follow the event's source stay. -/
theorem State.eachDomain_none {s : State} {p : State → Nat → Bool} {f : State → Nat → State} (h : ∀ rd < 8, p s rd = false) :
    s.eachDomain p f = s := by
  have hlist : ∀ l : List Nat, (∀ rd ∈ l, rd < 8) → l.foldl (fun t rd => if p t rd then f t rd else t) s = s := by
    intro l
    induction l with
    | nil => exact fun _ => rfl
    | cons rd l ih =>
      intro hl
      rw [List.foldl_cons, if_neg (Bool.eq_false_iff.mp (h rd (hl rd List.mem_cons_self)))]
      exact ih fun r hr => hl r (List.mem_cons_of_mem rd hr)
  exact hlist _ fun rd hrd => List.mem_range.mp hrd

/-- A TIMING packet on an ACTIVE band is taken, and measured by the domains that follow the band (R349). -/
theorem completes_timingPacket {x : TimingPayload} (h : s.activeBand p = true) : Completes (.timingPacket p x) s
    ((s.takeTiming p x).eachDomain (fun t rd => t.locksTo rd 3 && decide (t.fabricPort rd = p.val)) fun t rd =>
      match t.neighbourTime p rd with
      | some r => t.measure rd (t.fabricError rd r)
      | none => t) :=
  completes_of_done (if_pos h)

/-! #### Keys (R352) -/

@[simp] theorem State.link_setLink (s : State) (p : Nat) (l : PortLink) : (s.setLink p l).link p = l := Laws.tget_tput_self _ _ _ _

@[simp] theorem State.link_emit (s : State) (o : Output) (p : Nat) : (s.emit o).link p = s.link p := rfl

/-- A sealing offer draws an ephemeral key, which the band keeps, and sends a message. -/
theorem State.sendSealOffer_eq (s : State) (p msg : Nat) :
    ∃ o, s.sendSealOffer p msg = ((s.useDraws 66).setLink p { s.link p with ephDraw := s.sec.draws }).emit o := ⟨_, rfl⟩

theorem State.keys_setLink_emit (s : State) (p n : Nat) (l : PortLink) (o : Output) :
    ((((s.useDraws n).setLink p l).emit o).link p).keys = l.keys := by
  rw [State.link_emit, State.link_setLink]

/-- A sealing offer leaves the band's keys. -/
theorem State.sendSealOffer_keys (s : State) (p msg : Nat) : ((s.sendSealOffer p msg).link p).keys = (s.link p).keys := by
  obtain ⟨o, ho⟩ := State.sendSealOffer_eq s p msg
  rw [ho, State.keys_setLink_emit]

theorem completes_rekeyTimer {k : SealState} (hk : (s.link p).keys = some k) : Completes (.rekeyTimer p) s
    (if s.activeBand p ∧ k.rekeyAt = none ∧ s.rekeyDue p k then s.startRekey p k else s) := by
  refine completes_of_done ?_
  simp only [exec, execRekeyTimer, hk]
  exact (apply_ite done _ _ _).symm

theorem completes_rekeyMessage_nothing {o : SealOffer} (h : (s.link p).keys = none ∨ s.activeBand p = false) :
    Completes (.rekeyMessage p o) s s := by
  refine completes_of_done ?_
  cases hk : (s.link p).keys with
  | none => simp only [exec, execRekeyMessage, hk]
  | some k =>
    simp only [exec, execRekeyMessage, hk]
    exact if_neg (Bool.eq_false_iff.mp (h.resolve_left (by simp [hk])))

/-- An end that has not begun answers the neighbour's offer with its own first (R352). -/
theorem completes_rekeyMessage_first {o : SealOffer} {k : SealState} (hk : (s.link p).keys = some k) (hband : s.activeBand p = true)
    (hrekey : k.rekeyAt = none) : Completes (.rekeyMessage p o) s
      ((s.startRekey p k).takeRekey p { k with rekeyAt := some s.cycle } o) := by
  have hkeys : ((s.startRekey p k).link p).keys = some { k with rekeyAt := some s.cycle } := by
    rw [State.startRekey, State.sendSealOffer_keys, State.link_setLink]
  refine completes_of_done ?_
  simp only [exec, execRekeyMessage, hk, hrekey, if_true, if_pos hband] at hkeys ⊢
  simp only [hkeys]

theorem completes_rekeyMessage_begun {o : SealOffer} {k : SealState} (hk : (s.link p).keys = some k) (hband : s.activeBand p = true)
    (hrekey : k.rekeyAt ≠ none) : Completes (.rekeyMessage p o) s (s.takeRekey p k o) := by
  refine completes_of_done ?_
  simp only [exec, execRekeyMessage, hk, if_neg hrekey, if_pos hband]

/-- The state whose neighbour's offer was accepted: the next keys stand in the other phase (R352). -/
def State.takeKeys (s : State) (p : Nat) (k : SealState) (own c : Capability) (draw : Nat) (o : SealOffer) : State :=
  let b := sealBlocks own c draw o
  (s.sendSignature p own c draw o).setLink p { s.link p with keys := some { k with
    rekeyAt := none, nextTx := some ⟨b.1, 0, !k.tx.phase⟩, nextRx := some ⟨b.2, 0, !k.rx.phase⟩ } }

theorem State.takeRekey_eq {k : SealState} {o : SealOffer} {c : Capability} (hc : (s.link p).peer = some c) :
    s.takeRekey p k o = if s.acceptsPeer (s.ownCapability p) c (s.link p).ephDraw o then
      s.takeKeys p k (s.ownCapability p) c (s.link p).ephDraw o else s := by
  rw [State.takeRekey, hc]
  rfl

theorem completes_rekeyTimeout :
    (∀ k a, (s.link p).keys = some k → k.rekeyAt = some a → a + msCycles 200 ≤ s.cycle →
      Completes (.rekeyTimeout p) s (s.leaveActive p 4)) ∧
    ((∀ k a, (s.link p).keys = some k → k.rekeyAt = some a → s.cycle < a + msCycles 200) → Completes (.rekeyTimeout p) s s) := by
  generalize hwait : msCycles 200 = wait
  refine ⟨fun k a hk ha hpassed => completes_of_done ?_, fun h => completes_of_done ?_⟩
  · have hdue : (k.rekeyAt.any fun a => decide (a + wait ≤ s.cycle)) = true := by rw [ha, Option.any_some, decide_eq_true hpassed]
    simp only [exec, execRekeyTimeout, hk, hwait, hdue, if_true]
  · cases hk : (s.link p).keys with
    | none => simp only [exec, execRekeyTimeout, hk]
    | some k =>
      have hdue : (k.rekeyAt.any fun a => decide (a + wait ≤ s.cycle)) = false := by
        cases ha : k.rekeyAt with
        | none => rfl
        | some a => rw [Option.any_some, decide_eq_false (Nat.not_le.mpr (h k a hk ha))]
      simp only [exec, execRekeyTimeout, hk, hwait, hdue, Bool.false_eq_true, if_false]

theorem completes_oldKeyExpiry :
    (∀ k, (s.link p).keys = some k → k.oldAt + msCycles 100 ≤ s.cycle →
      Completes (.oldKeyExpiry p) s (s.setLink p { s.link p with keys := some { k with oldRx := none } })) ∧
    ((∀ k, (s.link p).keys = some k → s.cycle < k.oldAt + msCycles 100) → Completes (.oldKeyExpiry p) s s) := by
  refine ⟨fun k hk hpassed => completes_of_done ?_, fun h => completes_of_done ?_⟩
  · simp only [exec, execOldKeyExpiry, hk]
    exact if_pos hpassed
  · cases hk : (s.link p).keys with
    | none => simp only [exec, execOldKeyExpiry, hk]
    | some k =>
      simp only [exec, execOldKeyExpiry, hk]
      exact if_neg (Nat.not_le.mpr (h k hk))

end

end Sys2Proof.Machine

namespace Sys2Proof.Proofs

open Sys2Proof.Machine Sys2Proof.Safety

/-- Settles O37: detection and stages by their conditions, training, figures of merit, block lock and capabilities. -/
theorem bringUpOfBands : Obligations.BringUpOfBands := by
  refine ⟨fun l found s => ⟨fun h => completes_of_done (if_pos h), fun h => completes_of_done (if_neg h)⟩, fun p s => ?_,
    fun p s h => State.nextStage_train h,
    fun p s => ⟨fun h => completes_of_done (if_pos h), fun h => completes_of_done (if_neg (Nat.not_le.mpr h))⟩,
    fun l f s => ⟨fun h => completes_of_done (if_neg h), fun h => completes_of_done (if_pos h)⟩,
    fun l fom s => ⟨completes_fomMeasurement_none, completes_fomMeasurement_training, completes_fomMeasurement_active⟩,
    fun l s => completes_blockLockGained, fun p c s => ⟨fun h => completes_of_done (if_neg fun hn => ?_), fun hband hstage => ?_⟩⟩
  · obtain ⟨hpass, hno⟩ := completes_linkStagePass (p := p) (s := s)
    refine ⟨hpass, hno, completes_linkStageTimeout_early, completes_linkStageTimeout_passes, fun hdue hcond =>
      ⟨completes_linkStageTimeout_later hdue hcond, fun hstage => ?_⟩⟩
    obtain ⟨hnarrow, hout⟩ := completes_linkStageTimeout_train hdue hcond hstage
    exact ⟨hnarrow, fun hn hr => (hout hn).congr (congrArg (State.stageTimesOut · p) (if_neg (Bool.eq_false_iff.mp hr))),
      fun hn hr => (hout hn).congr (congrArg (State.stageTimesOut · p) (if_pos hr))⟩
  · exact h.elim (fun hb => absurd (hn.1.symm.trans hb) (by decide)) (· hn.2)
  · obtain ⟨hwidth, hplain, hoffer⟩ := completes_capabilityPacket (c := c) hband hstage
    refine ⟨hwidth, fun hw hs => ?_, fun o hw hs => ⟨(hoffer o hw hs).1, fun hok => ?_⟩⟩
    · obtain ⟨hboth, honly, hnone⟩ := State.judgeSealing_cases (s.notePeer p c) p (s.ownCapability p).sealMode c.sealMode (s.notePeer p c)
      exact ⟨fun ho hp => (hplain hw hs).congr (hboth ho hp), fun ho hp => (hplain hw hs).congr (honly ho hp),
        fun ho h => (hplain hw hs).congr (hnone ho h)⟩
    · obtain ⟨hboth, honly, hnone⟩ := State.judgeSealing_cases (s.notePeer p c) p (s.ownCapability p).sealMode c.sealMode
        (((s.notePeer p c).sealBand p (s.ownCapability p) c o).acceptBand p)
      have hc := (hoffer o hw hs).2 hok
      exact ⟨fun ho hp => hc.congr (hboth ho hp), fun ho hp => hc.congr (honly ho hp), fun ho h => hc.congr (hnone ho h)⟩

/-- Settles O38: each cause that takes a band down, with what leaves it up, and LINK_RETRAIN. -/
theorem leavingActive : Obligations.LeavingActive := by
  refine ⟨fun l index width skew s => ⟨fun h => completes_of_done (if_neg (Bool.eq_false_iff.mp h)),
      fun hband hactive hin hok => (completes_alignBlock hband).congr (if_pos ⟨hactive, by simpa using hin, by simpa using hok⟩),
      fun hband h => (completes_alignBlock hband).congr (if_neg fun ⟨hactive, hin, hok⟩ => ?_)⟩,
    fun l hiBer s => ⟨fun hactive hin => completes_blockLockLoss.congr (if_pos ⟨hactive, List.contains_iff_mem.mpr hin⟩),
      fun h => completes_blockLockLoss.congr (if_neg fun ⟨hactive, hin⟩ => ?_)⟩,
    fun p l fom s hfom => ⟨fun h => (State.activeFom_drops hfom).trans (if_pos (by omega)),
      fun h => (State.activeFom_drops hfom).trans (if_neg (by omega))⟩,
    fun p s => ⟨fun h => completes_of_done (if_pos h), fun h => completes_of_done (if_neg (Bool.eq_false_iff.mp h))⟩,
    fun p s => completes_rekeyTimeout, fun p s u htaken => completes_linkRetrain htaken,
    fun p s => ⟨fun hr hpassed => completes_of_done (if_pos ⟨hr, hpassed⟩), fun h => completes_of_done (if_neg fun ⟨hr, hpassed⟩ => ?_)⟩,
    fun s p cause h => State.leaveActive_inactive h⟩
  · rcases h with h | h | h
    · exact absurd (hactive.symm.trans h) (by decide)
    · exact h (by simpa using hin)
    · exact hok (decide_eq_true h)
  · exact h.elim (fun hno => absurd (hactive.symm.trans hno) (by decide)) (· (List.contains_iff_mem.mp hin))
  · exact h.elim (fun hno => absurd (hr.symm.trans hno) (by decide)) (Nat.not_lt.mpr hpassed)

/-- Settles O39: QUAD_RESET by its arguments and the quad's ports, and the management port's objects. -/
theorem quadsAndManagement : Obligations.QuadsAndManagement := by
  refine ⟨fun q power s h => completes_of_done (if_pos h), fun q power s v hpower htaken => ?_,
    fun speed ip s => (completes_mgmtStateChange speed ip s).1, fun speed ip s => (completes_mgmtStateChange speed ip s).2⟩
  obtain ⟨hnone, hbound, hreset⟩ := completes_quadReset hpower htaken
  refine ⟨hnone, fun k hk hq h => hbound hq ?_, fun hq h => hreset hq ?_⟩
  · rw [← quadPorts_eq]
    exact List.any_eq_true.mpr ⟨4 * q + k, List.mem_map_of_mem (List.mem_range.mpr hk), h⟩
  · rw [← quadPorts_eq]
    refine List.any_eq_false.mpr fun p hp => ?_
    obtain ⟨k, hk, rfl⟩ := List.mem_map.mp hp
    exact Bool.eq_false_iff.mp (h k (List.mem_range.mp hk))

/-- Settles O40: pauses and timing of an ACTIVE band, and the rekeying from its timer to the end of the old key. -/
theorem pausesTimingAndKeys : Obligations.PausesTimingAndKeys := by
  refine ⟨fun p mask s => ⟨fun h hmask => completes_of_done ((if_pos h).trans (if_neg hmask)),
      fun h hmask => completes_of_done ((if_pos h).trans (if_pos hmask)), fun h => completes_of_done (if_neg (Bool.eq_false_iff.mp h))⟩,
    fun p s => completes_pauseExpiry, fun p s => ⟨fun h => completes_of_done (if_pos h), fun h => completes_of_done (if_neg h)⟩,
    fun p s => ⟨fun h hdue => completes_of_done (if_pos ⟨h, hdue⟩), fun h => completes_of_done (if_neg fun hn => by grind)⟩,
    fun p x s => ⟨fun h => completes_of_done (if_neg (Bool.eq_false_iff.mp h)), completes_timingPacket,
      fun h hnone => (completes_timingPacket h).congr (State.eachDomain_none hnone)⟩,
    fun p s => ⟨fun h => completes_of_done (by simp only [exec, execRekeyTimer, h]), fun k hk =>
      ⟨fun h => (completes_rekeyTimer hk).congr (if_pos h), fun h => (completes_rekeyTimer hk).congr (if_neg h)⟩⟩,
    fun p o s => ⟨completes_rekeyMessage_nothing, fun k hk hband hrekey => completes_rekeyMessage_first hk hband hrekey,
      fun k c hk hband hrekey hc => ?_⟩, fun p s => completes_oldKeyExpiry⟩
  have hbegun := completes_rekeyMessage_begun (o := o) hk hband hrekey
  exact ⟨fun hok => hbegun.congr ((State.takeRekey_eq hc).trans (if_pos hok)),
    fun hno => hbegun.congr ((State.takeRekey_eq hc).trans (if_neg (Bool.eq_false_iff.mp hno)))⟩

end Sys2Proof.Proofs

/-! ### Received packets (R346, R350, R353, R354, R373) -/

namespace Sys2Proof.Machine

open Sys2Proof.Safety

section
variable {p : Fin 128} {bs : List Byte} {s : State}

/-- A packet on an ACTIVE band, by its header check and its trailer (R346). -/
theorem State.receivePacket_bad (hband : s.isBand p = true) (hactive : s.portActive p = true) :
    (hcrcOk bs = false → s.receivePacket p bs = (s.bump Od.port_HCRC_ERRORS p).skipSealed p) ∧
    (hcrcOk bs = true → trailerOk bs = false → s.receivePacket p bs = (s.bump Od.port_CRC_ERRORS p).skipSealed p) := by
  have hon : ¬ ¬ (s.isBand p && s.portActive p) = true := not_not_intro (Bool.and_eq_true_iff.mpr ⟨hband, hactive⟩)
  refine ⟨fun hhead => ?_, fun hhead htrail => ?_⟩
  · rw [State.receivePacket, if_neg hon, if_pos (Bool.eq_false_iff.mp hhead)]
  · rw [State.receivePacket, if_neg hon, if_neg (not_not_intro hhead), if_pos (Bool.eq_false_iff.mp htrail)]

/-- A good packet on an ACTIVE band, by what opening it gives (R346, R353). -/
theorem State.receivePacket_good (hband : s.isBand p = true) (hactive : s.portActive p = true) (hhead : hcrcOk bs = true)
    (htrail : trailerOk bs = true) :
    (∀ t m, s.openPacket p bs = (t, some m) → s.receivePacket p bs = (t.countIn p bs.length).switchPacket p m) ∧
    (∀ t, s.openPacket p bs = (t, none) → s.receivePacket p bs = t) := by
  have hon : ¬ ¬ (s.isBand p && s.portActive p) = true := not_not_intro (Bool.and_eq_true_iff.mpr ⟨hband, hactive⟩)
  refine ⟨fun t m hopen => ?_, fun t hopen => ?_⟩ <;>
  · rw [State.receivePacket, if_neg hon, if_neg (not_not_intro hhead), if_neg (not_not_intro htrail), hopen]

theorem State.receivePacket_off (h : s.isBand p = false ∨ s.portActive p = false) : s.receivePacket p bs = s :=
  if_pos fun hon => h.elim (by simp_all) (by simp_all)

/-- On a band without keys only a plain packet opens (R353). -/
theorem State.openPacket_plain (hkeys : (s.link p).keys = none) :
    ((ChHeader.ofBytes bs).flags.testBit 0 = false → s.openPacket p bs = (s, some bs)) ∧
    ((ChHeader.ofBytes bs).flags.testBit 0 = true → s.openPacket p bs = (s.tagFails p, none)) := by
  refine ⟨fun h => ?_, fun h => ?_⟩ <;> simp only [State.openPacket, hkeys, h, Bool.false_eq_true, if_true, if_false]

/-- A frame on a 10GBASE-R port, by its MODE, its FCS and its type (R350). -/
theorem State.portFrame_cases (hmode : s.get Od.port_MODE p = 2) (hactive : s.portActive p = true) :
    let f := EthFrame.ofBytes (bs.take (bs.length - 4))
    (frameOk (s.get Od.port_MAX_FRAME p) bs = false → s.portFrame p bs = s.bump Od.port_CRC_ERRORS p) ∧
    (frameOk (s.get Od.port_MAX_FRAME p) bs = true → f.etype = 0x8808 → s.portFrame p bs = s.bump Od.port_PAUSE_FRAMES_IGNORED p) ∧
    (frameOk (s.get Od.port_MAX_FRAME p) bs = true → f.etype ≠ 0x8808 →
      s.portFrame p bs = (s.countIn p bs.length).switchFrame (.port p) f) := by
  have hon : ¬ (s.get Od.port_MODE p ≠ 2 ∨ ¬ s.portActive p = true) := fun h => h.elim (· hmode) (· hactive)
  refine ⟨fun hok => ?_, fun hok htype => ?_, fun hok htype => ?_⟩
  · rw [State.portFrame, if_neg hon, if_pos (Bool.eq_false_iff.mp hok)]
  · rw [State.portFrame, if_neg hon, if_neg (not_not_intro hok)]
    exact if_pos htype
  · rw [State.portFrame, if_neg hon, if_neg (not_not_intro hok)]
    exact if_neg htype

/-- The management port takes good frames for itself and for groups (R354). -/
theorem State.mgmtFrame_cases :
    let f := EthFrame.ofBytes (bs.take (bs.length - 4))
    let mine := f.dst = leBytes 6 (s.get Od.mgmt_MGMT_MAC) ∨ groupMac f.dst = true
    (s.get Od.mgmt_MGMT_STATE = 1 → frameOk 1518 bs = true → mine → s.mgmtFrame bs = s.takeOwn .mgmt (s.iface none) f) ∧
    (s.get Od.mgmt_MGMT_STATE ≠ 1 ∨ frameOk 1518 bs = false ∨ ¬ mine → s.mgmtFrame bs = s) := by
  refine ⟨fun hup hok hmine => (if_pos ⟨hup, hok⟩).trans (if_pos hmine), fun h => ?_⟩
  by_cases htaken : s.get Od.mgmt_MGMT_STATE = 1 ∧ frameOk 1518 bs = true
  · refine (if_pos htaken).trans (if_neg fun hmine => ?_)
    exact h.elim (· htaken.1) (Or.elim · (fun hok => absurd (htaken.2.symm.trans hok) (by decide)) (· hmine))
  · exact if_neg htaken

end

end Sys2Proof.Machine

/-! ### Egress and gates (R313, R392, R400–R411) -/

namespace Sys2Proof.Machine

open Sys2Proof.Safety

section
variable {p : Fin 128} {s : State}

theorem completes_egressStart {t : State} (hactive : s.portActive p = true) (ht : s.startNext p = t) :
    Completes (.egressStart p) s t :=
  completes_of_done ((if_pos hactive).trans (congrArg done ht))

/-- A port that sends: only a short GLOBAL packet interrupts, and only once (R392). -/
theorem State.startNext_sending {cur : Sending} (hcur : (s.egPort p).sending = some cur) :
    (∀ k, s.shortFor p = some k → cur.packet.short = false → (s.egPort p).interrupted = none →
      s.startNext p = (s.setEgPort p { s.egPort p with sending := none, interrupted := some cur }).startControl p 1568 k) ∧
    (s.shortFor p = none ∨ cur.packet.short = true ∨ (s.egPort p).interrupted ≠ none → s.startNext p = s) := by
  refine ⟨fun k hk hlong hint => ?_, fun h => ?_⟩
  · simp only [State.startNext, hcur, hk, hlong, hint, Option.isSome_none, Bool.or_self, Bool.false_eq_true, if_false]
  · cases hk : s.shortFor p with
    | none => simp only [State.startNext, hcur, hk]
    | some k =>
      have hstay : (cur.packet.short || (s.egPort p).interrupted.isSome) = true :=
        Bool.or_eq_true_iff.mpr ((h.resolve_left (by simp [hk])).imp_right Option.isSome_iff_ne_none.mpr)
      simp only [State.startNext, hcur, hk, hstay, if_true]

/-- A free port: a short GLOBAL packet, control traffic, then the highest queue that may send (R400). -/
theorem State.startNext_free (hcur : (s.egPort p).sending = none) :
    (∀ k, s.shortFor p = some k → s.startNext p = s.startControl p 1568 k) ∧
    (s.shortFor p = none → (s.egPort p).interrupted ≠ none → s.startNext p = s) ∧
    (s.shortFor p = none → (s.egPort p).interrupted = none →
      (∀ q k, s.controlFor p = some (q, k) → s.startNext p = s.startControl p q k) ∧
      (s.controlFor p = none →
        (∀ q, (s.countGated p).sendable p = some q → s.startNext p = (s.countGated p).startFrom p q) ∧
        ((s.countGated p).sendable p = none → s.startNext p = s.countGated p))) := by
  refine ⟨fun k hk => ?_, fun hk hint => ?_, fun hk hint => ⟨fun q k hc => ?_, fun hc => ⟨fun q hq => ?_, fun hq => ?_⟩⟩⟩
  · simp only [State.startNext, hcur, hk]
  · simp only [State.startNext, hcur, hk, Option.isSome_iff_ne_none.mpr hint, if_true]
  all_goals simp only [State.startNext, hcur, hk, hint, Option.isSome_none, Bool.false_eq_true, if_false, hc]
  all_goals simp only [hq]

/-- The end of a packet releases its batts and gives its queue's next head its eligibility (R313, R403). -/
theorem State.endPacket_sending {x : Sending} (hx : (s.egPort p).sending = some x) :
    s.endPacket p =
      let t := ((s.setEgPort p { s.egPort p with sending := (s.egPort p).interrupted, interrupted := none }).countLate
        x.packet).decrementAll x.packet.entries
      if x.queue < 1024 then t.newHead x.queue else t := by
  simp only [State.endPacket, hx]

theorem State.endPacket_idle (h : (s.egPort p).sending = none) : s.endPacket p = s := by
  simp only [State.endPacket, h]

/-! #### The calendar (R404) -/

/-- A fold whose every step keeps the state keeps it. -/
theorem foldl_eq_of_fixed {α β : Type} {f : α → β → α} {a : α} : ∀ {l : List β}, (∀ b ∈ l, f a b = a) → l.foldl f a = a
  | [], _ => rfl
  | b :: l, h => by
    rw [List.foldl_cons, h b List.mem_cons_self]
    exact foldl_eq_of_fixed fun c hc => h c (List.mem_cons_of_mem b hc)

/-- One queue at a slot boundary of its port's calendar. -/
def State.passQueue (p : Nat) (t : State) (q : Nat) : State :=
  match (t.shaper q).slot with
  | none => t
  | some i => if 0 ≤ t.ticksDiff p (t.ticksNow p) (i * 4096) then t.place q else t

theorem State.passSlot_eq (s : State) (p : Nat) : s.passSlot p = (List.range 8).foldl (fun t k => State.passQueue p t (8 * p + k)) s := rfl

theorem State.passQueue_unslotted {t : State} {p q : Nat} (h : (t.shaper q).slot = none) : State.passQueue p t q = t := by
  simp only [State.passQueue, h]

theorem State.passSlot_unslotted (h : ∀ k < 8, (s.shaper (8 * p + k)).slot = none) : s.passSlot p = s :=
  foldl_eq_of_fixed fun k hk => State.passQueue_unslotted (h k (List.mem_range.mp hk))

/-- A queue whose slot has come with its eligibility reached leaves its slot. -/
theorem State.passQueue_reached {p q i e : Nat} (hp : q / 8 = p) (hslot : (s.shaper q).slot = some i)
    (helig : (s.shaper q).elig = some e) (hdue : 0 ≤ s.ticksDiff p (s.ticksNow p) (i * 4096)) (hreached : s.slotReached p e = true) :
    State.passQueue p s q = s.setShaper q { s.shaper q with slot := none } := by
  simp only [State.passQueue, hslot, if_pos hdue, State.place, helig, hp, hreached, if_true]

theorem State.shaper_setShaper_ne {q r : Nat} {x : ShaperQueue} (h : q ≠ r) : (s.setShaper q x).shaper r = s.shaper r :=
  Laws.tget_tput_ne _ _ _ _ h

/-- Where only a port's first queue waits in a slot, and that has come, it alone becomes eligible. -/
theorem State.passSlot_first {i e : Nat} (hslot : (s.shaper (8 * p)).slot = some i) (helig : (s.shaper (8 * p)).elig = some e)
    (hdue : 0 ≤ s.ticksDiff p (s.ticksNow p) (i * 4096)) (hreached : s.slotReached p e = true)
    (hrest : ∀ k < 7, (s.shaper (8 * p + k + 1)).slot = none) :
    s.passSlot p = s.setShaper (8 * p) { s.shaper (8 * p) with slot := none } := by
  rw [State.passSlot_eq, List.range_succ_eq_map, List.foldl_cons, List.foldl_map,
    Nat.add_zero, State.passQueue_reached (by omega) hslot helig hdue hreached]
  refine foldl_eq_of_fixed fun k hk => State.passQueue_unslotted ?_
  rw [State.shaper_setShaper_ne (by omega)]
  exact hrest k (List.mem_range.mp hk)

/-! #### Gate lists (R408, R411) -/

theorem State.passGate_running {g : List (Nat × Nat)} (hg : s.gateSegs p = some g) : s.passGate p =
    let t := s.set Od.egr_GATE_STATE p (maskAt g (s.gatePos p))
    if cyclesPassed (s.egPort p).cycleNo (s.gateCycleNo p) = 0 then t
    else (t.setEgPort p { t.egPort p with cycleNo := s.gateCycleNo p }).bumpBy Od.egr_GATE_CYCLES p 0
      (cyclesPassed (s.egPort p).cycleNo (s.gateCycleNo p)) := by
  simp only [State.passGate, hg]

theorem State.passGate_none (h : (s.egPort p).gates = none) : s.passGate p = s := by
  have hg : s.gateSegs p = none := by rw [State.gateSegs, h, Option.map_none]
  simp only [State.passGate, hg]

theorem State.gateChangeDue_iff {c : GateChange} (hc : (s.egPort p).change = some c) :
    s.gateChangeDue p = decide (0 ≤ s.ticksDiff p (s.ticksNow p) c.startAt) := by
  simp only [State.gateChangeDue, hc]

theorem completes_gateChangeStart_due {c : GateChange} {t : State} (hc : (s.egPort p).change = some c)
    (hdue : 0 ≤ s.ticksDiff p (s.ticksNow p) c.startAt) (ht : s.startGates p = t) : Completes (.gateChangeStart p) s t :=
  completes_of_done (congrArg done ((if_pos ((State.gateChangeDue_iff hc).trans (decide_eq_true hdue))).trans ht))

theorem completes_gateChangeStart_undue (h : s.gateChangeDue p = false) : Completes (.gateChangeStart p) s s :=
  completes_of_done (congrArg done (if_neg (Bool.eq_false_iff.mp h)))

end

end Sys2Proof.Machine

namespace Sys2Proof.Proofs

open Sys2Proof.Machine Sys2Proof.Safety

/-- Settles O41: packets by their checks and by what opening them gives, frames by their port's state, FCS and type. -/
theorem receivedPackets : Obligations.ReceivedPackets := by
  refine ⟨fun p bs s hband hactive => ?_, fun p bs s h => completes_of_done (congrArg done (State.receivePacket_off h)),
    fun p bs s h => completes_of_done (congrArg done (if_pos (h.imp_right Bool.eq_false_iff.mp))), fun p bs s hmode hactive => ?_,
    fun bs s => ?_⟩
  · obtain ⟨hhead, htrail⟩ := State.receivePacket_bad (bs := bs) hband hactive
    refine ⟨fun h => completes_of_done (congrArg done (hhead h)), fun h ht => completes_of_done (congrArg done (htrail h ht)),
      fun h ht hkeys hplain => ?_, fun h ht hkeys hsealed => ?_, fun h ht => ?_⟩
    · exact completes_of_done (congrArg done ((State.receivePacket_good hband hactive h ht).1 _ _
        ((State.openPacket_plain hkeys).1 hplain)))
    · exact completes_of_done (congrArg done ((State.receivePacket_good hband hactive h ht).2 _
        ((State.openPacket_plain hkeys).2 hsealed)))
    · obtain ⟨hsome, hnone⟩ := State.receivePacket_good hband hactive h ht
      exact ⟨fun t m ho => completes_of_done (congrArg done (hsome t m ho)), fun t ho => completes_of_done (congrArg done (hnone t ho))⟩
  · obtain ⟨hbad, hpause, hgood⟩ := State.portFrame_cases (bs := bs) hmode hactive
    exact ⟨fun h => completes_of_done (congrArg done (hbad h)), fun h ht => completes_of_done (congrArg done (hpause h ht)),
      fun h ht => completes_of_done (congrArg done (hgood h ht))⟩
  · obtain ⟨htaken, hnot⟩ := State.mgmtFrame_cases (bs := bs) (s := s)
    exact ⟨fun hup hok hmine => completes_of_done (congrArg done (htaken hup hok hmine)),
      fun h => completes_of_done (congrArg done (hnot h))⟩

/-- Settles O42: what a port sends next by what it sends now, the end of a packet, and the formula of R402. -/
theorem egressOfPackets : Obligations.EgressOfPackets := by
  refine ⟨fun p s h => completes_of_done (if_neg (Bool.eq_false_iff.mp h)), fun p s hactive => ?_, fun p s x hx => ?_,
    fun p s h => completes_of_done (congrArg done (State.endPacket_idle h)), fun s q c now => rfl, fun s q h => if_pos h⟩
  · refine ⟨fun cur k hcur hk hlong hint => completes_egressStart hactive ((State.startNext_sending hcur).1 k hk hlong hint),
      fun cur hcur h => completes_egressStart hactive ((State.startNext_sending hcur).2 h),
      fun k hcur hk => completes_egressStart hactive ((State.startNext_free hcur).1 k hk), fun hcur hk => ?_⟩
    obtain ⟨-, hwaits, hfree⟩ := State.startNext_free hcur
    refine ⟨fun hint => completes_egressStart hactive (hwaits hk hint), fun hint => ?_⟩
    obtain ⟨hcontrol, hqueues⟩ := hfree hk hint
    refine ⟨fun q k hc => completes_egressStart hactive (hcontrol q k hc), fun hc => ?_⟩
    obtain ⟨hsend, hnone⟩ := hqueues hc
    exact ⟨fun q hq => completes_egressStart hactive (hsend q hq), fun hq => completes_egressStart hactive (hnone hq)⟩
  · have hend := State.endPacket_sending hx
    exact ⟨fun h => completes_of_done (congrArg done (hend.trans (if_pos h))),
      fun h => completes_of_done (congrArg done (hend.trans (if_neg (Nat.not_lt.mpr h))))⟩

/-- Settles O43: slots queue by queue, the mask and cycle count of a list, and the start of a change. -/
theorem calendarAndGates : Obligations.CalendarAndGates := by
  refine ⟨fun p s => completes_of_done rfl, fun p s h => completes_of_done (congrArg done (State.passSlot_unslotted h)),
    fun p s i e hslot helig hdue hreached hrest =>
      completes_of_done (congrArg done (State.passSlot_first hslot helig hdue hreached hrest)),
    fun p s g hg => ?_, fun p s h => completes_of_done (congrArg done (State.passGate_none h)), fun p s c hc => ?_,
    fun p s h => completes_gateChangeStart_undue (by simp only [State.gateChangeDue, h])⟩
  · have hrun := State.passGate_running hg
    exact ⟨fun h => completes_of_done (congrArg done (hrun.trans (if_pos h))),
      fun h => completes_of_done (congrArg done (hrun.trans (if_neg h)))⟩
  · refine ⟨fun h => completes_gateChangeStart_undue ((State.gateChangeDue_iff hc).trans (decide_eq_false (Int.not_le.mpr h))),
      fun hdue => ⟨fun hi => completes_gateChangeStart_due hc hdue ?_, fun base cyc es hi => completes_gateChangeStart_due hc hdue ?_⟩⟩
    · simp only [State.startGates, hc, hi]
    · simp only [State.startGates, hc, hi]

end Sys2Proof.Proofs

/-! ### Regions and accesses of HBM3 (R275–R286) -/

namespace Sys2Proof.Machine

open Sys2Proof.Safety

/-! #### The bytes of HBM3 -/

theorem State.hbmByte_hbmPut (s : State) (a : Nat) (data : List Byte) {b : Nat} (h : b < a ∨ a + data.length ≤ b) :
    (s.hbmPut a data).hbmByte b = s.hbmByte b := Laws.putBytes_outside data _ a b h

theorem State.hbmBytes_hbmPut (s : State) (a : Nat) (data : List Byte) : (s.hbmPut a data).hbmBytes a data.length = data := by
  refine List.ext_getElem (by simp [State.hbmBytes]) fun k _ hk => ?_
  simp only [State.hbmBytes, List.getElem_map, List.getElem_range]
  exact Laws.putBytes_inside data _ a k hk

theorem State.hbmByte_hbmZero_out (s : State) {a n b : Nat} (h : b < a ∨ a + n ≤ b) : (s.hbmZero a n).hbmByte b = s.hbmByte b :=
  Laws.tget_filter_keep _ _ _ fun _ => decide_eq_true h

theorem State.hbmByte_hbmZero_in (s : State) {a n b : Nat} (ha : a ≤ b) (hb : b < a + n) : (s.hbmZero a n).hbmByte b = 0#8 :=
  Laws.tget_filter_drop _ _ _ fun _ => decide_eq_false (by omega)

theorem State.hbmByte_of_mem {s t : State} (h : t.mem = s.mem) (b : Nat) : t.hbmByte b = s.hbmByte b := by
  rw [State.hbmByte, State.hbmByte, h]

/-! #### The life of a region (R276, R277, R281) -/

section
variable {region kind t base size : Nat} {s : State}

theorem le_extentOf (kind size : Nat) : size ≤ extentOf kind size := by
  unfold extentOf
  split <;> omega

/-- A region that is filled reads as zero, and nothing outside its extent changes (R277). -/
theorem State.hbmByte_fillRegion (s : State) (kind t base size : Nat) {b : Nat} :
    (b < base ∨ base + extentOf kind size ≤ b → (s.fillRegion kind t base size).hbmByte b = s.hbmByte b) ∧
    (kind = 1 ∨ t = 1 → base ≤ b → b < base + size → (s.fillRegion kind t base size).hbmByte b = 0#8) := by
  have hsize := le_extentOf kind size
  refine ⟨fun h => ?_, fun hfill ha hb => ?_⟩
  · rw [State.fillRegion]
    split
    · exact State.hbmByte_hbmZero_out _ (h.imp_right (Nat.le_trans (Nat.add_le_add_left hsize base)))
    · rfl
  · rw [State.fillRegion, if_pos hfill]
    exact State.hbmByte_hbmZero_in _ ha hb

theorem State.hbmByte_makeRegion (s : State) (region kind t base size b : Nat) :
    (s.makeRegion region kind t base size).hbmByte b = (s.fillRegion kind t base size).hbmByte b :=
  State.hbmByte_of_mem (Laws.makeRegion_mem ..) b

/-- The object T of a region that is named. -/
theorem State.get_nameRegion_T (ht : t < 256) : (s.nameRegion region kind t base size).get Od.reg_T region = t := by
  rw [State.nameRegion, Laws.get_set_ne _ Od.reg_CREATED_AT Od.reg_T, Laws.get_set_ne _ Od.reg_EXTENT Od.reg_T,
    Laws.get_set_ne _ Od.reg_SIZE Od.reg_T, Laws.get_set_ne _ Od.reg_BASE Od.reg_T, Laws.get_set_self]
  · exact Nat.mod_eq_of_lt ht
  all_goals
    simp only [Row.key, Od.reg_CREATED_AT, Od.reg_EXTENT, Od.reg_SIZE, Od.reg_BASE, Od.reg_T]
    omega

/-- Each page of a new PROTECTED region has the trailer of its zero data (R277). -/
theorem State.trailer_makeRegion {k : Nat} (ht : t < 256) (hk : k < size / 4096) :
    (s.makeRegion region 1 t base size).trailer region (base + 4096 * k) =
      pageTrailer t (base + 4096 * k) (List.replicate 4096 0#8) := by
  have hzero : (s.makeRegion region 1 t base size).hbmBytes (base + 4096 * k) 4096 = List.replicate 4096 0#8 := by
    refine List.eq_replicate_iff.mpr ⟨by rw [State.hbmBytes, List.length_map, List.length_range], fun x hx => ?_⟩
    obtain ⟨j, hj, rfl⟩ := List.mem_map.mp hx
    have := List.mem_range.mp hj
    rw [State.hbmByte_makeRegion]
    exact (State.hbmByte_fillRegion ..).2 (.inl rfl) (by omega) (by omega)
  rw [State.trailer, hzero, State.makeRegion, State.get_nameRegion_T ht]

/-- The tests of a REGION_CREATE, in their order (R276). -/
theorem State.regionTests_cases :
    (s.regionExists region = true → s.regionTests region kind t base size = .inl Result.noSuchTarget) ∧
    (region < 256 → s.regionExists region = false → kind = 1 → t ∉ [8, 16, 24, 32, 48, 64] →
      s.regionTests region kind t base size = .inl Result.outOfRange) ∧
    (region < 256 → s.regionExists region = false → kind = 0 → t < 2 → size % 131072 ≠ 0 →
      s.regionTests region kind t base size = .inl Result.alignment) ∧
    (region < 256 → s.regionExists region = false → kind = 0 → t < 2 → size % 131072 = 0 → 0 < size → base % 131072 = 0 →
      s.mem.trainingFailed = false → s.regionTests region kind t base size =
        if s.extentFree base size then .inr base else .inl Result.noSpace) := by
  have hnew : region < 256 → s.regionExists region = false → ¬ (¬ region < 256 ∨ s.regionExists region = true) :=
    fun hr he h => h.elim (· hr) (Bool.eq_false_iff.mp he)
  refine ⟨fun he => ?_, fun hr he hkind ht => ?_, fun hr he hkind ht hsize => ?_, fun hr he hkind ht hsize hpos hbase htrain => ?_⟩
  · rw [State.regionTests, if_pos (.inr he)]
  · rw [State.regionTests, if_neg (hnew hr he), if_pos fun h => h.elim (ht ·.2) fun h0 => absurd (hkind.symm.trans h0.1) (by decide)]
  · rw [State.regionTests, if_neg (hnew hr he), if_neg (not_not_intro (.inr ⟨hkind, ht⟩)), if_pos (.inr (.inl hsize))]
  · have hdefined : base ≠ 2 ^ 64 - 1 := fun h => absurd (h ▸ hbase) (by decide)
    rw [State.regionTests, if_neg (hnew hr he), if_neg (not_not_intro (.inr ⟨hkind, ht⟩)), if_neg (by omega),
      if_neg (Bool.eq_false_iff.mp htrain), if_neg hdefined, hkind]
    rfl

/-- The fields of a REGION_CREATE's argument block. -/
theorem leAt_regionArgs (hr : region < 256) (hkind : kind < 256) (ht : t < 256) (hsize : size < 2 ^ 64) :
    leAt (regionArgs region kind t base size) 0 1 = region ∧ leAt (regionArgs region kind t base size) 1 1 = kind ∧
    leAt (regionArgs region kind t base size) 2 1 = t ∧ leAt (regionArgs region kind t base size) 12 8 = size :=
  ⟨Laws.leNat_leBytes 1 region hr, Laws.leNat_leBytes 1 kind hkind, Laws.leNat_leBytes 1 t ht, Laws.leNat_leBytes 8 size hsize⟩

/-- With the completion of REGION_CREATE the region exists (R276). -/
theorem State.endCommand_regionCreate {e : CmdEntry} {asked : Nat} (hr : region < 256) (hkind : kind < 256) (ht : t < 256)
    (hbase : base < 2 ^ 64) (hsize : size < 2 ^ 64) (hcode : e.code = 0x20) (hargs : e.args = regionArgs region kind t asked size)
    (hresult : e.result = some (Result.ok, leBytes 8 base)) (hpicture : s.mem.noPictureReported = false) :
    s.endCommand e Result.ok = s.nameRegion region kind t base size := by
  obtain ⟨h0, h1, h2, h12⟩ := leAt_regionArgs (base := asked) hr hkind ht hsize
  have hanswer : leAt (e.result.elim [] Prod.snd) 0 8 = base := by
    rw [hresult]
    exact Laws.leNat_leBytes 8 base hbase
  simp only [State.endCommand, hcode, if_true, State.regionMade, hargs, hanswer, h0, h1, h2, h12, Laws.nameRegion_mem, hpicture,
    Bool.false_eq_true, if_false]

theorem completes_regionCreate {v : State} (htaken : Taken s 0x20 (regionArgs region kind t base size) v) :
    (∀ a, v.regionTests region kind t base size = .inr a → Completes (.regionCreate region kind t base size) s
      ((if kind = 1 ∨ t = 1 then ((v.fillRegion kind t a size).bumpBy Od.hbm_BYTES_WRITTEN 0 0 (extentOf kind size)).cleanGranules
        fun g => overlaps g 256 a (extentOf kind size) else v.fillRegion kind t a size).attach 0x20 Result.ok (leBytes 8 a))) ∧
    (∀ r, v.regionTests region kind t base size = .inl r → Completes (.regionCreate region kind t base size) s (v.attach 0x20 r [])) := by
  refine ⟨fun a h => completes_answer htaken rfl ?_, fun r h => completes_answer htaken rfl ?_⟩ <;> simp only [h]

theorem completes_regionDelete {v : State} (htaken : Taken s 0x21 (leBytes 1 region) v) :
    (v.regionExists region = true → v.regionUsers region = 0 →
      Completes (.regionDelete region) s ((v.dropRegion region).attach 0x21 Result.ok [])) ∧
    (v.regionExists region = true → v.regionUsers region ≠ 0 → Completes (.regionDelete region) s (v.attach 0x21 Result.inUse [])) ∧
    (v.regionExists region = false → Completes (.regionDelete region) s (v.attach 0x21 Result.noSuchTarget [])) :=
  ⟨fun he hu => completes_answer htaken rfl ((if_neg (not_not_intro he)).trans (if_neg (not_not_intro hu))),
    fun he hu => completes_answer htaken rfl ((if_neg (not_not_intro he)).trans (if_pos hu)),
    fun he => completes_answer htaken rfl (if_pos (Bool.eq_false_iff.mp he))⟩

end

/-! #### Accesses (R275, R278, R283–R286) -/

/-- An access that meets no changed bits, parity errors, severities or ACTs. -/
def plainMeet : MemMeet := ⟨[], 0, 0, []⟩

section
variable {m : Master} {a n : Nat} {data : List Byte} {s : State}

theorem State.meets_plain (s : State) : (s.addFlips plainMeet.flips).demandActs plainMeet.acts = s := rfl

theorem State.parityRetries_zero (s : State) : s.parityRetries plainMeet.parity = s := rfl

/-- A write that meets nothing, by the region it lies in (R275, R278, R283). -/
theorem State.hbmWrite_plain (code : Nat) :
    (s.regionAt a data.length = none → s.hbmWrite code a data plainMeet = (s, false)) ∧
    (∀ r, s.regionAt a data.length = some r → s.regionProtected r = false → s.hbmWrite code a data plainMeet =
      (((s.cleanGranules fun g => decide (a ≤ g ∧ g + 256 ≤ a + data.length)).hbmPut a data).bumpBy Od.hbm_BYTES_WRITTEN 0 0
        data.length, true)) ∧
    (∀ r, s.regionAt a data.length = some r → s.regionProtected r = true → wholePages a data.length = true →
      s.hbmWrite code a data plainMeet =
        ((s.cleanGranules fun g => decide (a ≤ g ∧ g + 256 ≤ a + data.length)).writePages r a data, true)) ∧
    (∀ r, s.regionAt a data.length = some r → s.regionProtected r = true → wholePages a data.length = false →
      s.hbmWrite code a data plainMeet = ((s.bump Od.reg_WRITES_REJECTED r).report (Unit.hbmHalf (halfOf (pageOf a))) 0x12 2 code
        (pageOf a), false)) := by
  have hparity : ¬ plainMeet.parity ≥ 4 := by decide
  have hclean : ∀ r, (s.cleanGranules fun g => decide (a ≤ g ∧ g + 256 ≤ a + data.length)).regionProtected r = s.regionProtected r :=
    fun _ => rfl
  refine ⟨fun h => ?_, fun r h hopen => ?_, fun r h hprot hwhole => ?_, fun r h hprot hpart => ?_⟩
  · simp only [State.hbmWrite, State.meets_plain, h]
  · simp only [State.hbmWrite, State.meets_plain, h, hopen, State.parityRetries_zero, if_neg hparity, hclean, Bool.false_and,
      Bool.false_eq_true, if_false]
  · simp only [State.hbmWrite, State.meets_plain, h, hprot, hwhole, State.parityRetries_zero, if_neg hparity, hclean,
      Bool.not_true, Bool.and_false, Bool.false_eq_true, if_false, if_true]
  · simp only [State.hbmWrite, State.meets_plain, h, hprot, hpart, Bool.not_false, Bool.and_true, if_true]

/-- A read that meets nothing: refused outside every region, and in an OPEN one it gives the stored bytes (R275, R286). -/
theorem State.hbmRead_plain (code : Nat) :
    (s.regionAt a n = none → s.hbmRead code a n plainMeet = (s, .rejected)) ∧
    (∀ r, s.regionAt a n = some r → s.regionProtected r = false → s.granulePoisoned a n = false → s.hbmRead code a n plainMeet =
      ((s.cleanGranules fun g => overlaps g 256 a n).bumpBy Od.hbm_BYTES_READ 0 0 n, .data (s.hbmBytes a n))) := by
  have hclean : ∀ r, (s.cleanGranules fun g => overlaps g 256 a n).regionProtected r = s.regionProtected r := fun _ => rfl
  have hbytes : ((s.cleanGranules fun g => overlaps g 256 a n).bumpBy Od.hbm_BYTES_READ 0 0 n).hbmBytes a n = s.hbmBytes a n :=
    List.map_congr_left fun k _ => by rw [State.hbmByte, State.bumpBy_mem]; rfl
  refine ⟨fun h => ?_, fun r h hopen hgood => ?_⟩
  · simp only [State.hbmRead, State.meets_plain, h]
  · have hok : ¬ (plainMeet.severity ≥ 2 ∨ plainMeet.parity ≥ 4 ∨ s.granulePoisoned a n = true) := by
      rw [hgood]
      decide
    have hsev : ¬ plainMeet.severity = 1 := by decide
    simp only [State.hbmRead, State.meets_plain, h, State.parityRetries_zero, hclean, hopen, Bool.false_eq_true, if_false,
      if_neg hsev, if_neg hok, hbytes]

theorem completes_hbmWrite {meet : MemMeet} (hpicture : (Master.outside m && s.touchesPicture a data.length) = false) :
    (∀ t, s.hbmWrite (Master.code m) a data meet = (t, true) → Completes (.hbmWrite m a data meet) s t) ∧
    (∀ t, s.hbmWrite (Master.code m) a data meet = (t, false) → Completes (.hbmWrite m a data meet) s (t.emit (.refused a))) := by
  refine ⟨fun t h => completes_of_done ?_, fun t h => completes_of_done ?_⟩ <;>
    simp only [exec, execHbmWrite, hpicture, h, Bool.false_eq_true, if_false, if_true]

theorem completes_hbmRead {meet : MemMeet} (hpicture : (Master.outside m && s.touchesPicture a n) = false) :
    (∀ t bs, s.hbmRead (Master.code m) a n meet = (t, .data bs) → Completes (.hbmRead m a n meet) s (t.emit (.answer bs))) ∧
    (∀ t, s.hbmRead (Master.code m) a n meet = (t, .poisoned) → Completes (.hbmRead m a n meet) s (t.emit (.poisoned a n))) ∧
    (∀ t, s.hbmRead (Master.code m) a n meet = (t, .rejected) → Completes (.hbmRead m a n meet) s (t.emit (.refused a))) := by
  refine ⟨fun t bs h => completes_of_done ?_, fun t h => completes_of_done ?_, fun t h => completes_of_done ?_⟩ <;>
    simp only [exec, execHbmRead, hpicture, h, Bool.false_eq_true, if_false]

/-- A corrected page is written back, as long as no page write came first (R284, R285). -/
theorem completes_pageWriteBack {page : Nat} :
    (page ∉ s.mem.writeBacks ∨ s.regionAt page 4096 = none → Completes (.pageWriteBack page) s s) ∧
    (∀ r, page ∈ s.mem.writeBacks → s.regionAt page 4096 = some r →
      (tget s.mem.flips 0 page ≤ s.get Od.reg_T r →
        Completes (.pageWriteBack page) s (s.writePages r page (s.hbmBytes page 4096))) ∧
      (s.get Od.reg_T r < tget s.mem.flips 0 page →
        Completes (.pageWriteBack page) s ((s.useFrees 4096).writePages r page (s.freeBytes 4096)))) := by
  refine ⟨fun h => completes_of_done ?_, fun r hin h => ⟨fun hgood => completes_of_done ?_, fun hbad => completes_of_done ?_⟩⟩
  · by_cases hin : page ∈ s.mem.writeBacks
    · simp only [exec, execPageWriteBack, if_pos hin, h.resolve_left (not_not_intro hin)]
    · exact if_neg hin
  · simp only [exec, execPageWriteBack, if_pos hin, h, if_neg (Nat.not_lt.mpr hgood)]
  · simp only [exec, execPageWriteBack, if_pos hin, h, if_pos hbad]

/-- A page write leaves no write-back of its pages waiting (R285). -/
theorem State.writePages_writeBacks {r p : Nat} (hp : p ∈ pagesOf a data.length) :
    p ∉ (s.writePages r a data).mem.writeBacks := by
  intro h
  rw [State.writePages, State.bumpBy_mem] at h
  exact of_decide_eq_true (List.mem_filter.mp h).2 hp

end

end Sys2Proof.Machine

namespace Sys2Proof.Proofs

open Sys2Proof.Machine Sys2Proof.Safety

/-- Settles O44: REGION_CREATE by its tests, the fill with its frame, the region's objects at completion, and REGION_DELETE. -/
theorem regionsMadeAndDeleted : Obligations.RegionsMadeAndDeleted := by
  refine ⟨fun region kind t base size s v htaken => ?_, fun region kind t base size s => State.regionTests_cases,
    fun region kind t base size b s => ?_,
    fun region kind t base asked size e s hr hk ht hb hs hcode hargs hres hpic =>
      State.endCommand_regionCreate hr hk ht hb hs hcode hargs hres hpic,
    fun region s v htaken => completes_regionDelete htaken, fun region a s => rfl⟩
  · obtain ⟨hmade, hfails⟩ := completes_regionCreate htaken
    refine ⟨fun a h => ⟨fun hfill => ?_, fun hk ht => ?_⟩, hfails⟩
    · have hc := hmade a h
      rwa [if_pos hfill] at hc
    · have hc := hmade a h
      rwa [if_neg (fun h' => h'.elim hk ht)] at hc
  · obtain ⟨hout, hin⟩ := State.hbmByte_fillRegion s kind t base size (b := b)
    refine ⟨hout, hin, fun hkind _ ht k hk => ?_, State.hbmByte_of_mem (Laws.nameRegion_mem ..) b⟩
    subst hkind
    exact State.trailer_makeRegion ht hk

/-- Settles O45: accesses by what the memory answers, each case of an access that meets nothing, and the write-back of a page. -/
theorem accessesToHbm3 : Obligations.AccessesToHbm3 := by
  refine ⟨fun m a n data meet s => ⟨fun h => completes_of_done (if_pos h), fun h => completes_of_done (if_pos h),
      completes_hbmWrite, completes_hbmRead⟩, fun m a data s hpicture => ?_, fun m a n r s hpicture hr hopen hgood => ?_,
    fun a data s => ⟨State.hbmBytes_hbmPut s a data, fun b h => State.hbmByte_hbmPut s a data h⟩,
    fun page s => completes_pageWriteBack, fun r a p data s hp => State.writePages_writeBacks hp⟩
  · obtain ⟨hnone, hopen, hwhole, hpart⟩ := State.hbmWrite_plain (s := s) (a := a) (data := data) (Master.code m)
    obtain ⟨hstored, hrefused⟩ := completes_hbmWrite (meet := plainMeet) hpicture
    refine ⟨fun h => ⟨hrefused _ (hnone h), (completes_hbmRead hpicture).2.2 _ ((State.hbmRead_plain _).1 h)⟩,
      fun r h ho => hstored _ (hopen r h ho), fun r h hp hw => hstored _ (hwhole r h hp hw),
      fun r h hp hw => hrefused _ (hpart r h hp hw)⟩
  · exact (completes_hbmRead hpicture).1 _ _ ((State.hbmRead_plain _).2 r hr hopen hgood)

end Sys2Proof.Proofs

/-! ### Refresh, retraining, scrubbing and repair of HBM3 (R287–R303) -/

namespace Sys2Proof.Machine

open Sys2Proof.Safety

section
variable {s : State}

/-! #### Refresh and temperatures (R287–R289) -/

/-- A reading against TEMP_HIGH (R289). -/
theorem State.stackReads_cases {k : Nat} {t : Int} (ht : t < 1000) :
    ((s.get Od.hbm_TEMP_HIGH : Int) * 10 < t → s.stackReads k t = s.set Od.hbm_REFRESH_X2 0 (setBit (s.get Od.hbm_REFRESH_X2) k)) ∧
    (t ≤ (s.get Od.hbm_TEMP_HIGH : Int) * 10 - 20 →
      s.stackReads k t = s.set Od.hbm_REFRESH_X2 0 (clearBit (s.get Od.hbm_REFRESH_X2) k)) ∧
    ((s.get Od.hbm_TEMP_HIGH : Int) * 10 - 20 < t → t ≤ (s.get Od.hbm_TEMP_HIGH : Int) * 10 → s.stackReads k t = s) := by
  have hcool : ¬ 1000 ≤ t := Int.not_le.mpr ht
  refine ⟨fun h => ?_, fun h => ?_, fun hlow hhigh => ?_⟩
  · rw [State.stackReads, if_neg hcool, if_pos h]
  · rw [State.stackReads, if_neg hcool, if_neg (by omega), if_pos h]
  · rw [State.stackReads, if_neg hcool, if_neg (Int.not_lt.mpr hhigh), if_neg (Int.not_le.mpr hlow)]

/-! #### Retraining (R290–R292) -/

section
variable {p : Fin 64}

theorem completes_retrainDue :
    ((s.pc p).dueAt = none → s.retrainAt p ≤ s.cycle →
      Completes (.retrainDue p) s (s.setPc p { s.pc p with dueAt := some s.cycle, dueTime := s.now 0 })) ∧
    ((s.pc p).dueAt ≠ none ∨ s.cycle < s.retrainAt p → Completes (.retrainDue p) s s) :=
  ⟨fun hnot hdue => completes_of_done (if_pos ⟨Option.isNone_iff_eq_none.mpr hnot, hdue⟩),
    fun h => completes_of_done (if_neg fun hn =>
      h.elim (· (Option.isNone_iff_eq_none.mp hn.1)) (Nat.not_lt.mpr hn.2))⟩

/-- A pseudo-channel that is due starts its pause when it is late, or next where pauses may be (R291). -/
theorem completes_retrainPauseStart_due (hdue : (s.pc p).dueAt ≠ none) (hfree : s.pauseFree = true) :
    (s.retrainLate p = true → Completes (.retrainPauseStart p) s ((s.bump Od.hbm_RETRAIN_LATE).startPause p)) ∧
    (s.retrainLate p = false → s.retrainNext p = true → (s.retrainAligned = false ∨ s.retrainBlank p = true) →
      Completes (.retrainPauseStart p) s (s.startPause p)) ∧
    (s.retrainLate p = false → (s.retrainNext p = false ∨ s.retrainAligned = true ∧ s.retrainBlank p = false) →
      Completes (.retrainPauseStart p) s s) := by
  have hmay := And.intro (Option.isSome_iff_ne_none.mpr hdue) hfree
  refine ⟨fun hlate => completes_of_done ((if_pos hmay).trans (if_pos hlate)), fun hlate hnext hplace => completes_of_done
    ((if_pos hmay).trans ((if_neg (Bool.eq_false_iff.mp hlate)).trans (if_pos ⟨hnext, hplace.imp_left Bool.eq_false_iff.mp⟩))),
    fun hlate h => completes_of_done ((if_pos hmay).trans ((if_neg (Bool.eq_false_iff.mp hlate)).trans (if_neg fun hn => ?_)))⟩
  rcases h with h | ⟨haligned, hblank⟩
  · exact Bool.eq_false_iff.mp h hn.1
  · exact hn.2.elim (· haligned) (Bool.eq_false_iff.mp hblank)

theorem completes_retrainPauseStart_waits (h : (s.pc p).dueAt = none ∨ s.pauseFree = false) :
    Completes (.retrainPauseStart p) s s :=
  completes_of_done (if_neg fun hn => h.elim (Option.isSome_iff_ne_none.mp hn.1) (Bool.eq_false_iff.mp · hn.2))

theorem State.pauseFree_running (h : s.mem.pause ≠ none) : s.pauseFree = false := by
  rw [State.pauseFree, Bool.eq_false_iff.mpr fun hn => h (Option.isNone_iff_eq_none.mp hn), Bool.false_and]

/-- The end of a pause: a retrain that passes settles the pseudo-channel, and one that fails keeps it due (R291, R292). -/
theorem completes_retrainEnd {passed : Bool} {ns at_ : Nat} (hpause : s.mem.pause = some (at_, p.val)) :
    let u := ({ s with mem := { s.mem with pause := none } } : State).notePause (min 1500 ns)
    let x := u.pc p
    (passed = true → Completes (.retrainEnd p passed ns) s ((u.bump Od.hbm_RETRAINS).setPc p { x with
      state := 0, fails := 0, last := u.now 0, lastAt := u.cycle, retrained := true, dueAt := none, tempAt := some (u.stackTemp p) })) ∧
    (passed = false → x.fails < 2 → Completes (.retrainEnd p passed ns) s (u.setPc p { x with state := 0, fails := x.fails + 1 })) ∧
    (passed = false → 2 ≤ x.fails → Completes (.retrainEnd p passed ns) s
      ((u.setPc p { x with state := 2, fails := x.fails + 1 }).reportInfo (Unit.hbmHalf (p / 16)) 0x16 p)) := by
  have hrun : (s.mem.pause.any fun e => decide (e.2 = p.val)) = true := by rw [hpause, Option.any_some, decide_eq_true rfl]
  refine ⟨fun h => completes_of_done ?_, fun h hfails => completes_of_done ?_, fun h hfails => completes_of_done ?_⟩
  · exact (if_pos hrun).trans (if_pos h)
  · exact (if_pos hrun).trans ((if_neg (Bool.eq_false_iff.mp h)).trans (if_neg (by omega)))
  · exact (if_pos hrun).trans ((if_neg (Bool.eq_false_iff.mp h)).trans (if_pos (by omega)))

theorem completes_retrainEnd_other {passed : Bool} {ns : Nat} (h : ∀ at_, s.mem.pause ≠ some (at_, p.val)) :
    Completes (.retrainEnd p passed ns) s s := by
  have hnone : (s.mem.pause.any fun e => decide (e.2 = p.val)) = false := by
    cases hp : s.mem.pause with
    | none => rfl
    | some e => exact decide_eq_false fun he => h e.1 (hp.trans (congrArg (fun k => some (e.1, k)) he))
  exact completes_of_done (if_neg (Bool.eq_false_iff.mp hnone))

end

/-! #### SCRUB (R298) -/

theorem completes_scrub {base size : Nat} {v : State} (htaken : Taken s 0x22 (leBytes 8 base ++ leBytes 8 size) v) :
    (base % 4096 ≠ 0 ∨ size % 4096 ≠ 0 ∨ size = 0 → Completes (.scrub base size) s (v.attach 0x22 Result.alignment [])) ∧
    (base % 4096 = 0 → size % 4096 = 0 → 0 < size →
      (v.regionAt base size = none → Completes (.scrub base size) s (v.attach 0x22 Result.noSuchTarget [])) ∧
      (∀ r, v.regionAt base size = some r → v.regionProtected r = false →
        Completes (.scrub base size) s (v.attach 0x22 Result.noSuchTarget [])) ∧
      (∀ r, v.regionAt base size = some r → v.regionProtected r = true →
        let q := v.scrubPages r (pagesOf base size)
        let u : State := { q.1 with mem := { q.1.mem with scrubBad := q.2.bad.take 256, scrubbing := some r } }
        Completes (.scrub base size) s ((u.set Od.reg_LAST_SCRUB r (leNat q.2.bytes)).attach 0x22 Result.ok q.2.bytes))) := by
  refine ⟨fun h => completes_answer htaken rfl (if_pos h), fun hb hs hpos => ?_⟩
  have hwhole : ¬ (base % 4096 ≠ 0 ∨ size % 4096 ≠ 0 ∨ size = 0) := by omega
  refine ⟨fun h => completes_answer htaken rfl ?_, fun r h hopen => completes_answer htaken rfl ?_,
    fun r h hprot => completes_answer htaken rfl ?_⟩
  · simp only [if_neg hwhole, h]
  · simp only [if_neg hwhole, h, hopen, Bool.false_eq_true, if_false]
  · simp only [if_neg hwhole, h, hprot, if_true]

/-! #### FUSE_REPAIR (R301–R303) -/

theorem completes_fuseRepairSram {addr : Nat} {found spare back : Bool} {v : State} (htaken : Taken s 0x33 (fuseArgs 0 addr) v) :
    let i := Instr.fuseRepairSram addr found spare back
    let there := fuseStore addr < 9 ∧ fuseInstance addr < storeInstances (fuseStore addr) ∧ found = true
    let left := v.get Od.sto_FUSE_ENTRIES_LEFT
    (v.sec.efuse = false → Completes i s (v.attach 0x33 Result.noFuseSupply [])) ∧
    (v.sec.efuse = true →
      (¬ there → Completes i s (v.attach 0x33 Result.outOfRange [])) ∧
      (there → (spare = false ∨ left = 0) → Completes i s (v.attach 0x33 Result.fusesExhausted [])) ∧
      (there → spare = true → left ≠ 0 → back = true → Completes i s
        ((v.burnFuse 0 2 addr).attach 0x33 Result.ok (leBytes 1 ((v.burnFuse 0 2 addr).get Od.sto_FUSE_ENTRIES_LEFT)))) ∧
      (there → spare = true → left ≠ 0 → back = false →
        Completes i s ((v.burnFuse 0 3 addr).attach 0x33 Result.repairFailed []))) := by
  intro i there left
  have hplace : (9 ≤ fuseStore addr ∨ storeInstances (fuseStore addr) ≤ fuseInstance addr ∨ ¬ found = true) ↔ ¬ there := by
    simp only [there, Classical.not_and_iff_not_or_not, Nat.not_lt]
  have hfuse : spare = true → left ≠ 0 → ¬ (¬ spare = true ∨ left = 0) := fun hs hl h => h.elim (· hs) hl
  refine ⟨fun h => completes_answer htaken rfl (if_pos (Bool.eq_false_iff.mp h)), fun h => ⟨fun hno => ?_, fun hthere hnone => ?_,
    fun hthere hs hl hback => ?_, fun hthere hs hl hback => ?_⟩⟩ <;>
    refine completes_answer htaken rfl ((if_neg (not_not_intro h)).trans ?_)
  · exact if_pos (hplace.mpr hno)
  · exact (if_neg fun h' => hplace.mp h' hthere).trans (if_pos (hnone.imp_left Bool.eq_false_iff.mp))
  · exact (if_neg fun h' => hplace.mp h' hthere).trans ((if_neg (hfuse hs hl)).trans (if_pos hback))
  · exact (if_neg fun h' => hplace.mp h' hthere).trans ((if_neg (hfuse hs hl)).trans (if_neg (Bool.eq_false_iff.mp hback)))

/-- Each repair consumes a fuse entry (R301). -/
theorem State.burnFuse_entriesLeft (s : State) (target state addr : Nat) :
    (s.burnFuse target state addr).get Od.sto_FUSE_ENTRIES_LEFT = (s.get Od.sto_FUSE_ENTRIES_LEFT - 1) % 2 ^ 8 := by
  rw [State.burnFuse, Laws.get_set_self]
  rfl

/-- Taking a command changes the command state alone. -/
theorem taken_keeps {code : Nat} {args : List Byte} {u : State} (h : Taken s code args u) : u.sec = s.sec ∧ u.od = s.od := by
  rcases h with ⟨-, rfl⟩ | ⟨-, -, -, -, rfl⟩
  · exact ⟨rfl, rfl⟩
  · rw [State.acceptCommand]
    split <;> exact ⟨rfl, rfl⟩

/-- A row repair waits for a place of its pause, and then takes it (R303). -/
theorem completes_fuseRepairHbm3Row {addr ns : Nat} {spare passes : Bool} :
    let i := Instr.fuseRepairHbm3Row addr spare passes ns
    let ready := s.sec.efuse = true ∧ addr < hbmEnd ∧ spare = true ∧ s.get Od.sto_FUSE_ENTRIES_LEFT ≠ 0
    (ready → s.repairMayPause = false → Completes i s s) ∧
    ∀ v, Taken s 0x33 (fuseArgs 1 addr) v →
      (s.sec.efuse = false → Completes i s (v.attach 0x33 Result.noFuseSupply [])) ∧
      (s.sec.efuse = true → hbmEnd ≤ addr → Completes i s (v.attach 0x33 Result.outOfRange [])) ∧
      (s.sec.efuse = true → addr < hbmEnd → (spare = false ∨ s.get Od.sto_FUSE_ENTRIES_LEFT = 0) →
        Completes i s (v.attach 0x33 Result.fusesExhausted [])) ∧
      (ready → s.repairMayPause = true →
        let t := ((v.burnFuse 1 (if passes then 1 else 3) addr).notePause (min 40000 ns)).repairPause (min 40000 ns)
        let u := t.setPc (pcOf addr) { t.pc (pcOf addr) with pprUsed := (t.pc (pcOf addr)).pprUsed + 1 }
        (passes = true → Completes i s (u.attach 0x33 Result.ok (leBytes 1 (u.get Od.sto_FUSE_ENTRIES_LEFT)))) ∧
        (passes = false → Completes i s (u.attach 0x33 Result.repairFailed []))) := by
  intro i ready
  refine ⟨fun ⟨hf, ha, hs, hl⟩ hpause => completes_of_done (if_pos ⟨hf, ha, hs, hl, Bool.eq_false_iff.mp hpause⟩), fun v htaken => ?_⟩
  obtain ⟨hsec, hod⟩ := taken_keeps htaken
  have hfuse : ¬ ¬ v.sec.efuse = true ↔ s.sec.efuse = true := by rw [Classical.not_not, hsec]
  have hleft : v.get Od.sto_FUSE_ENTRIES_LEFT = s.get Od.sto_FUSE_ENTRIES_LEFT := by rw [State.get, State.get, hod]
  refine ⟨fun h => completes_answer htaken (if_neg fun h' => Bool.eq_false_iff.mp h h'.1) (if_pos fun h' => ?_), fun h ha =>
      completes_answer htaken (if_neg fun h' => Nat.not_lt.mpr ha h'.2.1) ((if_neg (hfuse.mpr h)).trans (if_pos ha)),
    fun h ha hnone => completes_answer htaken (if_neg fun h' => ?_) ((if_neg (hfuse.mpr h)).trans
      ((if_neg (Nat.not_le.mpr ha)).trans (if_pos ?_))), fun ⟨h, ha, hs, hl⟩ hpause => ?_⟩
  · exact Bool.eq_false_iff.mp h (hsec ▸ h')
  · exact hnone.elim (fun hno => absurd (h'.2.2.1.symm.trans hno) (by decide)) h'.2.2.2.1
  · rwa [hleft]
  · have hnone : ¬ (spare = false ∨ v.get Od.sto_FUSE_ENTRIES_LEFT = 0) := by
      rw [hleft]
      exact fun h' => h'.elim (fun hno => absurd (hs.symm.trans hno) (by decide)) hl
    have hgo : ¬ (s.sec.efuse = true ∧ addr < hbmEnd ∧ spare = true ∧ s.get Od.sto_FUSE_ENTRIES_LEFT ≠ 0 ∧ ¬ s.repairMayPause = true) :=
      fun h' => h'.2.2.2.2 hpause
    exact ⟨fun hp => completes_answer htaken (if_neg hgo) ((if_neg (hfuse.mpr h)).trans ((if_neg (Nat.not_le.mpr ha)).trans
        ((if_neg hnone).trans (if_pos hp)))),
      fun hp => completes_answer htaken (if_neg hgo) ((if_neg (hfuse.mpr h)).trans ((if_neg (Nat.not_le.mpr ha)).trans
        ((if_neg hnone).trans (if_neg (Bool.eq_false_iff.mp hp)))))⟩

/-! #### On-chip stores (R295, R299) -/

theorem completes_fullingStep {f : Fulled} {flips : List (Nat × Nat)} :
    let w := (s.lap (fulledLap f)).word
    let t := flips.foldl (fun t e =>
      if e.1 < fulledBytes f then t.flipSram (sramLoc (fulledStore f) (fulledInst f) (w * fulledBytes f + e.1)) e.2 else t) s
    let u := t.fullWord f w
    (s.fullingPaused f w = true → Completes (.fullingStep f flips) s s) ∧
    (s.fullingPaused f w = false → w + 1 < fulledWords f →
      Completes (.fullingStep f flips) s (u.setLap (fulledLap f) { u.lap (fulledLap f) with word := w + 1 })) ∧
    (s.fullingPaused f w = false → fulledWords f ≤ w + 1 → Completes (.fullingStep f flips) s (u.endLap f)) :=
  ⟨fun h => completes_of_done (if_pos h),
    fun h hmore => completes_of_done ((if_neg (Bool.eq_false_iff.mp h)).trans (if_pos hmore)),
    fun h hlast => completes_of_done ((if_neg (Bool.eq_false_iff.mp h)).trans (if_neg (Nat.not_lt.mpr hlast)))⟩

end

end Sys2Proof.Machine

namespace Sys2Proof.Proofs

open Sys2Proof.Machine Sys2Proof.Safety

/-- Settles O46: the refresh interval, the seeds, the temperatures, and the pauses of retraining. -/
theorem refreshAndRetraining : Obligations.RefreshAndRetraining := by
  refine ⟨fun stack s => completes_of_done rfl,
    fun s => ⟨fun h => completes_of_done (if_pos h), fun h => completes_of_done (if_neg (Nat.not_le.mpr h))⟩,
    fun t0 t1 s => ⟨fun h => completes_of_done (if_pos h), fun h => completes_of_done (if_neg (Bool.eq_false_iff.mp h))⟩,
    fun k t s ht => State.stackReads_cases ht, fun p s => completes_retrainDue,
    fun p s => ⟨completes_retrainPauseStart_waits, fun h => completes_retrainPauseStart_waits (.inr (State.pauseFree_running h)),
      completes_retrainPauseStart_due⟩,
    fun p passed ns s => ⟨completes_retrainEnd_other, fun at_ hpause => completes_retrainEnd hpause⟩⟩

/-- Settles O47: SCRUB and both repairs by their tests, the fuse entries, write-backs of bytes, and laps. -/
theorem scrubsRepairsAndFulling : Obligations.ScrubsRepairsAndFulling :=
  ⟨fun base size s v htaken => completes_scrub htaken, fun addr found spare back s v htaken => completes_fuseRepairSram htaken,
    fun addr spare passes ns s => completes_fuseRepairHbm3Row, fun target state addr s => State.burnFuse_entriesLeft s target state addr,
    fun loc s => ⟨fun h => completes_of_done (if_pos h), fun h => completes_of_done (if_neg (by rw [h]; decide)),
      Laws.tfind_tdel_self _ _⟩,
    fun f flips s => completes_fullingStep⟩

end Sys2Proof.Proofs

/-! ### Batts and queues (R307–R327) -/

namespace Sys2Proof.Machine

open Sys2Proof.Safety

section
variable {s : State}

/-- A packet is appended where its writer gets batts for it (R311, R312). -/
theorem completes_queueAppend {q : Fin 2048} {w : Writer} {pri : Fin 8} {data : List Byte} (hdata : data ≠ []) :
    let pr := if q.val < 1024 then q.val % 8 else pri.val
    ((s.writerBatts w pr data).2 = none → Completes (.queueAppend q w pri data) s (s.writerBatts w pr data).1) ∧
    (∀ es, (s.writerBatts w pr data).2 = some es → Completes (.queueAppend q w pri data) s
      ((s.writerBatts w pr data).1.append q { pri := pr, entries := es, sid := writerStream w })) := by
  intro pr
  refine ⟨fun h => completes_of_done ?_, fun es h => completes_of_done ?_⟩
  · have hpair : s.writerBatts w pr data = ((s.writerBatts w pr data).1, none) := Prod.ext rfl h
    simp only [exec, execQueueAppend, if_neg hdata]
    rw [hpair]
  · have hpair : s.writerBatts w pr data = ((s.writerBatts w pr data).1, some es) := Prod.ext rfl h
    simp only [exec, execQueueAppend, if_neg hdata]
    rw [hpair]

theorem completes_queueAppend_empty {q : Fin 2048} {w : Writer} {pri : Fin 8} : Completes (.queueAppend q w pri []) s s :=
  completes_of_done (by simp only [exec, execQueueAppend, if_true])

/-- One decrement of a batt, by its REFCOUNT (R313, R314, R316). -/
theorem State.decrement_cases {b : Nat} {x : Batt} (hx : s.batt b = some x) :
    (2 ≤ x.refs → x.refs ≠ 255 → s.decrement b = s.setBatt b { x with refs := x.refs - 1 }) ∧
    (x.refs = 1 → s.decrement b =
      let t := s.setBatt b { x with refs := 0 }
      { t with queues := { t.queues with returning := t.queues.returning ++ [b] } }) ∧
    (x.refs = 255 → s.decrement b = s) := by
  refine ⟨fun h2 hpin => ?_, fun h1 => ?_, fun hpin => ?_⟩
  · simp only [State.decrement, hx, if_neg (show ¬ x.refs = 0 by omega), if_neg hpin, if_neg (show ¬ x.refs = 1 by omega)]
  · simp only [State.decrement, hx, if_neg (show ¬ x.refs = 0 by omega), if_neg (show ¬ x.refs = 255 by omega), if_pos h1]
  · simp only [State.decrement, hx, if_neg (show ¬ x.refs = 0 by omega), if_pos hpin]

theorem State.decrement_unknown {b : Nat} (h : s.batt b = none) :
    s.decrement b = (s.bump Od.qg_COUNT_FAULTS 128).reportInfo Unit.queueEngine 0x20 b := by
  simp only [State.decrement, h]

theorem State.returnBatts_single {b : Nat} (h : s.queues.returning = [b]) :
    s.returnBatts = ({ s with queues := { s.queues with returning := [] } } : State).freeBatt b := by
  rw [State.returnBatts, h]
  rfl

/-- A refill stops at 32 entries of the cache (R309). -/
theorem FreeBatts.length_fill (batts : Nat) : ∀ (n : Nat) (f : FreeBatts), f.cache.length ≤ 32 →
    (FreeBatts.fill n f batts).cache.length ≤ 32
  | 0, _, h => h
  | n + 1, f, h => by
    rw [FreeBatts.fill]
    split
    · exact h
    next hroom =>
      split
      · exact FreeBatts.length_fill batts n _ (Nat.lt_of_not_le hroom)
      · split
        · exact FreeBatts.length_fill batts n _ (Nat.lt_of_not_le hroom)
        · exact h

/-! #### Copies and sweeps (R315, R327) -/

theorem State.copyNext_none (h : s.queues.copies = []) : s.copyNext = s := by
  simp only [State.copyNext, h]

/-- The copy at the head goes on where its pool serves it, and is dropped otherwise (R315). -/
theorem State.copyNext_head {c : PendingCopy} {rest : List PendingCopy} (h : s.queues.copies = c :: rest) :
    let t : State := { s with queues := { s.queues with copies := rest } }
    (t.allocate c.pool c.kind c.owner (battsFor c.data.length) 1 = none →
      s.copyNext = t.bumpBy Od.pool_REPLICATION_DROPS c.pool 0 c.dests.length) ∧
    (∀ u bs, t.allocate c.pool c.kind c.owner (battsFor c.data.length) 1 = some (u, bs) →
      s.copyNext = (u.fillBatts bs c.data).1.linkSet (u.fillBatts bs c.data).2 c.dests c.sid c.chaec) := by
  refine ⟨fun hnone => ?_, fun u bs hsome => ?_⟩
  · simp only [State.copyNext, h, hnone]
  · simp only [State.copyNext, h, hsome]

theorem completes_queueSweepDone :
    (s.queues.sweep = none → Completes .queueSweepDone s s) ∧
    (∀ bs, s.queues.sweep = some bs →
      let t : State := { s with queues := { s.queues with sweep := none, entriesCut := 0 } }
      Completes .queueSweepDone s (bs.foldl (fun u b => u.sweepBatt t.allEntries b) t)) := by
  refine ⟨fun h => completes_of_done ?_, fun bs h => completes_of_done ?_⟩ <;> simp only [exec, execQueueSweepDone, h]

end

end Sys2Proof.Machine

namespace Sys2Proof.Proofs

open Sys2Proof.Machine Sys2Proof.Safety

/-- Settles O49: appends by what the writer gets, decrements by the REFCOUNT, the caches of a pool, copies and sweeps. -/
theorem battsAndQueues : Obligations.BattsAndQueues := by
  refine ⟨fun q w pri data s hdata => completes_queueAppend hdata, fun q w pri s => completes_queueAppend_empty, fun n x s hx => ?_,
    fun n s h => completes_of_done (congrArg done (State.decrement_unknown h)), fun b s h => State.returnBatts_single h,
    fun b x s => State.hbmBytes_hbmPut _ _ _, fun pool s => ?_, fun n batts f h => FreeBatts.length_fill batts n f h,
    fun s h => completes_of_done (congrArg done (State.copyNext_none h)), fun s c rest h => ?_,
    fun s => completes_queueSweepDone.1, fun s bs h => completes_queueSweepDone.2 bs h⟩
  · obtain ⟨hmany, hone, hpinned⟩ := State.decrement_cases hx
    exact ⟨fun h h' => completes_of_done (congrArg done (hmany h h')), fun h => completes_of_done (congrArg done (hone h)),
      fun h => completes_of_done (congrArg done (hpinned h))⟩
  · exact ⟨fun h => completes_of_done (if_pos h), fun h => completes_of_done (if_neg (Bool.eq_false_iff.mp h)),
      fun h => completes_of_done (if_pos h), fun h => completes_of_done (if_neg (Bool.eq_false_iff.mp h))⟩
  · obtain ⟨hnone, hsome⟩ := State.copyNext_head h
    exact ⟨fun hn => completes_of_done (congrArg done (hnone hn)), fun u bs hs => completes_of_done (congrArg done (hsome u bs hs))⟩

end Sys2Proof.Proofs

/-! ### Streams, clips and playlists (R75–R97) -/

namespace Sys2Proof.Machine

open Sys2Proof.Safety

/-! #### STREAM_OPEN (R75, R84, R94) -/

section
variable {s : State} {x : Nat} {dry : Bool}

theorem State.tryOpen_badArgs (h : s.argsOk x = false) : s.tryOpen x dry = answer s Result.badArgs :=
  if_pos (Bool.eq_false_iff.mp h)

/-- A stream that merges with a leader joins it where its outputs fit (R94). -/
theorem State.tryOpen_merges {leader : Nat} (hargs : s.argsOk x = true) (hlead : s.mergeLeader x = some leader) :
    let fit := s.set Od.st_ADMIT_SHORTFALL x 0
    (s.aliasTest x = true → s.tryOpen x dry = answer (if dry then fit else fit.openAlias x leader) Result.ok (openReturn x 0)) ∧
    (s.aliasTest x = false → s.tryOpen x dry = answer (s.set Od.st_ADMIT_SHORTFALL x 8) Result.noPortCapacity) := by
  have hbit : setBit 0 3 = 8 := by decide
  refine ⟨fun h => ?_, fun h => ?_⟩
  · simp only [State.tryOpen, if_neg (not_not_intro hargs), hlead, h, if_true, not_true, if_false]
  · simp only [State.tryOpen, if_neg (not_not_intro hargs), hlead, h, hbit, Bool.false_eq_true, if_false, not_false_iff, if_true]

/-- Another stream runs the admission test (R84). -/
theorem State.tryOpen_admission (hargs : s.argsOk x = true) (hlead : s.mergeLeader x = none) :
    let t := s.set Od.st_ADMIT_SHORTFALL x (s.admission x).1
    ((s.admission x).2 = 0 → s.tryOpen x dry = answer (if dry then t else t.openStream x) Result.ok (openReturn x (t.milliOf x))) ∧
    ((s.admission x).2 ≠ 0 → s.tryOpen x dry = answer t (s.admission x).2) := by
  refine ⟨fun h => ?_, fun h => ?_⟩
  · simp only [State.tryOpen, if_neg (not_not_intro hargs), hlead, h, ne_eq, not_true, if_false]
  · simp only [State.tryOpen, if_neg (not_not_intro hargs), hlead, if_pos h]

/-- The stream that a STREAM_OPEN names, and the state in which it is tried. -/
def State.opens (v : State) (sid x : Nat) (u : State) : Prop :=
  (sid = 0xFFFF ∧ v.stagedStream = some x ∧ u = v.set Od.st_STAGED x 0) ∨
    (sid = x ∧ sid < 512 ∧ v.streamState sid = stClosed ∧ u = v)

theorem State.openCommand_tries {v u : State} {sid : Nat} (h : v.opens sid x u) : v.openCommand sid dry = u.tryOpen x dry := by
  rcases h with ⟨hsid, hstaged, rfl⟩ | ⟨rfl, hlow, hclosed, rfl⟩
  · simp only [State.openCommand, if_pos hsid, hstaged]
  · rw [State.openCommand, if_neg (by omega), if_neg fun h => h.elim (Nat.not_le.mpr hlow) (· hclosed)]

theorem State.openCommand_refused {v : State} {sid : Nat} :
    (sid = 0xFFFF → v.stagedStream = none → v.openCommand sid dry = answer v Result.noContext) ∧
    (sid ≠ 0xFFFF → 512 ≤ sid ∨ v.streamState sid ≠ stClosed → v.openCommand sid dry = answer v Result.noSuchTarget) := by
  refine ⟨fun hsid h => ?_, fun hsid h => ?_⟩
  · simp only [State.openCommand, if_pos hsid, h]
  · rw [State.openCommand, if_neg hsid, if_pos h]

/-- STREAM_OPEN and its dry run answer what the open command answers. -/
theorem completes_streamOpen {v w : State} {sid flags r : Nat} {d : List Byte}
    (htaken : Taken s 0x01 (leBytes 2 sid ++ leBytes 2 (if dry then setBit flags 0 else clearBit flags 0)) v)
    (h : v.openCommand sid dry = answer w r d) :
    Completes (if dry then .streamOpenDryRun sid flags else .streamOpen sid flags) s (w.attach 0x01 r d) := by
  cases dry with
  | false => exact completes_answer htaken rfl h
  | true => exact completes_answer htaken rfl h

end

/-! #### STREAM_CLOSE (R76, R77, R95) -/

section
variable {s : State} {sid : Nat}

/-- STREAM_CLOSE with MODE 0, by the stream's state (R76). -/
theorem State.closeAtSwap_cases :
    let st := s.streamState sid
    let closing : Option Nat → State → State := fun a t =>
      (t.setStream sid { t.stream sid with closeAtSwap := true, follows := a }).setStreamState sid stClosing
    (512 ≤ sid ∨ st = stClosed ∨ st = stClosing → s.closeAtSwap sid = answer s Result.noSuchTarget) ∧
    (sid < 512 → st = stRunning →
      (s.aliasesOf sid = [] → s.closeAtSwap sid = answer (closing (s.stream sid).follows s) Result.ok) ∧
      (∀ a rest, s.aliasesOf sid = a :: rest → s.closeAtSwap sid = answer (closing (some a) (s.aliasTakeover sid)) Result.ok)) ∧
    (sid < 512 → st = stAlias → s.closeAtSwap sid = answer (s.closeAlias sid) Result.ok) ∧
    (sid < 512 → st ≠ stClosed → st ≠ stClosing → st ≠ stRunning → st ≠ stAlias →
      s.closeAtSwap sid = answer (s.closeStream sid) Result.ok) := by
  intro st closing
  have hopen : sid < 512 → st ≠ stClosed → st ≠ stClosing → ¬ (512 ≤ sid ∨ st = stClosed ∨ st = stClosing) :=
    fun hs hc hg h => h.elim (Nat.not_le.mpr hs) (Or.elim · hc hg)
  refine ⟨fun h => if_pos h, fun hs hrun => ⟨fun hnone => ?_, fun a rest hsome => ?_⟩, fun hs hal => ?_, fun hs hc hg hr ha => ?_⟩
  · refine (if_neg (hopen hs ?_ ?_)).trans ((if_pos hrun).trans (if_neg (not_not_intro hnone))) <;> rw [hrun] <;> decide
  · refine (if_neg (hopen hs ?_ ?_)).trans ((if_pos hrun).trans ((if_pos ?_).trans ?_))
    · rw [hrun]; decide
    · rw [hrun]; decide
    · rw [hsome]; exact List.cons_ne_nil a rest
    · rw [hsome]; rfl
  · refine (if_neg (hopen hs ?_ ?_)).trans ((if_neg (?_ : ¬ st = stRunning)).trans (if_pos hal)) <;> rw [hal] <;> decide
  · exact (if_neg (hopen hs hc hg)).trans ((if_neg hr).trans (if_neg ha))

theorem completes_streamCloseAtSwap {v w : State} {r : Nat} {d : List Byte} (htaken : Taken s 0x02 (leBytes 2 sid ++ [0#8]) v)
    (h : v.closeAtSwap sid = answer w r d) : Completes (.streamCloseAtSwap sid) s (w.attach 0x02 r d) :=
  completes_answer htaken rfl h

theorem completes_streamCloseAtOnce {v : State} (htaken : Taken s 0x02 (leBytes 2 sid ++ [1#8]) v) :
    let st := v.streamState sid
    (512 ≤ sid ∨ st = stClosed ∨ st = stClosing → Completes (.streamCloseAtOnce sid) s (v.attach 0x02 Result.noSuchTarget [])) ∧
    (sid < 512 → st = stAlias → Completes (.streamCloseAtOnce sid) s ((v.closeAlias sid).attach 0x02 Result.ok [])) ∧
    (sid < 512 → st ≠ stClosed → st ≠ stClosing → st ≠ stAlias →
      Completes (.streamCloseAtOnce sid) s ((v.closeStream sid).attach 0x02 Result.ok [])) := by
  intro st
  have hopen : sid < 512 → st ≠ stClosed → st ≠ stClosing → ¬ (512 ≤ sid ∨ st = stClosed ∨ st = stClosing) :=
    fun hs hc hg h => h.elim (Nat.not_le.mpr hs) (Or.elim · hc hg)
  refine ⟨fun h => completes_answer htaken rfl (if_pos h),
    fun hs hal => completes_answer htaken rfl ((if_neg (hopen hs ?_ ?_)).trans (if_pos hal)),
    fun hs hc hg ha => completes_answer htaken rfl ((if_neg (hopen hs hc hg)).trans (if_neg ha))⟩ <;> rw [hal] <;> decide

end

/-! #### CLIP_STORE and CLIP_DELETE (R96) -/

section
variable {s v : State}

/-- CLIP_STORE of a clip number, by the number and the clip region (R96). -/
theorem completes_clipStore_refused {clip source addr length : Nat} {m : ClipMeet} (hsource : source < 2)
    (htaken : Taken s 0x50 (clipStoreArgs clip source addr length) v) :
    let r := v.get Od.mil_CLIP_REGION
    (1024 ≤ clip → Completes (.clipStore clip source addr length m) s (v.attach 0x50 Result.outOfRange [])) ∧
    (∀ c, clip < 1024 → tfind v.streams.clips clip = some c →
      Completes (.clipStore clip source addr length m) s (v.attach 0x50 Result.noSuchTarget [])) ∧
    (clip < 1024 → tfind v.streams.clips clip = none → (r = 255 ∨ v.regionProtected r = false) →
      Completes (.clipStore clip source addr length m) s (v.useFree.attach 0x50 Result.noSpace [])) := by
  have hexec := Nat.not_le.mpr hsource
  refine ⟨fun h => completes_answer htaken (if_neg hexec) (if_pos h),
    fun c hlow h => completes_answer htaken (if_neg hexec) ((if_neg (Nat.not_le.mpr hlow)).trans (if_pos (by rw [h, Option.isSome_some]))),
    fun hlow h hregion => completes_answer htaken (if_neg hexec) ((if_neg (Nat.not_le.mpr hlow)).trans
      ((if_neg (by rw [h]; decide)).trans (if_pos (hregion.imp_right Bool.eq_false_iff.mp))))⟩

/-- The part of CLIP_STORE that follows the copy of its source. -/
def clipCopied (clip r size : Nat) (m : ClipMeet) (t : State) (bs : List Byte) : State × Option (Nat × List Byte) :=
  if ¬ m.readable then answer t Result.uncorrectable
  else if ¬ clipOk m then answer t Result.badArgs
  else match t.clipPlace r (roundUp 4096 size) with
    | none => answer t Result.noSpace
    | some a =>
      let w := t.hbmWrite 157 a (padPage bs) { flips := [], severity := 0, parity := 0, acts := [] }
      answer { w.1 with streams := { w.1.streams with clips := tset w.1.streams.clips clip ⟨m, a, size⟩ } } Result.ok (leBytes 4 size)

/-- CLIP_STORE of a free clip number into a clip region, by what its source gives (R96). -/
theorem completes_clipStore_copies {clip source addr length : Nat} {m : ClipMeet} (hsource : source < 2)
    (htaken : Taken s 0x50 (clipStoreArgs clip source addr length) v) (hlow : clip < 1024) (hfree : tfind v.streams.clips clip = none)
    (hregion : v.get Od.mil_CLIP_REGION ≠ 255) (hprot : v.regionProtected (v.get Od.mil_CLIP_REGION) = true) :
    (∀ t e, v.useFree.copySource source addr length = (t, .inl e) → Completes (.clipStore clip source addr length m) s
      (t.attach 0x50 (if e = Result.imageFormat then Result.uncorrectable else e) [])) ∧
    (∀ t bs w q d, v.useFree.copySource source addr length = (t, .inr bs) →
      clipCopied clip (v.get Od.mil_CLIP_REGION) (length + v.freeValue % 2 ^ 20) m t bs = answer w q d →
      Completes (.clipStore clip source addr length m) s (w.attach 0x50 q d)) := by
  have hplace : ¬ (v.get Od.mil_CLIP_REGION = 255 ∨ ¬ v.useFree.regionProtected (v.get Od.mil_CLIP_REGION) = true) :=
    fun h => h.elim hregion (· hprot)
  refine ⟨fun t e h => completes_answer htaken (if_neg (Nat.not_le.mpr hsource)) ?_,
    fun t bs w q d h hcopied => completes_answer htaken (if_neg (Nat.not_le.mpr hsource)) ?_⟩
  · simp only [if_neg (Nat.not_le.mpr hlow), hfree, Option.isSome_none, Bool.false_eq_true, if_false, if_neg hplace, h]
  · simp only [if_neg (Nat.not_le.mpr hlow), hfree, Option.isSome_none, Bool.false_eq_true, if_false, if_neg hplace, h]
    exact hcopied

theorem clipCopied_cases {clip r size : Nat} {m : ClipMeet} {t : State} {bs : List Byte} :
    (m.readable = false → clipCopied clip r size m t bs = answer t Result.uncorrectable) ∧
    (m.readable = true → clipOk m = false → clipCopied clip r size m t bs = answer t Result.badArgs) ∧
    (m.readable = true → clipOk m = true → t.clipPlace r (roundUp 4096 size) = none →
      clipCopied clip r size m t bs = answer t Result.noSpace) ∧
    (∀ a, m.readable = true → clipOk m = true → t.clipPlace r (roundUp 4096 size) = some a →
      let w := (t.hbmWrite 157 a (padPage bs) { flips := [], severity := 0, parity := 0, acts := [] }).1
      clipCopied clip r size m t bs = answer { w with streams := { w.streams with clips := tset w.streams.clips clip ⟨m, a, size⟩ } }
        Result.ok (leBytes 4 size)) := by
  refine ⟨fun h => if_pos (Bool.eq_false_iff.mp h),
    fun h hok => (if_neg (not_not_intro h)).trans (if_pos (Bool.eq_false_iff.mp hok)), fun h hok hp => ?_, fun a h hok hp => ?_⟩
  · rw [clipCopied, if_neg (not_not_intro h), if_neg (not_not_intro hok), hp]
  · rw [clipCopied, if_neg (not_not_intro h), if_neg (not_not_intro hok), hp]

theorem completes_clipDelete {clip : Nat} (htaken : Taken s 0x51 (leBytes 2 clip) v) :
    (tfind v.streams.clips clip = none → Completes (.clipDelete clip) s (v.attach 0x51 Result.noSuchTarget [])) ∧
    (∀ c, tfind v.streams.clips clip = some c → v.clipNamed clip = true →
      Completes (.clipDelete clip) s (v.attach 0x51 Result.inUse [])) ∧
    (∀ c, tfind v.streams.clips clip = some c → v.clipNamed clip = false → Completes (.clipDelete clip) s
      (({ v with streams := { v.streams with clips := tdel v.streams.clips clip } } : State).attach 0x51 Result.ok [])) := by
  have hknown : ∀ c, tfind v.streams.clips clip = some c → ¬ (tfind v.streams.clips clip).isNone = true :=
    fun c h => by rw [h, Option.isNone_some]; decide
  exact ⟨fun h => completes_answer htaken rfl (if_pos (by rw [h]; decide)),
    fun c h hnamed => completes_answer htaken rfl ((if_neg (hknown c h)).trans (if_pos hnamed)),
    fun c h hnot => completes_answer htaken rfl ((if_neg (hknown c h)).trans (if_neg (Bool.eq_false_iff.mp hnot)))⟩

/-! #### PLAYLIST_SET (R97) -/

/-- PLAYLIST_SET, in the order of its refusals (R97). -/
theorem completes_playlistSet {sid : Nat} {es : List PlaylistEntry} (hsome : es ≠ []) (hlen : es.length ≤ 256)
    (htaken : Taken s 0x52 (playlistArgs sid es) v) :
    let rd := v.streamDomain sid
    let known := sid < 512 ∧ v.streamType sid = 4 ∧ ∀ e ∈ es, (tfind v.streams.clips e.clip).isSome = true
    let fit := ∀ e ∈ es, v.clipFits sid e.clip = true ∧ v.validTime rd e.start = true ∧ v.notTooFar rd e.start = true
    (¬ known → Completes (.playlistSet sid es) s (v.attach 0x52 Result.noSuchTarget [])) ∧
    (known → v.risingStarts rd es = false → Completes (.playlistSet sid es) s (v.attach 0x52 Result.badArgs [])) ∧
    (known → v.risingStarts rd es = true → ¬ fit → Completes (.playlistSet sid es) s (v.attach 0x52 Result.outOfRange [])) ∧
    (known → v.risingStarts rd es = true → fit → v.streamShut sid = true → Completes (.playlistSet sid es) s
      ((v.setStream sid { v.stream sid with playlist := es, nextPlaylist := none }).attach 0x52 Result.ok [])) ∧
    (known → v.risingStarts rd es = true → fit → v.streamShut sid = false → Completes (.playlistSet sid es) s
      ((v.setStream sid { v.stream sid with nextPlaylist := some es }).attach 0x52 Result.ok [])) := by
  intro rd known fit
  have hexec : ¬ (es = [] ∨ 256 < es.length) := fun h => h.elim hsome (Nat.not_lt.mpr hlen)
  have hknown : (512 ≤ sid ∨ v.streamType sid ≠ 4 ∨ (es.any fun e => (tfind v.streams.clips e.clip).isNone) = true) ↔ ¬ known := by
    simp only [known, Classical.not_and_iff_not_or_not, Nat.not_lt, List.any_eq_true, Classical.not_forall, exists_prop, Bool.not_eq_true, Option.isSome_eq_false_iff, ne_eq]
  have hfit : (es.any fun e => !v.clipFits sid e.clip || !v.validTime rd e.start || !v.notTooFar rd e.start) = true ↔ ¬ fit := by
    simp only [fit, List.any_eq_true, Classical.not_forall, exists_prop, Classical.not_and_iff_not_or_not, Bool.or_eq_true, Bool.not_eq_true', Bool.not_eq_true, or_assoc]
  refine ⟨fun h => completes_answer htaken (if_neg hexec) (if_pos (hknown.mpr h)),
    fun hk hr => completes_answer htaken (if_neg hexec) ((if_neg fun h => hknown.mp h hk).trans (if_pos (Bool.eq_false_iff.mp hr))),
    fun hk hr hf => completes_answer htaken (if_neg hexec)
      ((if_neg fun h => hknown.mp h hk).trans ((if_neg (not_not_intro hr)).trans (if_pos (hfit.mpr hf)))),
    fun hk hr hf hshut => completes_answer htaken (if_neg hexec) ((if_neg fun h => hknown.mp h hk).trans
      ((if_neg (not_not_intro hr)).trans ((if_neg fun h => hfit.mp h hf).trans (if_pos hshut)))),
    fun hk hr hf hshut => completes_answer htaken (if_neg hexec) ((if_neg fun h => hknown.mp h hk).trans
      ((if_neg (not_not_intro hr)).trans ((if_neg fun h => hfit.mp h hf).trans (if_neg (Bool.eq_false_iff.mp hshut)))))⟩

end

end Sys2Proof.Machine

namespace Sys2Proof.Proofs

open Sys2Proof.Machine Sys2Proof.Safety

/-- Settles O50: the stream that STREAM_OPEN tries and what trying it answers, and STREAM_CLOSE by the stream's state. -/
theorem streamsOpenAndClose : Obligations.StreamsOpenAndClose := by
  refine ⟨fun dry sid flags s v htaken => ?_, fun sid s v htaken => ?_, fun sid s v htaken => completes_streamCloseAtOnce htaken⟩
  · obtain ⟨hcontext, htarget⟩ := State.openCommand_refused (v := v) (sid := sid) (dry := dry)
    refine ⟨fun hsid h => completes_streamOpen htaken (hcontext hsid h), fun hsid h => completes_streamOpen htaken (htarget hsid h),
      fun x u hopens => ?_⟩
    have htries := State.openCommand_tries (dry := dry) hopens
    refine ⟨fun h => completes_streamOpen htaken (htries.trans (State.tryOpen_badArgs h)), fun leader hargs hlead => ?_,
      fun hargs hlead => ?_⟩
    · obtain ⟨hfits, hnot⟩ := State.tryOpen_merges (dry := dry) hargs hlead
      exact ⟨fun h => completes_streamOpen htaken (htries.trans (hfits h)), fun h => completes_streamOpen htaken (htries.trans (hnot h))⟩
    · obtain ⟨hadmits, hfails⟩ := State.tryOpen_admission (dry := dry) hargs hlead
      exact ⟨fun h => completes_streamOpen htaken (htries.trans (hadmits h)),
        fun h => completes_streamOpen htaken (htries.trans (hfails h))⟩
  · obtain ⟨hnone, hrunning, halias, hother⟩ := State.closeAtSwap_cases (s := v) (sid := sid)
    exact ⟨fun h => completes_streamCloseAtSwap htaken (hnone h), fun hs hr =>
      ⟨fun h => completes_streamCloseAtSwap htaken ((hrunning hs hr).1 h),
        fun a rest h => completes_streamCloseAtSwap htaken ((hrunning hs hr).2 a rest h)⟩,
      fun hs h => completes_streamCloseAtSwap htaken (halias hs h),
      fun hs hc hg hr ha => completes_streamCloseAtSwap htaken (hother hs hc hg hr ha)⟩

/-- Settles O51: the refusals of CLIP_STORE, CLIP_DELETE and PLAYLIST_SET in their order, and what each stores. -/
theorem clipsAndPlaylists : Obligations.ClipsAndPlaylists := by
  refine ⟨fun clip source addr length m s v => ⟨fun h => completes_of_done (if_pos h), fun hsource htaken => ?_⟩,
    fun clip s v htaken => completes_clipDelete htaken,
    fun sid es s v => ⟨fun h => completes_of_done (if_pos h), fun hsome hlen htaken => completes_playlistSet hsome hlen htaken⟩⟩
  obtain ⟨hrange, htarget, hspace⟩ := completes_clipStore_refused (m := m) hsource htaken
  refine ⟨hrange, htarget, fun hfree hregion => hspace hfree.1 hfree.2 hregion, fun t e hthere h => ?_, fun t bs hthere h => ?_⟩ <;>
    obtain ⟨⟨hlow, hfree⟩, hregion, hprot⟩ := hthere <;>
    obtain ⟨hfails, hcopies⟩ := completes_clipStore_copies (m := m) hsource htaken hlow hfree hregion hprot
  · exact hfails t e h
  · obtain ⟨hbad, hargs, hfull, hstored⟩ := clipCopied_cases (clip := clip) (r := v.get Od.mil_CLIP_REGION)
      (size := length + v.freeValue % 2 ^ 20) (m := m) (t := t) (bs := bs)
    exact ⟨fun hr => hcopies _ _ _ _ _ h (hbad hr), fun hr hk => hcopies _ _ _ _ _ h (hargs hr hk),
      fun hr hk hp => hcopies _ _ _ _ _ h (hfull hr hk hp), fun a hr hk hp => hcopies _ _ _ _ _ h (hstored a hr hk hp)⟩

end Sys2Proof.Proofs

/-! ### Rows on cells (R80, R109–R118, R154) -/

namespace Sys2Proof.Machine

open Sys2Proof.Safety

section
variable {s : State} {cc : Nat}

@[simp] theorem State.cell_setCell (s : State) (cc : Nat) (x : Cell) : (s.setCell cc x).cell cc = x := Laws.tget_tput_self _ _ _ _

@[simp] theorem State.cell_set (s : State) (r : Row) (i v d : Nat) : (s.set r i v).cell d = s.cell d := rfl

theorem State.cell_writeSram (s : State) (loc d : Nat) : (s.writeSram loc).cell d = s.cell d := rfl

/-- A record that is committed goes into the crown store, and leaves the cells. -/
theorem State.cell_commitRecord (s : State) (cc d : Nat) (p : Checkpoint) : (s.commitRecord cc p).cell d = s.cell d := by
  rw [State.commitRecord, State.crownPut]
  exact Laws.foldl_keeps _ (fun t : State => t.cell d) (fun t _ => State.cell_writeSram t _ d) _ _

/-! #### Starting a row (R80, R116, R154) -/

/-- A cell that takes a row starts the one that comes first (R80). -/
theorem State.startRow_cases :
    (s.takesRow cc = false ∨ s.choice cc = none → s.startRow cc = s) ∧
    (∀ c, s.takesRow cc = true → s.choice cc = some c → s.startRow cc =
      if c.rerun then s.startRerun cc c else if 16 ≤ c.stage then s.startEnc cc c else s.startDecRow cc c) := by
  refine ⟨fun h => ?_, fun c htakes hc => ?_⟩
  · cases htakes : s.takesRow cc with
    | false => exact if_neg (Bool.eq_false_iff.mp htakes)
    | true => simp only [State.startRow, htakes, h.resolve_left (by simp [htakes]), if_true]
  · simp only [State.startRow, htakes, hc, if_true]

/-- The cell of a row that is entered. -/
def State.enteredCell (s : State) (cc : Nat) (p : Checkpoint) (bank : Nat) (rerun : Bool) : Cell :=
  let wait := decide (s.aboveAtStart p < s.needsAbove p 0)
  { s.cell cc with
    row := some { point := { p with number := (s.cell cc).records }, startAt := s.cycle, rerun := rerun, waitDep := wait,
                  depReady := !wait, above := s.aboveAtStart p }
    bank := bank, addr := bits ((s.bank (2 * (cc / 8) + bank)).entry (rowEntry p.format p.preset)) 0 12, stack := [], lc0 := 0, lc1 := 0,
    waited := 0, records := (s.cell cc).records + 1 }

theorem State.enterRow_eq (s : State) (cc : Nat) (p : Checkpoint) (bank : Nat) (rerun : Bool) :
    ∃ q : Checkpoint, s.enterRow cc p bank rerun =
      (((s.setCell cc (s.enteredCell cc p bank rerun)).commitRecord cc q).set Od.cell_CURRENT_ROW cc q.word0).refreshCell cc :=
  ⟨_, rfl⟩

theorem State.cell_enterRow (s : State) (cc : Nat) (p : Checkpoint) (bank : Nat) (rerun : Bool) :
    (s.enterRow cc p bank rerun).cell cc = s.enteredCell cc p bank rerun := by
  obtain ⟨q, hq⟩ := s.enterRow_eq cc p bank rerun
  rw [hq, Laws.cell_refreshCell, State.cell_set, State.cell_commitRecord, State.cell_setCell]

/-! #### Handing a row over (R117, R154, R167) -/

section
variable {r : CellRow}

/-- A row that has ended without an error or a wait is handed over by its kind; another one stays (R117). -/
theorem State.completeRow_cases (hr : (s.cell cc).row = some r) :
    let held := s.rowError cc = true ∨ r.waitDep = true ∨ r.waitMem = true ∨ r.ended = false
    (held → s.completeRow cc = s) ∧ (¬ held → 16 ≤ r.point.stage → s.completeRow cc = s.completeEnc cc r) ∧
    (¬ held → r.point.stage < 16 → s.completeRow cc = s.completeDec cc r) := by
  intro held
  have hheld : (s.rowError cc = true ∨ r.waitDep = true ∨ r.waitMem = true ∨ ¬ r.ended = true) ↔ held := by
    simp only [held, Bool.not_eq_true]
  refine ⟨fun h => ?_, fun h hstage => ?_, fun h hstage => ?_⟩
  · simp only [State.completeRow, hr, if_pos (hheld.mpr h)]
  · simp only [State.completeRow, hr, if_neg (fun h' => h (hheld.mp h')), if_pos hstage]
  · simp only [State.completeRow, hr, if_neg (fun h' => h (hheld.mp h')), if_neg (Nat.not_le.mpr hstage)]

theorem State.completeEnc_gone (h : s.encPic r.point.sid r.point.index r.point.pic = none) : s.completeEnc cc r = s.freeCell cc := by
  simp only [State.completeEnc, h]

/-- An encode row: once past CD(r) its brim row leaves, and before it what its cell coded (R154, R167). -/
theorem State.completeEnc_cases {p : EncPic} (hp : s.encPic r.point.sid r.point.index r.point.pic = some p) :
    let sid := r.point.sid
    let w := p.row r.point.row
    let q := s.codeRow sid p r.point.row
    let above := r.point.row = 0 ∨ 2 ≤ (p.row (r.point.row - 1)).state
    let below : State → State := fun t => t.releaseBelow sid r.point.stage r.point.pic r.point.row
    (w.state ≠ 1 → s.completeEnc cc r = s) ∧
    (w.state = 1 → s.pastCd sid p r.point.row = true →
      s.completeEnc cc r = s.rowDeadlineDue sid r.point.index r.point.pic r.point.row) ∧
    (w.state = 1 → s.pastCd sid p r.point.row = false → w.recover = true →
      let batts := s.rowBatts sid p (s.brimOf sid p r.point.row).2
      (s.battsHeld sid batts = true → s.completeEnc cc r = below ((s.brimRow sid p r.point.row).rowDone cc r)) ∧
      (s.battsHeld sid batts = false → s.completeEnc cc r = s)) ∧
    (w.state = 1 → s.pastCd sid p r.point.row = false → w.recover = false →
      (above ∧ s.battsHeld sid (s.rowBatts sid p q.2.2) = true → s.completeEnc cc r =
        below (((s.bumpBy Od.rc_BRIM_BLOCKS sid p.rung q.2.1).settleRow sid p r.point.row q.1 q.2.2 2 q.2.1).rowDone cc r)) ∧
      (¬ (above ∧ s.battsHeld sid (s.rowBatts sid p q.2.2) = true) → s.completeEnc cc r = s)) := by
  refine ⟨fun hw => ?_, fun hw hpast => ?_, fun hw hpast hrec => ⟨fun h => ?_, fun h => ?_⟩, fun hw hpast hrec => ⟨fun h => ?_, fun h => ?_⟩⟩
  · simp only [State.completeEnc, hp, if_pos hw]
  · simp only [State.completeEnc, hp, if_neg (not_not_intro hw), hpast, if_true]
  all_goals simp only [State.completeEnc, hp, if_neg (not_not_intro hw), hpast, hrec, Bool.false_eq_true, if_false, if_true]
  · exact if_pos h
  · exact if_neg (Bool.eq_false_iff.mp h)
  · exact if_pos h
  · exact if_neg h

theorem State.completeDec_gone (h : s.decPic r.point.sid r.point.stage r.point.pic = none) : s.completeDec cc r = s.freeCell cc := by
  simp only [State.completeDec, h]

/-- A decode row in its turn: as decoded, but after G(r) concealed (R117). -/
theorem State.completeDec_cases {p : DecPic} (hp : s.decPic r.point.sid r.point.stage r.point.pic = some p) :
    let sid := r.point.sid
    let turn := (p.row r.point.row).state = 2 ∧ (r.point.row = 0 ∨ 3 ≤ (p.row (r.point.row - 1)).state)
    (¬ turn → s.completeDec cc r = s) ∧
    (turn → s.pastG sid p r.point.row = true → s.completeDec cc r = s.giveUpDue sid r.point.stage r.point.pic r.point.row) ∧
    (turn → s.pastG sid p r.point.row = false → s.completeDec cc r =
      (((s.takeDecoded sid r.point.stage p r.point.row).rowDone cc r).releaseBelow sid r.point.stage r.point.pic r.point.row).progress
        sid r.point.stage r.point.pic) := by
  refine ⟨fun h => ?_, fun h hpast => ?_, fun h hpast => ?_⟩
  · simp only [State.completeDec, hp]
    exact if_neg h
  · simp only [State.completeDec, hp, hpast, if_true]
    exact if_pos h
  · simp only [State.completeDec, hp, hpast, Bool.false_eq_true, if_false]
    exact if_pos h

/-! #### The row above (R110) -/

/-- A row is told of the blocks of the row above, while that runs and once it has ended (R110). -/
theorem State.releaseDep_cases {blocks : Nat} (hr : (s.cell cc).row = some r) :
    let on := s.cellWith r.point.sid r.point.stage r.point.pic (r.point.row - 1)
    (∀ d u, on = some d → (s.cell d).row = some u → r.point.row ≠ 0 → s.releaseDep cc blocks = s.releaseTo cc (min blocks u.done)) ∧
    (∀ d, on = some d → r.point.row = 0 → s.releaseDep cc blocks = s) ∧
    (on = none → s.aboveEnded r.point = true → s.releaseDep cc blocks = s.releaseTo cc blocks) ∧
    (on = none → s.aboveEnded r.point = false → s.releaseDep cc blocks = s) := by
  intro on
  refine ⟨fun d u hon hu hrow => ?_, fun d hon hrow => ?_, fun hon h => ?_, fun hon h => ?_⟩
  · simp only [State.releaseDep, hr, show s.cellWith r.point.sid r.point.stage r.point.pic (r.point.row - 1) = some d from hon, hu,
      if_neg hrow]
  · simp only [State.releaseDep, hr, show s.cellWith r.point.sid r.point.stage r.point.pic (r.point.row - 1) = some d from hon,
      if_pos hrow]
    cases (s.cell d).row <;> rfl
  · simp only [State.releaseDep, hr, show s.cellWith r.point.sid r.point.stage r.point.pic (r.point.row - 1) = none from hon, h, if_true]
  · simp only [State.releaseDep, hr, show s.cellWith r.point.sid r.point.stage r.point.pic (r.point.row - 1) = none from hon, h,
      Bool.false_eq_true, if_false]

theorem State.releaseDep_empty {blocks : Nat} (h : (s.cell cc).row = none) : s.releaseDep cc blocks = s := by
  simp only [State.releaseDep, h]

/-- A row waits until the row above is far enough ahead of it (R110). -/
theorem State.row_releaseTo {n : Nat} (hr : (s.cell cc).row = some r) :
    let above := max r.above (min n (s.rowFacts r.point).cols)
    ((s.releaseTo cc n).cell cc).row.map (fun q => (q.above, q.waitDep)) = some (above, decide (above < s.needsAbove r.point r.done)) := by
  simp only [State.releaseTo, hr, Laws.cell_refreshCell]
  split
  · simp only [State.cell_commitRecord, State.cell_setCell, Option.map_some]
  · simp only [State.cell_setCell, Option.map_some]

end

/-! #### Mirrors and fills (R109, R116, R118) -/

theorem completes_mirrorWriteDone {cc : Fin 128} :
    (∀ d k e, s.unmirrored cc = some (d, k) → (s.cell d).reruns[k]? = some e → Completes (.mirrorWriteDone cc) s
      ((s.setCell d { s.cell d with reruns := (s.cell d).reruns.modify k fun e => (e.1, true) }).mirror e.1)) ∧
    (∀ r, s.unmirrored cc = none → (s.cell cc).row = some r → r.mirrored = false → Completes (.mirrorWriteDone cc) s
      ((s.setCell cc { s.cell cc with row := some { r with mirrored := true } }).mirror r.point)) ∧
    (∀ r, s.unmirrored cc = none → (s.cell cc).row = some r → r.mirrored = true → Completes (.mirrorWriteDone cc) s s) ∧
    (s.unmirrored cc = none → (s.cell cc).row = none → Completes (.mirrorWriteDone cc) s s) := by
  refine ⟨fun d k e h he => completes_of_done ?_, fun r h hr hm => completes_of_done ?_, fun r h hr hm => completes_of_done ?_,
    fun h hr => completes_of_done ?_⟩
  · simp only [exec, execMirrorWriteDone, h, he]
  · simp only [exec, execMirrorWriteDone, h, hr, hm, Bool.false_eq_true, if_false]
  · simp only [exec, execMirrorWriteDone, h, hr, hm, if_true]
  · simp only [exec, execMirrorWriteDone, h, hr]

theorem completes_memoryPortFillDone {cc : Fin 128} {r : CellRow} (hr : (s.cell cc).row = some r) :
    let t := ((s.setCell cc { s.cell cc with row := some { r with waitMem := false, want := none } }).refreshCell cc).bump
      Od.crown_REF_MISSES (cc.val / 8)
    (r.waitMem = false → Completes (.memoryPortFillDone cc) s s) ∧
    (r.waitMem = true → r.want = none → Completes (.memoryPortFillDone cc) s t) ∧
    (∀ pic band index, r.waitMem = true → r.want = some (pic, band, index) →
      Completes (.memoryPortFillDone cc) s (t.fillCache (cc.val / 8) r.point pic band index)) := by
  refine ⟨fun h => completes_of_done ?_, fun h hw => completes_of_done ?_, fun pic band index h hw => completes_of_done ?_⟩
  · simp only [exec, execMemoryPortFillDone, hr, h, Bool.false_eq_true, if_false]
  · simp only [exec, execMemoryPortFillDone, hr, h, hw, if_true]
  · simp only [exec, execMemoryPortFillDone, hr, h, hw, if_true]

end

end Sys2Proof.Machine

namespace Sys2Proof.Proofs

open Sys2Proof.Machine Sys2Proof.Safety

/-- Settles O52: a row's start, its hand-over by its kind and its deadline, the row above, mirrors and fills. -/
theorem rowsOnCells : Obligations.RowsOnCells := by
  refine ⟨fun cw k s => ?_, fun s cc p bank rerun => ?_, fun cw k s h => ?_, fun cw k s r hr => ⟨fun h => ?_, fun h hstage => ?_, fun h hstage => ?_⟩,
    fun cc blocks s => ⟨fun h => completes_of_done (congrArg done (State.releaseDep_empty h)), fun r hr => ?_⟩,
    fun cc n s r hr => State.row_releaseTo hr, fun cc s => completes_mirrorWriteDone,
    fun cc s => ⟨fun h => completes_of_done ?_, fun r hr => completes_memoryPortFillDone hr⟩⟩
  · obtain ⟨hstays, hstarts⟩ := State.startRow_cases (s := s) (cc := 8 * cw.val + k.val)
    refine ⟨fun h => completes_of_done (congrArg done (hstays h)), fun c htakes hc => ?_⟩
    have hstart := hstarts c htakes hc
    exact ⟨fun hre => completes_of_done (congrArg done (hstart.trans (if_pos hre))),
      fun hre h => completes_of_done (congrArg done (hstart.trans ((if_neg (Bool.eq_false_iff.mp hre)).trans (if_pos h)))),
      fun hre h => completes_of_done (congrArg done (hstart.trans ((if_neg (Bool.eq_false_iff.mp hre)).trans (if_neg (Nat.not_le.mpr h)))))⟩
  · rw [State.cell_enterRow]
    exact ⟨rfl, rfl⟩
  · exact completes_of_done (congrArg done (by simp only [State.completeRow, h]))
  · exact completes_of_done (congrArg done ((State.completeRow_cases hr).1 h))
  · have hc := (State.completeRow_cases hr).2.1 h hstage
    refine ⟨fun hp => completes_of_done (congrArg done (hc.trans (State.completeEnc_gone hp))), fun p hp => ?_⟩
    obtain ⟨hother, hlate, hrecover, hcoded⟩ := State.completeEnc_cases (cc := 8 * cw.val + k.val) hp
    exact ⟨fun hw => completes_of_done (congrArg done (hc.trans (hother hw))),
      fun hw hpast => completes_of_done (congrArg done (hc.trans (hlate hw hpast))),
      fun hw hpast hrec => ⟨fun hb => completes_of_done (congrArg done (hc.trans ((hrecover hw hpast hrec).1 hb))),
        fun hb => completes_of_done (congrArg done (hc.trans ((hrecover hw hpast hrec).2 hb)))⟩,
      fun hw hpast hrec => ⟨fun hb => completes_of_done (congrArg done (hc.trans ((hcoded hw hpast hrec).1 hb))),
        fun hb => completes_of_done (congrArg done (hc.trans ((hcoded hw hpast hrec).2 hb)))⟩⟩
  · have hc := (State.completeRow_cases hr).2.2 h hstage
    refine ⟨fun hp => completes_of_done (congrArg done (hc.trans (State.completeDec_gone hp))), fun p hp => ?_⟩
    obtain ⟨hother, hlate, hdecoded⟩ := State.completeDec_cases (cc := 8 * cw.val + k.val) hp
    exact ⟨fun ht => completes_of_done (congrArg done (hc.trans (hother ht))),
      fun ht hpast => completes_of_done (congrArg done (hc.trans (hlate ht hpast))),
      fun ht hpast => completes_of_done (congrArg done (hc.trans (hdecoded ht hpast)))⟩
  · obtain ⟨hruns, hfirst, hended, hnot⟩ := State.releaseDep_cases (blocks := blocks) hr
    exact ⟨fun d u hon hu hrow => completes_of_done (congrArg done (hruns d u hon hu hrow)),
      fun d hon hrow => completes_of_done (congrArg done (hfirst d hon hrow)),
      fun hon he => completes_of_done (congrArg done (hended hon he)), fun hon he => completes_of_done (congrArg done (hnot hon he))⟩
  · simp only [exec, execMemoryPortFillDone, h]

end Sys2Proof.Proofs

/-! ### Crowns (R92, R114, R115, R142) -/

namespace Sys2Proof.Machine

open Sys2Proof.Safety

section
variable {cw : Fin 16} {s : State}

/-- The end of a clock step (R92, R495, R501). -/
theorem completes_crownStepDone {mhz : Nat} (hstep : (s.crown cw).step = some mhz) :
    let t := (s.set Od.crown_CLOCK_MHZ cw mhz).setCrown cw { s.crown cw with step := none }
    let up := (t.bump Od.crown_STEPS_UP cw).set Od.sys_STEP_TIME_MAX 0
      (max (t.get Od.sys_STEP_TIME_MAX) (cyclesNs (s.cycle - (s.crown cw).stepAt)))
    (mhz ≤ s.get Od.crown_CLOCK_MHZ cw →
      Completes (.crownStepDone cw) s (((t.bump Od.crown_STEPS_DOWN cw).lowerVoltages).followForce cw)) ∧
    (s.get Od.crown_CLOCK_MHZ cw < mhz → s.power.avsPending = false → Completes (.crownStepDone cw) s (up.followForce cw)) ∧
    (s.get Od.crown_CLOCK_MHZ cw < mhz → s.power.avsPending = true →
      Completes (.crownStepDone cw) s
        ((({ up with power := { up.power with avsPending := false } } : State).readBack).followForce cw)) := by
  intro t up
  have hpower : up.power = s.power := by
    simp only [up, t, State.set_power, State.bump_power]
    rfl
  refine ⟨fun hdown => completes_of_done ?_, fun hup hno => completes_of_done ?_, fun hup havs => completes_of_done ?_⟩
  · simp only [exec, execCrownStepDone, hstep, decide_eq_false (Nat.not_lt.mpr hdown), Bool.false_eq_true, if_false]
    rfl
  · simp only [exec, execCrownStepDone, hstep, decide_eq_true hup, if_true]
    exact congrArg (fun u : State => done (u.followForce cw)) (if_neg (by rw [hpower, hno]; decide))
  · simp only [exec, execCrownStepDone, hstep, decide_eq_true hup, if_true]
    exact congrArg (fun u : State => done (u.followForce cw)) (if_pos (hpower ▸ havs))

theorem State.heldLow_iff {since : Option Nat} :
    s.heldLow since = true ↔ ∃ c, since = some c ∧ c + secCycles (s.get Od.mil_DOWN_HOLD) ≤ s.cycle := by
  cases since with
  | none => simp [State.heldLow]
  | some c => simp only [State.heldLow, decide_eq_true_eq, Option.some.injEq, exists_eq_left']

theorem State.loadLow_iff {n : Nat} :
    s.loadLow n = true ↔ s.get Od.crown_POWER_STATE n = 2 ∧ s.neededClock n < s.get Od.crown_CLOCK_MHZ n := decide_eq_true_iff

/-- A step-down falls due when a lower clock has served for DOWN_HOLD seconds (R92). -/
theorem completes_crownDownHoldExpiry :
    let due := s.get Od.crown_CLOCK_FORCE cw = 0 ∧ (s.crown cw).step = none ∧ s.get Od.crown_POWER_STATE cw = 2 ∧
      s.neededClock cw < s.get Od.crown_CLOCK_MHZ cw ∧ ∃ c, (s.crown cw).lowAt = some c ∧ c + secCycles (s.get Od.mil_DOWN_HOLD) ≤ s.cycle
    (due → Completes (.crownDownHoldExpiry cw) s (s.setCrown cw { s.crown cw with downDue := true })) ∧
    (¬ due → Completes (.crownDownHoldExpiry cw) s s) := by
  intro due
  have hdue : (s.get Od.crown_CLOCK_FORCE cw = 0 ∧ (s.crown cw).step = none ∧ s.loadLow cw = true ∧
      s.heldLow (s.crown cw).lowAt = true) ↔ due := by
    rw [State.loadLow_iff, State.heldLow_iff, and_assoc]
  exact ⟨fun h => completes_of_done (congrArg done (if_pos (hdue.mpr h))),
    fun h => completes_of_done (congrArg done (if_neg fun h' => h (hdue.mp h')))⟩

/-- The reset of a crown that nothing holds (R115, R142, R252, R302). -/
def State.resetCrown (v : State) (cw pass : Nat) : State :=
  let r := if v.get Od.crown_POWER_STATE cw = 0 then v.set Od.crown_CLOCK_MHZ cw 600 else v
  let t := (r.set Od.crown_POWER_STATE cw 3).setCrown cw { store := [] }
  let u := (cellsOf cw).foldl (fun t cc => (t.takeBack cc).initStore 0 cc) t
  let x := (u.initStore 1 cw).repairsApply fun store inst => decide ((store = 0 ∧ inst / 8 = cw) ∨ (store = 1 ∧ inst = cw))
  let y := x.mapCells cw fun x => { byWrite := x.byWrite, reruns := x.reruns }
  (((((y.retest cw pass).endPictures cw).restCells cw).endDrain cw).turnPasses cw).setVoltages

/-- CROWN_RESET, in the order of its tests (R115, R146). -/
theorem completes_crownReset {cw pass : Nat} {s v : State} (htaken : Taken s 0x24 (leBytes 1 cw) v) :
    let used := ((cellsOf cw).any fun cc => v.sharesOn cc != []) = true ∨ v.loadMask.testBit cw = true
    (15 < cw → Completes (.crownReset cw pass) s (v.attach 0x24 Result.noSuchTarget [])) ∧
    (cw ≤ 15 → used → Completes (.crownReset cw pass) s (v.attach 0x24 Result.inUse [])) ∧
    (cw ≤ 15 → ¬ used → v.get Od.crown_POWER_STATE cw = 1 → Completes (.crownReset cw pass) s v) ∧
    (cw ≤ 15 → ¬ used → v.get Od.crown_POWER_STATE cw ≠ 1 →
      Completes (.crownReset cw pass) s ((v.resetCrown cw pass).attach 0x24 Result.ok [])) :=
  ⟨fun h => completes_answer htaken rfl (if_pos h),
    fun h hused => completes_answer htaken rfl ((if_neg (Nat.not_lt.mpr h)).trans (if_pos hused)),
    fun h hfree hwakes => completes_goes htaken rfl ((if_neg (Nat.not_lt.mpr h)).trans ((if_neg hfree).trans (if_pos hwakes))),
    fun h hfree hwakes => completes_answer htaken rfl ((if_neg (Nat.not_lt.mpr h)).trans ((if_neg hfree).trans (if_neg hwakes)))⟩

end

end Sys2Proof.Machine

/-! ### Microwords (R126, R129–R136) -/

namespace Sys2Proof.Machine

open Sys2Proof.Safety

section
variable {cc : Fin 128} {ext : Nat} {s t : State} {w : Nat}

/-- The commands that issue a word: each with its operation and STOP field. -/
def issueForms (cc : Fin 128) (ext : Nat) : List (Instr × Nat × Nat) :=
  [(.mwJump cc ext, 0, 0), (.mwBr2 cc ext, 1, 0), (.mwBr4 cc ext, 2, 0), (.mwCall cc ext, 3, 0), (.mwReturn cc ext, 4, 0),
    (.mwWait cc ext, 5, 0), (.waitLimitExpiry ⟨cc, ext⟩, 5, 0), (.mwRowEnd cc ext, 0, 1)]

/-- Each of them issues a word of its own operation, and none other. -/
theorem exec_issueForms : ∀ i ∈ issueForms cc ext, ∃ f, exec i.1 s = done (s.issueWord cc i.2.1 i.2.2 f) := by
  simp only [issueForms, List.forall_mem_cons]
  exact ⟨⟨_, rfl⟩, ⟨_, rfl⟩, ⟨_, rfl⟩, ⟨_, rfl⟩, ⟨_, rfl⟩, ⟨_, rfl⟩, ⟨_, rfl⟩, ⟨_, rfl⟩, fun _ h => absurd h List.not_mem_nil⟩

theorem State.issueWord_other {op stop : Nat} {f : State → Nat → State} (hmay : s.mayIssue cc = true) (hw : s.fetch cc = (t, some w))
    (h : ¬ (bits (mwSeqOp w) 3 3 = op ∧ mwStop w = stop)) : s.issueWord cc op stop f = s := by
  simp only [State.issueWord, hmay, hw, if_neg h, if_true]

/-- What a word's fetch gives: a word of an operation and STOP field, of a cell that may issue. -/
def Fetched (s : State) (cc : Nat) (t : State) (w op stop : Nat) : Prop :=
  s.mayIssue cc = true ∧ s.fetch cc = (t, some w) ∧ bits (mwSeqOp w) 3 3 = op ∧ mwStop w = stop

/-- A word that is fetched does what its operation says. -/
theorem completes_issueWord {i : Instr} {op stop : Nat} {f : State → Nat → State} {u : State} (h : Fetched s cc t w op stop)
    (hexec : exec i s = done (s.issueWord cc op stop f)) (hu : f t w = u) : Completes i s u :=
  completes_of_done (hexec.trans (congrArg done ((Laws.issueWord_word h).trans hu)))

theorem completes_mwTrap :
    (s.mayIssue cc = false → Completes (.mwTrap cc) s s) ∧
    (∀ t, s.mayIssue cc = true → s.fetch cc = (t, none) → Completes (.mwTrap cc) s t) ∧
    (∀ t w, s.mayIssue cc = true → s.fetch cc = (t, some w) → mwStop w ≠ 2 → Completes (.mwTrap cc) s s) ∧
    (∀ t w, s.mayIssue cc = true → s.fetch cc = (t, some w) → mwStop w = 2 → Completes (.mwTrap cc) s (t.trap cc 0x03)) := by
  refine ⟨fun h => completes_of_done ?_, fun t h hf => completes_of_done ?_, fun t w h hf hw => completes_of_done ?_,
    fun t w h hf hw => completes_of_done ?_⟩
  · simp only [exec, execMwTrap, h, Bool.false_eq_true, if_false]
  · simp only [exec, execMwTrap, h, hf, if_true]
  · simp only [exec, execMwTrap, h, hf, if_neg hw, if_true]
  · simp only [exec, execMwTrap, h, hf, if_pos hw, if_true]

/-- A CALL pushes the next address where the stack has room, and traps where not; a RETURN pops, or traps (R133). -/
theorem completes_mwCall_mwReturn :
    let u := t.issue cc w ext
    (Fetched s cc t w 3 0 → (t.cell cc).stack.length < 8 → Completes (.mwCall cc ext) s
      ((u.setCell cc { u.cell cc with stack := mwNext w :: (u.cell cc).stack }).goto cc (bits ((u.bank (u.cellBank cc)).entry (mwCond w)) 0 12))) ∧
    (Fetched s cc t w 3 0 → 8 ≤ (t.cell cc).stack.length → Completes (.mwCall cc ext) s (t.trap cc 0x05)) ∧
    (∀ a rest, Fetched s cc t w 4 0 → (t.cell cc).stack = a :: rest →
      Completes (.mwReturn cc ext) s ((u.setCell cc { u.cell cc with stack := rest }).goto cc a)) ∧
    (Fetched s cc t w 4 0 → (t.cell cc).stack = [] → Completes (.mwReturn cc ext) s (t.trap cc 0x05)) := by
  refine ⟨fun h hroom => completes_issueWord h rfl (if_neg (Nat.not_le.mpr hroom)), fun h hfull => completes_issueWord h rfl (if_pos hfull),
    fun a rest h hst => completes_issueWord h rfl ?_, fun h hst => completes_issueWord h rfl ?_⟩ <;> simp only [hst]

/-- A WAIT goes on with its condition, and traps at its limit (R129, R132). -/
theorem completes_mwWait (h : Fetched s cc t w 5 0) :
    let m := bits (mwSeqOp w) 0 3
    let x := t.cell cc
    (t.condition cc ext (mwCond w) = true →
      Completes (.mwWait cc ext) s (t.goto cc (mwNext w)) ∧ Completes (.waitLimitExpiry ⟨cc, ext⟩) s (t.goto cc (mwNext w))) ∧
    (t.condition cc ext (mwCond w) = false →
      Completes (.mwWait cc ext) s (t.setCell cc { x with waited := max 1 x.waited }) ∧
      (m = 0 ∨ x.waited < 2 ^ (4 + 2 * m) → Completes (.waitLimitExpiry ⟨cc, ext⟩) s t) ∧
      (m ≠ 0 → 2 ^ (4 + 2 * m) ≤ x.waited → Completes (.waitLimitExpiry ⟨cc, ext⟩) s (t.trap cc 0x04))) := by
  refine ⟨fun hc => ⟨completes_issueWord h rfl (if_pos hc), completes_issueWord h rfl (if_pos hc)⟩, fun hc => ?_⟩
  have hnot := Bool.eq_false_iff.mp hc
  exact ⟨completes_issueWord h rfl (if_neg hnot), fun hm => completes_issueWord h rfl ((if_neg hnot).trans (if_pos hm)),
    fun hm hlim => completes_issueWord h rfl ((if_neg hnot).trans (if_neg fun hn => hn.elim hm (Nat.not_lt.mpr hlim)))⟩

theorem completes_mwRowEnd {r : CellRow} (h : Fetched s cc t w 0 1) (hr : ((t.issue cc w ext).cell cc).row = some r) :
    Completes (.mwRowEnd cc ext) s ((t.issue cc w ext).setCell cc { (t.issue cc w ext).cell cc with row := some { r with ended := true } }) :=
  completes_issueWord h rfl (by simp only [hr])

theorem State.condition_always (s : State) (cc ext : Nat) : s.condition cc ext 63 = true := rfl

theorem Cell.countDown_zero {x : Cell} (h : x.lc0 = 0) : (x.countDown 1).lc0 = 0 := by
  rw [Cell.countDown, if_pos rfl]
  exact congrArg (· - 1) h

end

end Sys2Proof.Machine

/-! ### Control stores and patches (R126, R144, R147) -/

namespace Sys2Proof.Machine

open Sys2Proof.Safety

section
variable {s v : State}

theorem completes_controlStoreWordRestore {cw : Fin 16} {bank : Fin 2} {addr : Nat} :
    let i := 2 * cw.val + bank.val
    let b := s.bank i
    (s.shelfCopy b.imageId b.version = none ∨ addr ∉ b.fenced → Completes (.controlStoreWordRestore cw bank addr) s s) ∧
    (∀ h, s.shelfCopy b.imageId b.version = some h → addr ∈ b.fenced → Completes (.controlStoreWordRestore cw bank addr) s
      (((s.setBank i { b with
          fenced := b.fenced.filter (· ≠ addr),
          words := tput b.words trapWord addr (leNat (s.hbmBytes (s.shelfAddr h.slot addr) 18)) }).wroteRange 2 cw
        (bank * 73728 + addr * 18) 18).bump Od.cs_RESTORED_WORDS)) := by
  intro i b
  refine ⟨fun h => completes_of_done ?_, fun h hcopy hin => completes_of_done ?_⟩
  · cases hcopy : s.shelfCopy b.imageId b.version with
    | none => simp only [exec, execControlStoreWordRestore, i, b, hcopy]
    | some h' => simp only [exec, execControlStoreWordRestore, i, b, hcopy, if_neg (h.resolve_left (by simp [hcopy]))]
  · simp only [exec, execControlStoreWordRestore, i, b, hcopy, if_pos hin]

/-- MICROCODE_LOAD, in the order of its tests (R144). -/
theorem completes_microcodeLoad {mask bank source addr length : Nat}
    (htaken : Taken s 0x30 (microcodeLoadArgs mask bank source addr length) v) :
    let i := Instr.microcodeLoad mask bank source addr length
    let inRange := mask % 2 ^ 16 ≠ 0 ∧ bank < 2 ∧ source < 2 ∧ 492 ≤ length ∧ length ≤ 74220
    let cws := bitList mask 16
    let free := (cws.all fun cw => v.bankFree cw bank) = true
    (¬ inRange → Completes i s (v.attach 0x30 Result.outOfRange [])) ∧
    (inRange → ¬ free → Completes i s (v.attach 0x30 Result.inUse [])) ∧
    (inRange → free → v.flashBusy source = true → Completes i s v) ∧
    (inRange → free → v.flashBusy source = false →
      (∀ t r, v.copySource source addr length = (t, .inl r) → Completes i s (t.attach 0x30 r [])) ∧
      ∀ t bs, v.copySource source addr length = (t, .inr bs) →
        let b := Bundle.ofBytes bs
        (∀ r, t.bundleTest bs 1 (t.get Od.cs_MICROCODE_ROLLBACK) = some r → Completes i s (t.attach 0x30 r [])) ∧
        (t.bundleTest bs 1 (t.get Od.cs_MICROCODE_ROLLBACK) = none →
          let u := ((cws.foldl (fun t cw => t.loadBank (2 * cw + bank) b 1) t).tidyShelf).shelve b.imageId b.version (wordTab b.wordList)
          Completes i s ((if b.flags.testBit 0 then u.advanceCounter 0 b.rollback else u).attach 0x30 Result.ok (leBytes 4 b.version)))) := by
  intro i inRange cws free
  have hrange : (mask % 2 ^ 16 = 0 ∨ 1 < bank ∨ 1 < source ∨ length < 492 ∨ 74220 < length) ↔ ¬ inRange := by
    simp only [inRange]
    omega
  have hin : inRange → ¬ (mask % 2 ^ 16 = 0 ∨ 1 < bank ∨ 1 < source ∨ length < 492 ∨ 74220 < length) := fun h h' => hrange.mp h' h
  refine ⟨fun h => completes_answer htaken rfl (if_pos (hrange.mpr h)),
    fun h hfree => completes_answer htaken rfl ((if_neg (hin h)).trans (if_pos hfree)),
    fun h hfree hbusy => completes_goes htaken rfl ((if_neg (hin h)).trans ((if_neg (not_not_intro hfree)).trans (if_pos hbusy))),
    fun h hfree hbusy => ⟨fun t r hcopy => completes_answer htaken rfl ?_, fun t bs hcopy =>
      ⟨fun r htest => completes_answer htaken rfl ?_, fun htest => completes_answer htaken rfl ?_⟩⟩⟩
  all_goals refine (if_neg (hin h)).trans ((if_neg (not_not_intro hfree)).trans ((if_neg (Bool.eq_false_iff.mp hbusy)).trans ?_))
  · simp only [hcopy]
  · simp only [hcopy, htest]
  · simp only [hcopy, htest]
    rfl

/-- PATCH_LOAD, in the order of its tests (R147). -/
theorem completes_patchLoad {source addr length : Nat} (htaken : Taken s 0x31 (patchLoadArgs source addr length) v) :
    let i := Instr.patchLoad source addr length
    let inRange := source < 2 ∧ 508 ≤ length ∧ length ≤ 66028
    (¬ inRange → Completes i s (v.attach 0x31 Result.outOfRange [])) ∧
    (inRange → v.flashBusy source = true → Completes i s v) ∧
    (inRange → v.flashBusy source = false →
      (∀ t r, v.copySource source addr length = (t, .inl r) → Completes i s (t.attach 0x31 r [])) ∧
      ∀ t bs, v.copySource source addr length = (t, .inr bs) →
        let b := Bundle.ofBytes bs
        (∀ r, t.bundleTest bs 2 (t.get Od.img_PATCH_ROLLBACK) = some r → Completes i s (t.attach 0x31 r [])) ∧
        (t.bundleTest bs 2 (t.get Od.img_PATCH_ROLLBACK) = none →
          (∀ u, t.takePatch b = (u, none) → Completes i s (u.attach 0x31 Result.noSlot [])) ∧
          (∀ u k, t.takePatch b = (u, some k) →
            Completes i s ((if b.flags.testBit 0 then u.advanceCounter 1 b.rollback else u).attach 0x31 Result.ok (leBytes 2 k))))) := by
  intro i inRange
  have hrange : (1 < source ∨ length < 508 ∨ 66028 < length) ↔ ¬ inRange := by
    simp only [inRange]
    omega
  have hin : inRange → ¬ (1 < source ∨ length < 508 ∨ 66028 < length) := fun h h' => hrange.mp h' h
  refine ⟨fun h => completes_answer htaken rfl (if_pos (hrange.mpr h)),
    fun h hbusy => completes_goes htaken rfl ((if_neg (hin h)).trans (if_pos hbusy)),
    fun h hbusy => ⟨fun t r hcopy => completes_answer htaken rfl ?_, fun t bs hcopy => ⟨fun r htest => completes_answer htaken rfl ?_,
      fun htest => ⟨fun u htake => completes_answer htaken rfl ?_, fun u k htake => completes_answer htaken rfl ?_⟩⟩⟩⟩
  all_goals refine (if_neg (hin h)).trans ((if_neg (Bool.eq_false_iff.mp hbusy)).trans ?_)
  · simp only [hcopy]
  · simp only [hcopy, htest]
  · simp only [hcopy, htest, htake]
  · simp only [hcopy, htest, htake]

/-- A bank that is loaded has the load's state and its bundle's words (R144). -/
theorem State.bank_loadBank (s : State) (i st : Nat) (b : Bundle) :
    (s.loadBank i b st).bank i =
      { state := st, imageId := b.imageId, version := b.version, rollback := b.rollback, digest := leAt b.digest 0 4,
        entries := b.entries, words := wordTab b.wordList } :=
  Laws.tget_tput_self _ _ _ _

end

end Sys2Proof.Machine

namespace Sys2Proof.Proofs

open Sys2Proof.Machine Sys2Proof.Safety

/-- Settles O53: parking, waking and steps by the crown's power state, the hold of a lower clock, and CROWN_RESET. -/
theorem crownsParkWakeAndStep : Obligations.CrownsParkWakeAndStep := by
  refine ⟨fun cw s => ⟨fun h => completes_of_done (congrArg done (if_neg (Bool.eq_false_iff.mp h))),
      fun h => completes_of_done (congrArg done (if_pos h)), fun h => completes_of_done (congrArg done (if_pos h)),
      fun h => completes_of_done (congrArg done (if_neg h)), fun h => completes_of_done ?_, fun mhz h => completes_crownStepDone h⟩,
    fun cw s => completes_crownDownHoldExpiry, fun cw pass s v htaken => completes_crownReset htaken⟩
  simp only [exec, execCrownStepDone, h]

/-- Settles O54: what a fetched word of each operation does, what issues nothing, and the start of a row. -/
theorem microwordsIssue : Obligations.MicrowordsIssue := by
  refine ⟨fun cc ext s => ?_, fun cc ext s t w => ?_, fun s cc p bank rerun => ?_, fun s cc ext => State.condition_always s cc ext,
    fun x h => Cell.countDown_zero h, fun s cc kind => rfl⟩
  · obtain ⟨hidle, hfenced, hother, -⟩ := completes_mwTrap (cc := cc) (s := s)
    refine ⟨fun h => ⟨hidle h, fun i hi => ?_⟩, fun t h hf => ⟨hfenced t h hf, fun i hi => ?_⟩, fun t w h hf => ⟨hother t w h hf, fun i hi hop => ?_⟩⟩ <;>
      obtain ⟨f, hexec⟩ := exec_issueForms (s := s) i hi
    · exact completes_of_done (hexec.trans (congrArg done (Laws.issueWord_not_due h)))
    · exact completes_of_done (hexec.trans (congrArg done (Laws.issueWord_no_word h hf)))
    · exact completes_of_done (hexec.trans (congrArg done (State.issueWord_other h hf hop)))
  · obtain ⟨hcall, hfull, hreturn, hempty⟩ := completes_mwCall_mwReturn (cc := cc) (ext := ext) (s := s) (t := t) (w := w)
    exact ⟨fun h => completes_issueWord h rfl rfl, fun h => completes_issueWord h rfl rfl, fun h => completes_issueWord h rfl rfl,
      hcall, hfull, hreturn, hempty, fun h => (completes_mwWait h).1, fun h => (completes_mwWait h).2,
      fun r h hr => completes_mwRowEnd h hr, fun op h => completes_mwTrap.2.2.2 t w h.1 h.2.1 h.2.2.2⟩
  · rw [State.cell_enterRow]
    exact ⟨rfl, rfl, rfl, rfl⟩

/-- Settles O55: the restored word, both loads in the order of their tests, and the bank that a load leaves. -/
theorem controlStoresAndPatches : Obligations.ControlStoresAndPatches := by
  refine ⟨fun cw bank addr s => completes_controlStoreWordRestore, fun mask bank source addr length s v htaken => completes_microcodeLoad htaken,
    fun source addr length s v htaken => completes_patchLoad htaken, fun w s i addr b st hw => ?_⟩
  rw [State.bank_loadBank]
  exact ⟨rfl, hw.symm⟩

end Sys2Proof.Proofs

/-! ### Deadlines of rows (R82, R167, R180, R222, R225) -/

namespace Sys2Proof.Machine

open Sys2Proof.Safety

section
variable {s : State} {sid : Fin 512}

/-! #### Encode rows (R82, R167) -/

theorem State.atCd_iff {n r : Nat} {p : EncPic} :
    let rd := s.streamDomain n
    s.atCd n p r = true ↔
      s.streamClass n = 0 ∧ s.later rd (s.completionDeadline n p.frame p.cfg.height r) (s.now rd) = false := by
  simp only [State.atCd, Bool.and_eq_true, decide_eq_true_eq, Bool.not_eq_true']

/-- A LIVE row that is not complete at CD(r) leaves as its brim row, and counts unless it is under recovery (R82, R167). -/
theorem State.rowDeadlineDue_late {n rung pic row : Nat} {p : EncPic} (hp : s.encPic n rung pic = some p)
    (hdue : s.streamClass n = 0 ∧ row < p.rows.length ∧ (p.row row).state < 2) :
    s.rowDeadlineDue n rung pic row = if (p.row row).recover then s.lateRow n rung pic row
      else ((s.lateRow n rung pic row).bump Od.ss_LATE_ROWS n).streamEvent n 5 := by
  simp only [State.rowDeadlineDue, hp, if_pos hdue]

theorem completes_rowCompletionDeadline {rung : Fin 8} {pic row cd : Nat} {p : EncPic} (hp : s.encPic sid rung pic = some p) :
    let rd := s.streamDomain sid
    let due := cd = RTime.word (s.completionDeadline sid p.frame p.cfg.height row) ∧ s.streamClass sid = 0 ∧
      s.later rd (s.completionDeadline sid p.frame p.cfg.height row) (s.now rd) = false ∧ row < p.rows.length ∧ (p.row row).state < 2
    (¬ due → Completes (.rowCompletionDeadline sid rung pic row cd) s s) ∧
    (due → Completes (.rowCompletionDeadline sid rung pic row cd) s
      (if (p.row row).recover then s.lateRow sid rung pic row
        else ((s.lateRow sid rung pic row).bump Od.ss_LATE_ROWS sid).streamEvent sid 5)) := by
  intro rd due
  refine ⟨fun h => completes_of_done ?_, fun ⟨hcd, hlive, hpast, hrow, hopen⟩ => completes_of_done ?_⟩
  · by_cases hat : cd = RTime.word (s.completionDeadline sid p.frame p.cfg.height row) ∧ s.atCd sid p row = true
    · obtain ⟨hlive, hpast⟩ := State.atCd_iff.mp hat.2
      have hnot : ¬ (s.streamClass sid = 0 ∧ row < p.rows.length ∧ (p.row row).state < 2) :=
        fun ⟨_, hrow, hopen⟩ => h ⟨hat.1, hlive, hpast, hrow, hopen⟩
      simp only [exec, execRowCompletionDeadline, hp, if_pos hat, State.rowDeadlineDue, if_neg hnot]
    · simp only [exec, execRowCompletionDeadline, hp, if_neg hat]
  · have hat := And.intro hcd (State.atCd_iff.mpr ⟨hlive, hpast⟩)
    simp only [exec, execRowCompletionDeadline, hp, if_pos hat, State.rowDeadlineDue_late hp ⟨hlive, hrow, hopen⟩]

/-- The slip of a PACED picture of an encode rung (R82, R194). -/
theorem completes_pacedSlipExpiry_enc {stage pic : Nat} {p : EncPic} (hpaced : s.streamClass sid = 1)
    (hp : s.encPic sid stage pic = some p) :
    let slips := s.slipOver sid p.frame (1 + p.cfg.gopB + p.cfg.lookahead)
    let opens := (List.range p.rows.length).filter fun r => decide ((p.row r).state < 2)
    let late := (opens.filter fun r => !(p.row r).recover).length
    let t := ((s.setEncPic sid { p with slipped := true }).bump Od.ss_SLIPS sid).bumpBy Od.ss_LATE_ROWS sid 0 late
    (slips = false → Completes (.pacedSlipExpiry sid true stage pic) s s) ∧
    (slips = true → Completes (.pacedSlipExpiry sid true stage pic) s (opens.foldl (fun t r => t.lateRow sid stage pic r) (t.streamEvent sid 5))) := by
  have hclass : ¬ s.streamClass sid ≠ 1 := not_not_intro hpaced
  refine ⟨fun h => completes_of_done ?_, fun h => completes_of_done ?_⟩
  · simp only [exec, execPacedSlipExpiry, if_neg hclass, if_true, hp, if_pos (Bool.eq_false_iff.mp h)]
  · simp only [exec, execPacedSlipExpiry, if_neg hclass, if_true, hp, if_neg (not_not_intro h)]

/-- The slip of a PACED picture of a decode stage (R82, R224). -/
theorem completes_pacedSlipExpiry_dec {stage pic : Nat} {p : DecPic} (hpaced : s.streamClass sid = 1)
    (hp : s.decPic sid stage pic = some p) :
    let slips := s.slipOver sid p.frame (1 + p.start.reorder)
    let opens := (List.range p.rows.length).filter fun r => !(p.row r).finished
    let t := (s.mapDec sid stage pic fun q => { q with slipped := true, closed := true }).bump Od.ss_SLIPS sid
    (slips = false → Completes (.pacedSlipExpiry sid false stage pic) s s) ∧
    (slips = true → Completes (.pacedSlipExpiry sid false stage pic) s
      ((opens.foldl (fun t r => t.concealRow sid stage pic r true) (t.streamEvent sid 5)).progress sid stage pic)) := by
  have hclass : ¬ s.streamClass sid ≠ 1 := not_not_intro hpaced
  refine ⟨fun h => completes_of_done ?_, fun h => completes_of_done ?_⟩
  · simp only [exec, execPacedSlipExpiry, if_neg hclass, Bool.false_eq_true, if_false, hp, if_pos (Bool.eq_false_iff.mp h)]
  · simp only [exec, execPacedSlipExpiry, if_neg hclass, Bool.false_eq_true, if_false, hp, if_neg (not_not_intro h)]

theorem completes_pacedSlipExpiry_nothing {stage pic : Nat} :
    (∀ encode, s.streamClass sid ≠ 1 → Completes (.pacedSlipExpiry sid encode stage pic) s s) ∧
    (s.streamClass sid = 1 → s.encPic sid stage pic = none → Completes (.pacedSlipExpiry sid true stage pic) s s) ∧
    (s.streamClass sid = 1 → s.decPic sid stage pic = none → Completes (.pacedSlipExpiry sid false stage pic) s s) := by
  refine ⟨fun encode h => completes_of_done (congrArg done (if_pos h)), fun h hp => completes_of_done ?_, fun h hp => completes_of_done ?_⟩
  · simp only [exec, execPacedSlipExpiry, if_neg (not_not_intro h), if_true, hp]
  · simp only [exec, execPacedSlipExpiry, if_neg (not_not_intro h), Bool.false_eq_true, if_false, hp]

/-- PAT and PMT are due every 100 ms, and a PCR between (R180). -/
theorem State.tsTimer_cases {n r : Nat} :
    let due := ∀ t, (s.rung n r).psiAt = some t → t + psiGap ≤ s.cycle
    (due → s.tsTimer n r = s.sendPsi n r) ∧ (¬ due → s.tsTimer n r = s.sendPcr n r) := by
  cases hpsi : (s.rung n r).psiAt with
  | none =>
    refine ⟨fun _ => ?_, fun h => absurd (fun t ht => nomatch ht) h⟩
    simp only [State.tsTimer, hpsi, if_true]
  | some a =>
    refine ⟨fun h => ?_, fun h => ?_⟩
    · simp only [State.tsTimer, hpsi, decide_eq_true (h a rfl), if_true]
    · have hnot : ¬ a + psiGap ≤ s.cycle := fun ha => h fun t ht => Option.some.inj ht ▸ ha
      simp only [State.tsTimer, hpsi, decide_eq_false hnot, Bool.false_eq_true, if_false]

/-! #### Decode rows (R222, R225) -/

section
variable {layer : Fin 16} {pic row : Nat}

theorem State.atG_live {n r : Nat} {p : DecPic} (h : s.atG n p r = true) : s.streamClass n = 0 :=
  of_decide_eq_true (Bool.and_eq_true_iff.mp h).1

/-- A LIVE decode row not finished at G(r) is concealed as LATE, and the last one closes the picture (R222). -/
theorem completes_decodeGiveup {p : DecPic} (hp : s.decPic sid layer pic = some p) :
    let t := if (p.row row).finished then s else s.concealRow sid layer pic row true
    let gone := s.atG sid p row = true ∧ row < p.rows.length
    (¬ gone → Completes (.decodeGiveup sid layer pic row) s s) ∧
    (gone → row + 1 = p.rows.length → Completes (.decodeGiveup sid layer pic row) s (t.closePic sid layer pic)) ∧
    (gone → row + 1 ≠ p.rows.length → Completes (.decodeGiveup sid layer pic row) s (t.progress sid layer pic)) := by
  intro t gone
  refine ⟨fun h => completes_of_done ?_, fun ⟨hat, hrow⟩ hlast => completes_of_done ?_, fun ⟨hat, hrow⟩ hlast => completes_of_done ?_⟩
  · by_cases hat : s.atG sid p row = true
    · have hnot : ¬ (s.streamClass sid = 0 ∧ row < p.rows.length) := fun h' => h ⟨hat, h'.2⟩
      simp only [exec, execDecodeGiveup, hp, if_pos hat, State.giveUpDue, if_neg hnot]
    · simp only [exec, execDecodeGiveup, hp, if_neg hat]
  · simp only [exec, execDecodeGiveup, hp, if_pos hat, State.giveUpDue, if_pos (And.intro (State.atG_live hat) hrow), if_pos hlast, t]
  · simp only [exec, execDecodeGiveup, hp, if_pos hat, State.giveUpDue, if_pos (And.intro (State.atG_live hat) hrow), if_neg hlast, t]

/-- At M(r) a damaged row without a decision is LATE, and an undamaged one is marked (R225). -/
theorem completes_motionDecisionDeadline {p : DecPic} (hp : s.decPic sid layer pic = some p) :
    let open_ := s.atM sid p row = true ∧ row < p.rows.length ∧ (p.row row).finished = false ∧ (p.row row).method = 0
    (¬ open_ → Completes (.motionDecisionDeadline sid layer pic row) s s) ∧
    (open_ → (p.row row).damage ≠ [] →
      Completes (.motionDecisionDeadline sid layer pic row) s ((s.concealRow sid layer pic row true).progress sid layer pic)) ∧
    (open_ → (p.row row).damage = [] → Completes (.motionDecisionDeadline sid layer pic row) s
      (s.mapDec sid layer pic fun q => q.withRow row fun w => { w with late := true })) := by
  intro open_
  have hopen : (s.atM sid p row = true ∧ row < p.rows.length ∧ ¬ (p.row row).finished = true ∧ (p.row row).method = 0) ↔ open_ := by
    simp only [open_, Bool.not_eq_true]
  refine ⟨fun h => completes_of_done ?_, fun h hdam => completes_of_done ?_, fun h hdam => completes_of_done ?_⟩
  · simp only [exec, execMotionDecisionDeadline, hp, if_neg (fun h' => h (hopen.mp h'))]
  · simp only [exec, execMotionDecisionDeadline, hp, if_pos (hopen.mpr h), if_neg hdam]
  · simp only [exec, execMotionDecisionDeadline, hp, if_pos (hopen.mpr h), if_pos hdam]

theorem completes_decodeDeadlines_gone (hp : s.decPic sid layer pic = none) :
    Completes (.decodeGiveup sid layer pic row) s s ∧ Completes (.motionDecisionDeadline sid layer pic row) s s := by
  constructor <;> refine completes_of_done ?_
  · simp only [exec, execDecodeGiveup, hp]
  · simp only [exec, execMotionDecisionDeadline, hp]

end

end

end Sys2Proof.Machine

/-! ### Inputs and strips (R211–R217, R237, R252, R265) -/

namespace Sys2Proof.Machine

open Sys2Proof.Safety

section
variable {s : State} {sid : Fin 512} {layer : Fin 16}

/-! #### Packets of inputs (R211–R217) -/

section
variable {port : Option (Fin 128)} {p : InputPacket} {e : InEntry} {t u : State}

/-- A packet for no input, or of a stream that takes no pictures, changes nothing. -/
theorem completes_inputPacketArrival_nothing
    (h : (s.inputs sid).find? (fun e => e.layer % 16 = layer.val) = none ∨ s.takesPictures sid = false) :
    Completes (.inputPacketArrival port sid layer p) s s := by
  refine completes_of_done ?_
  cases he : (s.inputs sid).find? (fun e => e.layer % 16 = layer.val) with
  | none => simp only [exec, execInputPacketArrival, he]
  | some e =>
    have hoff : ¬ s.takesPictures sid = true ∨ e.kind = 4 := .inl (Bool.eq_false_iff.mp (h.resolve_left (by simp [he])))
    simp only [exec, execInputPacketArrival, he, if_pos hoff]

theorem inputPacket_goesOn (htakes : s.takesPictures sid = true) (hkind : e.kind ≠ 4) :
    ¬ (¬ s.takesPictures sid = true ∨ e.kind = 4) := fun h => h.elim (· htakes) hkind

section
variable (he : (s.inputs sid).find? (fun e => e.layer % 16 = layer.val) = some e)
include he

theorem completes_inputPacketArrival_internal (hkind : e.kind = 4) : Completes (.inputPacketArrival port sid layer p) s s := by
  refine completes_of_done ?_
  simp only [exec, execInputPacketArrival, he, hkind, or_true, if_true]

variable (htakes : s.takesPictures sid = true) (hkind : e.kind ≠ 4)
include htakes hkind

/-- One that back-pressure discards goes no further (R217). -/
theorem completes_inputPacketArrival_discarded
    (hgot : s.takePacket sid layer e.kind (port.map fun f => f.val) p.bytes = (t, false)) :
    Completes (.inputPacketArrival port sid layer p) s t := by
  refine completes_of_done ?_
  simp only [exec, execInputPacketArrival, he, if_neg (inputPacket_goesOn htakes hkind), hgot]

variable (hgot : s.takePacket sid layer e.kind (port.map fun f => f.val) p.bytes = (t, true))
include hgot

/-- One of another source, or of another elementary stream, only frees its batts (R211, R213). -/
theorem completes_inputPacketArrival_foreign :
    (t.lockSsrc sid layer p.ssrc = (u, false) → Completes (.inputPacketArrival port sid layer p) s (u.freeInput sid layer 1)) ∧
    (t.lockSsrc sid layer p.ssrc = (u, true) → ∀ v, u.aside sid layer e.kind p = some v →
      Completes (.inputPacketArrival port sid layer p) s (v.freeInput sid layer 1)) := by
  refine ⟨fun hlock => completes_of_done ?_, fun hlock v haside => completes_of_done ?_⟩
  · simp only [exec, execInputPacketArrival, he, if_neg (inputPacket_goesOn htakes hkind), hgot, hlock]
  · simp only [exec, execInputPacketArrival, he, if_neg (inputPacket_goesOn htakes hkind), hgot, hlock, haside]

/-- Another one is put in order: used, discarded, or used after a discontinuity (R212). -/
theorem completes_inputPacketArrival_ordered (hlock : t.lockSsrc sid layer p.ssrc = (u, true))
    (haside : u.aside sid layer e.kind p = none) :
    let i := Instr.inputPacketArrival port sid layer p
    let fec := (s.layerCfg sid layer).fec
    let m := seqModulus e.kind fec
    let v := if p.discont then u.discontinue sid layer else u
    let rd := v.streamDomain sid
    let win := v.get Od.dec_REORDER_WINDOW sid
    let r := (v.layer sid layer).order m (if fec = 0 then win else max win p.fecWindow) p.seq (linear (v.lpf rd) (v.now rd))
      (decide (e.kind = 1 ∧ fec = 0)) (p.recovered && fec != 0) p.errored
    let x := v.setLayer sid layer r.1
    let y := x.discontinue sid layer
    (e.kind = 3 → Completes i s (v.usePacket sid layer m e p)) ∧
    (e.kind ≠ 3 → r.2 = .discard → Completes i s (x.freeInput sid layer 1)) ∧
    (e.kind ≠ 3 → r.2 = .keep → Completes i s (x.usePacket sid layer m e p)) ∧
    (e.kind ≠ 3 → r.2 = .jump →
      Completes i s ((y.setLayer sid layer { y.layer sid layer with highest := some p.seq }).usePacket sid layer m e p)) := by
  refine ⟨fun h3 => completes_of_done ?_, fun h3 hr => completes_of_done ?_, fun h3 hr => completes_of_done ?_,
    fun h3 hr => completes_of_done ?_⟩
  · simp only [exec, execInputPacketArrival, he, if_neg (inputPacket_goesOn htakes hkind), hgot, hlock, haside, if_pos h3]
  all_goals simp only [exec, execInputPacketArrival, he, if_neg (inputPacket_goesOn htakes hkind), hgot, hlock, haside, if_neg h3, hr]

end

end

/-! #### Gaps and silence (R212, R237) -/

theorem completes_gapDeclareTimeout_nothing {seq : Nat} {damage : List Damage}
    (h : (s.inputs sid).find? (fun e => e.layer % 16 = layer.val) = none ∨ s.gapDue sid layer seq = false ∨ s.streamClass sid = 2) :
    Completes (.gapDeclareTimeout sid layer seq damage) s s := by
  refine completes_of_done ?_
  cases he : (s.inputs sid).find? (fun e => e.layer % 16 = layer.val) with
  | none => simp only [exec, execGapDeclareTimeout, he]
  | some e =>
    have hnot : ¬ (s.streamClass sid ≠ 2 ∧ s.gapDue sid layer seq = true) := fun hn =>
      (h.resolve_left (by simp [he])).elim (Bool.eq_false_iff.mp · hn.2) hn.1
    simp only [exec, execGapDeclareTimeout, he, if_neg hnot]

/-- A gap that has stood for REORDER_LINES is declared, with the damage of the picture that it lies in (R212). -/
theorem completes_gapDeclareTimeout_due {seq : Nat} {damage : List Damage} {e : InEntry}
    (he : (s.inputs sid).find? (fun e => e.layer % 16 = layer.val) = some e) (hclass : s.streamClass sid ≠ 2)
    (hdue : s.gapDue sid layer seq = true) :
    let l := s.layer sid layer
    let m := seqModulus e.kind (s.layerCfg sid layer).fec
    let t := s.setLayer sid layer (l.declare [seq])
    let mine := (l.pics.filter fun q : DecPic => decide (0 ≤ seqDiff m seq q.seq)).getLast?
    (mine = none → Completes (.gapDeclareTimeout sid layer seq damage) s (t.closeDue sid layer m)) ∧
    (∀ q, mine = some q → Completes (.gapDeclareTimeout sid layer seq damage) s ((t.damage sid layer q.pic damage).closeDue sid layer m)) := by
  refine ⟨fun h => completes_of_done ?_, fun q h => completes_of_done ?_⟩ <;>
    simp only [exec, execGapDeclareTimeout, he, if_pos (And.intro hclass hdue), h]

/-! #### Rotating passes and strips (R252, R265) -/

/-- A rotating pass starts on its conditioner's even crown, or on the odd one while that is under reset (R252). -/
theorem completes_rotationPassStart {ic : Fin 8} {pass : Nat} {p : Pass} (hp : s.passOn ic sid pass = some p) :
    let start := fun cw =>
      (s.mapPass sid pass fun q => { q with started := true, crown := cw, stripAt := s.cycle }).set Od.ic_TILE_CROWN ic cw
    let even := s.get Od.crown_POWER_STATE (2 * ic) ≠ 3
    let odd := s.get Od.crown_POWER_STATE (2 * ic + 1) ≠ 3
    (p.rotates = false ∨ p.started = true ∨ ¬ (even ∨ odd) → Completes (.rotationPassStart ic sid pass) s s) ∧
    (p.rotates = true → p.started = false → even → Completes (.rotationPassStart ic sid pass) s (start (2 * ic.val))) ∧
    (p.rotates = true → p.started = false → ¬ even → odd → Completes (.rotationPassStart ic sid pass) s (start (2 * ic.val + 1))) := by
  intro start even odd
  have heven : (s.get Od.crown_POWER_STATE (2 * ic) != 3) = true ↔ even := bne_iff_ne
  have hodd : (s.get Od.crown_POWER_STATE (2 * ic + 1) != 3) = true ↔ odd := bne_iff_ne
  have hstays : (¬ p.rotates = true ∨ p.started = true ∨ ¬ ((s.get Od.crown_POWER_STATE (2 * ic) != 3) = true ∨
      (s.get Od.crown_POWER_STATE (2 * ic + 1) != 3) = true)) ↔ (p.rotates = false ∨ p.started = true ∨ ¬ (even ∨ odd)) := by
    rw [heven, hodd, Bool.not_eq_true]
  refine ⟨fun h => completes_of_done ?_, fun hr hs he => completes_of_done ?_, fun hr hs hne ho => completes_of_done ?_⟩
  · simp only [exec, execRotationPassStart, hp, if_pos (hstays.mpr h)]
  · have hgo := mt hstays.mp (show ¬ (p.rotates = false ∨ p.started = true ∨ ¬ (even ∨ odd)) by simp [hr, hs, he])
    simp only [exec, execRotationPassStart, hp, if_neg hgo, if_pos (heven.mpr he), start]
  · have hgo := mt hstays.mp (show ¬ (p.rotates = false ∨ p.started = true ∨ ¬ (even ∨ odd)) by simp [hr, hs, ho])
    simp only [exec, execRotationPassStart, hp, if_neg hgo, if_neg (mt heven.mp hne), start]

/-- A strip of a rotating pass counts once the pass has started, its last one ends it, and strips feed the encode (R265). -/
theorem completes_stripWritten {ic : Fin 8} {pass pic strip corrected : Nat} {p : Pass} (hp : s.passOn ic sid pass = some p) :
    let i := Instr.stripWritten ic sid pass pic strip corrected
    let c := s.countStrip ic sid pass pic strip p.rotates corrected
    let t := c.mapPass sid pass fun q => { q with stripAt := s.cycle }
    let u := if p.rotates = true ∧ (t.passSize sid pass).2 ≤ 64 * (strip + 1) then t.mapPass sid pass fun q => { q with started := false } else t
    (p.rotates = true → p.started = false → Completes i s s) ∧
    (p.rotates = false ∨ p.started = true →
      (u.encodes sid = true → Completes i s (u.feedStrip sid pass pic strip ic)) ∧
      (u.encodes sid = false → Completes i s (u.rawStrip sid pic strip))) := by
  refine ⟨fun hr hs => completes_of_done ?_, fun h => ⟨fun hu => completes_of_done ?_, fun hu => completes_of_done ?_⟩⟩
  · simp only [exec, execStripWritten, hp, if_pos (And.intro hr (Bool.eq_false_iff.mp hs))]
  all_goals
    have hgo : ¬ (p.rotates = true ∧ ¬ p.started = true) := fun hn =>
      h.elim (fun hno => absurd (hn.1.symm.trans hno) (by decide)) hn.2
    simp only [exec, execStripWritten, hp, if_neg hgo]
  · exact congrArg done (if_pos hu)
  · exact congrArg done (if_neg (Bool.eq_false_iff.mp hu))

theorem completes_passes_gone {ic : Fin 8} {pass : Nat} (hp : s.passOn ic sid pass = none) :
    Completes (.rotationPassStart ic sid pass) s s ∧
      ∀ pic strip corrected, Completes (.stripWritten ic sid pass pic strip corrected) s s := by
  refine ⟨completes_of_done ?_, fun pic strip corrected => completes_of_done ?_⟩
  · simp only [exec, execRotationPassStart, hp]
  · simp only [exec, execStripWritten, hp]

end

end Sys2Proof.Machine

namespace Sys2Proof.Proofs

open Sys2Proof.Machine Sys2Proof.Safety

/-- Settles O56: deadlines and slips of rows by the picture's class and what of it is open, and the transport stream's timer. -/
theorem deadlinesOfRows : Obligations.DeadlinesOfRows := by
  refine ⟨fun sid rung pic row cd s => ⟨fun h => completes_of_done ?_, fun p hp => ?_⟩, fun sid encode stage pic s => ?_, fun sid rung s => ?_,
    fun sid layer pic row s => ⟨completes_decodeDeadlines_gone, fun p hp => ?_⟩⟩
  · simp only [exec, execRowCompletionDeadline, h]
  · obtain ⟨hnot, hlate⟩ := completes_rowCompletionDeadline (row := row) (cd := cd) hp
    exact ⟨hnot, fun hdue hrec => (hlate hdue).congr (if_neg (Bool.eq_false_iff.mp hrec)), fun hdue hrec => (hlate hdue).congr (if_pos hrec)⟩
  · obtain ⟨hclass, henc, hdec⟩ := completes_pacedSlipExpiry_nothing (s := s) (sid := sid) (stage := stage) (pic := pic)
    refine ⟨hclass encode, fun hp he h => ?_, fun hp he h => ?_, fun p hp he h => ?_, fun p hp he h => ?_⟩ <;> subst he
    · exact henc hp h
    · exact hdec hp h
    · exact completes_pacedSlipExpiry_enc hp h
    · exact completes_pacedSlipExpiry_dec hp h
  · obtain ⟨hdue, hnot⟩ := State.tsTimer_cases (s := s) (n := sid) (r := rung)
    exact ⟨fun h => completes_of_done (congrArg done (if_neg (Bool.eq_false_iff.mp h))),
      fun h hd => completes_of_done (congrArg done ((if_pos h).trans (hdue hd))),
      fun h hd => completes_of_done (congrArg done ((if_pos h).trans (hnot hd)))⟩
  · obtain ⟨hleft, hlast, hmore⟩ := completes_decodeGiveup (row := row) hp
    exact ⟨hleft, hlast, hmore, completes_motionDecisionDeadline hp⟩

/-- Settles O57: an input packet by what becomes of it on its way, gaps and silence, and the strips of rotating passes. -/
theorem inputsAndStrips : Obligations.InputsAndStrips := by
  refine ⟨fun port sid layer p s => ⟨completes_inputPacketArrival_nothing, fun e he htakes => ?_⟩,
    fun sid layer seq damage s => ⟨completes_gapDeclareTimeout_nothing, fun e he hclass hdue => ?_⟩,
    fun sid layer s => ⟨fun h => completes_of_done (congrArg done (if_pos h)), fun h => completes_of_done (congrArg done (if_neg h))⟩,
    fun ic sid pass s => ⟨fun h => (completes_passes_gone h).1, fun p hp => completes_rotationPassStart hp⟩,
    fun ic sid pass pic strip corrected s => ⟨fun h => (completes_passes_gone h).2 pic strip corrected, fun p hp => completes_stripWritten hp⟩⟩
  · refine ⟨completes_inputPacketArrival_internal he, fun t hk hgot => completes_inputPacketArrival_discarded he htakes hk hgot,
      fun t hk hgot => ⟨fun u hlock => (completes_inputPacketArrival_foreign he htakes hk hgot).1 hlock, fun u hlock =>
        ⟨fun v haside => (completes_inputPacketArrival_foreign he htakes hk hgot).2 hlock v haside,
          fun haside => completes_inputPacketArrival_ordered he htakes hk hgot hlock haside⟩⟩⟩
  · obtain ⟨hnone, hsome⟩ := completes_gapDeclareTimeout_due (damage := damage) he hclass hdue
    intro m t
    split
    next q hq => exact hsome q hq
    next hq => exact hnone hq

end Sys2Proof.Proofs
